-- ==== Sys2Proof/Word.lean ====
section
/-! DEFINITION. Word.lean: the word types of the part and the plainest arithmetic on them. -/

namespace Sys2Proof

/-- A register, and a sequencer's general register: 32 bits (R5, R29). -/
abbrev Word := BitVec 32

/-- One byte. -/
abbrev Byte := BitVec 8

/-- A sparse map: the pairs (key, value) that differ from what an unlisted key reads as, keys strictly rising. What an
unlisted key reads as is a function given at each use, one per memory. -/
abbrev SMap (α : Type) := List (Nat × α)

/-- The access types of Table 0-4 (R6). -/
inductive Access where
  | rw | ro | w1c | wo | rwl | wot | rws
  deriving DecidableEq, Repr

/-- One field of a register table: its bits, its access type, its reset value and the values a write may give it. -/
structure FieldDef where
  hi : Nat
  lo : Nat
  acc : Access
  reset : Nat
  range : Option (Nat × Nat)
  deriving DecidableEq, Repr

/-- One line group of a register table: the offset in its block, the strides and counts of an array, whether it is a count,
and its fields. -/
structure RegDef where
  off : Nat
  dims : List (Nat × Nat)
  count : Bool
  fields : List FieldDef
  deriving DecidableEq, Repr

/-- Bits hi down to lo of the register at addr. -/
structure Field where
  addr : Nat
  hi : Nat
  lo : Nat
  deriving DecidableEq, Repr

end Sys2Proof
end

