-- ==== Sys2Proof/Syntax.lean ====
section
/-! DEFINITION. Syntax.lean: the commands of the part, one constructor of `Instr` for each row of the spec's table of operations
and events, and the data that a command carries: what arrives on a link, what a host asks, what a sensor reads. -/

namespace Sys2Proof

/-! ### Sequencers and the pin engine -/

/-- A sequencer of the part: the FSQ or one of PSQ0 to PSQ7 (R29). -/
inductive SeqId where
  | fsq
  | psq (n : Fin 8)
  deriving DecidableEq, Repr

/-- One instruction reaching its turn in a sequencer: the word's bits 57 to 0 (the row gives the opcode, bits 63 to 58) and
whether the program word or the literal being read has an uncorrectable error (R68, PROG_ECC). -/
structure SeqInstr where
  q : SeqId
  body : BitVec 58
  ue : Bool
  deriving DecidableEq, Repr

/-- What the outside world gives one vector: the pins whose input is at or above VTH, those at or below VTL, and whether the
fabric accepts the words that deep capture stores in it (R206, R211). -/
structure PinSample where
  hi : BitVec 32
  lo : BitVec 32
  fabric : Bool
  deriving DecidableEq, Repr

/-- The header of a Gheol image as it stands in the image (Table 2-12). -/
structure ImageHeader where
  magic : Nat
  version : Nat
  profile : Nat
  bank : Nat
  entry : Nat
  resA : Nat
  ninstr : Nat
  nlit : Nat
  cmap : Nat
  dmem : Nat
  resB : Nat
  deriving DecidableEq, Repr

/-- A Gheol image (R73): its header and its four sections. -/
structure SeqImage where
  hdr : ImageHeader
  instrs : List (BitVec 64)
  lits : List (BitVec 128)
  cmap : List (BitVec 64)
  dmem : List Word
  deriving DecidableEq, Repr


/-! ### Cord packets -/

/-- The header fields of a cord packet (Table 5-4), without its tags. -/
structure PktHdr where
  up : Bool
  enc : Bool
  relay : Bool
  dest : Nat
  src : Nat
  claim : BitVec 64
  deriving DecidableEq, Repr

/-- A BAND packet's payload (Table 5-7); pixels in raster order. -/
structure BandPkt where
  ftag : Nat
  band : Nat
  lines : Nat
  width : Nat
  preg : Bool
  px : Nat
  pw : Nat
  py : Nat
  ph : Nat
  pcrc : Word
  pixels : List Word
  deriving DecidableEq, Repr

/-- An ACK packet's payload (Table 5-8); tid is the TID as a number. -/
structure AckPkt where
  fcnt : Nat
  result : Nat
  flags : Nat
  litmask : Nat
  bands : Nat
  bright : Nat
  ceil : Nat
  tid : Nat
  deriving DecidableEq, Repr

/-- A TEST_RES fragment's payload (Table 9-3); the sections as bytes. -/
structure TestResPkt where
  runid : Word
  testid : Nat
  frag : Nat
  flags : Nat
  tid : Nat
  fcnt : Nat
  status : Nat
  banks : Nat
  pos : Nat
  slotno : Nat
  untested : Nat
  data : List Byte
  deriving DecidableEq, Repr

/-- The payload of a cord packet (Tables 5-5 to 5-8). -/
inductive CordBody where
  | mark (fcnt tmark fper ntiles : Nat)
  | present (fcnt ptime : Nat) (count : List Nat)
  | band (b : BandPkt)
  | testslot (fcnt tstart len : Nat)
  | test (data : List Byte)
  | ctrlReq (seq : Word) (op : Nat) (data : List Byte)
  | ctrlRsp (seq : Word) (op status : Nat) (data : List Byte)
  | timeRsp (id t2fr t3fr t2ns t3ns : Nat)
  | ack (a : AckPkt)
  | event (eseq : Word) (code : Nat) (data : List Byte)
  | testRes (r : TestResPkt)
  | undefinedType (type len : Nat)
  deriving DecidableEq, Repr

/-- A cord packet. -/
structure CordPkt where
  hdr : PktHdr
  body : CordBody
  deriving DecidableEq, Repr

/-- A packet arriving on a cord port: the port, whether its HTAG and its TAG verify under the hop's keys (R139), whether it ended with
ABORT (R140), and its header. -/
structure CordRx where
  port : Nat
  htag : Bool
  tag : Bool
  abort : Bool
  hdr : PktHdr
  deriving DecidableEq, Repr

/-- How a cord's enumeration ends (R131, R132): no partner beyond the last tile, a part beyond position 63, or the partner sender's port. -/
inductive CordEnd where
  | noPartner | full | ringClosed
  deriving DecidableEq, Repr

/-! ### The board ring -/

/-- A HEARTBEAT (Table 11-5). -/
structure Heartbeat where
  claim : BitVec 64
  state : Nat
  health : Nat
  pos : Nat
  ready : Bool
  genOk : Bool
  mgen : Word
  fcnt : Nat
  seen : BitVec 64
  deriving DecidableEq, Repr

/-- A source binding (R86) as it is mirrored: its stream index, tenant, sharing mask and SDP parameters. -/
structure Sdp where
  video : Bool
  progressive : Bool
  samp : Nat          -- 0 YCbCr-4:2:2, 1 YCbCr-4:4:4, 2 RGB, other unsupported
  depth : Nat         -- 8, 10, 12 (video); 16, 24 (audio)
  colr : Nat          -- 0 BT709, 1 BT2020, 2 BT2100, other unsupported
  tcs : Nat           -- 0 SDR, 1 PQ, 2 HLG, other unsupported
  pm : Nat            -- 0 GPM, 1 BPM, other unsupported
  full : Bool         -- RANGE=FULL; narrow when absent
  width : Nat
  height : Nat
  rateNum : Nat       -- exact frame rate, numerator and denominator
  rateDen : Nat
  clock : Nat         -- RTP clock in Hz
  sampleRate : Nat    -- audio
  channels : Nat
  ptimeUs : Nat
  legs : List (Nat × Nat × Nat × Nat)   -- port, destination address, UDP port, source address (0: any)
  mediaOff : Nat      -- media clock offset of the SDP description, in RTP clock units
  deriving DecidableEq, Repr

/-- A tenant slot's contents (Table 13-1), the certificate as DER bytes. -/
structure TenantRec where
  cert : List Byte
  protect : Bool
  dramb : Nat
  cycb : Nat
  membase : Nat
  memsize : Nat
  deriving DecidableEq, Repr

/-- One binding as held and mirrored. -/
structure Binding where
  index : Nat         -- 0 to 15 video, 16 to 23 audio
  tenant : Nat
  share : Nat
  sdp : Sdp
  deriving DecidableEq, Repr

/-- A complete mirror item (Table 11-3). -/
inductive MirrorItem where
  | program (image : Option SeqImage) (zlist : SMap Word) (admitDl admitEng : Nat) (fper foff : Word) (dmem : SMap Word)
  | layers (comp : SMap Word) (coef : SMap (BitVec 16)) (shadow : SMap Word)
  | sources (bindings : List Binding) (srcRegs : SMap Word)
  | tenants (recs : List (Nat × TenantRec))
  | billing (index : Nat)
  deriving DecidableEq, Repr

/-- A SWAP_REQ that has reached the referee (Table 11-5): the requester's ring position, its claim, 1 YIELD or 2 TAKE, its number. -/
structure SwapIn where
  pos : Nat
  claim : BitVec 64
  kind : Nat
  seq : Word
  deriving DecidableEq, Repr

/-- A RING_HELLO (Table 20-3). -/
structure RingHello where
  pos : Nat
  tile : Bool
  referee : Bool
  formed : Bool
  members : Nat
  tid : Nat
  deriving DecidableEq, Repr

/-- A hop partner's hello and signature (R335): the port (0 to 7; 8 and 9 the ring ports forward and backward), whether its chain verifies
to the manufacturing CA and its signature over the transcript verifies, its OWNER_ID (zeros: UNOWNED), its ROLE strap, whether this part
is the initiator, the initiator's EPOCH, the partner's identity and its leaf certificate. -/
structure HopHello where
  port : Nat
  chain : Bool
  sig : Bool
  ownerId : List Byte
  tile : Bool
  initiator : Bool
  epoch : Nat
  tid : Nat
  leaf : List Byte
  deriving DecidableEq, Repr

/-- The payload of a ring packet (R164, R314, Tables 8-4, 8-5, 11-5). -/
inductive RingBody where
  | heartbeat (h : Heartbeat)
  | grant (claim : BitVec 64) (holder reason : Nat)
  | swapReq (claim : BitVec 64) (kind cause : Nat) (seq : Word)
  | swapRsp (cur : BitVec 64) (status : Nat) (seq : Word)
  | mirror (mgen : Word) (item : MirrorItem) (last bulk : Bool)
  | mirrorAck (mgen : Word) (item : Nat)
  | relay (port dir : Nat) (pkt : CordPkt)
  | vote (win : Word) (vote : Nat) (masterSet pmbEn vsag : Bool) (setpoint fails : Nat)
  | temp (temps : List Nat) (local_ valid : Nat) (seq : Word)
  | hello (h : RingHello)
  deriving DecidableEq, Repr

/-! ### Source ports -/

/-- What an Ethernet frame carries, as far as the filter tells (R81): an RTP packet of ST 2110 with its addresses, sequence number,
timestamp, marker and content (pixel groups by line and pixel offset, or audio samples), a WCP datagram, or other traffic. -/
inductive SrcPayload where
  | media (dst dport src seq ts : Nat) (marker : Bool) (segs : List (Nat × Nat × List Byte)) (audio : List Byte)
  | wcp (dport : Nat)
  | infra
  | other
  deriving DecidableEq, Repr

/-- An Ethernet frame arriving on a source port: its FCS, its length and its 802.1Q tags. -/
structure SrcFrame where
  port : Nat
  fcs : Bool
  len : Nat
  tags : Nat
  body : SrcPayload
  deriving DecidableEq, Repr

/-! ### Memory and register accesses -/

/-- A request of a bus master (Table 15-5): requester, address, direction, length in bytes, the data of a write, its beats at the target
and its page hint (R399). -/
structure BusReq where
  req : Nat
  addr : Nat
  write : Bool
  bytes : Nat
  data : List Byte
  beats : Nat
  close : Bool
  deriving DecidableEq, Repr

/-- What the outside world adds to a register write: the measured supplies of the banks in mV (PSQ_CTRL.START), whether the FSQ's next word
has an uncorrectable error (TRACE_HALT.FSQ_STEP), the damage bits that sources set in the same cycle (COMP_DMG), and whether the AVSBus
acknowledges (AGE_CTRL.PLAN_NOW). -/
structure RegCtx where
  vddp : List Nat
  ue : Bool
  sources : Word
  ack : Bool
  deriving DecidableEq, Repr

/-- Which CLRCNT is written: that of a block's control word, of a bank's PSQ_CTRL, or of TS_CTRL. -/
inductive ClrTarget where
  | block (b : Nat)
  | bank (n : Nat)
  | test
  deriving DecidableEq, Repr

/-- The result of one Kiln measurement pair (R459, R460): not measurable, or the two results and whether a supply setpoint changed
between them. -/
inductive KilnPair where
  | skipped
  | pair (a b : Int) (moved : Bool)
  deriving DecidableEq, Repr

/-- The NAND device that start-up finds (R366, R384): whether it meets every requirement of R366, its parameter page's codes as
NAND_GEOM gives them, and the factory bad blocks by their markers. -/
structure NandDev where
  good : Bool
  page : Nat
  ppb : Nat
  mode : Nat
  tmode : Nat
  nblk : Nat
  bad : List Nat
  deriving DecidableEq, Repr

/-! ### Wall Control Protocol -/

/-- A WCP request's header as far as it decides anything (Table 21-1): the session, SEQ, MAXRSP, and whether the rest of the header
and the payload's form keep Table 21-1. -/
structure WcpHdr where
  sess : Nat
  seq : Word
  maxrsp : Nat
  ok : Bool
  deriving DecidableEq, Repr

/-- A signed object as delivered (Table 12-2): the bytes of the object. -/
abbrev SignedObj := List Byte

/-- A request of Table 21-2. -/
inductive WcpReq where
  | info
  | ping (data : List Byte)
  | close
  | uploadOpen (kind len : Nat) (digest : List Byte)
  | uploadData (handle offset : Nat) (data : List Byte)
  | uploadClose (handle : Nat)
  | progLoad (handle : Nat)
  | stage (handle f ports : Nat) (sites : List (BitVec 64))
  | stageStatus
  | seqStart (mask : Nat) (vddp : List Nat)
  | seqStop (mask : Nat)
  | bind (share : Nat) (sdp : Sdp)
  | unbind (index : Nat)
  | layerSet (slot cls : Nat) (desc : List Word)
  | layerClear (slot : Nat)
  | surfaceWrite (slot offset : Nat) (data : List Byte) (handle : Option Nat)
  | surfaceFlip (slot : Nat)
  | zlistSet (entry : Nat) (data : List Byte)
  | coefSet (table axis : Nat) (vals : List (BitVec 16))
  | clinker (port pos : Nat) (entries : List Word)
  | damage (rects : List (Nat × Nat × Nat × Nat))
  | statusRead (item index port pos : Nat)
  | eventRead (eseq : Word)
  | logRead (seq : Nat)
  | tenantSet (slot : Nat) (rec_ : TenantRec)
  | tenantRemove (slot : Nat)
  | slotAssign (layer tenant : Nat)
  | ownerInstall (root : List Byte)
  | ownerXfer (obj : SignedObj)
  | keyAdd (key : List Byte)
  | keyRemove (key : List Byte)
  | refcredSet (digest : List Byte)
  | stepAuth (obj : SignedObj)
  | debugNonce
  | debugToken (obj : SignedObj)
  | factoryReset
  | testRun (runid : Word) (full : Bool) (ports : Nat) (sites : List (BitVec 64)) (test : List Byte) (handle : Nat) (loc : Bool)
  | testAbort (runid : Word)
  | testResult (runid : Word) (first : Nat)
  | testAck (runid : Word)
  | popCollect (tenant : Nat)
  | popAck (tenant rseq : Nat)
  | attest (nonce : List Byte) (port pos : Nat)
  | fwInstall (handle : Nat)
  | fwActivate (slot : Nat)
  | fwAbandon
  | laneInstall (handle : Nat)
  | recoveryEnter
  | recoveryExit
  | power (state : Nat)
  | cordPower (ports fcnt : Nat)
  | cordWake (ports : Nat)
  | swap
  | refHeartbeat (h : Heartbeat)
  | refGrant (claim : BitVec 64) (holder reason : Nat)
  | refSwapRsp (cur : BitVec 64) (status : Nat) (seq : Word)
  | regRead (addr count : Nat)
  | regWrite (entries : List (Nat × Word)) (ctx : RegCtx)
  deriving DecidableEq, Repr

/-- A command: one constructor for each row of the table of operations and events. -/
inductive Instr where
  /-- POWER_ON, R445: Rails rise from COLD, which is a full power-on reset of the part. -/
  | powerOn (embOff : Bool)
  /-- POWER_GOOD, R485: All monitored rails have stayed above their warning thresholds plus 10 mV for 10 ms, so the part leaves reset
unless RST_N still holds it. -/
  | powerGood
  /-- RST_N_ASSERT, R485: RST_N is held low for at least 1 µs and puts the part in full reset without resetting Ember. -/
  | rstNAssert
  /-- RST_N_RELEASE, R485: 10 ms after RST_N rises the part leaves reset, if power-good has already been reached. -/
  | rstNRelease
  /-- STRAP_SAMPLE, R486: 10 µs after leaving reset Ember samples the strap balls and latches them into EMB_STRAPS. -/
  | strapSample (balls : Nat)
  /-- KINDLING, R488: After the straps are latched the boot ROM starts Hearth, replays the journal, blows pending fuses, selects the lane
table and boots verified firmware. -/
  | kindling (selftest crc : Bool) (nand : NandDev) (ms : Nat)
  /-- DDR_TRAINING, R396: After Kindling releases the controller, DDR5 training runs its six steps or ends with TRAIN_FAIL. -/
  | ddrTraining (ok : Bool)
  /-- REGISTER_WRITE, R6: A write to a register field that has no row of its own applies under its access type and the alignment, reserved
and lock rules. -/
  | registerWrite (addr : Nat) (value : Word) (ctx : RegCtx)
  /-- CLRCNT, R6: A write of 1 to the CLRCNT bit of a block clears that block's counts. -/
  | clrcnt (target : ClrTarget)
  /-- NOP, R47: The nop instruction does nothing and counts as a non-vector instruction. -/
  | nop (i : SeqInstr)
  /-- JMP, R41: The jmp instruction sets PC to TARGET. -/
  | jmp (i : SeqInstr)
  /-- JZ, R41: The jz instruction jumps to TARGET when Z is 1. -/
  | jz (i : SeqInstr)
  /-- JNZ, R41: The jnz instruction jumps to TARGET when Z is 0. -/
  | jnz (i : SeqInstr)
  /-- CALL, R42: The call instruction pushes PC + 1 on the return stack and jumps to TARGET. -/
  | call (i : SeqInstr)
  /-- RET, R42: The ret instruction pops the top stack entry into PC. -/
  | ret (i : SeqInstr)
  /-- LOOP, R43: The loop instruction loads a loop counter with its count, and skips past END when the count is 0. -/
  | loop (i : SeqInstr)
  /-- ENDL, R43: The endl instruction decrements the loop counter and jumps back to TARGET while the counter stays nonzero. -/
  | endl (i : SeqInstr)
  /-- WAIT, R44: The wait instruction consumes a pending event, or else makes the sequencer wait for it. -/
  | wait (i : SeqInstr)
  /-- WAIT_RESUME, R44: A waiting wait instruction resumes when its event occurs, consumes it and clears Z. -/
  | waitResume (q : SeqId)
  /-- WAIT_TIMEOUT, R44: A waiting wait instruction reaches its TIMEOUT, sets Z and continues without consuming the event. -/
  | waitTimeout (q : SeqId)
  /-- SIG, R45: The sig instruction raises software event EV24 to EV31 in every sequencer of the part and in the Stoker. -/
  | sig (i : SeqInstr)
  /-- HALT, R46: The halt instruction stops the sequencer after the preceding instructions complete, or starts a pending image switch. -/
  | halt (i : SeqInstr)
  /-- MOV, R48: The mov instruction copies a register or an immediate into GD. -/
  | mov (i : SeqInstr)
  /-- ADDI, R48: The addi instruction adds an immediate to GA and sets the flags. -/
  | addi (i : SeqInstr)
  /-- ADD, R48: The add instruction adds GB to GA and sets the flags. -/
  | add (i : SeqInstr)
  /-- SUB, R48: The sub instruction subtracts GB from GA and sets the flags. -/
  | sub (i : SeqInstr)
  /-- AND, R48: The and instruction computes the bitwise AND of GA and its source operand. -/
  | and (i : SeqInstr)
  /-- OR, R48: The or instruction computes the bitwise OR of GA and its source operand. -/
  | or (i : SeqInstr)
  /-- XOR, R48: The xor instruction computes the bitwise XOR of GA and its source operand. -/
  | xor (i : SeqInstr)
  /-- SHL, R49: The shl instruction shifts GA left by src[4:0] and sets C to the last bit shifted out. -/
  | shl (i : SeqInstr)
  /-- SHR, R49: The shr instruction shifts GA right logically by src[4:0]. -/
  | shr (i : SeqInstr)
  /-- CMP, R49: The cmp instruction subtracts its source operand from GA, discards the result and sets the flags. -/
  | cmp (i : SeqInstr)
  /-- LD, R50: The ld instruction loads a data memory word at GA + IMM into GD. -/
  | ld (i : SeqInstr)
  /-- ST, R50: The st instruction stores GB to the data memory word at GA + IMM. -/
  | st (i : SeqInstr)
  /-- MARK, R52: The mark instruction increments the frame counter and sends a frame mark on each port of its mask. -/
  | mark (i : SeqInstr)
  /-- MARK_SENT, R35: The last mark issued has left every port in its mask, which raises EV1 MARK_SENT. -/
  | markSent
  /-- DAMAGE, R54: The damage instruction latches the pending damage bits of its ports as the frame damage set and returns the band count.
-/
  | damage (i : SeqInstr)
  /-- BAND, R56: The band instruction queues composition jobs for the damaged bands, or for one named band. -/
  | band (i : SeqInstr)
  /-- ZLIST, R109: The zlist instruction sets the blend order of its ports and damages every band of a port whose selection changes. -/
  | zlist (i : SeqInstr)
  /-- BUDGET, R122: The budget instruction sets the run-time band deadline and returns T_admit. -/
  | budget (i : SeqInstr)
  /-- FLIP, R57: The first flip after a mark sends a PRESENT with the present time, and a later flip is only counted as discarded. -/
  | flip (i : SeqInstr)
  /-- TESTSLOT, R52: The testslot instruction announces a test slot counted from the last mark on the tiles of its ports. -/
  | testslot (i : SeqInstr)
  /-- VEC, R58: The vec instruction drives a vector literal on the bank's 32 pins for REP vector periods. -/
  | vec (i : SeqInstr) (smps : List PinSample)
  /-- VSTR, R59: The vstr instruction produces vectors whose SD and SDN symbols take stream bits from the formatter. -/
  | vstr (i : SeqInstr) (smps : List PinSample)
  /-- VGEN, R59: The vgen instruction produces vectors fed by the stream formatter and steps the generator once per vector. -/
  | vgen (i : SeqInstr) (smps : List PinSample)
  /-- TSET, R60: The tset instruction sets one edge of a timing set from the next vector. -/
  | tset (i : SeqInstr)
  /-- PERIOD, R61: The period instruction sets the vector period, or faults when the period is below the bank minimum. -/
  | period (i : SeqInstr)
  /-- MAP, R182: The map instruction selects a chain map, resets stream positions and latches the band select bits. -/
  | map (i : SeqInstr)
  /-- CAPT, R210: The capt instruction arms, rearms or disarms capture at a start word in stop or wrap mode. -/
  | capt (i : SeqInstr)
  /-- TRIG, R220: The trig instruction clears trigger outputs or sets them to pulse once or at segment starts. -/
  | trig (i : SeqInstr)
  /-- LINE, R213: The line instruction sets the scan line that the stream formatter uses. -/
  | line (i : SeqInstr)
  /-- SWITCH_TIMEOUT, R76: No halt has come within 2 frame periods of EV12, so the switch is cancelled for the sequencers that have not
yet switched. -/
  | switchTimeout
  /-- FSQ_START, R32: An owner write of FSQ_CTRL.START restarts the FSQ from the image entry. -/
  | fsqStart
  /-- PSQ_START, R207: An owner write of PSQ_CTRL.START restarts a PSQ, or is refused for a camera or VDDP reason. -/
  | psqStart (n mv : Nat)
  /-- PSQ_STOP, R222: An owner write of PSQ_CTRL.STOP stops a PSQ and puts its bank in the safe state at the end of the vector. -/
  | psqStop (n : Nat)
  /-- SWEV_RAISE, R36: A Stoker write of RAISE in FSQ_SWEV or PSQ_SWEV raises software events in every sequencer. -/
  | swevRaise (mask : Nat)
  /-- SWEV_PEND_CLEAR, R36: A W1C write of PEND clears the Stoker's software event bits before any raise in the same write. -/
  | swevPendClear (mask : Nat)
  /-- DMEM_ACCESS, R51: A Stoker access through PSQ_DADDR and PSQ_DDATA reads or writes sequencer data memory and advances the address. -/
  | dmemAccess (n : Nat) (value : Option Word)
  /-- CAPTURE_READ, R211: A read of PSQ_CDATA returns a capture word and increments PSQ_CADDR. -/
  | captureRead (n : Nat)
  /-- LINE_TIMER_WRITE, R35: A write to PSQ_LTIM restarts the line timer with the new interval, or stops it with 0. -/
  | lineTimerWrite (n : Nat) (value : Word)
  /-- LINE_TICK, R35: The bank's line timer expires, raises EV1 and restarts. -/
  | lineTick (n : Nat)
  /-- TRIG_IN_EDGE, R221: An edge at the bank's selected trigger source raises EV6 TRIG_IN. -/
  | trigInEdge (n : Nat)
  /-- PIN_EDGE, R206: A pin comparator reports a rising or falling crossing, as SLOPE selects, to TIM and the trigger input. -/
  | pinEdge (pin : Nat) (rising : Bool)
  /-- PIN_CONFIG_WRITE, R208: A write to PIN_BCFG, PIN_PCFG0 or PIN_PCFG1 applies, is ignored or returns an error according to whether the
bank runs. -/
  | pinConfigWrite (offset : Nat) (value : Word)
  /-- VDDP_FAIL, R207: VDDPn stays outside ±10 % of its nominal for 10 µs, so the bank goes to the safe state and its PSQ stops with
VSTOP. -/
  | vddpFail (n mv : Nat)
  /-- FRAME_TICK, R274: The WTB reaches a frame grid instant, so held frames and pending changes are applied and EV0 is raised in the FSQ.
-/
  | frameTick
  /-- SOURCE_FRAME_RX, R81: An Ethernet frame arrives on a source port and is filtered, counted and routed to stream intake, WCP or PTP.
-/
  | sourceFrameRx (frame : SrcFrame)
  /-- FRAME_CLOSE_TIMEOUT, R88: 1.5 source frame periods after its first packet a filling frame closes. -/
  | frameCloseTimeout (stream : Nat)
  /-- NO_SIGNAL, R93: No packet has arrived on any leg for 3 source frame periods, so the stream sets NO_SIGNAL and raises an event. -/
  | noSignal (stream : Nat)
  /-- PTP_SYNC_TIMEOUT, R281: No Sync has arrived from the grandmaster for 3 s, so NET_VALID is cleared. -/
  | ptpSyncTimeout
  /-- BAND_JOB_START, R155: An engine takes the oldest job, and the scheduler either reserves hop capacity or discards the job. -/
  | bandJobStart (engine : Nat) (times : List Nat)
  /-- BAND_JOB_COMPLETE, R117: A job's last pixel is written to the cord queue, and EV5 is raised when all jobs of the mark are done. -/
  | bandJobComplete (engine : Nat) (ue : Bool)
  /-- BAND_DEADLINE, R117: The band deadline passes, so jobs not complete or not started are discarded and counted MISSED. -/
  | bandDeadline (fcnt : Nat)
  /-- PRESENT_TIME_REACHED, R127: The sender's WTB reaches the present time of the last flip, which raises EV2. -/
  | presentTimeReached
  /-- ACK_RX, R148: The sender receives a tile's flip acknowledgement and counts it for the flip record and for proof of play. -/
  | ackRx (rx : CordRx) (ack : AckPkt)
  /-- ACK_WINDOW_CLOSE, R118: COMP_ACKWIN after the present, EV3 is raised and the bands of tiles that did not flip are damaged again. -/
  | ackWindowClose
  /-- COMP_GCOMMIT, R126: A write of GCOMMIT schedules the shadow geometry for the next frame tick. -/
  | compGcommit
  /-- COMP_FULLDMG, R113: A write of FULLDMG damages every band of every enabled entry at once. -/
  | compFulldmg
  /-- DAMAGE_MAP_WRITE, R114: An owner write to the damage map sets or clears pending bits, and a concurrent source set wins. -/
  | damageMapWrite (port pos word : Nat) (value sources : Word)
  /-- SURFACE_WRITE_RELEASE, R106: A held surface write proceeds once the tick has applied the change and the older jobs are done. -/
  | surfaceWriteRelease
  /-- HOP_TRAINED, R130: A hop completes training at step 0 and the tile enables port D. -/
  | hopTrained (port : Nat) (width2 : Bool)
  /-- HOP_HELLO_RX, R335: A hop partner's hello and signature arrive, and the hop is authenticated and keyed or failed. -/
  | hopHelloRx (hello : HopHello)
  /-- HOP_AUTH_RETRY, R336: Every 1 s a failed hop retries authentication. -/
  | hopAuthRetry (port : Nat)
  /-- PORT_D_NO_PARTNER, R131: After 200 ms without signal on port D the tile reports END, and the sender completes the cord's
enumeration. -/
  | portDNoPartner (port : Nat) (cordEnd : CordEnd)
  /-- STEP_UP_EVAL, R133: After the 10 ms error count at a new rate step, each hop keeps the step or returns to the previous one. -/
  | stepUpEval (port step : Nat) (ok : List Bool)
  /-- LINK_LOST, R135: A port loses block lock for 1 µs or sees 16 errored blocks, counts LINKLOSS and relinks at step 0. -/
  | linkLost (port : Nat)
  /-- BER_CHECK, R135: Each second a hop compares its block errors with CORD_BERLIM and downshifts after 3 bad seconds. -/
  | berCheck (port errs : Nat)
  /-- STARVE, R141: A transmitter has held data without credit for 1 ms, so it counts STARVE. -/
  | starve (port cls : Nat)
  /-- CREDIT_RX, R141: A CREDIT symbol returns freed blocks of its class to the transmitter. -/
  | creditRx (port cls freed : Nat)
  /-- PROBE_TIMER, R152: Every CORD_PROBE.INT µs the tile sends a PROBE on its time-source port. -/
  | probeTimer
  /-- PROBE_RX, R152: A PROBE is stamped on arrival and answered with ECHO and TIME_RSP. -/
  | probeRx (port id : Nat)
  /-- ECHO_RX, R152: The arrival of an ECHO is stamped for the time-transfer exchange. -/
  | echoRx (port id : Nat)
  /-- TIME_RSP_RX, R153: A TIME_RSP completes an exchange, the hop statistics update and the counter steps or slews, setting or clearing
TSYNC_LOCK. -/
  | timeRspRx (rx : CordRx) (id t2fr t3fr t2ns t3ns : Nat)
  /-- MARK_RX, R145: A tile accepts a MARK with a higher FCNT, raises EV0 in each PSQ and opens the frame. -/
  | markRx (rx : CordRx) (fcnt fper ntiles : Nat)
  /-- PRESENT_RX, R145: A tile accepts the PRESENT of the open frame with its PTIME and band counts. -/
  | presentRx (rx : CordRx) (fcnt ptime : Nat) (count : List Nat)
  /-- BAND_RX, R169: A tile accepts a band for its own position, checks its geometry and protected-region CRC, and corrects it. -/
  | bandRx (rx : CordRx) (band : BandPkt) (fits : Bool)
  /-- BAND_CORRECTION_DONE, R171: Correction of a received band into the inactive half completes. -/
  | bandCorrectionDone
  /-- PTIME_REACHED, R146: The tile's local time reaches PTIME, so it decides the atomic flip, commits sweep work and closes the frame. -/
  | ptimeReached
  /-- TESTSLOT_RX, R247: A tile accepts an announced test slot and replaces any slot that has not yet opened. -/
  | testslotRx (rx : CordRx) (fcnt tstart len : Nat)
  /-- EVENT_RX, R518: The sender receives a tile EVENT packet and forwards it to the owner and the recipients named for its code. -/
  | eventRx (rx : CordRx) (eseq : Word) (code : Nat) (data : List Byte)
  /-- CTRL_RSP_RX, R163: The sender receives a control response that echoes SEQ and OP. -/
  | ctrlRspRx (rx : CordRx) (seq : Word) (op status : Nat) (data : List Byte)
  /-- CTRL_REQ_RETRY, R163: A control request unanswered for 10 ms is resent, and TILE_LOST is raised after 8 tries. -/
  | ctrlReqRetry (port pos : Nat) (seq : Option Word)
  /-- RING_OK_TIMEOUT, R160: A standby's cord port has seen no MARK under the current claim for two frame periods, so RING_OK clears. -/
  | ringOkTimeout (port : Nat)
  /-- ENUM, R130: Control request ENUM gives a tile its position, and the tile answers with TID, band count and the highest applied SEQ.
-/
  | enum (rx : CordRx) (seq : Word) (pos : Nat)
  /-- RATE_STEP, R135: Control request RATE_STEP retries the higher rate steps for a hop under R133. -/
  | rateStep (rx : CordRx) (seq : Word) (data : List Byte)
  /-- STATUS, R162: Control request STATUS returns the tile's status, including its active hashes. -/
  | status (rx : CordRx) (seq : Word)
  /-- CTRL_ATTEST, R341: Control request ATTEST returns the tile's signed attestation report. -/
  | ctrlAttest (rx : CordRx) (seq : Word) (nonce : List Byte)
  /-- OWNER_SET, R320: Control request OWNER_SET installs an owner root on an UNOWNED tile. -/
  | ownerSet (rx : CordRx) (seq : Word) (root : List Byte)
  /-- CTRL_KEY_SET, R323: Control request KEY_SET adds or removes a tile-maker key on a tile. -/
  | ctrlKeySet (rx : CordRx) (seq : Word) (add : Bool) (key : List Byte)
  /-- CTRL_OWNER_XFER, R321: Control request OWNER_XFER transfers a tile's ownership under a signed object. -/
  | ctrlOwnerXfer (rx : CordRx) (seq : Word) (obj : SignedObj)
  /-- CTRL_DEBUG_NONCE, R342: Control request DEBUG asks the tile for a debug nonce. -/
  | ctrlDebugNonce (rx : CordRx) (seq : Word)
  /-- CTRL_DEBUG_TOKEN, R343: Control request DEBUG delivers a signed debug token that opens scopes on the tile. -/
  | ctrlDebugToken (rx : CordRx) (seq : Word) (obj : SignedObj)
  /-- CTRL_POWER, R440: Control request POWER arranges SMOULDER at the first MARK at or beyond the named FCNT. -/
  | ctrlPower (rx : CordRx) (seq : Word) (state fcnt : Nat)
  /-- AUDIO, R481: Control request AUDIO delivers a 1 ms audio block, which every tile buffers for its port and forwards. -/
  | audio (rx : CordRx) (data : List Byte)
  /-- AUDIO_BLOCK_DUE, R481: LEAD ms before a block's playout time the sender sends it on each of its cord ports. -/
  | audioBlockDue (timestamp : Nat)
  /-- STAGE, R501: Control request STAGE announces a staged image by kind, length and hash. -/
  | stage (rx : CordRx) (seq : Word) (kind len : Nat) (digest : List Byte)
  /-- STAGE_DATA, R501: Control request STAGE_DATA delivers a chunk, and the last chunk starts the slot write. -/
  | stageData (rx : CordRx) (seq : Word) (offset : Nat) (chunk : List Byte)
  /-- CONFIRM, R501: Control request CONFIRM returns the SHA-384 of the tile's inactive copy. -/
  | confirm (rx : CordRx) (seq : Word)
  /-- ARM, R502: Control request ARM makes the tile raise EV12 at the MARK of frame F. -/
  | arm (rx : CordRx) (seq : Word) (frame : Nat)
  /-- CANCEL, R502: Control request CANCEL disarms a staging and leaves the staged copy VALID and inactive. -/
  | cancel (rx : CordRx) (seq : Word)
  /-- FW_DATA, R491: Control request FW_DATA delivers firmware to a tile, and the last chunk installs it. -/
  | fwData (rx : CordRx) (seq : Word) (offset : Nat) (chunk : List Byte) (last : Bool)
  /-- LAMP_TEMP_CYCLE, R228: Every 100 ms the sensors are read, TEFF and CEIL are recomputed, EV9 is raised and a reading is broadcast. -/
  | lampTempCycle (raws : List (Option Nat))
  /-- TEMP_READING_RX, R230: A ring temperature packet gives values to the sensors of this controller that have SRC 2. -/
  | tempReadingRx (pos : Nat) (temps : List Nat) (loc valid : Nat)
  /-- TEMP_RING_TIMEOUT, R230: A ring sensor has received no packet for 300 ms and counts as failed. -/
  | tempRingTimeout (sensor : Nat)
  /-- GEN_SWITCH_TIMEOUT, R184: Two frame periods after a change became pending the generation switches and closes the open frame
INCOMPLETE. -/
  | genSwitchTimeout
  /-- SWEEP_DONE, R185: The sweep has re-corrected every band of an older generation into the inactive halves. -/
  | sweepDone
  /-- SWEEP_COMMIT_TIMEOUT, R186: Two frame periods after a switch the swept bands become active. -/
  | sweepCommitTimeout
  /-- LAMP_SWEEP, R183: A write of LAMP_CTRL.SWEEP makes a pending change. -/
  | lampSweep
  /-- CAL_LOAD_DONE, R188: The load ends, LOADING clears and a change is made pending, and a geometry change clears the stores and raises
GEOM_CHANGE. -/
  | calLoadDone
  /-- LAMP_CLKE, R191: A write to LAMP_CLKE makes a clinker overlay edit or is refused with CLINKER_FULL. -/
  | lampClke (value : Word)
  /-- LAMP_BRIGHT, R239: A write to LAMP_BRIGHT sets BRIGHT, or TARGET while a ramp is active. -/
  | lampBright (value : Nat)
  /-- RAMP_STEP, R238: Every 50 ms a brightness ramp step writes BRIGHT = round(TARGET × i / N). -/
  | rampStep
  /-- HEADROOM_WINDOW_END, R233: At the end of each headroom window the controller votes, and the master updates SETPOINT and the PMBus
supply. -/
  | headroomWindowEnd (mode : Option Nat) (acks : List Bool)
  /-- SUPPLY_VOTE_RX, R235: A ring supply vote arrives, carrying a vote, flags and the master's SETPOINT. -/
  | supplyVoteRx (pos vote : Nat) (masterSet pmbEn vsag : Bool) (setpoint fails : Nat)
  /-- TEST_OP_ARM, R245: TEST packet OP ARM arms a run on a site and writes the mailboxes, then raises SW7. -/
  | testOpArm (rx : CordRx) (data : List Byte)
  /-- TEST_OP_ABORT, R256: TEST packet OP ABORT reports an open window ABORTED and disarms the site. -/
  | testOpAbort (rx : CordRx) (data : List Byte)
  /-- TEST_OP_RESEND, R254: TEST packet OP RESEND makes the tile resend the results it still holds. -/
  | testOpResend (rx : CordRx) (data : List Byte)
  /-- TEST_WINDOW_OPEN, R248: At TSTART the slot window opens, EV4 is raised and the bank counters are snapshot. -/
  | testWindowOpen
  /-- TEST_WINDOW_CLOSE, R251: At the window end the counters are taken again, the lamp check runs and TEST_RES fragments are sent. -/
  | testWindowClose
  /-- FULL_TEST_POLL, R258: Every 1 ms a FULL window checks whether every bank's mailbox STATE is done or aborted. -/
  | fullTestPoll
  /-- FULL_TEST_LIMIT, R258: A FULL window closes when LIMIT seconds have passed. -/
  | fullTestLimit
  /-- TEST_RES_RX, R254: The sender receives a result fragment, and EV8 is raised when every site is complete. -/
  | testResRx (rx : CordRx) (res : TestResPkt)
  /-- TEST_COLLECT_TIMEOUT, R254: TESTWIN ms after the latest window close, EV8 is raised and incomplete sites receive RESEND. -/
  | testCollectTimeout
  /-- RUN_TIMEOUT, R256: A SLOT run that has not used its slots TS_RUNTO seconds after its ARM ends with RUN_TIMEOUT. -/
  | runTimeout
  /-- SYNC_EDGE, R266: An accepted edge on SYNC_IN_A or SYNC_IN_B gives a phase error, or is discarded as a glitch. -/
  | syncEdge (input : Nat)
  /-- SYNC_STOP, R264: A SYNC input has no edge for 3 nominal periods, and the reference is lost. -/
  | syncStop (input : Nat)
  /-- SYNC_RATE_CHECK, R264: At the end of a SYNC frequency gate a rate fault loses the reference. -/
  | syncRateCheck (input : Nat) (dev : Int)
  /-- OCXO_STOP, R264: OCXO_IN has no edge for 3 periods, so the WTB falls to the lane reference and DEGRADED is set. -/
  | ocxoStop
  /-- OCXO_RATE_CHECK, R264: Each 0.1 s gate checks OCXO_IN against the lane reference and unqualifies it on a rate change. -/
  | ocxoRateCheck (ratio : Int)
  /-- OCXO_REQUALIFIED, R265: After TQUAL_RET without a fault the WTB returns to the OCXO, and DEGRADED and BASE_UNQUAL clear. -/
  | ocxoRequalified
  /-- REF_QUALIFIED, R268: A reference's qualification time passes without a fault, and it becomes QUALIFIED. -/
  | refQualified (ref : Nat)
  /-- REF_EVALUATION, R269: Every ms of the WTB the reference is selected, and a change raises EV9 and an event. -/
  | refEvaluation
  /-- EPOCH_TIMEOUT, R273: EPOCH_TMO seconds after reset the epoch is fixed. -/
  | epochTimeout
  /-- NET_VALID_WRITE, R281: A firmware write of REF_NET.NET_VALID makes network time valid or lost. -/
  | netValidWrite (value : Bool)
  /-- NTOFF_WRITE, R282: A write of REF_NTOFF HI applies both words of NTOFF together. -/
  | ntoffWrite (hi : Word)
  /-- PPS_OUT_PULSE, R267: The WTB reaches a whole second and PPS_OUT pulses. -/
  | ppsOutPulse
  /-- TIM_ARM, R280: A write of TIM_CFG.ARM starts or restarts a channel's measurement. -/
  | timArm (channel : Nat) (value : Word)
  /-- TIM_ABORT, R280: A bit of TIM_CTRL.ABORT ends the channel's measurement without a result. -/
  | timAbort (mask : Nat)
  /-- TIM_STAMP, R278: A channel stamps a source edge, and in LATENCY mode opens or closes an interval and reports after N. -/
  | timStamp (channel : Nat) (start stop : Bool)
  /-- TIM_TIMEOUT, R278: TMO ms pass, and the channel reports over the intervals completed with TIMEOUT. -/
  | timTimeout (channel : Nat)
  /-- TIM_GATE_END, R279: A FREQ gate ends, and the line fit gives frequency offset, phase and residual. -/
  | timGateEnd (channel : Nat)
  /-- TIM_RES_READ, R280: A read of RES0 latches RES1 to RES5 until RES5 is read. -/
  | timResRead (channel word : Nat)
  /-- HEARTBEAT_TIMER, R295: Every 10 ms of the WTB a member or the referee broadcasts a HEARTBEAT. -/
  | heartbeatTimer
  /-- HEARTBEAT_TIMEOUT, R295: 30 ms without a referee or partner heartbeat clears REF_OK or PARTNER_OK. -/
  | heartbeatTimeout (referee : Bool)
  /-- HEARTBEAT_RX, R312: A member or referee processes a received HEARTBEAT, which may fence it, move it to SYNC, start a bulk copy or
send an automatic swap request. -/
  | heartbeatRx (hb : Heartbeat)
  /-- REFEREE_EVALUATION, R291: Every ms the referee processes heartbeats, swap requests and the holder-loss check, and journals and sends
grants. The operand is the SWAP_REQs that have come since the evaluation before, in order of arrival. -/
  | refereeEvaluation (swaps : List SwapIn)
  /-- REFEREE_STARTUP_WAIT, R292: 30 ms after its first member heartbeat the referee adopts a holder or makes the INITIAL grant. -/
  | refereeStartupWait
  /-- GRANT_RX, R297: A member named by a GRANT sets its claim, enters ACTIVE, loads the mirror, damages all bands and starts its FSQ. -/
  | grantRx (claim : BitVec 64) (holder : Nat)
  /-- SWAP_RSP_RX, R301: A member receives the referee's answer to its swap request. -/
  | swapRspRx (cur : BitVec 64) (status : Nat) (seq : Word)
  /-- SWAP_REQ_RETRY, R301: A swap request unanswered for 10 ms is resent with the same SEQ, up to 8 times. -/
  | swapReqRetry
  /-- CLM_SWAP_REQ, R302: An owner write of CLM_SWAP.REQ sends YIELD or TAKE, or is refused without a referee. -/
  | clmSwapReq
  /-- MIRROR_RX, R305: The standby applies a complete mirror update or bulk item and acknowledges it. -/
  | mirrorRx (mgen : Word) (item : MirrorItem) (bulk : Bool)
  /-- MIRROR_ACK_RX, R305: The holder receives MIRROR_ACK and answers the pending WCP request. -/
  | mirrorAckRx (mgen : Word) (item : Nat)
  /-- MIRROR_ACK_TIMEOUT, R306: With no acknowledgement after 5 ms the holder sets MIRROR_LOST and restarts the bulk copy. -/
  | mirrorAckTimeout
  /-- RELAY_RX, R309: A ring RELAY packet is sent on the named cord port, or returned from it to the holder. -/
  | relayRx (port dir : Nat) (pkt : CordPkt)
  /-- RING_HELLO_TIMER, R492: A part broadcasts RING_HELLO every 10 ms before formation and every 1 s after. -/
  | ringHelloTimer
  /-- RING_HELLO_RX, R492: A received hello adds its position to MEMBERS and may reveal a duplicate position or referee. -/
  | ringHelloRx (hello : RingHello)
  /-- RING_FORM_STABLE, R492: Both ring ports are authenticated and MEMBERS has been stable for 20 ms, so FORMED is set. -/
  | ringFormStable
  /-- RING_FORM_TIMEOUT, R492: 2 s after Kindling the ring is declared formed and OPEN. -/
  | ringFormTimeout
  /-- DTLS_CLIENT_HELLO, R331: A ClientHello receives a HelloRetryRequest, an alert or the handshake, subject to the session limits. -/
  | dtlsClientHello (spi : Bool) (port : Nat) (cookie share suite scheme : Bool)
  /-- DTLS_KEY_UPDATE, R331: A KeyUpdate from the peer is answered. -/
  | dtlsKeyUpdate (session : Nat)
  /-- SESSION_IDLE_TIMEOUT, R333: A session with no record for HEARTH_IDLE seconds is closed. -/
  | sessionIdleTimeout (session : Nat)
  /-- NONCE_REQ, R342: A write of HEARTH_CTRL.NONCE_REQ generates a debug nonce. -/
  | nonceReq
  /-- NONCE_EXPIRY, R342: A debug nonce becomes invalid 600 s of Ember time after it was issued. -/
  | nonceExpiry
  /-- FUSE_STEP_DONE, R329: An anti-rollback fuse bit is blown and verified, and the next step starts unless the supply sags. -/
  | fuseStepDone
  /-- BOFF_EVAL, R357: Every ms billing time compares NTOFF with BOFF and holds, slews or flags. -/
  | boffEval
  /-- POP_FRAME_EVAL_TIMEOUT, R351: For a frame without PRESENT, COMP_ACKWIN µs after the next mark is its evaluation instant. -/
  | popFrameEvalTimeout
  /-- POP_CHECKPOINT, R361: Every POP_CKPT seconds the open-period counts are checkpointed to the journal. -/
  | popCheckpoint
  /-- POP_CKPT, R361: A write of POP_CTRL.CKPT checkpoints at once. -/
  | popCkpt
  /-- NAND_ERASE_DONE, R372: A block erase completes, ERASE_DONE is journalled and the header is programmed, or the block is retired. -/
  | nandEraseDone (ok blank : Bool)
  /-- NAND_PROGRAM_DONE, R376: A page program completes, or its failure retires the block. -/
  | nandProgramDone (ok : Bool)
  /-- NAND_READ_DONE, R380: A page read completes, is corrected and checked for load, verify, scrub or refresh. -/
  | nandReadDone (secs : List (Option Nat))
  /-- NAND_PACE_TICK, R377: Each NAND_PACE interval allows the next paced page operation of a slot write. -/
  | nandPaceTick
  /-- SCRUB_TICK, R381: The paced scrub reads the next page, and a block is refreshed at its threshold. -/
  | scrubTick
  /-- NAND_SCRUB_NOW, R381: A write of NAND_CTRL.SCRUB_NOW starts a scrub pass. -/
  | nandScrubNow
  /-- BUS_REQUEST, R416: A master presents a request to the matrix and it is decoded to a target or to the default target. -/
  | busRequest (req : BusReq)
  /-- TRANSFER_LAST_BEAT, R408: During the last beat of a transfer the arbiter decides the next grant. -/
  | transferLastBeat (target : Nat)
  /-- REQUEST_WITHDRAW, R409: A requester withdraws a granted request, costing one dead cycle before the next decision. -/
  | requestWithdraw (target : Nat)
  /-- FAB_COMMIT, R412: A write of FAB_CTRL.COMMIT copies every shadow priority into FAB_PRIO together. -/
  | fabCommit
  /-- REMAP, R414: A write to SYS_CTRL.REMAP changes the remap window after the transfers in progress complete. -/
  | remap (value : Bool)
  /-- REMAP_LOCK, R522: A write of 1 to REMAP_LOCK locks REMAP until the next full reset. -/
  | remapLock
  /-- RECOVERY, R490: An owner write of SYS_CTRL.RECOVERY enters recovery at the next full reset. -/
  | recovery
  /-- DDR_REQUEST, R399: A DDR5 request is served with its page hint, or as a read-modify-write when narrow. -/
  | ddrRequest (req : BusReq)
  /-- DDR_READ_DATA, R404: Read data returns, and the ECC corrects it or delivers an uncorrectable error to the requester. -/
  | ddrReadData (req : BusReq) (bits : Nat)
  /-- DDR_REFRESH, R398: At each tREFI the controller issues refresh ahead of every request. -/
  | ddrRefresh
  /-- DDR_MR4_POLL, R398: Every 16 ms the controller polls MR4 and follows a doubled refresh rate. -/
  | ddrMr4Poll (x2 : Bool)
  /-- DQS_ADJUST, R398: Every 10 ms the controller reads the DQS oscillators and adjusts delays. -/
  | dqsAdjust
  /-- DDR_RETRY_ACK, R401: WIN cycles after issue without ALERT_N, a retry buffer entry is freed. -/
  | ddrRetryAck (subch : Nat)
  /-- DDR_ALERT, R402: ALERT_N is asserted, so the subchannel stops issuing commands. -/
  | ddrAlert (subch : Nat)
  /-- DDR_ALERT_DEASSERT, R402: ALERT_N is deasserted and the RECOV wait begins. -/
  | ddrAlertDeassert (subch : Nat)
  /-- DDR_RECOV_EXPIRY, R402: RECOV has passed, so precharge-all is issued and unacknowledged commands are replayed. -/
  | ddrRecovExpiry (subch : Nat)
  /-- DDR_RETRAIN_DONE, R403: A subchannel retraining ends, and the buffer is replayed or DOWN is set. -/
  | ddrRetrainDone (subch : Nat) (ok : Bool)
  /-- DDR_RETRAIN, R403: An owner write of DDR_CTRL.RETRAIN starts a retraining. -/
  | ddrRetrain
  /-- DDR_SCRUB_NOW, R405: A write of DDR_CTRL.SCRUB_NOW starts a patrol scrub pass. -/
  | ddrScrubNow
  /-- PATROL_SCRUB, R405: A paced patrol scrub read corrects single-bit errors by write-back. -/
  | patrolScrub (bits : Nat)
  /-- ESCAN_START, R426: A write of LANE_ESCAN_CFG.START runs a POINT or MARGIN eye scan. -/
  | escanStart (lane : Nat) (value : Word)
  /-- ESCAN_ABORT, R427: A write of ABORT ends the scan without setting DONE. -/
  | escanAbort (lane : Nat)
  /-- ESCAN_POINT_DONE, R426: A scan point reaches 2^DWELL bits, and the scan moves on or ends. -/
  | escanPointDone (lane errs : Nat)
  /-- ESCAN_TIMEOUT, R427: A point that has not completed in 60 s ends the scan with TIMEOUT. -/
  | escanTimeout (lane : Nat)
  /-- LANE_TX_SLEEP, R430: After IDLE and HOLD a transmit direction sends the quiet sequence and sleeps. -/
  | laneTxSleep (port : Nat)
  /-- LANE_SCHEDULED_WAKE, R431: LEAD µs before the next tick or predicted mark a sleeping transmitter wakes. -/
  | laneScheduledWake (port : Nat)
  /-- LANE_KEEPALIVE_WAKE, R431: KEEP ms after its last wake a sleeping transmitter wakes. -/
  | laneKeepaliveWake (port : Nat)
  /-- LANE_WAKE_DONE, R431: After the WAKE pattern and ALIGN the transmitter resumes data. -/
  | laneWakeDone (port : Nat)
  /-- LANE_RX_SLEEP, R432: A receiver that has received the quiet sequence sleeps. -/
  | laneRxSleep (port : Nat)
  /-- LANE_RX_RELOCK, R432: A sleeping receiver relocks on the WAKE pattern. -/
  | laneRxRelock (port : Nat)
  /-- RELOCKFAIL, R432: Not relocked 10 µs after signal returns, the link is lost. -/
  | relockfail (port : Nat)
  /-- LANE_SLEEP_TIMEOUT, R432: No WAKE pattern for 2 × KEEP ms loses the link. -/
  | laneSleepTimeout (port : Nat)
  /-- BANKED_ENTRY, R439: After BANK_FRAMES idle frame periods the part enters BANKED. -/
  | bankedEntry
  /-- EMB_SMOULDER, R440: An owner write of EMB_PWR.SMOULDER enters SMOULDER. -/
  | embSmoulder
  /-- WAKE_N, R443: WAKE_N stays low for 10 µs and wakes the part. -/
  | wakeN
  /-- WAKE_SIGNAL, R443: Signal energy on SL00 or SL02 for 10 µs wakes the part. -/
  | wakeSignal (sl02 : Bool)
  /-- WAKE_SPI, R443: Assertion of the local SPI chip select wakes the part. -/
  | wakeSpi
  /-- WAKE_ALARM, R443: The life counter reaches EMB_ALARM and wakes the part. -/
  | wakeAlarm
  /-- WAKE_THERM, R453: Sensor 0 reads below THERM_RESUME and wakes a hot-smouldered part. -/
  | wakeTherm
  /-- VSAG_WARN_ASSERT, R447: A rail stays 1 µs below its warning threshold, so VSAG_WARN asserts and the Table 17-4 actions begin. -/
  | vsagWarnAssert (rail : Nat)
  /-- VSAG_WARN_CLEAR, R447: Every rail has stayed 1 ms above its threshold plus 10 mV, so VSAG_WARN clears and held work resumes. -/
  | vsagWarnClear (ack : Bool)
  /-- SUPPLY_RESET, R449: A rail stays 0.5 µs below its reset threshold, which is a full reset. -/
  | supplyReset (rail : Nat)
  /-- SUP_THRESHOLD_MOVE, R446: 1 ms after an AVS increase the core thresholds move to the new nominal. -/
  | supThresholdMove
  /-- LIFE_CELL_WRITE, R436: Each second Ember writes the life counter to the next cell. -/
  | lifeCellWrite
  /-- XTAL_FAIL, R436: The 32.768 kHz crystal stops, so Ember runs from its internal oscillator and sets XTAL_FAIL. -/
  | xtalFail
  /-- DIE_TEMP_READ, R450: The twelve sensors are read, T is formed and immediate enforcement or SMOULDER follows. -/
  | dieTempRead (temps : List Int)
  /-- THERM_GRACE_EXPIRY, R451: The grace timer expires in REQUEST and the state enters ENFORCE at L = 1. -/
  | thermGraceExpiry
  /-- THERM_STEP_EXPIRY, R451: After STEP_T seconds at or above 100 °C, L rises by 1. -/
  | thermStepExpiry
  /-- THERM_RELEASE_EXPIRY, R451: After RELEASE seconds below 100 °C minus HYS, L falls by 1. -/
  | thermReleaseExpiry
  /-- KILN_RUN_START, R458: A Kiln run starts after Kindling, on a temperature change or on request. -/
  | kilnRunStart
  /-- KILN_MEASUREMENT_DONE, R459: A target's pair of measurements completes and is accepted or discarded. -/
  | kilnMeasurementDone (result : KilnPair)
  /-- KILN_RUN_TIMEOUT, R460: TMO seconds after its start the run ends, and the targets not reached count as SKIPPED. -/
  | kilnRunTimeout
  /-- KILN_RUN, R458: An owner write of KILN_CTRL.RUN requests a run. -/
  | kilnRun
  /-- KILN_TARGET_UPDATE, R462: Once a second Kiln interpolates each target value from T. -/
  | kilnTargetUpdate
  /-- KILN_TRIM_STEP, R462: Each ms each applied trim moves one code toward its target. -/
  | kilnTrimStep
  /-- AGEING_MEASURE, R463: Every 60 s each ageing pair is counted for 1 ms and DEG updated. -/
  | ageingMeasure (degs : List (Option Int))
  /-- LANE_MARGIN_SCAN, R464: Every 24 operating hours each lane in use gets a MARGIN scan for the plan. -/
  | laneMarginScan (lane left right top bottom : Nat)
  /-- PIN_DRIFT_MEASURE, R464: Each operating hour pin timing drift is measured by the spare stampers. -/
  | pinDriftMeasure (drifts : List (Nat × Int))
  /-- EQH_UPDATE, R464: Each second a lit tile adds to its lamp equivalent hours. -/
  | eqhUpdate
  /-- MARGIN_PLAN, R465: At each 1,000 operating hours the plan re-sets AVS, pin trims, lane actions and lamp reserve and journals
history. -/
  | marginPlan (ack : Bool)
  /-- PLAN_NOW, R465: An owner write of AGE_CTRL.PLAN_NOW runs a plan. -/
  | planNow (ack : Bool)
  /-- AVS_RETRY, R465: An unacknowledged AVSBus write is repeated every 1 s. -/
  | avsRetry (ack : Bool)
  /-- CAM_ENABLE, R470: A write setting CAM_CFG.EN hands bank B0 to the camera, or is refused. -/
  | camEnable (value : Word)
  /-- CAM_FRAME_START, R472: The active VSYNC edge starts a frame, and staged sensor parameters are written. -/
  | camFrameStart (nack : Option Nat)
  /-- CAM_FRAME_END, R474: The inactive VSYNC edge completes a frame, shapes it and publishes its statistics. -/
  | camFrameEnd (lines : List (List Nat)) (took : Bool)
  /-- PCOMMIT, R476: A write of CAM_CTRL.PCOMMIT stages sensor parameters for the next frame start. -/
  | pcommit
  /-- AUDIO_FRAME_BOUNDARY, R482: At each 48 kHz boundary a port plays, inserts or drops frames and steps its gain. -/
  | audioFrameBoundary (port : Nat) (ue : Bool)
  /-- AUD_CFG_WRITE, R483: A write of EN or MUTE starts a gain ramp, or stops the clocks after a fall. -/
  | audCfgWrite (port : Nat) (value : Word)
  /-- FW_COMMIT, R499: A write of FW_CTRL.COMMIT makes the trial slot active and raises the anti-rollback counter. -/
  | fwCommit
  /-- FW_TRIAL_TIMEOUT, R499: No commit within COMMIT_TMO reverts to the previous slot. -/
  | fwTrialTimeout
  /-- FW_CTRL_ABANDON, R499: An owner write of FW_CTRL.ABANDON ends the trial with a revert. -/
  | fwCtrlAbandon
  /-- ACTIVATION_PAUSE_END, R498: The Stoker restarts on the new image and held responses and requests resume. -/
  | activationPauseEnd
  /-- STAGE_CONFIRM_DEADLINE, R502: At frame F − LEAD the sender arms the group if all tiles confirmed, or cancels it. -/
  | stageConfirmDeadline
  /-- STAGE_ARM_DEADLINE, R502: At F − 2 an unacknowledged ARM makes the sender cancel the whole group. -/
  | stageArmDeadline
  /-- STAGE_VERIFY, R503: At F + 2 the sender reads every active hash and catches up mismatched tiles. -/
  | stageVerify
  /-- SPI_WRITE, R507: SPI command 0x01 delivers one DTLS datagram to the part. -/
  | spiWrite (whole : Bool) (data : List Byte)
  /-- SPI_READ, R507: SPI command 0x02 returns the oldest queued datagram. -/
  | spiRead
  /-- INFO, R512: WCP INFO returns the session's tenant, role, claim state and flags. -/
  | info (hdr : WcpHdr)
  /-- PING, R512: WCP PING echoes its bytes. -/
  | ping (hdr : WcpHdr) (data : List Byte)
  /-- CLOSE, R512: WCP CLOSE answers and closes the session. -/
  | close (hdr : WcpHdr)
  /-- UPLOAD_OPEN, R513: WCP UPLOAD_OPEN opens an upload handle for a kind. -/
  | uploadOpen (hdr : WcpHdr) (kind len : Nat) (digest : List Byte)
  /-- UPLOAD_DATA, R513: WCP UPLOAD_DATA writes data into an open upload. -/
  | uploadData (hdr : WcpHdr) (handle offset : Nat) (data : List Byte)
  /-- UPLOAD_CLOSE, R513: WCP UPLOAD_CLOSE checks the digest and the kind's own checks. -/
  | uploadClose (hdr : WcpHdr) (handle : Nat)
  /-- UPLOAD_TIMEOUT, R513: 600 s after its last data an upload handle is released. -/
  | uploadTimeout (session handle : Nat)
  /-- PROG_LOAD, R514: WCP PROG_LOAD loads a frame program or drive set at once, or stages it to a running FSQ. -/
  | progLoad (hdr : WcpHdr) (handle : Nat)
  /-- WCP_STAGE, R501: WCP STAGE starts a wall-wide staging to a group for frame F. -/
  | wcpStage (hdr : WcpHdr) (handle frame ports : Nat) (sites : List (BitVec 64))
  /-- STAGE_STATUS, R512: WCP STAGE_STATUS returns the staging state and unconfirmed tiles. -/
  | stageStatus (hdr : WcpHdr)
  /-- SEQ_START, R512: WCP SEQ_START restarts the named sequencers as their START bits do. -/
  | seqStart (hdr : WcpHdr) (mask : Nat) (vddp : List Nat)
  /-- SEQ_STOP, R512: WCP SEQ_STOP stops the named PSQs. -/
  | seqStop (hdr : WcpHdr) (mask : Nat)
  /-- BIND, R86: WCP BIND binds a stream from its SDP, allocates buffers and joins its groups, or is refused. -/
  | bind (hdr : WcpHdr) (share : Nat) (sdp : Sdp)
  /-- UNBIND, R86: WCP UNBIND ends a binding, and its layers are cleared at the next tick. -/
  | unbind (hdr : WcpHdr) (index : Nat)
  /-- LAYER_SET, R101: WCP LAYER_SET checks and admits a layer descriptor for the next frame tick. -/
  | layerSet (hdr : WcpHdr) (slot cls : Nat) (desc : List Word)
  /-- LAYER_CLEAR, R101: WCP LAYER_CLEAR disables a layer at the next tick. -/
  | layerClear (hdr : WcpHdr) (slot : Nat)
  /-- SURFACE_WRITE, R106: WCP SURFACE_WRITE writes data to the hidden buffer, or is held until it is safe. -/
  | surfaceWrite (hdr : WcpHdr) (slot offset : Nat) (data : List Byte) (handle : Option Nat)
  /-- SURFACE_FLIP, R106: WCP SURFACE_FLIP toggles FRONT at the next tick and damages the layer. -/
  | surfaceFlip (hdr : WcpHdr) (slot : Nat)
  /-- ZLIST_SET, R108: WCP ZLIST_SET replaces a zlist entry, or is refused. -/
  | zlistSet (hdr : WcpHdr) (entry : Nat) (data : List Byte)
  /-- COEF_SET, R104: WCP COEF_SET replaces a scaler coefficient table. -/
  | coefSet (hdr : WcpHdr) (table axis : Nat) (vals : List (BitVec 16))
  /-- CLINKER, R191: WCP CLINKER applies overlay entries to a tile's clinker map. -/
  | clinker (hdr : WcpHdr) (port pos : Nat) (entries : List Word)
  /-- DAMAGE_HINT, R113: WCP DAMAGE sets the pending bits of bands under the tenant's rectangles and layers. -/
  | damageHint (hdr : WcpHdr) (rects : List (Nat × Nat × Nat × Nat))
  /-- STATUS_READ, R512: WCP STATUS_READ returns the registers of an item's block. -/
  | statusRead (hdr : WcpHdr) (item index port pos : Nat)
  /-- EVENT_READ, R517: WCP EVENT_READ returns kept events from an ESEQ. -/
  | eventRead (hdr : WcpHdr) (eseq : Word)
  /-- LOG_READ, R339: WCP LOG_READ returns signed security log entries. -/
  | logRead (hdr : WcpHdr) (seq : Nat)
  /-- TENANT_SET, R349: WCP TENANT_SET installs or changes a tenant slot after ordered checks. -/
  | tenantSet (hdr : WcpHdr) (slot : Nat) (contents : TenantRec)
  /-- TENANT_REMOVE, R346: WCP TENANT_REMOVE removes a tenant, closes its sessions and clears its layers at the next tick. -/
  | tenantRemove (hdr : WcpHdr) (slot : Nat)
  /-- SLOT_ASSIGN, R100: WCP SLOT_ASSIGN assigns a layer slot to a tenant or unassigns it. -/
  | slotAssign (hdr : WcpHdr) (layer tenant : Nat)
  /-- OWNER_INSTALL, R320: WCP OWNER_INSTALL installs an owner root on an UNOWNED part over local SPI. -/
  | ownerInstall (hdr : WcpHdr) (root : List Byte)
  /-- OWNER_XFER, R321: WCP OWNER_XFER transfers ownership under a signed object and forwards it to the tiles. -/
  | ownerXfer (hdr : WcpHdr) (obj : SignedObj)
  /-- KEY_ADD, R323: WCP KEY_SET with OP 1 registers a tile-maker key and forwards it to the tiles. -/
  | keyAdd (hdr : WcpHdr) (key : List Byte)
  /-- KEY_REMOVE, R323: WCP KEY_SET with OP 2 removes a tile-maker key. -/
  | keyRemove (hdr : WcpHdr) (key : List Byte)
  /-- REFCRED_SET, R323: WCP REFCRED_SET installs or removes the referee credential. -/
  | refcredSet (hdr : WcpHdr) (digest : List Byte)
  /-- STEP_AUTH, R358: WCP STEP_AUTH steps billing time under an owner-signed authorisation. -/
  | stepAuth (hdr : WcpHdr) (obj : SignedObj)
  /-- DEBUG_NONCE, R342: WCP DEBUG with OP 1 returns a new debug nonce. -/
  | debugNonce (hdr : WcpHdr)
  /-- DEBUG_TOKEN, R343: WCP DEBUG with OP 2 checks a debug token and opens its scopes. -/
  | debugToken (hdr : WcpHdr) (obj : SignedObj)
  /-- FACTORY_RESET, R322: A factory reset of ownership in recovery mode erases the ownership data and makes the part UNOWNED. -/
  | factoryReset (hdr : WcpHdr)
  /-- TEST_RUN, R243: WCP TEST_RUN starts a test run and arms its sites. -/
  | testRun (hdr : WcpHdr) (runid : Word) (full : Bool) (ports : Nat) (sites : List (BitVec 64)) (test : List Byte) (handle : Nat) (loc : Bool)
  /-- TEST_ABORT, R256: WCP TEST_ABORT ends a run and sends ABORT to its sites. -/
  | testAbort (hdr : WcpHdr) (runid : Word)
  /-- TEST_RESULT, R519: WCP TEST_RESULT returns a run's site records and end status. -/
  | testResult (hdr : WcpHdr) (runid : Word) (first : Nat)
  /-- TEST_ACK, R243: WCP TEST_ACK releases a completed run's results. -/
  | testAck (hdr : WcpHdr) (runid : Word)
  /-- POP_COLLECT, R363: WCP POP_COLLECT returns up to 16 final records of a tenant. -/
  | popCollect (hdr : WcpHdr) (tenant : Nat)
  /-- POP_ACK, R363: WCP POP_ACK deletes returned records up to an RSEQ after journalling the deletion. -/
  | popAck (hdr : WcpHdr) (tenant rseq : Nat)
  /-- ATTEST, R341: WCP ATTEST returns the signed attestation report of the part or of a tile. -/
  | attest (hdr : WcpHdr) (nonce : List Byte) (port pos : Nat)
  /-- FW_INSTALL, R497: WCP FW_INSTALL writes a firmware image into the slot that is not running. -/
  | fwInstall (hdr : WcpHdr) (handle : Nat)
  /-- FW_ACTIVATE, R498: WCP FW_ACTIVATE decrypts the inactive slot and restarts the Stoker on trial. -/
  | fwActivate (hdr : WcpHdr) (slot : Nat)
  /-- FW_ABANDON, R499: WCP FW_ABANDON ends a firmware trial with a revert. -/
  | fwAbandon (hdr : WcpHdr)
  /-- LANE_INSTALL, R423: WCP LANE_INSTALL writes a board lane table slot. -/
  | laneInstall (hdr : WcpHdr) (handle : Nat)
  /-- RECOVERY_ENTER, R490: WCP RECOVERY_ENTER enters recovery at the next full reset. -/
  | recoveryEnter (hdr : WcpHdr)
  /-- RECOVERY_EXIT, R490: WCP RECOVERY_EXIT causes a full reset out of recovery. -/
  | recoveryExit (hdr : WcpHdr)
  /-- POWER, R440: WCP POWER puts the part into SMOULDER. -/
  | power (hdr : WcpHdr) (state : Nat)
  /-- CORD_POWER, R442: WCP CORD_POWER sends POWER requests and makes the cord ports dormant from a mark. -/
  | cordPower (hdr : WcpHdr) (ports fcnt : Nat)
  /-- CORD_WAKE, R442: WCP CORD_WAKE lets dormant cord ports retrain. -/
  | cordWake (hdr : WcpHdr) (ports : Nat)
  /-- SWAP, R302: WCP SWAP sends an owner YIELD or TAKE to the referee. -/
  | swap (hdr : WcpHdr)
  /-- REF_HEARTBEAT, R289: WCP REF_HEARTBEAT delivers an external referee heartbeat to a member. -/
  | refHeartbeat (hdr : WcpHdr) (hb : Heartbeat)
  /-- REF_GRANT, R289: WCP REF_GRANT delivers an external referee grant to a member. -/
  | refGrant (hdr : WcpHdr) (claim : BitVec 64) (holder reason : Nat)
  /-- REF_SWAP_RSP, R289: WCP REF_SWAP_RSP delivers an external referee swap response. -/
  | refSwapRsp (hdr : WcpHdr) (cur : BitVec 64) (status : Nat) (seq : Word)
  /-- REG_READ, R516: WCP REG_READ reads register words in order and stops at an error. -/
  | regRead (hdr : WcpHdr) (addr count : Nat)
  /-- REG_WRITE, R516: WCP REG_WRITE applies register writes in order and stops at the first error. -/
  | regWrite (hdr : WcpHdr) (entries : List (Nat × Word)) (ctx : RegCtx)
  /-- LATCHING_READ_LO, R280: A read of the low word of a multi-word counter or record latches its other words. -/
  | latchingReadLo (addr : Nat)
  /-- TAP_RESET, R547: A TAP reset selects IDCODE. -/
  | tapReset
  /-- IDCODE, R547: JTAG IDCODE shifts out 0x1729_69AB. -/
  | idcode
  /-- SAMPLE_PRELOAD, R547: JTAG SAMPLE/PRELOAD observes the balls without driving them when scope 0 is open. -/
  | samplePreload (balls : Nat)
  /-- EXTEST, R548: JTAG EXTEST drives boundary scan only while every bank is safe, or acts as BYPASS. -/
  | extest (balls : Nat)
  /-- CLAMP, R548: JTAG CLAMP holds the boundary outputs under the same conditions as EXTEST. -/
  | clamp
  /-- HIGHZ, R547: JTAG HIGHZ tri-states all outputs. -/
  | highz
  /-- DBGAP, R549: JTAG DBGAP makes JTAG a bus master for scoped debug access. -/
  | dbgap (write : Bool) (addr : Nat) (data : List Byte) (bytes : Nat) (ctx : RegCtx)
  /-- BYPASS, R547: JTAG BYPASS selects the one-bit bypass register. -/
  | bypass
  /-- STK_HALT, R550: A write of TRACE_HALT.STK_HALT halts or resumes the Stoker at an instruction boundary. -/
  | stkHalt (on : Bool)
  /-- STK_STEP, R551: STK_STEP executes one Stoker instruction. -/
  | stkStep
  /-- FSQ_HALT, R551: A write of FSQ_HALT halts or resumes the FSQ with its state kept. -/
  | fsqHalt (on : Bool)
  /-- FSQ_STEP, R551: FSQ_STEP executes one FSQ instruction. -/
  | fsqStep (ue : Bool)
  /-- PSQ_HALT, R551: A PSQ_HALT bit stops a PSQ as PSQ_CTRL.STOP does. -/
  | psqHalt (mask : Nat)
  /-- TRACE_SWMSG, R552: A write of TRACE_SWMSG writes a Stoker software message entry. -/
  | traceSwmsg (value : Word)
  /-- TRACE_ENABLE, R553: Setting STK_EN or SEQ_EN from 0 to 1 enables tracing and writes an ENABLE marker. -/
  | traceEnable (stk seq : Bool)
  /-- TRACE_CLEAR, R556: TRACE_CTRL.CLEAR with scope 3 open empties the ring and clears its flags. -/
  | traceClear
  /-- TRACE_RDATA_READ, R556: A read of TRACE_RDATA returns an entry with scope 3 open and advances RADDR after the high word. -/
  | traceRdataRead (high : Bool)
  /-- SOURCE_PORT_LINK_CHANGE, R302: A source port gains or loses its link, which updates PSTAT.LINK, LINK_LOST and FEC_LOCK and the
HEALTH bit SRC_DOWN. -/
  | sourcePortLinkChange (port : Nat) (link fec : Bool)
  /-- XTAL_RECOVERED, R436: Once the 32.768 kHz crystal has run again for 1 s, Ember returns to it and clears XTAL_FAIL. -/
  | xtalRecovered
  /-- OCXO_WARM_CHANGE, R263: The OCXO_WARM input changes level, which sets or clears REF_STAT.BASE_COLD and the BASE_COLD flag of TIM
results. -/
  | ocxoWarmChange (warm : Bool)
  /-- OCXO_GLITCH, R264: An OCXO_IN edge that ends a period outside ±10 % of nominal is discarded and counted. -/
  | ocxoGlitch
  /-- CLIENT_CERTIFICATE, R332: The client's certificate flight of a DTLS handshake arrives, and Hearth accepts or refuses the session
against the installed tenant certificates or the referee credential. -/
  | clientCertificate (spi : Bool) (port : Nat) (leaf : List Byte) (proof : Bool)
  /-- QSPI_WRITE_DONE, R392: A program or verify of the QSPI copy of a firmware or lane table completes, after which the SLOT record can
be written. -/
  | qspiWriteDone (ok : Bool)
  /-- CUT_THROUGH_FORWARD, R140: A tile verifies the header of a packet that is for another position, for all tiles, or UP, and forwards
it out of its other port, or counts it STALE or discards it. -/
  | cutThroughForward (rx : CordRx) (body : CordBody)
  /-- BRIGHTNESS_REQUEST, R239: A brightness request from the sender arrives at a tile and sets BRIGHT, or TARGET while a ramp is active.
-/
  | brightnessRequest (rx : CordRx) (seq : Word) (bright : Nat)
  /-- LAMP_TF_REQUEST, R172: A control request from the sender sets the tile's LAMP_TF from COMP_ENC.TF at enumeration and whenever
COMP_ENC changes. -/
  | lampTfRequest (rx : CordRx) (seq : Word) (tf : Nat)
  /-- CLINKER_MAP_REQUEST, R191: A tile receives the clinker-map entries that WCP CLINKER names and applies them to its overlay, counting
the entries applied. -/
  | clinkerMapRequest (rx : CordRx) (seq : Word) (entries : List Word)
  /-- DORMANT_PORT_SIGNAL, R442: Signal is detected on a dormant cord port, which lets it retrain. -/
  | dormantPortSignal (port : Nat)
  /-- FIRMWARE_FAULT, R499: The Stoker firmware faults during its trial, which reverts the part to the previous slot. -/
  | firmwareFault
  /-- CFG_SLOT_WRITE, R369: When the mirror generation has changed and at least 60 s have passed since the last CFG write, the sender
writes its CFG slot. -/
  | cfgSlotWrite
  deriving DecidableEq, Repr

end Sys2Proof
end

