-- ==== Sys2Proof/Config.lean ====
section
/-! DEFINITION. Config.lean: what an implementation fixes and the manual does not (uninterpreted functions with no body), and the
free values. Nothing in Lean can evaluate them, so every statement about the model holds whatever they are. -/

namespace Sys2Proof.Config

/-! ### Cryptography (R77, R325, R341): the primitives are named by the manual and not re-defined here -/

/-- SHA-384 of a byte string, 48 bytes. -/
opaque sha384 : List (BitVec 8) → List (BitVec 8)

/-- A signature verifies: public key in SEC1 form, message, signature r then s (ECDSA P-384, SHA-384). -/
opaque sigOk : List (BitVec 8) → List (BitVec 8) → List (BitVec 8) → Bool

/-- The device key's signature of a message, 96 bytes (R318). -/
opaque sign : List (BitVec 8) → List (BitVec 8)

/-- The public key of a certificate, SEC1 uncompressed (97 bytes). -/
opaque certKey : List (BitVec 8) → List (BitVec 8)

/-- A certificate chains to a root certificate. -/
opaque chainsTo : List (BitVec 8) → List (BitVec 8) → Bool

/-- A certificate's validity period: not before and not after, in seconds of network time. -/
opaque certValid : List (BitVec 8) → Nat × Nat

/-- The device certificate of the fuse map (R317), the SHA-384 of the Kindling ROM, and the Staikeum firmware key. -/
opaque deviceCert : List (BitVec 8)
opaque kindlingRom : List (BitVec 8)
opaque firmwareKey : List (BitVec 8)

/-- The grade record of the fuse map. -/
opaque grade : List (BitVec 8)

/-- Decryption of a firmware image succeeds: the unwrap of its content key and its GCM tag (R326). -/
opaque decrypts : List (BitVec 8) → Bool

/-! ### Values the manual leaves open -/

/-- A fresh value each time: what a result, a reserved byte or a reading holds where the manual states none. The first argument is
the model's counter of free values, the second tells values of one step apart. -/
opaque freeNat : Nat → Nat → Nat

/-- The frequency loop's next tracking term, 10^-12, from its time constant in seconds, the phase error in 1/64 ns and the term in
force (R270 gives the time constant only). -/
opaque freqTrack : Nat → Int → Int → Int

/-- A tile's next rate correction, 10^-12, from the mean neighbour offset in 1/64 ns and the correction in force (R153 gives its bound
only). -/
opaque tileTrack : Int → Int → Int

/-- The mean latency of a ring port's hop after a new probe, from the mean before and the new delay, 1/64 ns (R159 gives no window). -/
opaque ringMean : Nat → Nat → Nat

/-- Scaler coefficients that firmware fills in at start-up (R104): the key is ((table * 2 + axis) * 64 + phase) * 8 + tap. -/
opaque coefDefault : Nat → BitVec 16

/-- The decode table, primaries matrix and encode table of R105, from the stream's transfer and primaries to the wall's, on 12-bit
red, green and blue. -/
opaque colourConvert : Nat → Nat → Nat → Nat → Nat × Nat × Nat → Nat × Nat × Nat

/-- 2^(x / 160) in units of 2^-32 (R464, which gives no rounding). -/
opaque exp2 : Int → Nat

/-- Kiln's factory trims of R461: the value of a target at 40 °C (key class * 1,024 + index), and the shift that a class's temperature
coefficient gives between two temperatures in °C. -/
opaque kilnFactory : Nat → Int
opaque kilnShift : Nat → Int → Int → Int

/-- The OP codes of the control requests that the manual names without one: LAMP_TF (R172), brightness (R239) and clinker (R191). -/
opaque opLampTf : Nat
opaque opBright : Nat
opaque opClinker : Nat

/-- The boot ROM's bytes by offset, and the SRAM bank (modulo 8) that an SRAM byte offset lies in. -/
opaque bootByte : Nat → BitVec 8
opaque sramBank : Nat → Nat

end Sys2Proof.Config
end

