-- ==== Sys2Proof/Machine/RegMap.lean ====
section
/-! DEFINITION. Machine/RegMap.lean: the register map (Wall Control Protocol and Register Map, R520 to R523, and the
register tables of every chapter). An offset is counted from the start of register space, 0x00_F000_0000; block b starts at
b * 0x10000. A register of a table is one `RegDef`; an array of registers has its strides and counts in `dims`. For every
register and field the tables name there is a constant of the same name, an array taking its indexes. A count (a 32-bit or
16-bit number that stops at all ones and that CLRCNT clears) has `count` set, and its constant carries an N. -/

namespace Sys2Proof.Machine

/-- The registers of block 0, SYS, part 0. -/
def regsSYS0 : List RegDef := [
  ⟨0x0, [], false,
    [⟨15, 0, .ro, 0x7296, none⟩, ⟨19, 16, .ro, 1, none⟩]⟩,
  ⟨0x4, [], false,
    [⟨0, 0, .rwl, 0, none⟩, ⟨1, 1, .wot, 0, none⟩, ⟨2, 2, .wo, 0, none⟩, ⟨3, 3, .wo, 0, none⟩]⟩,
  ⟨0x8, [], false,
    [⟨27, 0, .ro, 0, none⟩]⟩,
  ⟨0xc, [], false,
    [⟨27, 0, .rw, 0, none⟩]⟩,
  ⟨0x10, [(0x4, 4)], false,
    [⟨31, 0, .ro, 0, none⟩]⟩,
  ⟨0x20, [], false,
    [⟨15, 0, .rw, 0xbac2, some (1, 65535)⟩]⟩,
  ⟨0x30, [(0x4, 4)], false,
    [⟨31, 0, .rw, 0, none⟩]⟩,
  ⟨0x40, [], true,
    [⟨31, 0, .ro, 0, none⟩]⟩,
  ⟨0x44, [], true,
    [⟨31, 0, .ro, 0, none⟩]⟩,
  ⟨0x48, [], true,
    [⟨31, 0, .ro, 0, none⟩]⟩,
  ⟨0x4c, [], true,
    [⟨31, 0, .ro, 0, none⟩]⟩,
  ⟨0x50, [], true,
    [⟨31, 0, .ro, 0, none⟩]⟩,
  ⟨0x54, [], true,
    [⟨31, 0, .ro, 0, none⟩]⟩]

/-- The registers of block 0, SYS (21_control_registers.md R522). -/
def regsSYS : List RegDef := regsSYS0

/-- The registers of block 1, EMB, part 0. -/
def regsEMB0 : List RegDef := [
  ⟨0x0, [], false,
    [⟨0, 0, .wo, 0, none⟩]⟩,
  ⟨0x4, [], false,
    [⟨0, 0, .ro, 0, none⟩, ⟨3, 1, .ro, 0, none⟩, ⟨5, 4, .ro, 0, none⟩, ⟨6, 6, .ro, 0, none⟩, ⟨8, 7, .ro, 0, none⟩, ⟨9, 9, .ro, 0, none⟩, ⟨11, 10, .ro, 0, none⟩]⟩,
  ⟨0x8, [], false,
    [⟨5, 0, .w1c, 0, none⟩]⟩,
  ⟨0xc, [], false,
    [⟨0, 0, .ro, 0, none⟩, ⟨1, 1, .ro, 0, none⟩]⟩,
  ⟨0x10, [], false,
    [⟨31, 0, .ro, 0, none⟩]⟩,
  ⟨0x14, [], false,
    [⟨15, 0, .ro, 0, none⟩]⟩,
  ⟨0x18, [], false,
    [⟨31, 0, .rw, 0, none⟩]⟩,
  ⟨0x1c, [], false,
    [⟨15, 0, .rw, 0, none⟩]⟩,
  ⟨0x20, [], false,
    [⟨1, 0, .ro, 0, none⟩, ⟨2, 2, .wo, 0, none⟩, ⟨15, 8, .rw, 4, some (1, 255)⟩]⟩,
  ⟨0x24, [], false,
    [⟨5, 0, .rw, 0x3f, none⟩]⟩,
  ⟨0x28, [], false,
    [⟨5, 0, .w1c, 0, none⟩]⟩,
  ⟨0x2c, [], false,
    [⟨7, 0, .ro, 0, none⟩]⟩,
  ⟨0x40, [(0x4, 8)], false,
    [⟨31, 0, .ro, 0, none⟩]⟩,
  ⟨0x80, [], true,
    [⟨31, 0, .ro, 0, none⟩]⟩,
  ⟨0x84, [], true,
    [⟨31, 0, .ro, 0, none⟩]⟩,
  ⟨0x88, [], true,
    [⟨31, 0, .ro, 0, none⟩]⟩]

/-- The registers of block 1, EMB (17_power_clocks_thermal.md R454). -/
def regsEMB : List RegDef := regsEMB0

/-- The registers of block 2, HEARTH, part 0. -/
def regsHEARTH0 : List RegDef := [
  ⟨0x0, [], false,
    [⟨0, 0, .wo, 0, none⟩, ⟨1, 1, .wo, 0, none⟩]⟩,
  ⟨0x4, [], false,
    [⟨0, 0, .ro, 0, none⟩, ⟨1, 1, .ro, 1, none⟩, ⟨2, 2, .w1c, 0, none⟩, ⟨3, 3, .ro, 0, none⟩, ⟨4, 4, .ro, 0, none⟩, ⟨5, 5, .ro, 0, none⟩, ⟨6, 6, .ro, 0, none⟩, ⟨7, 7, .w1c, 0, none⟩]⟩,
  ⟨0x8, [], false,
    [⟨6, 0, .ro, 0, none⟩, ⟨14, 8, .ro, 0, none⟩, ⟨22, 16, .ro, 0, none⟩]⟩,
  ⟨0xc, [], false,
    [⟨31, 0, .ro, 0, none⟩]⟩,
  ⟨0x10, [], false,
    [⟨0, 0, .rwl, 0, none⟩, ⟨1, 1, .rwl, 1, none⟩, ⟨2, 2, .rwl, 0, none⟩, ⟨31, 31, .wot, 0, none⟩]⟩,
  ⟨0x14, [], false,
    [⟨3, 0, .ro, 0, none⟩]⟩,
  ⟨0x18, [], false,
    [⟨3, 0, .ro, 0, none⟩, ⟨4, 4, .ro, 0, none⟩]⟩,
  ⟨0x1c, [], false,
    [⟨31, 0, .ro, 0, none⟩]⟩,
  ⟨0x20, [(0x4, 8)], false,
    [⟨31, 0, .ro, 0, none⟩]⟩,
  ⟨0x40, [], false,
    [⟨4, 0, .ro, 0, none⟩, ⟨5, 5, .ro, 0, none⟩, ⟨8, 6, .ro, 0, none⟩]⟩,
  ⟨0x44, [], false,
    [⟨11, 0, .rw, 0x78, some (10, 3600)⟩]⟩,
  ⟨0x48, [], false,
    [⟨31, 0, .ro, 0, none⟩]⟩,
  ⟨0x60, [], true,
    [⟨31, 0, .ro, 0, none⟩]⟩,
  ⟨0x64, [], true,
    [⟨31, 0, .ro, 0, none⟩]⟩,
  ⟨0x68, [], true,
    [⟨31, 0, .ro, 0, none⟩]⟩,
  ⟨0x6c, [], true,
    [⟨31, 0, .ro, 0, none⟩]⟩,
  ⟨0x70, [], true,
    [⟨31, 0, .ro, 0, none⟩]⟩,
  ⟨0x74, [], true,
    [⟨31, 0, .ro, 0, none⟩]⟩,
  ⟨0x78, [], true,
    [⟨31, 0, .ro, 0, none⟩]⟩,
  ⟨0x7c, [], true,
    [⟨31, 0, .ro, 0, none⟩]⟩]

/-- The registers of block 2, HEARTH (12_hearth_security.md R344). -/
def regsHEARTH : List RegDef := regsHEARTH0

/-- The registers of block 3, FAB, part 0. -/
def regsFAB0 : List RegDef := [
  ⟨0x0, [], false,
    [⟨0, 0, .wo, 0, none⟩, ⟨1, 1, .wo, 0, none⟩]⟩,
  ⟨0x4, [], false,
    [⟨0, 0, .w1c, 0, none⟩]⟩,
  ⟨0x8, [], false,
    [⟨31, 0, .ro, 0, none⟩]⟩,
  ⟨0xc, [], false,
    [⟨7, 0, .ro, 0, none⟩, ⟨11, 8, .ro, 0, none⟩, ⟨12, 12, .ro, 0, none⟩]⟩,
  ⟨0x10, [], true,
    [⟨31, 0, .ro, 0, none⟩]⟩,
  ⟨0x100, [(0x20, 11)], false,
    [⟨7, 0, .rw, 0x10, some (1, 255)⟩, ⟨8, 8, .rw, 0, none⟩, ⟨23, 16, .rw, 0x20, none⟩]⟩,
  ⟨0x104, [(0x20, 11)], false,
    [⟨0, 0, .ro, 1, none⟩, ⟨1, 1, .ro, 0, none⟩, ⟨5, 2, .ro, 0, none⟩, ⟨9, 6, .ro, 0, none⟩]⟩,
  ⟨0x108, [(0x20, 11)], true,
    [⟨31, 0, .ro, 0, none⟩]⟩,
  ⟨0x10c, [(0x20, 11)], true,
    [⟨31, 0, .ro, 0, none⟩]⟩,
  ⟨0x110, [(0x20, 11)], true,
    [⟨31, 0, .ro, 0, none⟩]⟩,
  ⟨0x400, [(0x4, 2)], false,
    [⟨2, 0, .rw, 3, none⟩]⟩,
  ⟨0x408, [(0x4, 1)], false,
    [⟨2, 0, .rw, 4, none⟩]⟩,
  ⟨0x40c, [(0x4, 1)], false,
    [⟨2, 0, .rw, 1, none⟩]⟩,
  ⟨0x410, [(0x4, 4)], false,
    [⟨2, 0, .rw, 5, none⟩]⟩,
  ⟨0x420, [(0x4, 2)], false,
    [⟨2, 0, .rw, 6, none⟩]⟩,
  ⟨0x428, [(0x4, 1)], false,
    [⟨2, 0, .rw, 5, none⟩]⟩,
  ⟨0x42c, [(0x4, 1)], false,
    [⟨2, 0, .rw, 6, none⟩]⟩,
  ⟨0x430, [(0x4, 2)], false,
    [⟨2, 0, .rw, 2, none⟩]⟩,
  ⟨0x438, [(0x4, 1)], false,
    [⟨2, 0, .rw, 4, none⟩]⟩,
  ⟨0x43c, [(0x4, 1)], false,
    [⟨2, 0, .rw, 2, none⟩]⟩]

/-- The registers of block 3, FAB, part 1. -/
def regsFAB1 : List RegDef := [
  ⟨0x500, [(0x4, 2)], false,
    [⟨2, 0, .rw, 3, none⟩]⟩,
  ⟨0x508, [(0x4, 1)], false,
    [⟨2, 0, .rw, 4, none⟩]⟩,
  ⟨0x50c, [(0x4, 1)], false,
    [⟨2, 0, .rw, 1, none⟩]⟩,
  ⟨0x510, [(0x4, 4)], false,
    [⟨2, 0, .rw, 5, none⟩]⟩,
  ⟨0x520, [(0x4, 2)], false,
    [⟨2, 0, .rw, 6, none⟩]⟩,
  ⟨0x528, [(0x4, 1)], false,
    [⟨2, 0, .rw, 5, none⟩]⟩,
  ⟨0x52c, [(0x4, 1)], false,
    [⟨2, 0, .rw, 6, none⟩]⟩,
  ⟨0x530, [(0x4, 2)], false,
    [⟨2, 0, .rw, 2, none⟩]⟩,
  ⟨0x538, [(0x4, 1)], false,
    [⟨2, 0, .rw, 4, none⟩]⟩,
  ⟨0x53c, [(0x4, 1)], false,
    [⟨2, 0, .rw, 2, none⟩]⟩]

/-- The registers of block 3, FAB (15_memory_fabric.md R417). -/
def regsFAB : List RegDef := regsFAB0 ++ regsFAB1

/-- The registers of block 4, DDR, part 0. -/
def regsDDR0 : List RegDef := [
  ⟨0x0, [], false,
    [⟨0, 0, .wo, 0, none⟩, ⟨1, 1, .wo, 0, none⟩, ⟨2, 2, .wo, 0, none⟩]⟩,
  ⟨0x4, [], false,
    [⟨0, 0, .ro, 0, none⟩, ⟨1, 1, .ro, 0, none⟩, ⟨2, 2, .ro, 0, none⟩, ⟨3, 3, .w1c, 0, none⟩, ⟨4, 4, .ro, 0, none⟩, ⟨5, 5, .w1c, 0, none⟩, ⟨6, 6, .w1c, 0, none⟩, ⟨7, 7, .ro, 0, none⟩, ⟨8, 8, .ro, 0, none⟩]⟩,
  ⟨0x8, [], false,
    [⟨0, 0, .ro, 0, none⟩, ⟨2, 1, .ro, 0, none⟩, ⟨3, 3, .ro, 0, none⟩, ⟨5, 4, .ro, 0, none⟩, ⟨13, 8, .ro, 0, none⟩]⟩,
  ⟨0xc, [], false,
    [⟨9, 0, .rw, 0xc8, some (10, 1000)⟩]⟩,
  ⟨0x10, [], false,
    [⟨7, 0, .rw, 0x40, some (16, 255)⟩, ⟨15, 8, .rw, 0x14, some (1, 255)⟩]⟩,
  ⟨0x14, [], false,
    [⟨5, 0, .rw, 0x10, none⟩, ⟨13, 8, .rw, 0x30, none⟩, ⟨23, 16, .rw, 0xfa, none⟩, ⟨31, 24, .rw, 0x7d, none⟩]⟩,
  ⟨0x18, [], false,
    [⟨0, 0, .rw, 1, none⟩, ⟨15, 8, .rw, 0x18, some (1, 255)⟩]⟩,
  ⟨0x20, [], false,
    [⟨31, 0, .ro, 0, none⟩]⟩,
  ⟨0x24, [], false,
    [⟨7, 0, .ro, 0, none⟩]⟩,
  ⟨0x28, [], false,
    [⟨31, 0, .ro, 0, none⟩]⟩,
  ⟨0x2c, [], false,
    [⟨7, 0, .ro, 0, none⟩, ⟨11, 8, .ro, 0, none⟩]⟩,
  ⟨0x40, [], true,
    [⟨31, 0, .ro, 0, none⟩]⟩,
  ⟨0x44, [], true,
    [⟨31, 0, .ro, 0, none⟩]⟩,
  ⟨0x48, [], true,
    [⟨31, 0, .ro, 0, none⟩]⟩,
  ⟨0x4c, [], true,
    [⟨31, 0, .ro, 0, none⟩]⟩,
  ⟨0x50, [], true,
    [⟨31, 0, .ro, 0, none⟩]⟩,
  ⟨0x54, [], true,
    [⟨31, 0, .ro, 0, none⟩]⟩,
  ⟨0x58, [], true,
    [⟨31, 0, .ro, 0, none⟩]⟩,
  ⟨0x5c, [], true,
    [⟨31, 0, .ro, 0, none⟩]⟩,
  ⟨0x60, [], true,
    [⟨31, 0, .ro, 0, none⟩]⟩]

/-- The registers of block 4, DDR (15_memory_fabric.md R418). -/
def regsDDR : List RegDef := regsDDR0

/-- The registers of block 5, FSQ, part 0. -/
def regsFSQ0 : List RegDef := [
  ⟨0x0, [], false,
    [⟨0, 0, .wo, 0, none⟩, ⟨1, 1, .wo, 0, none⟩]⟩,
  ⟨0x4, [], false,
    [⟨0, 0, .ro, 0, none⟩, ⟨1, 1, .ro, 0, none⟩, ⟨2, 2, .ro, 0, none⟩, ⟨3, 3, .ro, 0, none⟩, ⟨4, 4, .w1c, 0, none⟩, ⟨5, 5, .ro, 0, none⟩]⟩,
  ⟨0x8, [], false,
    [⟨7, 0, .ro, 0, none⟩, ⟨31, 16, .ro, 0, none⟩]⟩,
  ⟨0xc, [], false,
    [⟨31, 0, .ro, 0, none⟩]⟩,
  ⟨0x10, [], false,
    [⟨31, 0, .ro, 0, none⟩]⟩,
  ⟨0x14, [], false,
    [⟨31, 0, .rw, 0x3f940aab, some (266666667, 2666666667)⟩]⟩,
  ⟨0x18, [], false,
    [⟨23, 0, .ro, 0, none⟩]⟩,
  ⟨0x1c, [], false,
    [⟨31, 0, .ro, 0, none⟩]⟩,
  ⟨0x20, [], false,
    [⟨31, 0, .ro, 0, none⟩]⟩,
  ⟨0x24, [], false,
    [⟨7, 0, .ro, 0, none⟩]⟩,
  ⟨0x28, [], false,
    [⟨31, 0, .ro, 0, none⟩]⟩,
  ⟨0x2c, [], false,
    [⟨7, 0, .ro, 0, none⟩]⟩,
  ⟨0x30, [], false,
    [⟨31, 0, .ro, 0, none⟩]⟩,
  ⟨0x34, [], false,
    [⟨31, 0, .ro, 0, none⟩]⟩,
  ⟨0x38, [], false,
    [⟨9, 0, .ro, 0, none⟩, ⟨25, 16, .ro, 0, none⟩]⟩,
  ⟨0x3c, [], false,
    [⟨7, 0, .w1c, 0, none⟩, ⟨15, 8, .wo, 0, none⟩]⟩,
  ⟨0x40, [], true,
    [⟨31, 0, .ro, 0, none⟩]⟩,
  ⟨0x44, [], true,
    [⟨15, 0, .ro, 0, none⟩]⟩]

/-- The registers of block 5, FSQ (04_composition.md Table 4-6). -/
def regsFSQ : List RegDef := regsFSQ0

/-- The registers of block 6, COMP, part 0. -/
def regsCOMP0 : List RegDef := [
  ⟨0x0, [], false,
    [⟨0, 0, .wo, 0, none⟩, ⟨1, 1, .wo, 0, none⟩, ⟨2, 2, .wo, 0, none⟩]⟩,
  ⟨0x4, [], false,
    [⟨0, 0, .w1c, 0, none⟩, ⟨1, 1, .w1c, 0, none⟩, ⟨2, 2, .w1c, 0, none⟩, ⟨3, 3, .w1c, 0, none⟩, ⟨4, 4, .ro, 0, none⟩, ⟨5, 5, .w1c, 0, none⟩, ⟨11, 8, .ro, 0, none⟩]⟩,
  ⟨0x8, [], false,
    [⟨15, 0, .rw, 0, none⟩, ⟨31, 16, .rw, 0, none⟩]⟩,
  ⟨0xc, [], false,
    [⟨1, 0, .rw, 0, none⟩, ⟨2, 2, .rw, 0, none⟩]⟩,
  ⟨0x10, [], false,
    [⟨29, 0, .rw, 0, none⟩]⟩,
  ⟨0x14, [], false,
    [⟨23, 0, .ro, 0, none⟩]⟩,
  ⟨0x18, [], false,
    [⟨3, 0, .ro, 0, none⟩]⟩,
  ⟨0x1c, [], false,
    [⟨7, 0, .rw, 0x18, some (1, 255)⟩]⟩,
  ⟨0x20, [], false,
    [⟨15, 0, .rw, 0x3e8, none⟩]⟩,
  ⟨0x24, [], false,
    [⟨0, 0, .ro, 0, none⟩]⟩,
  ⟨0x100, [(0x4, 8)], true,
    [⟨31, 0, .ro, 0, none⟩]⟩,
  ⟨0x120, [(0x4, 8)], true,
    [⟨31, 0, .ro, 0, none⟩]⟩,
  ⟨0x140, [(0x4, 8)], true,
    [⟨31, 0, .ro, 0, none⟩]⟩,
  ⟨0x160, [], true,
    [⟨31, 0, .ro, 0, none⟩]⟩,
  ⟨0x200, [(0x4, 64)], true,
    [⟨31, 0, .ro, 0, none⟩]⟩,
  ⟨0x300, [(0x4, 64)], false,
    [⟨3, 0, .ro, 0, none⟩, ⟨4, 4, .ro, 0, none⟩]⟩,
  ⟨0x1000, [(0x8, 512)], false,
    [⟨15, 0, .rw, 0, none⟩, ⟨31, 16, .rw, 0, none⟩]⟩,
  ⟨0x1004, [(0x8, 512)], false,
    [⟨13, 0, .rw, 0, none⟩, ⟨28, 16, .rw, 0, none⟩, ⟨31, 31, .rw, 0, none⟩]⟩,
  ⟨0x4000, [(0x800, 8), (0x20, 64), (0x4, 8)], false,
    [⟨31, 0, .rw, 0, none⟩]⟩,
  ⟨0x8000, [(0x40, 64), (0x4, 8)], false,
    [⟨31, 0, .ro, 0, none⟩]⟩]

/-- The registers of block 6, COMP, part 1. -/
def regsCOMP1 : List RegDef := [
  ⟨0xc000, [(0x40, 256), (0x4, 16)], false,
    [⟨31, 0, .ro, 0xffffffff, none⟩]⟩]

/-- The registers of block 6, COMP (04_composition.md Table 4-7). -/
def regsCOMP : List RegDef := regsCOMP0 ++ regsCOMP1

/-- The registers of block 7, SRC, part 0. -/
def regsSRC0 : List RegDef := [
  ⟨0x0, [(0x10, 4)], false,
    [⟨0, 0, .rw, 0, none⟩, ⟨1, 1, .rw, 1, none⟩, ⟨2, 2, .rw, 0, none⟩]⟩,
  ⟨0x4, [(0x10, 4)], false,
    [⟨0, 0, .ro, 0, none⟩, ⟨1, 1, .ro, 0, none⟩, ⟨2, 2, .w1c, 0, none⟩, ⟨8, 3, .ro, 0, none⟩, ⟨9, 9, .ro, 0, none⟩]⟩,
  ⟨0x8, [(0x10, 4)], true,
    [⟨31, 0, .ro, 0, none⟩]⟩,
  ⟨0xc, [(0x10, 4)], true,
    [⟨31, 0, .ro, 0, none⟩]⟩,
  ⟨0xf0, [], false,
    [⟨0, 0, .wo, 0, none⟩]⟩,
  ⟨0x100, [(0x40, 16)], false,
    [⟨0, 0, .ro, 0, none⟩, ⟨1, 1, .ro, 0, none⟩, ⟨3, 2, .ro, 0, none⟩, ⟨5, 4, .ro, 0, none⟩, ⟨6, 6, .rw, 0, none⟩, ⟨11, 8, .ro, 0, none⟩, ⟨13, 12, .ro, 0, none⟩, ⟨15, 14, .ro, 0, none⟩, ⟨17, 16, .ro, 0, none⟩, ⟨19, 18, .ro, 0, none⟩, ⟨20, 20, .ro, 0, none⟩]⟩,
  ⟨0x104, [(0x40, 16)], false,
    [⟨15, 0, .ro, 0, none⟩, ⟨31, 16, .ro, 0, none⟩]⟩,
  ⟨0x108, [(0x40, 16)], false,
    [⟨23, 0, .rw, 0, none⟩]⟩,
  ⟨0x10c, [(0x40, 16)], false,
    [⟨15, 0, .rw, 0x40, none⟩]⟩,
  ⟨0x110, [(0x40, 16)], false,
    [⟨0, 0, .ro, 1, none⟩, ⟨1, 1, .ro, 0, none⟩, ⟨2, 2, .ro, 0, none⟩]⟩,
  ⟨0x114, [(0x40, 16)], true,
    [⟨31, 0, .ro, 0, none⟩]⟩,
  ⟨0x118, [(0x40, 16)], true,
    [⟨31, 0, .ro, 0, none⟩]⟩,
  ⟨0x11c, [(0x40, 16)], true,
    [⟨31, 0, .ro, 0, none⟩]⟩,
  ⟨0x120, [(0x40, 16)], true,
    [⟨31, 0, .ro, 0, none⟩]⟩,
  ⟨0x124, [(0x40, 16)], true,
    [⟨31, 0, .ro, 0, none⟩]⟩,
  ⟨0x128, [(0x40, 16)], true,
    [⟨31, 0, .ro, 0, none⟩]⟩,
  ⟨0x12c, [(0x40, 16)], true,
    [⟨31, 0, .ro, 0, none⟩]⟩,
  ⟨0x130, [(0x40, 16)], true,
    [⟨31, 0, .ro, 0, none⟩]⟩,
  ⟨0x134, [(0x40, 16)], true,
    [⟨31, 0, .ro, 0, none⟩]⟩,
  ⟨0x138, [(0x40, 16)], true,
    [⟨31, 0, .ro, 0, none⟩]⟩]

/-- The registers of block 7, SRC, part 1. -/
def regsSRC1 : List RegDef := [
  ⟨0x600, [(0x20, 8)], false,
    [⟨0, 0, .ro, 0, none⟩, ⟨1, 1, .ro, 0, none⟩, ⟨3, 2, .ro, 0, none⟩, ⟨5, 4, .ro, 0, none⟩, ⟨11, 8, .ro, 0, none⟩, ⟨12, 12, .ro, 0, none⟩, ⟨17, 13, .ro, 0, none⟩, ⟨18, 18, .ro, 0, none⟩]⟩,
  ⟨0x604, [(0x20, 8)], true,
    [⟨31, 0, .ro, 0, none⟩]⟩,
  ⟨0x608, [(0x20, 8)], true,
    [⟨31, 0, .ro, 0, none⟩]⟩,
  ⟨0x60c, [(0x20, 8)], true,
    [⟨31, 0, .ro, 0, none⟩]⟩,
  ⟨0x610, [(0x20, 8)], true,
    [⟨31, 0, .ro, 0, none⟩]⟩]

/-- The registers of block 7, SRC (03_source_intake.md Tables 3-3 and 3-6). -/
def regsSRC : List RegDef := regsSRC0 ++ regsSRC1

/-- The registers of block 8, CORD, part 0. -/
def regsCORD0 : List RegDef := [
  ⟨0x0, [], false,
    [⟨0, 0, .wo, 0, none⟩]⟩,
  ⟨0x4, [], false,
    [⟨15, 0, .rw, 0x32, some (1, 4000)⟩]⟩,
  ⟨0x8, [], false,
    [⟨15, 0, .rw, 0x64, none⟩]⟩,
  ⟨0xc, [], false,
    [⟨15, 0, .rw, 0x64, some (10, 10000)⟩, ⟨31, 16, .rw, 0x400, some (1, 65535)⟩]⟩,
  ⟨0x10, [], false,
    [⟨0, 0, .ro, 0, none⟩, ⟨1, 1, .ro, 0, none⟩, ⟨2, 2, .ro, 0, none⟩, ⟨13, 8, .ro, 0, none⟩, ⟨21, 16, .ro, 0, none⟩, ⟨29, 24, .ro, 0, none⟩]⟩,
  ⟨0x14, [], false,
    [⟨31, 0, .ro, 0, none⟩]⟩,
  ⟨0x18, [], false,
    [⟨31, 0, .ro, 0, none⟩]⟩,
  ⟨0x1c, [], false,
    [⟨15, 0, .rw, 0, none⟩, ⟨31, 16, .rw, 0, none⟩]⟩,
  ⟨0x20, [], false,
    [⟨31, 0, .ro, 0, none⟩]⟩,
  ⟨0x24, [], false,
    [⟨7, 0, .ro, 0, none⟩, ⟨15, 8, .ro, 0, none⟩, ⟨23, 16, .ro, 0, none⟩]⟩,
  ⟨0x28, [], false,
    [⟨31, 0, .ro, 0, none⟩]⟩,
  ⟨0x100, [(0x80, 8)], false,
    [⟨0, 0, .rws, 0, none⟩, ⟨1, 1, .rw, 0, none⟩, ⟨2, 2, .rw, 0, none⟩, ⟨3, 3, .rw, 0, none⟩, ⟨5, 4, .rw, 3, none⟩]⟩,
  ⟨0x104, [(0x80, 8)], false,
    [⟨0, 0, .ro, 0, none⟩, ⟨1, 1, .ro, 0, none⟩, ⟨3, 2, .ro, 0, none⟩, ⟨4, 4, .ro, 0, none⟩, ⟨5, 5, .ro, 0, none⟩, ⟨12, 6, .ro, 0, none⟩, ⟨13, 13, .ro, 0, none⟩, ⟨14, 14, .w1c, 0, none⟩, ⟨15, 15, .ro, 0, none⟩, ⟨16, 16, .w1c, 0, none⟩, ⟨17, 17, .w1c, 0, none⟩, ⟨18, 18, .ro, 0, none⟩]⟩,
  ⟨0x110, [(0x80, 8)], true,
    [⟨31, 0, .ro, 0, none⟩]⟩,
  ⟨0x114, [(0x80, 8)], true,
    [⟨31, 0, .ro, 0, none⟩]⟩,
  ⟨0x118, [(0x80, 8)], true,
    [⟨31, 0, .ro, 0, none⟩]⟩,
  ⟨0x11c, [(0x80, 8)], true,
    [⟨31, 0, .ro, 0, none⟩]⟩,
  ⟨0x120, [(0x80, 8)], true,
    [⟨31, 0, .ro, 0, none⟩]⟩,
  ⟨0x124, [(0x80, 8)], true,
    [⟨31, 0, .ro, 0, none⟩]⟩,
  ⟨0x128, [(0x80, 8)], true,
    [⟨31, 0, .ro, 0, none⟩]⟩]

/-- The registers of block 8, CORD, part 1. -/
def regsCORD1 : List RegDef := [
  ⟨0x12c, [(0x80, 8)], true,
    [⟨31, 0, .ro, 0, none⟩]⟩,
  ⟨0x130, [(0x80, 8)], true,
    [⟨31, 0, .ro, 0, none⟩]⟩,
  ⟨0x134, [(0x80, 8)], true,
    [⟨31, 0, .ro, 0, none⟩]⟩,
  ⟨0x138, [(0x80, 8)], true,
    [⟨31, 0, .ro, 0, none⟩]⟩,
  ⟨0x13c, [(0x80, 8)], true,
    [⟨31, 0, .ro, 0, none⟩]⟩,
  ⟨0x1000, [(0x100, 8), (0x4, 64)], false,
    [⟨1, 0, .ro, 0, none⟩, ⟨2, 2, .ro, 0, none⟩, ⟨3, 3, .ro, 0, none⟩, ⟨4, 4, .ro, 0, none⟩, ⟨31, 12, .ro, 0, none⟩]⟩]

/-- The registers of block 8, CORD (05_cords.md Table 5-11). -/
def regsCORD : List RegDef := regsCORD0 ++ regsCORD1

/-- The registers of block 9, RING, part 0. -/
def regsRING0 : List RegDef := [
  ⟨0x0, [], false,
    [⟨0, 0, .wo, 0, none⟩]⟩,
  ⟨0x4, [], false,
    [⟨2, 0, .ro, 0, none⟩, ⟨5, 3, .ro, 0, none⟩, ⟨15, 8, .ro, 0, none⟩, ⟨16, 16, .ro, 0, none⟩, ⟨17, 17, .ro, 0, none⟩, ⟨18, 18, .ro, 0, none⟩, ⟨19, 19, .ro, 0, none⟩, ⟨20, 20, .ro, 0, none⟩, ⟨21, 21, .ro, 0, none⟩, ⟨22, 22, .ro, 0, none⟩, ⟨24, 23, .ro, 0, none⟩, ⟨26, 25, .ro, 0, none⟩]⟩,
  ⟨0x8, [], false,
    [⟨1, 0, .rw, 3, none⟩]⟩,
  ⟨0x10, [], true,
    [⟨31, 0, .ro, 0, none⟩]⟩,
  ⟨0x14, [], true,
    [⟨31, 0, .ro, 0, none⟩]⟩,
  ⟨0x18, [], true,
    [⟨31, 0, .ro, 0, none⟩]⟩,
  ⟨0x1c, [], true,
    [⟨31, 0, .ro, 0, none⟩]⟩,
  ⟨0x20, [], true,
    [⟨31, 0, .ro, 0, none⟩]⟩,
  ⟨0x24, [], true,
    [⟨31, 0, .ro, 0, none⟩]⟩,
  ⟨0x100, [], false,
    [⟨5, 0, .rw, 0x27, none⟩, ⟨13, 8, .rw, 7, none⟩, ⟨16, 16, .rw, 0, none⟩, ⟨31, 24, .rw, 0xa, none⟩]⟩,
  ⟨0x104, [], false,
    [⟨2, 0, .ro, 0, none⟩, ⟨3, 3, .ro, 0, none⟩, ⟨4, 4, .ro, 0, none⟩, ⟨5, 5, .ro, 0, none⟩, ⟨6, 6, .ro, 0, none⟩, ⟨7, 7, .w1c, 0, none⟩, ⟨8, 8, .w1c, 0, none⟩, ⟨9, 9, .w1c, 0, none⟩, ⟨15, 10, .ro, 0, none⟩, ⟨21, 16, .ro, 0, none⟩]⟩,
  ⟨0x108, [], false,
    [⟨31, 0, .ro, 0, none⟩]⟩,
  ⟨0x10c, [], false,
    [⟨31, 0, .ro, 0, none⟩]⟩,
  ⟨0x110, [], false,
    [⟨31, 0, .ro, 0, none⟩]⟩,
  ⟨0x114, [], false,
    [⟨31, 0, .ro, 0, none⟩]⟩,
  ⟨0x118, [], false,
    [⟨2, 0, .rw, 0, none⟩, ⟨6, 4, .rw, 1, none⟩]⟩,
  ⟨0x11c, [], false,
    [⟨0, 0, .wo, 0, none⟩]⟩,
  ⟨0x120, [], false,
    [⟨31, 0, .ro, 0, none⟩]⟩,
  ⟨0x124, [], false,
    [⟨2, 0, .ro, 0, none⟩, ⟨3, 3, .ro, 0, none⟩]⟩,
  ⟨0x140, [], true,
    [⟨31, 0, .ro, 0, none⟩]⟩]

/-- The registers of block 9, RING, part 1. -/
def regsRING1 : List RegDef := [
  ⟨0x144, [], true,
    [⟨31, 0, .ro, 0, none⟩]⟩,
  ⟨0x148, [], true,
    [⟨31, 0, .ro, 0, none⟩]⟩,
  ⟨0x14c, [], true,
    [⟨31, 0, .ro, 0, none⟩]⟩,
  ⟨0x150, [], true,
    [⟨31, 0, .ro, 0, none⟩]⟩,
  ⟨0x154, [], true,
    [⟨31, 0, .ro, 0, none⟩]⟩,
  ⟨0x158, [], true,
    [⟨31, 0, .ro, 0, none⟩]⟩,
  ⟨0x15c, [], true,
    [⟨31, 0, .ro, 0, none⟩]⟩,
  ⟨0x160, [], true,
    [⟨31, 0, .ro, 0, none⟩]⟩]

/-- The registers of block 9, RING (05_cords.md Table 5-12, 11_redundancy.md R315). -/
def regsRING : List RegDef := regsRING0 ++ regsRING1

/-- The registers of block 10, LAMP, part 0. -/
def regsLAMP0 : List RegDef := [
  ⟨0x0, [], false,
    [⟨0, 0, .wo, 0, none⟩, ⟨1, 1, .wo, 0, none⟩]⟩,
  ⟨0x4, [], false,
    [⟨0, 0, .w1c, 0, none⟩, ⟨1, 1, .ro, 0, none⟩, ⟨2, 2, .ro, 1, none⟩, ⟨3, 3, .ro, 0, none⟩, ⟨4, 4, .ro, 0, none⟩, ⟨5, 5, .ro, 0, none⟩, ⟨6, 6, .ro, 0, none⟩, ⟨7, 7, .w1c, 0, none⟩]⟩,
  ⟨0x8, [], false,
    [⟨13, 0, .ro, 0, none⟩, ⟨28, 16, .ro, 0, none⟩, ⟨31, 29, .ro, 0, none⟩]⟩,
  ⟨0xc, [], false,
    [⟨6, 0, .ro, 0, none⟩, ⟨11, 8, .ro, 0, none⟩, ⟨23, 16, .rw, 0x40, none⟩]⟩,
  ⟨0x10, [], false,
    [⟨1, 0, .rw, 0, some (0, 2)⟩]⟩,
  ⟨0x14, [], false,
    [⟨15, 0, .rw, 0, some (0, 32768)⟩]⟩,
  ⟨0x18, [], false,
    [⟨15, 0, .rw, 0x6666, some (0, 32768)⟩]⟩,
  ⟨0x1c, [], false,
    [⟨9, 0, .ro, 0x3e8, none⟩]⟩,
  ⟨0x20, [], false,
    [⟨15, 0, .ro, 0, none⟩]⟩,
  ⟨0x24, [], false,
    [⟨15, 0, .ro, 0, none⟩, ⟨31, 16, .ro, 0, none⟩]⟩,
  ⟨0x28, [], false,
    [⟨7, 0, .rw, 8, some (1, 255)⟩, ⟨11, 8, .rw, 0xf, none⟩]⟩,
  ⟨0x2c, [], false,
    [⟨15, 0, .ro, 0, none⟩, ⟨24, 16, .ro, 0, none⟩]⟩,
  ⟨0x30, [], false,
    [⟨17, 0, .wo, 0, none⟩, ⟨21, 20, .wo, 0, none⟩]⟩,
  ⟨0x34, [], false,
    [⟨12, 0, .ro, 0, none⟩]⟩,
  ⟨0x38, [], false,
    [⟨15, 0, .ro, 0, none⟩]⟩,
  ⟨0x40, [], true,
    [⟨31, 0, .ro, 0, none⟩]⟩,
  ⟨0x44, [], true,
    [⟨31, 0, .ro, 0, none⟩]⟩,
  ⟨0x48, [], true,
    [⟨31, 0, .ro, 0, none⟩]⟩,
  ⟨0x4c, [], true,
    [⟨31, 0, .ro, 0, none⟩]⟩,
  ⟨0x50, [], true,
    [⟨31, 0, .ro, 0, none⟩]⟩]

/-- The registers of block 10, LAMP, part 1. -/
def regsLAMP1 : List RegDef := [
  ⟨0x54, [], true,
    [⟨31, 0, .ro, 0, none⟩]⟩,
  ⟨0x58, [], true,
    [⟨31, 0, .ro, 0, none⟩]⟩,
  ⟨0x100, [(0x4, 8)], false,
    [⟨31, 0, .ro, 0, none⟩]⟩,
  ⟨0x200, [(0x4, 4)], false,
    [⟨6, 0, .rw, 0, none⟩, ⟨7, 7, .rw, 0, none⟩, ⟨15, 8, .rw, 0, none⟩, ⟨17, 16, .rw, 0, some (0, 2)⟩]⟩,
  ⟨0x210, [(0x4, 4)], false,
    [⟨15, 0, .ro, 0, none⟩, ⟨16, 16, .ro, 0, none⟩, ⟨17, 17, .w1c, 0, none⟩]⟩,
  ⟨0x220, [], false,
    [⟨15, 0, .rw, 0x3c0, none⟩, ⟨31, 16, .rw, 0x550, none⟩]⟩,
  ⟨0x224, [], false,
    [⟨9, 0, .rw, 0x1f4, some (0, 1000)⟩, ⟨25, 16, .rw, 0x2bc, some (0, 1000)⟩]⟩,
  ⟨0x228, [], false,
    [⟨9, 0, .ro, 0x3e8, none⟩, ⟨25, 16, .ro, 0x3e8, none⟩]⟩,
  ⟨0x230, [], false,
    [⟨15, 0, .rw, 0x8000, some (0, 32768)⟩, ⟨27, 16, .rw, 0x7d0, some (50, 4095)⟩, ⟨28, 28, .ro, 0, none⟩]⟩,
  ⟨0x240, [], false,
    [⟨7, 0, .rw, 0xa, some (1, 255)⟩, ⟨15, 8, .rw, 0xa, none⟩, ⟨23, 16, .rw, 0x14, none⟩, ⟨31, 24, .rw, 5, none⟩]⟩,
  ⟨0x244, [], false,
    [⟨15, 0, .rw, 0, none⟩, ⟨31, 16, .rw, 0, none⟩]⟩,
  ⟨0x248, [], false,
    [⟨15, 0, .ro, 0, none⟩, ⟨31, 16, .rw, 0, none⟩]⟩,
  ⟨0x24c, [], false,
    [⟨1, 0, .ro, 0, none⟩, ⟨2, 2, .ro, 0, none⟩, ⟨3, 3, .w1c, 0, none⟩, ⟨4, 4, .ro, 0, none⟩, ⟨5, 5, .w1c, 0, none⟩, ⟨6, 6, .w1c, 0, none⟩]⟩,
  ⟨0x250, [], false,
    [⟨6, 0, .rw, 0, none⟩, ⟨7, 7, .rw, 0, none⟩]⟩,
  ⟨0x260, [(0x4, 8)], false,
    [⟨31, 0, .rw, 0, none⟩]⟩,
  ⟨0x280, [], true,
    [⟨31, 0, .ro, 0, none⟩]⟩,
  ⟨0x284, [], true,
    [⟨31, 0, .ro, 0, none⟩]⟩,
  ⟨0x288, [], true,
    [⟨31, 0, .ro, 0, none⟩]⟩,
  ⟨0x28c, [], true,
    [⟨31, 0, .ro, 0, none⟩]⟩,
  ⟨0x290, [(0x4, 4)], true,
    [⟨31, 0, .ro, 0, none⟩]⟩]

/-- The registers of block 10, LAMP (06_lamp_correction.md R192, 08_lamp_board_drive.md R242). -/
def regsLAMP : List RegDef := regsLAMP0 ++ regsLAMP1

/-- The registers of block 11, PSQ, part 0. -/
def regsPSQ0 : List RegDef := [
  ⟨0x0, [(0x1000, 8)], false,
    [⟨0, 0, .wo, 0, none⟩, ⟨1, 1, .wo, 0, none⟩, ⟨2, 2, .wo, 0, none⟩]⟩,
  ⟨0x4, [(0x1000, 8)], false,
    [⟨0, 0, .ro, 0, none⟩, ⟨1, 1, .ro, 0, none⟩, ⟨2, 2, .ro, 0, none⟩, ⟨3, 3, .ro, 0, none⟩, ⟨4, 4, .ro, 0, none⟩, ⟨5, 5, .ro, 1, none⟩, ⟨6, 6, .ro, 1, none⟩, ⟨7, 7, .w1c, 0, none⟩, ⟨8, 8, .w1c, 0, none⟩, ⟨9, 9, .w1c, 0, none⟩, ⟨10, 10, .w1c, 0, none⟩, ⟨11, 11, .ro, 0, none⟩, ⟨12, 12, .w1c, 0, none⟩, ⟨13, 13, .ro, 0, none⟩]⟩,
  ⟨0x8, [(0x1000, 8)], false,
    [⟨7, 0, .ro, 0, none⟩, ⟨31, 16, .ro, 0, none⟩]⟩,
  ⟨0xc, [(0x1000, 8)], false,
    [⟨31, 0, .ro, 0, none⟩]⟩,
  ⟨0x10, [(0x1000, 8)], false,
    [⟨31, 0, .ro, 0, none⟩]⟩,
  ⟨0x14, [(0x1000, 8)], false,
    [⟨23, 0, .ro, 0x400, none⟩]⟩,
  ⟨0x18, [(0x1000, 8)], false,
    [⟨7, 0, .ro, 0, none⟩, ⟨19, 8, .ro, 0, none⟩, ⟨20, 20, .ro, 0, none⟩]⟩,
  ⟨0x1c, [(0x1000, 8)], false,
    [⟨23, 0, .rw, 0, none⟩, ⟨31, 31, .rw, 0, none⟩]⟩,
  ⟨0x20, [(0x1000, 8)], false,
    [⟨5, 0, .rw, 0x3f, none⟩]⟩,
  ⟨0x24, [(0x1000, 8)], false,
    [⟨13, 0, .ro, 0, none⟩, ⟨15, 14, .ro, 0, none⟩, ⟨16, 16, .rw, 0, none⟩, ⟨17, 17, .w1c, 0, none⟩]⟩,
  ⟨0x28, [(0x1000, 8)], false,
    [⟨31, 0, .ro, 0, none⟩]⟩,
  ⟨0x2c, [(0x1000, 8)], false,
    [⟨15, 0, .ro, 0, none⟩]⟩,
  ⟨0x30, [(0x1000, 8)], false,
    [⟨31, 0, .ro, 0, none⟩]⟩,
  ⟨0x34, [(0x1000, 8)], false,
    [⟨15, 0, .ro, 0, none⟩, ⟨16, 16, .ro, 0, none⟩]⟩,
  ⟨0x38, [(0x1000, 8)], false,
    [⟨31, 0, .ro, 0, none⟩]⟩,
  ⟨0x40, [(0x1000, 8)], true,
    [⟨31, 0, .ro, 0, none⟩]⟩,
  ⟨0x44, [(0x1000, 8)], true,
    [⟨31, 0, .ro, 0, none⟩]⟩,
  ⟨0x48, [(0x1000, 8)], true,
    [⟨15, 0, .ro, 0, none⟩]⟩,
  ⟨0x4c, [(0x1000, 8)], true,
    [⟨31, 0, .ro, 0, none⟩]⟩,
  ⟨0x50, [(0x1000, 8)], true,
    [⟨31, 0, .ro, 0, none⟩]⟩]

/-- The registers of block 11, PSQ, part 1. -/
def regsPSQ1 : List RegDef := [
  ⟨0x54, [(0x1000, 8)], true,
    [⟨31, 0, .ro, 0, none⟩]⟩,
  ⟨0x58, [(0x1000, 8)], true,
    [⟨31, 0, .ro, 0, none⟩]⟩,
  ⟨0x60, [(0x1000, 8)], false,
    [⟨2, 0, .rw, 0, some (0, 3)⟩, ⟨6, 4, .rw, 0, none⟩]⟩,
  ⟨0x64, [(0x1000, 8)], false,
    [⟨23, 0, .rw, 0, none⟩]⟩,
  ⟨0x68, [(0x1000, 8)], false,
    [⟨23, 0, .rw, 0, none⟩]⟩,
  ⟨0x6c, [(0x1000, 8)], false,
    [⟨31, 0, .rw, 0, none⟩]⟩,
  ⟨0x70, [(0x1000, 8)], false,
    [⟨30, 0, .rw, 1, none⟩]⟩,
  ⟨0x74, [(0x1000, 8)], false,
    [⟨23, 0, .ro, 0, none⟩, ⟨26, 24, .ro, 0, none⟩, ⟨28, 27, .ro, 0, none⟩]⟩,
  ⟨0x80, [(0x1000, 8), (0x4, 8)], false,
    [⟨0, 0, .rw, 0, none⟩, ⟨2, 1, .rw, 0, none⟩, ⟨6, 3, .rw, 0, none⟩]⟩,
  ⟨0xa0, [(0x1000, 8)], false,
    [⟨31, 0, .rw, 0, none⟩]⟩,
  ⟨0xa4, [(0x1000, 8)], false,
    [⟨15, 0, .rw, 0, none⟩, ⟨31, 31, .rw, 0, none⟩]⟩,
  ⟨0xb0, [(0x1000, 8)], false,
    [⟨13, 0, .rw, 0, none⟩]⟩,
  ⟨0xb4, [(0x1000, 8)], false,
    [⟨31, 0, .ro, 0, none⟩]⟩,
  ⟨0xb8, [(0x1000, 8)], false,
    [⟨11, 0, .rw, 0, none⟩]⟩,
  ⟨0xbc, [(0x1000, 8)], false,
    [⟨31, 0, .rw, 0, none⟩]⟩,
  ⟨0x100, [(0x1000, 8), (0x10, 16)], false,
    [⟨23, 0, .ro, 0, none⟩]⟩,
  ⟨0x104, [(0x1000, 8), (0x10, 16)], false,
    [⟨23, 0, .ro, 0x200, none⟩]⟩,
  ⟨0x108, [(0x1000, 8), (0x10, 16)], false,
    [⟨23, 0, .ro, 0x300, none⟩]⟩,
  ⟨0x200, [(0x1000, 8), (0x4, 32)], true,
    [⟨15, 0, .ro, 0, none⟩]⟩,
  ⟨0x8000, [], false,
    [⟨7, 0, .w1c, 0, none⟩, ⟨15, 8, .wo, 0, none⟩]⟩]

/-- The registers of block 11, PSQ, part 2. -/
def regsPSQ2 : List RegDef := [
  ⟨0x8100, [], false,
    [⟨0, 0, .wo, 0, none⟩]⟩,
  ⟨0x8104, [], false,
    [⟨7, 0, .rw, 0x14, none⟩, ⟨11, 8, .rw, 3, some (1, 15)⟩, ⟨31, 16, .rw, 0x32, some (1, 65535)⟩]⟩,
  ⟨0x8108, [], false,
    [⟨15, 0, .rw, 0x258, some (1, 65535)⟩]⟩,
  ⟨0x810c, [], false,
    [⟨0, 0, .ro, 0, none⟩, ⟨1, 1, .ro, 0, none⟩, ⟨2, 2, .ro, 0, none⟩, ⟨3, 3, .ro, 0, none⟩, ⟨4, 4, .ro, 0, none⟩, ⟨5, 5, .w1c, 0, none⟩, ⟨15, 8, .ro, 0, none⟩, ⟨24, 16, .ro, 0, none⟩]⟩,
  ⟨0x8110, [], false,
    [⟨31, 0, .ro, 0, none⟩]⟩,
  ⟨0x8120, [], true,
    [⟨31, 0, .ro, 0, none⟩]⟩,
  ⟨0x8124, [], true,
    [⟨31, 0, .ro, 0, none⟩]⟩,
  ⟨0x8128, [], true,
    [⟨31, 0, .ro, 0, none⟩]⟩,
  ⟨0x812c, [], true,
    [⟨31, 0, .ro, 0, none⟩]⟩,
  ⟨0x8130, [], true,
    [⟨31, 0, .ro, 0, none⟩]⟩,
  ⟨0x8134, [], true,
    [⟨31, 0, .ro, 0, none⟩]⟩,
  ⟨0x8138, [], true,
    [⟨31, 0, .ro, 0, none⟩]⟩,
  ⟨0x813c, [], true,
    [⟨31, 0, .ro, 0, none⟩]⟩,
  ⟨0x8140, [], true,
    [⟨31, 0, .ro, 0, none⟩]⟩,
  ⟨0x8144, [], true,
    [⟨31, 0, .ro, 0, none⟩]⟩]

/-- The registers of block 11, PSQ (07_pin_engine.md R225, 09_test_sites.md R260). -/
def regsPSQ : List RegDef := regsPSQ0 ++ regsPSQ1 ++ regsPSQ2

/-- The registers of block 12, PIN, part 0. -/
def regsPIN0 : List RegDef := [
  ⟨0x0, [(0x8, 256)], false,
    [⟨1, 0, .rw, 0, none⟩, ⟨3, 2, .rw, 0, none⟩, ⟨4, 4, .rw, 0, none⟩, ⟨9, 5, .rw, 0, none⟩, ⟨10, 10, .rw, 0, none⟩, ⟨13, 11, .rw, 0, some (0, 4)⟩, ⟨24, 16, .rw, 0, none⟩]⟩,
  ⟨0x4, [(0x8, 256)], false,
    [⟨7, 0, .rw, 0x4d, none⟩, ⟨15, 8, .rw, 0xb3, none⟩, ⟨17, 16, .rw, 0, none⟩, ⟨19, 18, .rw, 0, none⟩]⟩,
  ⟨0x800, [(0x10, 8)], false,
    [⟨2, 0, .rw, 4, some (0, 4)⟩, ⟨7, 4, .rw, 0xf, none⟩]⟩,
  ⟨0x804, [(0x10, 8)], false,
    [⟨11, 0, .ro, 0, none⟩, ⟨12, 12, .w1c, 0, none⟩, ⟨13, 13, .ro, 1, none⟩]⟩]

/-- The registers of block 12, PIN (07_pin_engine.md R226). -/
def regsPIN : List RegDef := regsPIN0

/-- The registers of block 13, TIM, part 0. -/
def regsTIM0 : List RegDef := [
  ⟨0x0, [], false,
    [⟨15, 0, .wo, 0, none⟩]⟩,
  ⟨0x100, [(0x40, 16)], false,
    [⟨1, 0, .rw, 0, some (0, 2)⟩, ⟨2, 2, .wo, 0, none⟩, ⟨12, 4, .rw, 0, none⟩, ⟨24, 16, .rw, 0, none⟩]⟩,
  ⟨0x104, [(0x40, 16)], false,
    [⟨15, 0, .rw, 1, some (1, 65535)⟩]⟩,
  ⟨0x108, [(0x40, 16)], false,
    [⟨9, 0, .rw, 0xa, none⟩]⟩,
  ⟨0x10c, [(0x40, 16)], false,
    [⟨31, 0, .rw, 0, none⟩]⟩,
  ⟨0x110, [(0x40, 16)], false,
    [⟨7, 0, .rw, 0, none⟩]⟩,
  ⟨0x114, [(0x40, 16)], false,
    [⟨15, 0, .rw, 0, none⟩]⟩,
  ⟨0x118, [(0x40, 16)], false,
    [⟨0, 0, .ro, 0, none⟩, ⟨1, 1, .w1c, 0, none⟩, ⟨2, 2, .ro, 0, none⟩, ⟨3, 3, .ro, 0, none⟩, ⟨4, 4, .ro, 0, none⟩, ⟨5, 5, .ro, 0, none⟩, ⟨6, 6, .ro, 0, none⟩]⟩,
  ⟨0x11c, [(0x40, 16), (0x4, 6)], false,
    [⟨31, 0, .ro, 0, none⟩]⟩]

/-- The registers of block 13, TIM (10_time_and_lock.md R285). -/
def regsTIM : List RegDef := regsTIM0

/-- The registers of block 14, REF, part 0. -/
def regsREF0 : List RegDef := [
  ⟨0x0, [], false,
    [⟨0, 0, .wo, 0, none⟩]⟩,
  ⟨0x4, [], false,
    [⟨0, 0, .rws, 0, none⟩, ⟨1, 1, .rws, 0, none⟩, ⟨2, 2, .rws, 0, none⟩, ⟨3, 3, .rws, 0, none⟩]⟩,
  ⟨0x8, [], false,
    [⟨7, 0, .rw, 0x14, some (1, 255)⟩, ⟨15, 8, .rw, 0x64, some (1, 255)⟩, ⟨23, 16, .rw, 0x64, some (1, 100)⟩, ⟨31, 24, .rw, 8, some (0, 60)⟩]⟩,
  ⟨0xc, [], false,
    [⟨1, 0, .ro, 3, none⟩, ⟨3, 2, .ro, 0, none⟩, ⟨5, 4, .ro, 0, none⟩, ⟨7, 6, .ro, 0, none⟩, ⟨8, 8, .ro, 0, none⟩, ⟨9, 9, .ro, 0, none⟩, ⟨10, 10, .ro, 0, none⟩, ⟨11, 11, .ro, 0, none⟩, ⟨12, 12, .ro, 0, none⟩, ⟨13, 13, .ro, 0, none⟩, ⟨14, 14, .ro, 0, none⟩, ⟨15, 15, .ro, 0, none⟩, ⟨16, 16, .ro, 1, none⟩]⟩,
  ⟨0x10, [(0x10, 2)], false,
    [⟨7, 0, .rw, 0x60, some (0, 224)⟩, ⟨8, 8, .rw, 0, none⟩, ⟨10, 9, .rw, 1, none⟩, ⟨12, 11, .rw, 0, some (0, 2)⟩]⟩,
  ⟨0x14, [(0x10, 2)], false,
    [⟨31, 0, .rw, 0, none⟩]⟩,
  ⟨0x18, [(0x10, 2)], false,
    [⟨13, 0, .rw, 0x64, none⟩]⟩,
  ⟨0x1c, [(0x10, 2)], false,
    [⟨31, 0, .ro, 0, none⟩]⟩,
  ⟨0x30, [], false,
    [⟨31, 0, .rw, 0, none⟩]⟩,
  ⟨0x34, [], false,
    [⟨31, 0, .ro, 0, none⟩]⟩,
  ⟨0x38, [], false,
    [⟨31, 0, .ro, 0, none⟩]⟩,
  ⟨0x3c, [], false,
    [⟨31, 0, .ro, 0, none⟩]⟩,
  ⟨0x40, [], false,
    [⟨31, 0, .ro, 0, none⟩]⟩,
  ⟨0x44, [], false,
    [⟨31, 0, .ro, 0, none⟩]⟩,
  ⟨0x48, [], false,
    [⟨5, 0, .ro, 0, none⟩]⟩,
  ⟨0x4c, [], false,
    [⟨31, 0, .ro, 0, none⟩]⟩,
  ⟨0x50, [], false,
    [⟨31, 0, .rw, 0, none⟩]⟩,
  ⟨0x54, [], false,
    [⟨31, 0, .rw, 0, none⟩]⟩,
  ⟨0x58, [], false,
    [⟨0, 0, .rw, 0, none⟩]⟩,
  ⟨0x60, [], false,
    [⟨0, 0, .rw, 0, none⟩, ⟨1, 1, .rw, 0, none⟩, ⟨15, 4, .rw, 0xa, none⟩, ⟨25, 16, .rw, 0x64, none⟩]⟩]

/-- The registers of block 14, REF, part 1. -/
def regsREF1 : List RegDef := [
  ⟨0x64, [], false,
    [⟨31, 0, .rw, 0, none⟩]⟩,
  ⟨0x80, [], true,
    [⟨31, 0, .ro, 0, none⟩]⟩,
  ⟨0x84, [], true,
    [⟨31, 0, .ro, 0, none⟩]⟩,
  ⟨0x88, [], true,
    [⟨31, 0, .ro, 0, none⟩]⟩,
  ⟨0x8c, [], true,
    [⟨31, 0, .ro, 0, none⟩]⟩,
  ⟨0x90, [], true,
    [⟨31, 0, .ro, 0, none⟩]⟩,
  ⟨0x94, [], true,
    [⟨31, 0, .ro, 0, none⟩]⟩,
  ⟨0x98, [], true,
    [⟨31, 0, .ro, 0, none⟩]⟩,
  ⟨0x9c, [], true,
    [⟨31, 0, .ro, 0, none⟩]⟩,
  ⟨0xa0, [], true,
    [⟨31, 0, .ro, 0, none⟩]⟩,
  ⟨0xa4, [], true,
    [⟨31, 0, .ro, 0, none⟩]⟩,
  ⟨0xa8, [], true,
    [⟨31, 0, .ro, 0, none⟩]⟩,
  ⟨0xac, [], true,
    [⟨31, 0, .ro, 0, none⟩]⟩]

/-- The registers of block 14, REF (10_time_and_lock.md R284). -/
def regsREF : List RegDef := regsREF0 ++ regsREF1

/-- The registers of block 15, NAND, part 0. -/
def regsNAND0 : List RegDef := [
  ⟨0x0, [], false,
    [⟨0, 0, .wo, 0, none⟩, ⟨1, 1, .wo, 0, none⟩]⟩,
  ⟨0x4, [], false,
    [⟨0, 0, .ro, 0, none⟩, ⟨1, 1, .ro, 0, none⟩, ⟨2, 2, .ro, 0, none⟩, ⟨3, 3, .ro, 0, none⟩, ⟨4, 4, .ro, 0, none⟩, ⟨5, 5, .ro, 0, none⟩, ⟨6, 6, .w1c, 0, none⟩, ⟨7, 7, .w1c, 0, none⟩, ⟨8, 8, .ro, 0, none⟩]⟩,
  ⟨0x8, [], false,
    [⟨1, 0, .ro, 0, none⟩, ⟨3, 2, .ro, 0, none⟩, ⟨4, 4, .ro, 0, none⟩, ⟨7, 5, .ro, 0, none⟩, ⟨31, 16, .ro, 0, none⟩]⟩,
  ⟨0xc, [], false,
    [⟨15, 0, .ro, 0, none⟩, ⟨31, 16, .ro, 0, none⟩]⟩,
  ⟨0x10, [], false,
    [⟨0, 0, .rw, 1, none⟩, ⟨7, 4, .rw, 8, some (1, 15)⟩, ⟨12, 8, .rw, 0xc, some (1, 24)⟩]⟩,
  ⟨0x14, [], false,
    [⟨6, 0, .rw, 0x1e, some (1, 90)⟩, ⟨31, 16, .rw, 0x64, some (1, 65535)⟩]⟩,
  ⟨0x18, [], false,
    [⟨15, 0, .rw, 0x1388, none⟩]⟩,
  ⟨0x1c, [], false,
    [⟨15, 0, .rw, 0x7d0, none⟩]⟩,
  ⟨0x20, [], false,
    [⟨31, 0, .ro, 0, none⟩]⟩,
  ⟨0x24, [], false,
    [⟨31, 0, .ro, 0, none⟩]⟩,
  ⟨0x28, [], false,
    [⟨15, 0, .ro, 0, none⟩, ⟨31, 16, .ro, 0, none⟩]⟩,
  ⟨0x40, [(0x4, 6)], false,
    [⟨0, 0, .ro, 0, none⟩, ⟨1, 1, .ro, 1, none⟩, ⟨3, 2, .ro, 0, none⟩, ⟨5, 4, .ro, 0, none⟩, ⟨6, 6, .ro, 0, none⟩, ⟨15, 8, .ro, 0, none⟩]⟩,
  ⟨0x80, [], true,
    [⟨31, 0, .ro, 0, none⟩]⟩,
  ⟨0x84, [], true,
    [⟨31, 0, .ro, 0, none⟩]⟩,
  ⟨0x88, [], true,
    [⟨31, 0, .ro, 0, none⟩]⟩,
  ⟨0x8c, [], true,
    [⟨31, 0, .ro, 0, none⟩]⟩,
  ⟨0x90, [], true,
    [⟨31, 0, .ro, 0, none⟩]⟩,
  ⟨0x94, [], true,
    [⟨31, 0, .ro, 0, none⟩]⟩,
  ⟨0x98, [], true,
    [⟨31, 0, .ro, 0, none⟩]⟩,
  ⟨0x9c, [], true,
    [⟨31, 0, .ro, 0, none⟩]⟩]

/-- The registers of block 15, NAND, part 1. -/
def regsNAND1 : List RegDef := [
  ⟨0xa0, [], true,
    [⟨31, 0, .ro, 0, none⟩]⟩,
  ⟨0xa4, [], true,
    [⟨31, 0, .ro, 0, none⟩]⟩]

/-- The registers of block 15, NAND (14_storage.md R393). -/
def regsNAND : List RegDef := regsNAND0 ++ regsNAND1

/-- The registers of block 16, NVJ, part 0. -/
def regsNVJ0 : List RegDef := [
  ⟨0x0, [], false,
    [⟨0, 0, .wo, 0, none⟩]⟩,
  ⟨0x4, [], false,
    [⟨0, 0, .ro, 0, none⟩, ⟨1, 1, .w1c, 0, none⟩, ⟨2, 2, .ro, 0, none⟩]⟩,
  ⟨0x8, [], false,
    [⟨13, 0, .ro, 0, none⟩]⟩,
  ⟨0xc, [], false,
    [⟨31, 0, .ro, 0, none⟩]⟩,
  ⟨0x10, [], false,
    [⟨31, 0, .ro, 0, none⟩]⟩,
  ⟨0x14, [], false,
    [⟨13, 0, .ro, 0, none⟩]⟩,
  ⟨0x20, [], true,
    [⟨31, 0, .ro, 0, none⟩]⟩,
  ⟨0x24, [], true,
    [⟨31, 0, .ro, 0, none⟩]⟩,
  ⟨0x28, [], true,
    [⟨31, 0, .ro, 0, none⟩]⟩]

/-- The registers of block 16, NVJ (14_storage.md R394). -/
def regsNVJ : List RegDef := regsNVJ0

/-- The registers of block 17, KILN, part 0. -/
def regsKILN0 : List RegDef := [
  ⟨0x0, [], false,
    [⟨0, 0, .wo, 0, none⟩, ⟨1, 1, .wo, 0, none⟩]⟩,
  ⟨0x4, [], false,
    [⟨0, 0, .ro, 0, none⟩, ⟨1, 1, .ro, 0, none⟩, ⟨2, 2, .w1c, 0, none⟩, ⟨3, 3, .w1c, 0, none⟩, ⟨8, 4, .ro, 0, none⟩]⟩,
  ⟨0x8, [], false,
    [⟨4, 0, .rw, 8, some (2, 20)⟩, ⟨15, 8, .rw, 0x1e, some (5, 255)⟩]⟩,
  ⟨0xc, [], false,
    [⟨15, 0, .ro, 0, none⟩, ⟨31, 16, .ro, 0, none⟩]⟩,
  ⟨0x20, [], false,
    [⟨2, 0, .rw, 0, some (0, 5)⟩, ⟨17, 8, .rw, 0, none⟩]⟩,
  ⟨0x24, [], false,
    [⟨7, 0, .ro, 0, none⟩, ⟨15, 8, .ro, 0, none⟩, ⟨23, 16, .ro, 0, none⟩]⟩,
  ⟨0x40, [], true,
    [⟨31, 0, .ro, 0, none⟩]⟩,
  ⟨0x44, [], true,
    [⟨31, 0, .ro, 0, none⟩]⟩,
  ⟨0x48, [], true,
    [⟨31, 0, .ro, 0, none⟩]⟩,
  ⟨0x4c, [], true,
    [⟨31, 0, .ro, 0, none⟩]⟩]

/-- The registers of block 17, KILN (18_ageing_kiln.md R468). -/
def regsKILN : List RegDef := regsKILN0

/-- The registers of block 18, THERM, part 0. -/
def regsTHERM0 : List RegDef := [
  ⟨0x0, [], false,
    [⟨0, 0, .wo, 0, none⟩]⟩,
  ⟨0x4, [], false,
    [⟨1, 0, .ro, 0, none⟩, ⟨10, 4, .ro, 0, none⟩, ⟨11, 11, .ro, 0, none⟩, ⟨12, 12, .ro, 0, none⟩, ⟨13, 13, .ro, 0, none⟩]⟩,
  ⟨0x8, [], false,
    [⟨15, 0, .ro, 0, none⟩, ⟨31, 16, .ro, 0, none⟩]⟩,
  ⟨0xc, [], false,
    [⟨5, 0, .rw, 0xa, some (1, 60)⟩, ⟨13, 8, .rw, 5, some (1, 60)⟩, ⟨23, 16, .rw, 0x1e, some (1, 255)⟩, ⟨27, 24, .rw, 5, some (1, 15)⟩]⟩,
  ⟨0x10, [], false,
    [⟨9, 0, .rw, 0x64, some (10, 500)⟩, ⟨25, 16, .rw, 0x1f4, some (0, 1000)⟩]⟩,
  ⟨0x14, [], false,
    [⟨6, 0, .rw, 0x5f, some (60, 100)⟩]⟩,
  ⟨0x18, [], false,
    [⟨11, 0, .ro, 0, none⟩]⟩,
  ⟨0x40, [(0x4, 12)], false,
    [⟨15, 0, .ro, 0, none⟩]⟩,
  ⟨0x80, [], true,
    [⟨31, 0, .ro, 0, none⟩]⟩,
  ⟨0x84, [], true,
    [⟨31, 0, .ro, 0, none⟩]⟩,
  ⟨0x88, [], true,
    [⟨31, 0, .ro, 0, none⟩]⟩,
  ⟨0x8c, [], true,
    [⟨31, 0, .ro, 0, none⟩]⟩,
  ⟨0x90, [], true,
    [⟨31, 0, .ro, 0, none⟩]⟩]

/-- The registers of block 18, THERM (17_power_clocks_thermal.md R456). -/
def regsTHERM : List RegDef := regsTHERM0

/-- The registers of block 19, AGE, part 0. -/
def regsAGE0 : List RegDef := [
  ⟨0x0, [], false,
    [⟨0, 0, .wo, 0, none⟩, ⟨1, 1, .wo, 0, none⟩]⟩,
  ⟨0x4, [], false,
    [⟨0, 0, .ro, 0, none⟩, ⟨1, 1, .w1c, 0, none⟩, ⟨2, 2, .w1c, 0, none⟩, ⟨3, 3, .w1c, 0, none⟩, ⟨4, 4, .ro, 0, none⟩, ⟨5, 5, .w1c, 0, none⟩]⟩,
  ⟨0x8, [], false,
    [⟨31, 0, .ro, 0, none⟩]⟩,
  ⟨0xc, [], false,
    [⟨31, 0, .ro, 0, none⟩]⟩,
  ⟨0x10, [], false,
    [⟨15, 0, .rw, 0x2bc, none⟩, ⟨31, 16, .rw, 0x352, none⟩]⟩,
  ⟨0x14, [], false,
    [⟨7, 0, .rw, 0xa, none⟩, ⟨15, 8, .rw, 0xa, none⟩, ⟨19, 16, .rw, 0, none⟩, ⟨20, 20, .rw, 1, none⟩]⟩,
  ⟨0x18, [], false,
    [⟨15, 0, .ro, 0x2ee, none⟩, ⟨31, 16, .rw, 0x2ee, none⟩]⟩,
  ⟨0x1c, [], false,
    [⟨5, 0, .rw, 8, none⟩, ⟨15, 8, .rw, 0x14, none⟩, ⟨16, 16, .rw, 0, none⟩]⟩,
  ⟨0x20, [(0x4, 8)], false,
    [⟨15, 0, .rw, 0, none⟩, ⟨31, 16, .rw, 0, none⟩]⟩,
  ⟨0x40, [], false,
    [⟨15, 0, .rw, 0, none⟩, ⟨31, 31, .rw, 0, none⟩]⟩,
  ⟨0x44, [], false,
    [⟨15, 0, .ro, 0x8000, none⟩]⟩,
  ⟨0x80, [(0x4, 16)], false,
    [⟨15, 0, .ro, 0, none⟩, ⟨16, 16, .ro, 0, none⟩]⟩,
  ⟨0xc0, [], true,
    [⟨31, 0, .ro, 0, none⟩]⟩,
  ⟨0xc4, [], true,
    [⟨31, 0, .ro, 0, none⟩]⟩,
  ⟨0xc8, [], true,
    [⟨31, 0, .ro, 0, none⟩]⟩,
  ⟨0xcc, [], true,
    [⟨31, 0, .ro, 0, none⟩]⟩]

/-- The registers of block 19, AGE (18_ageing_kiln.md R469). -/
def regsAGE : List RegDef := regsAGE0

/-- The registers of block 20, CAM, part 0. -/
def regsCAM0 : List RegDef := [
  ⟨0x0, [], false,
    [⟨0, 0, .wo, 0, none⟩, ⟨1, 1, .wo, 0, none⟩, ⟨2, 2, .rw, 0, none⟩]⟩,
  ⟨0x4, [], false,
    [⟨0, 0, .rw, 0, none⟩, ⟨5, 1, .rw, 8, some (8, 16)⟩, ⟨6, 6, .rw, 0, none⟩, ⟨7, 7, .rw, 0, none⟩, ⟨8, 8, .rw, 0, none⟩, ⟨9, 9, .rw, 0, none⟩, ⟨11, 10, .rw, 0, none⟩]⟩,
  ⟨0x8, [], false,
    [⟨13, 0, .rw, 0, some (32, 8192)⟩, ⟨29, 16, .rw, 0, some (18, 8192)⟩]⟩,
  ⟨0xc, [], false,
    [⟨31, 0, .rw, 0, none⟩]⟩,
  ⟨0x10, [], false,
    [⟨15, 0, .rw, 0, none⟩]⟩,
  ⟨0x14, [], false,
    [⟨0, 0, .ro, 0, none⟩, ⟨1, 1, .w1c, 0, none⟩, ⟨2, 2, .w1c, 0, none⟩, ⟨3, 3, .w1c, 0, none⟩, ⟨4, 4, .w1c, 0, none⟩, ⟨5, 5, .w1c, 0, none⟩, ⟨6, 6, .w1c, 0, none⟩, ⟨7, 7, .ro, 0, none⟩, ⟨8, 8, .w1c, 0, none⟩, ⟨9, 9, .ro, 0, none⟩, ⟨23, 16, .ro, 0, none⟩, ⟨31, 24, .ro, 0, none⟩]⟩,
  ⟨0x18, [], false,
    [⟨6, 0, .rw, 0, none⟩, ⟨7, 7, .rw, 0, none⟩, ⟨8, 8, .rw, 0, none⟩, ⟨11, 9, .rw, 0, none⟩, ⟨15, 12, .rw, 2, none⟩]⟩,
  ⟨0x20, [(0x4, 8)], false,
    [⟨15, 0, .rw, 0, none⟩, ⟨31, 16, .rw, 0, none⟩]⟩,
  ⟨0x60, [], true,
    [⟨31, 0, .ro, 0, none⟩]⟩,
  ⟨0x64, [], true,
    [⟨31, 0, .ro, 0, none⟩]⟩,
  ⟨0x68, [], true,
    [⟨31, 0, .ro, 0, none⟩]⟩,
  ⟨0x6c, [], true,
    [⟨31, 0, .ro, 0, none⟩]⟩,
  ⟨0x70, [], true,
    [⟨31, 0, .ro, 0, none⟩]⟩,
  ⟨0x74, [], true,
    [⟨31, 0, .ro, 0, none⟩]⟩,
  ⟨0x78, [], true,
    [⟨31, 0, .ro, 0, none⟩]⟩,
  ⟨0x7c, [], true,
    [⟨31, 0, .ro, 0, none⟩]⟩,
  ⟨0x1000, [(0x400, 4), (0x4, 256)], false,
    [⟨31, 0, .ro, 0, none⟩]⟩,
  ⟨0x4000, [(0x1000, 4), (0x4, 576)], false,
    [⟨15, 0, .ro, 0, none⟩, ⟨16, 16, .ro, 0, none⟩]⟩]

/-- The registers of block 20, CAM (19_camera_audio.md R477). -/
def regsCAM : List RegDef := regsCAM0

/-- The registers of block 21, AUD, part 0. -/
def regsAUD0 : List RegDef := [
  ⟨0x0, [], false,
    [⟨0, 0, .wo, 0, none⟩]⟩,
  ⟨0x4, [], false,
    [⟨0, 0, .rw, 0, none⟩]⟩,
  ⟨0x10, [], false,
    [⟨7, 0, .rw, 0, none⟩, ⟨10, 8, .rw, 0, none⟩, ⟨11, 11, .rw, 0, none⟩, ⟨13, 12, .rw, 0, none⟩, ⟨21, 16, .rw, 0xa, some (1, 40)⟩]⟩,
  ⟨0x14, [], false,
    [⟨15, 0, .rw, 0x9c40, none⟩]⟩,
  ⟨0x100, [(0x40, 4)], false,
    [⟨0, 0, .rw, 0, none⟩, ⟨1, 1, .rw, 0, none⟩, ⟨5, 2, .rw, 1, none⟩, ⟨7, 6, .rw, 1, some (0, 2)⟩, ⟨8, 8, .rw, 0, none⟩, ⟨9, 9, .rw, 0, none⟩, ⟨12, 10, .rw, 0, none⟩, ⟨23, 16, .rw, 0xa, some (1, 255)⟩]⟩,
  ⟨0x104, [(0x40, 4)], false,
    [⟨31, 0, .rw, 0x76543210, none⟩]⟩,
  ⟨0x108, [(0x40, 4)], false,
    [⟨31, 0, .rw, 0xfedcba98, none⟩]⟩,
  ⟨0x10c, [(0x40, 4)], false,
    [⟨15, 0, .rw, 3, none⟩]⟩,
  ⟨0x110, [(0x40, 4)], false,
    [⟨15, 0, .rw, 0, none⟩]⟩,
  ⟨0x114, [(0x40, 4)], false,
    [⟨0, 0, .ro, 0, none⟩, ⟨1, 1, .ro, 0, none⟩, ⟨2, 2, .w1c, 0, none⟩, ⟨3, 3, .w1c, 0, none⟩, ⟨4, 4, .w1c, 0, none⟩, ⟨21, 8, .ro, 0, none⟩]⟩,
  ⟨0x120, [(0x40, 4)], true,
    [⟨31, 0, .ro, 0, none⟩]⟩,
  ⟨0x124, [(0x40, 4)], true,
    [⟨31, 0, .ro, 0, none⟩]⟩,
  ⟨0x128, [(0x40, 4)], true,
    [⟨31, 0, .ro, 0, none⟩]⟩,
  ⟨0x12c, [(0x40, 4)], true,
    [⟨31, 0, .ro, 0, none⟩]⟩,
  ⟨0x130, [(0x40, 4)], true,
    [⟨31, 0, .ro, 0, none⟩]⟩]

/-- The registers of block 21, AUD (19_camera_audio.md R484). -/
def regsAUD : List RegDef := regsAUD0

/-- The registers of block 22, TRACE, part 0. -/
def regsTRACE0 : List RegDef := [
  ⟨0x0, [], false,
    [⟨0, 0, .wo, 0, none⟩, ⟨1, 1, .rw, 1, none⟩, ⟨2, 2, .rw, 1, none⟩, ⟨3, 3, .rw, 0, none⟩, ⟨4, 4, .rw, 1, none⟩, ⟨5, 5, .wo, 0, none⟩]⟩,
  ⟨0x4, [], false,
    [⟨8, 0, .rw, 0x1ff, none⟩]⟩,
  ⟨0x8, [], false,
    [⟨0, 0, .ro, 0, none⟩, ⟨1, 1, .ro, 0, none⟩, ⟨2, 2, .ro, 0, none⟩, ⟨3, 3, .ro, 0, none⟩]⟩,
  ⟨0xc, [], false,
    [⟨12, 0, .ro, 0, none⟩]⟩,
  ⟨0x10, [], false,
    [⟨12, 0, .rw, 0, none⟩]⟩,
  ⟨0x14, [], false,
    [⟨31, 0, .ro, 0, none⟩]⟩,
  ⟨0x18, [], false,
    [⟨31, 0, .ro, 0, none⟩]⟩,
  ⟨0x1c, [], false,
    [⟨31, 0, .wo, 0, none⟩]⟩,
  ⟨0x20, [], false,
    [⟨0, 0, .rw, 0, none⟩, ⟨1, 1, .wo, 0, none⟩, ⟨2, 2, .rw, 0, none⟩, ⟨3, 3, .wo, 0, none⟩, ⟨11, 4, .wo, 0, none⟩]⟩,
  ⟨0x40, [], true,
    [⟨31, 0, .ro, 0, none⟩]⟩,
  ⟨0x44, [], true,
    [⟨31, 0, .ro, 0, none⟩]⟩]

/-- The registers of block 22, TRACE (23_debug_trace.md R557). -/
def regsTRACE : List RegDef := regsTRACE0

/-- The registers of block 23, LANE, part 0. -/
def regsLANE0 : List RegDef := [
  ⟨0x0, [], false,
    [⟨0, 0, .wo, 0, none⟩]⟩,
  ⟨0x4, [], false,
    [⟨0, 0, .ro, 0, none⟩, ⟨1, 1, .ro, 0, none⟩, ⟨2, 2, .ro, 0, none⟩, ⟨3, 3, .ro, 0, none⟩, ⟨4, 4, .ro, 0, none⟩]⟩,
  ⟨0x8, [], false,
    [⟨13, 0, .rw, 0xc80, some (3000, 10000)⟩, ⟨22, 16, .rw, 0x32, some (10, 100)⟩]⟩,
  ⟨0x40, [(0x4, 8)], false,
    [⟨0, 0, .rw, 1, none⟩, ⟨15, 8, .rw, 0xa, some (5, 255)⟩, ⟨23, 16, .rw, 0x14, some (1, 255)⟩, ⟨31, 24, .rw, 0x14, none⟩]⟩,
  ⟨0x60, [(0x4, 2)], false,
    [⟨0, 0, .rw, 0, none⟩, ⟨15, 8, .rw, 0xa, some (5, 255)⟩, ⟨23, 16, .rw, 0x14, some (1, 255)⟩, ⟨31, 24, .rw, 0x14, none⟩]⟩,
  ⟨0x100, [(0x40, 24)], false,
    [⟨1, 0, .ro, 0, none⟩, ⟨3, 2, .ro, 0, none⟩, ⟨5, 4, .ro, 0, none⟩, ⟨7, 6, .ro, 0, none⟩, ⟨11, 8, .ro, 0, none⟩, ⟨12, 12, .w1c, 0, none⟩]⟩,
  ⟨0x104, [(0x40, 24)], false,
    [⟨7, 0, .ro, 0, none⟩, ⟨15, 8, .ro, 0, none⟩, ⟨23, 16, .ro, 0, none⟩, ⟨27, 24, .ro, 0, none⟩]⟩,
  ⟨0x108, [(0x40, 24)], false,
    [⟨0, 0, .wo, 0, none⟩, ⟨1, 1, .wo, 0, none⟩, ⟨2, 2, .rw, 0, none⟩, ⟨13, 8, .rw, 0, none⟩, ⟨23, 16, .rw, 0, none⟩, ⟨29, 24, .rw, 0x1e, some (20, 40)⟩]⟩,
  ⟨0x10c, [(0x40, 24)], false,
    [⟨15, 0, .rw, 0, none⟩]⟩,
  ⟨0x110, [(0x40, 24)], false,
    [⟨0, 0, .ro, 0, none⟩, ⟨1, 1, .w1c, 0, none⟩, ⟨2, 2, .ro, 0, none⟩, ⟨3, 3, .ro, 0, none⟩, ⟨4, 4, .ro, 0, none⟩]⟩,
  ⟨0x114, [(0x40, 24)], false,
    [⟨31, 0, .ro, 0, none⟩]⟩,
  ⟨0x118, [(0x40, 24)], false,
    [⟨31, 0, .ro, 0, none⟩]⟩,
  ⟨0x11c, [(0x40, 24)], false,
    [⟨15, 0, .ro, 0, none⟩]⟩,
  ⟨0x120, [(0x40, 24)], false,
    [⟨7, 0, .ro, 0, none⟩, ⟨15, 8, .ro, 0, none⟩, ⟨23, 16, .ro, 0, none⟩, ⟨31, 24, .ro, 0, none⟩]⟩,
  ⟨0x124, [(0x40, 24)], true,
    [⟨31, 0, .ro, 0, none⟩]⟩,
  ⟨0x128, [(0x40, 24)], true,
    [⟨31, 0, .ro, 0, none⟩]⟩,
  ⟨0x12c, [(0x40, 24)], true,
    [⟨31, 0, .ro, 0, none⟩]⟩,
  ⟨0x130, [(0x40, 24)], true,
    [⟨31, 0, .ro, 0, none⟩]⟩]

/-- The registers of block 23, LANE (16_serial_lanes.md R434). -/
def regsLANE : List RegDef := regsLANE0

/-- The registers of block 24, SUP, part 0. -/
def regsSUP0 : List RegDef := [
  ⟨0x0, [], false,
    [⟨0, 0, .wo, 0, none⟩]⟩,
  ⟨0x4, [], false,
    [⟨3, 0, .ro, 0, none⟩, ⟨4, 4, .ro, 0, none⟩, ⟨11, 8, .w1c, 0, none⟩, ⟨12, 12, .ro, 0, none⟩]⟩,
  ⟨0x8, [], false,
    [⟨6, 0, .ro, 0, none⟩, ⟨14, 8, .ro, 0, none⟩]⟩,
  ⟨0x10, [(0x4, 1)], false,
    [⟨11, 0, .ro, 0, none⟩, ⟨27, 16, .ro, 0x2ee, none⟩]⟩,
  ⟨0x14, [(0x4, 2)], false,
    [⟨11, 0, .ro, 0, none⟩, ⟨27, 16, .ro, 0x320, none⟩]⟩,
  ⟨0x1c, [(0x4, 1)], false,
    [⟨11, 0, .ro, 0, none⟩, ⟨27, 16, .ro, 0x258, none⟩]⟩,
  ⟨0x40, [(0x4, 4)], true,
    [⟨31, 0, .ro, 0, none⟩]⟩,
  ⟨0x50, [(0x4, 4)], true,
    [⟨31, 0, .ro, 0, none⟩]⟩]

/-- The registers of block 24, SUP (17_power_clocks_thermal.md R455). -/
def regsSUP : List RegDef := regsSUP0

/-- The registers of block 25, TEN, part 0. -/
def regsTEN0 : List RegDef := [
  ⟨0x0, [], false,
    [⟨0, 0, .wo, 0, none⟩]⟩,
  ⟨0x4, [], false,
    [⟨3, 0, .ro, 0, none⟩, ⟨4, 4, .ro, 0, none⟩, ⟨20, 5, .ro, 0, none⟩]⟩,
  ⟨0x10, [], true,
    [⟨31, 0, .ro, 0, none⟩]⟩,
  ⟨0x14, [], true,
    [⟨31, 0, .ro, 0, none⟩]⟩,
  ⟨0x18, [], true,
    [⟨31, 0, .ro, 0, none⟩]⟩,
  ⟨0x1c, [], true,
    [⟨31, 0, .ro, 0, none⟩]⟩,
  ⟨0x100, [(0x20, 16)], false,
    [⟨0, 0, .ro, 0, none⟩, ⟨1, 1, .ro, 0, none⟩, ⟨6, 2, .ro, 0, none⟩]⟩,
  ⟨0x104, [(0x20, 16)], false,
    [⟨31, 0, .ro, 0, none⟩]⟩,
  ⟨0x108, [(0x20, 16)], false,
    [⟨31, 0, .ro, 0, none⟩]⟩,
  ⟨0x10c, [(0x20, 16)], false,
    [⟨31, 0, .ro, 0, none⟩]⟩,
  ⟨0x110, [(0x20, 16)], false,
    [⟨31, 0, .ro, 0, none⟩]⟩,
  ⟨0x114, [(0x20, 16)], false,
    [⟨31, 0, .ro, 0, none⟩]⟩,
  ⟨0x118, [(0x20, 16)], false,
    [⟨31, 0, .ro, 0, none⟩]⟩,
  ⟨0x11c, [(0x20, 16)], false,
    [⟨31, 0, .ro, 0, none⟩]⟩]

/-- The registers of block 25, TEN (13_tenants_proof.md Table 13-5). -/
def regsTEN : List RegDef := regsTEN0

/-- The registers of block 26, POP, part 0. -/
def regsPOP0 : List RegDef := [
  ⟨0x0, [], false,
    [⟨0, 0, .wo, 0, none⟩, ⟨1, 1, .wo, 0, none⟩]⟩,
  ⟨0x4, [], false,
    [⟨0, 0, .ro, 0, none⟩, ⟨1, 1, .ro, 0, none⟩, ⟨2, 2, .ro, 0, none⟩, ⟨3, 3, .ro, 0, none⟩, ⟨4, 4, .ro, 0, none⟩, ⟨5, 5, .ro, 0, none⟩]⟩,
  ⟨0x8, [], false,
    [⟨10, 0, .rw, 0x3c, some (1, 1440)⟩]⟩,
  ⟨0xc, [], false,
    [⟨31, 0, .rw, 0, none⟩]⟩,
  ⟨0x10, [], false,
    [⟨15, 0, .rw, 0x3e8, some (2, 60000)⟩, ⟨25, 16, .rw, 0x1f4, some (1, 1000)⟩]⟩,
  ⟨0x14, [], false,
    [⟨9, 0, .rw, 0x3c, none⟩]⟩,
  ⟨0x18, [], false,
    [⟨31, 0, .ro, 0, none⟩]⟩,
  ⟨0x1c, [], false,
    [⟨31, 0, .ro, 0, none⟩]⟩,
  ⟨0x20, [], false,
    [⟨31, 0, .ro, 0, none⟩]⟩,
  ⟨0x24, [], false,
    [⟨31, 0, .ro, 0, none⟩]⟩,
  ⟨0x28, [], false,
    [⟨31, 0, .ro, 0, none⟩]⟩,
  ⟨0x2c, [], false,
    [⟨12, 0, .ro, 0, none⟩, ⟨26, 16, .ro, 0, none⟩]⟩,
  ⟨0x30, [], false,
    [⟨31, 0, .ro, 0, none⟩]⟩,
  ⟨0x34, [], false,
    [⟨31, 0, .ro, 0, none⟩]⟩,
  ⟨0x40, [], true,
    [⟨31, 0, .ro, 0, none⟩]⟩,
  ⟨0x44, [], true,
    [⟨31, 0, .ro, 0, none⟩]⟩,
  ⟨0x48, [], true,
    [⟨31, 0, .ro, 0, none⟩]⟩,
  ⟨0x4c, [], true,
    [⟨31, 0, .ro, 0, none⟩]⟩,
  ⟨0x50, [], true,
    [⟨31, 0, .ro, 0, none⟩]⟩]

/-- The registers of block 26, POP (13_tenants_proof.md Table 13-6). -/
def regsPOP : List RegDef := regsPOP0

/-- The registers of block 27, FW, part 0. -/
def regsFW0 : List RegDef := [
  ⟨0x0, [], false,
    [⟨0, 0, .wo, 0, none⟩, ⟨1, 1, .wo, 0, none⟩, ⟨2, 2, .wo, 0, none⟩]⟩,
  ⟨0x4, [], false,
    [⟨0, 0, .ro, 0, none⟩, ⟨1, 1, .ro, 0, none⟩, ⟨2, 2, .ro, 0, none⟩, ⟨3, 3, .w1c, 0, none⟩, ⟨4, 4, .w1c, 0, none⟩, ⟨6, 5, .ro, 0, none⟩, ⟨7, 7, .ro, 0, none⟩]⟩,
  ⟨0x8, [(0x4, 2)], false,
    [⟨1, 0, .ro, 0, none⟩, ⟨2, 2, .ro, 0, none⟩, ⟨10, 4, .ro, 0, none⟩]⟩,
  ⟨0x10, [], false,
    [⟨11, 0, .rw, 0x78, some (10, 3600)⟩]⟩,
  ⟨0x14, [], false,
    [⟨15, 0, .ro, 0, none⟩]⟩,
  ⟨0x20, [], false,
    [⟨7, 0, .rw, 0x78, some (4, 255)⟩, ⟨11, 8, .rw, 3, some (1, 15)⟩]⟩,
  ⟨0x24, [], false,
    [⟨2, 0, .ro, 0, none⟩, ⟨4, 3, .ro, 0, none⟩, ⟨25, 16, .ro, 0, none⟩]⟩,
  ⟨0x28, [], false,
    [⟨31, 0, .ro, 0, none⟩]⟩,
  ⟨0x2c, [], false,
    [⟨7, 0, .ro, 0, none⟩]⟩,
  ⟨0x30, [], false,
    [⟨9, 0, .ro, 0, none⟩]⟩,
  ⟨0x40, [], true,
    [⟨31, 0, .ro, 0, none⟩]⟩,
  ⟨0x44, [], true,
    [⟨31, 0, .ro, 0, none⟩]⟩,
  ⟨0x48, [], true,
    [⟨31, 0, .ro, 0, none⟩]⟩,
  ⟨0x4c, [], true,
    [⟨31, 0, .ro, 0, none⟩]⟩,
  ⟨0x50, [], true,
    [⟨31, 0, .ro, 0, none⟩]⟩,
  ⟨0x54, [], true,
    [⟨31, 0, .ro, 0, none⟩]⟩,
  ⟨0x58, [], true,
    [⟨31, 0, .ro, 0, none⟩]⟩,
  ⟨0x5c, [], true,
    [⟨31, 0, .ro, 0, none⟩]⟩,
  ⟨0x60, [], true,
    [⟨31, 0, .ro, 0, none⟩]⟩]

/-- The registers of block 27, FW (20_startup_update.md R504). -/
def regsFW : List RegDef := regsFW0

/-- The register tables, by block number (R521). -/
def blockRegs : Nat → List RegDef
  | 0 => regsSYS
  | 1 => regsEMB
  | 2 => regsHEARTH
  | 3 => regsFAB
  | 4 => regsDDR
  | 5 => regsFSQ
  | 6 => regsCOMP
  | 7 => regsSRC
  | 8 => regsCORD
  | 9 => regsRING
  | 10 => regsLAMP
  | 11 => regsPSQ
  | 12 => regsPIN
  | 13 => regsTIM
  | 14 => regsREF
  | 15 => regsNAND
  | 16 => regsNVJ
  | 17 => regsKILN
  | 18 => regsTHERM
  | 19 => regsAGE
  | 20 => regsCAM
  | 21 => regsAUD
  | 22 => regsTRACE
  | 23 => regsLANE
  | 24 => regsSUP
  | 25 => regsTEN
  | 26 => regsPOP
  | 27 => regsFW
  | _ => []

/-! ### Block 0: SYS -/

/-- SYS_ID (SYS). -/
abbrev SYS_ID : Nat := 0x0
/-- SYS_ID.PART [15:0] RO. -/
abbrev SYS_ID_PART : Field := ⟨0x0, 15, 0⟩
/-- SYS_ID.STEPPING [19:16] RO. -/
abbrev SYS_ID_STEPPING : Field := ⟨0x0, 19, 16⟩
/-- SYS_CTRL (SYS). -/
abbrev SYS_CTRL : Nat := 0x4
/-- SYS_CTRL.REMAP [0:0] RWL. -/
abbrev SYS_CTRL_REMAP : Field := ⟨0x4, 0, 0⟩
/-- SYS_CTRL.REMAP_LOCK [1:1] WOT. -/
abbrev SYS_CTRL_REMAP_LOCK : Field := ⟨0x4, 1, 1⟩
/-- SYS_CTRL.RECOVERY [2:2] WO. -/
abbrev SYS_CTRL_RECOVERY : Field := ⟨0x4, 2, 2⟩
/-- SYS_CTRL.CLRCNT [3:3] WO. -/
abbrev SYS_CTRL_CLRCNT : Field := ⟨0x4, 3, 3⟩
/-- SYS_IRQ_STAT (SYS). -/
abbrev SYS_IRQ_STAT : Nat := 0x8
/-- SYS_IRQ_STAT.PEND [27:0] RO. -/
abbrev SYS_IRQ_STAT_PEND : Field := ⟨0x8, 27, 0⟩
/-- SYS_IRQ_EN (SYS). -/
abbrev SYS_IRQ_EN : Nat := 0xc
/-- SYS_IRQ_EN.EN [27:0] RW. -/
abbrev SYS_IRQ_EN_EN : Field := ⟨0xc, 27, 0⟩
/-- SYS_SERIAL (SYS). -/
abbrev SYS_SERIAL (i : Nat) : Nat := 0x10 + 0x4 * i
/-- SYS_WCP (SYS). -/
abbrev SYS_WCP : Nat := 0x20
/-- SYS_WCP.PORT [15:0] RW. -/
abbrev SYS_WCP_PORT : Field := ⟨0x20, 15, 0⟩
/-- SYS_SCRATCH (SYS). -/
abbrev SYS_SCRATCH (i : Nat) : Nat := 0x30 + 0x4 * i
/-- SYS_N_REQUESTS (SYS). -/
abbrev SYS_N_REQUESTS : Nat := 0x40
/-- SYS_N_CACHED (SYS). -/
abbrev SYS_N_CACHED : Nat := 0x44
/-- SYS_N_SEQ_OLD (SYS). -/
abbrev SYS_N_SEQ_OLD : Nat := 0x48
/-- SYS_N_QUEUE_FULL (SYS). -/
abbrev SYS_N_QUEUE_FULL : Nat := 0x4c
/-- SYS_N_FORMAT (SYS). -/
abbrev SYS_N_FORMAT : Nat := 0x50
/-- SYS_N_EVENTS_DROPPED (SYS). -/
abbrev SYS_N_EVENTS_DROPPED : Nat := 0x54

/-! ### Block 1: EMB -/

/-- EMB_CTRL (EMB). -/
abbrev EMB_CTRL : Nat := 0x10000
/-- EMB_CTRL.CLRCNT [0:0] WO. -/
abbrev EMB_CTRL_CLRCNT : Field := ⟨0x10000, 0, 0⟩
/-- EMB_STRAPS (EMB). -/
abbrev EMB_STRAPS : Nat := 0x10004
/-- EMB_STRAPS.ROLE [0:0] RO. -/
abbrev EMB_STRAPS_ROLE : Field := ⟨0x10004, 0, 0⟩
/-- EMB_STRAPS.RINGPOS [3:1] RO. -/
abbrev EMB_STRAPS_RINGPOS : Field := ⟨0x10004, 3, 1⟩
/-- EMB_STRAPS.BOOT [5:4] RO. -/
abbrev EMB_STRAPS_BOOT : Field := ⟨0x10004, 5, 4⟩
/-- EMB_STRAPS.CORDW [6:6] RO. -/
abbrev EMB_STRAPS_CORDW : Field := ⟨0x10004, 6, 6⟩
/-- EMB_STRAPS.REFSEL [8:7] RO. -/
abbrev EMB_STRAPS_REFSEL : Field := ⟨0x10004, 8, 7⟩
/-- EMB_STRAPS.REFEREE [9:9] RO. -/
abbrev EMB_STRAPS_REFEREE : Field := ⟨0x10004, 9, 9⟩
/-- EMB_STRAPS.VMON [11:10] RO. -/
abbrev EMB_STRAPS_VMON : Field := ⟨0x10004, 11, 10⟩
/-- EMB_RCAUSE (EMB). -/
abbrev EMB_RCAUSE : Nat := 0x10008
/-- EMB_RCAUSE.CAUSE [5:0] W1C. -/
abbrev EMB_RCAUSE_CAUSE : Field := ⟨0x10008, 5, 0⟩
/-- EMB_STAT (EMB). -/
abbrev EMB_STAT : Nat := 0x1000c
/-- EMB_STAT.XTAL_FAIL [0:0] RO. -/
abbrev EMB_STAT_XTAL_FAIL : Field := ⟨0x1000c, 0, 0⟩
/-- EMB_STAT.SMOULDER_THERM [1:1] RO. -/
abbrev EMB_STAT_SMOULDER_THERM : Field := ⟨0x1000c, 1, 1⟩
/-- EMB_LIFE_LO (EMB). -/
abbrev EMB_LIFE_LO : Nat := 0x10010
/-- EMB_LIFE_HI (EMB). -/
abbrev EMB_LIFE_HI : Nat := 0x10014
/-- EMB_LIFE_HI.LIFE [15:0] RO. -/
abbrev EMB_LIFE_HI_LIFE : Field := ⟨0x10014, 15, 0⟩
/-- EMB_ALARM_LO (EMB). -/
abbrev EMB_ALARM_LO : Nat := 0x10018
/-- EMB_ALARM_HI (EMB). -/
abbrev EMB_ALARM_HI : Nat := 0x1001c
/-- EMB_ALARM_HI.ALARM [15:0] RW. -/
abbrev EMB_ALARM_HI_ALARM : Field := ⟨0x1001c, 15, 0⟩
/-- EMB_PWR (EMB). -/
abbrev EMB_PWR : Nat := 0x10020
/-- EMB_PWR.STATE [1:0] RO. -/
abbrev EMB_PWR_STATE : Field := ⟨0x10020, 1, 0⟩
/-- EMB_PWR.SMOULDER [2:2] WO. -/
abbrev EMB_PWR_SMOULDER : Field := ⟨0x10020, 2, 2⟩
/-- EMB_PWR.BANK_FRAMES [15:8] RW. -/
abbrev EMB_PWR_BANK_FRAMES : Field := ⟨0x10020, 15, 8⟩
/-- EMB_WAKE (EMB). -/
abbrev EMB_WAKE : Nat := 0x10024
/-- EMB_WAKE.EN [5:0] RW. -/
abbrev EMB_WAKE_EN : Field := ⟨0x10024, 5, 0⟩
/-- EMB_WCAUSE (EMB). -/
abbrev EMB_WCAUSE : Nat := 0x10028
/-- EMB_WCAUSE.CAUSE [5:0] W1C. -/
abbrev EMB_WCAUSE_CAUSE : Field := ⟨0x10028, 5, 0⟩
/-- EMB_DORM (EMB). -/
abbrev EMB_DORM : Nat := 0x1002c
/-- EMB_DORM.PORTS [7:0] RO. -/
abbrev EMB_DORM_PORTS : Field := ⟨0x1002c, 7, 0⟩
/-- EMB_DOM (EMB). -/
abbrev EMB_DOM (i : Nat) : Nat := 0x10040 + 0x4 * i
/-- EMB_N_SMOULDERS (EMB). -/
abbrev EMB_N_SMOULDERS : Nat := 0x10080
/-- EMB_N_WAKES (EMB). -/
abbrev EMB_N_WAKES : Nat := 0x10084
/-- EMB_N_POWERONS (EMB). -/
abbrev EMB_N_POWERONS : Nat := 0x10088

/-! ### Block 2: HEARTH -/

/-- HEARTH_CTRL (HEARTH). -/
abbrev HEARTH_CTRL : Nat := 0x20000
/-- HEARTH_CTRL.CLRCNT [0:0] WO. -/
abbrev HEARTH_CTRL_CLRCNT : Field := ⟨0x20000, 0, 0⟩
/-- HEARTH_CTRL.NONCE_REQ [1:1] WO. -/
abbrev HEARTH_CTRL_NONCE_REQ : Field := ⟨0x20000, 1, 1⟩
/-- HEARTH_STAT (HEARTH). -/
abbrev HEARTH_STAT : Nat := 0x20004
/-- HEARTH_STAT.SELFTEST_OK [0:0] RO. -/
abbrev HEARTH_STAT_SELFTEST_OK : Field := ⟨0x20004, 0, 0⟩
/-- HEARTH_STAT.UNOWNED [1:1] RO. -/
abbrev HEARTH_STAT_UNOWNED : Field := ⟨0x20004, 1, 1⟩
/-- HEARTH_STAT.LOCKVIOL [2:2] W1C. -/
abbrev HEARTH_STAT_LOCKVIOL : Field := ⟨0x20004, 2, 2⟩
/-- HEARTH_STAT.DEBUG_OPEN [3:3] RO. -/
abbrev HEARTH_STAT_DEBUG_OPEN : Field := ⟨0x20004, 3, 3⟩
/-- HEARTH_STAT.NONCE_VALID [4:4] RO. -/
abbrev HEARTH_STAT_NONCE_VALID : Field := ⟨0x20004, 4, 4⟩
/-- HEARTH_STAT.SVN_PEND [5:5] RO. -/
abbrev HEARTH_STAT_SVN_PEND : Field := ⟨0x20004, 5, 5⟩
/-- HEARTH_STAT.ROLLBACK_EXH [6:6] RO. -/
abbrev HEARTH_STAT_ROLLBACK_EXH : Field := ⟨0x20004, 6, 6⟩
/-- HEARTH_STAT.LOG_WRAP [7:7] W1C. -/
abbrev HEARTH_STAT_LOG_WRAP : Field := ⟨0x20004, 7, 7⟩
/-- HEARTH_SVN (HEARTH). -/
abbrev HEARTH_SVN : Nat := 0x20008
/-- HEARTH_SVN.FUSED [6:0] RO. -/
abbrev HEARTH_SVN_FUSED : Field := ⟨0x20008, 6, 0⟩
/-- HEARTH_SVN.MIRROR [14:8] RO. -/
abbrev HEARTH_SVN_MIRROR : Field := ⟨0x20008, 14, 8⟩
/-- HEARTH_SVN.FW_SVN [22:16] RO. -/
abbrev HEARTH_SVN_FW_SVN : Field := ⟨0x20008, 22, 16⟩
/-- HEARTH_OWNER_GEN (HEARTH). -/
abbrev HEARTH_OWNER_GEN : Nat := 0x2000c
/-- HEARTH_POLICY (HEARTH). -/
abbrev HEARTH_POLICY : Nat := 0x20010
/-- HEARTH_POLICY.REQ_ENC [0:0] RWL. -/
abbrev HEARTH_POLICY_REQ_ENC : Field := ⟨0x20010, 0, 0⟩
/-- HEARTH_POLICY.SPI_WCP [1:1] RWL. -/
abbrev HEARTH_POLICY_SPI_WCP : Field := ⟨0x20010, 1, 1⟩
/-- HEARTH_POLICY.REQ_RING_ENC [2:2] RWL. -/
abbrev HEARTH_POLICY_REQ_RING_ENC : Field := ⟨0x20010, 2, 2⟩
/-- HEARTH_POLICY.LOCK [31:31] WOT. -/
abbrev HEARTH_POLICY_LOCK : Field := ⟨0x20010, 31, 31⟩
/-- HEARTH_DEBUG (HEARTH). -/
abbrev HEARTH_DEBUG : Nat := 0x20014
/-- HEARTH_DEBUG.SCOPE [3:0] RO. -/
abbrev HEARTH_DEBUG_SCOPE : Field := ⟨0x20014, 3, 0⟩
/-- HEARTH_KEYS (HEARTH). -/
abbrev HEARTH_KEYS : Nat := 0x20018
/-- HEARTH_KEYS.NKEYS [3:0] RO. -/
abbrev HEARTH_KEYS_NKEYS : Field := ⟨0x20018, 3, 0⟩
/-- HEARTH_KEYS.REFCRED [4:4] RO. -/
abbrev HEARTH_KEYS_REFCRED : Field := ⟨0x20018, 4, 4⟩
/-- HEARTH_VIOLADDR (HEARTH). -/
abbrev HEARTH_VIOLADDR : Nat := 0x2001c
/-- HEARTH_NONCE (HEARTH). -/
abbrev HEARTH_NONCE (i : Nat) : Nat := 0x20020 + 0x4 * i
/-- HEARTH_SESS (HEARTH). -/
abbrev HEARTH_SESS : Nat := 0x20040
/-- HEARTH_SESS.OPEN [4:0] RO. -/
abbrev HEARTH_SESS_OPEN : Field := ⟨0x20040, 4, 0⟩
/-- HEARTH_SESS.REFSESS [5:5] RO. -/
abbrev HEARTH_SESS_REFSESS : Field := ⟨0x20040, 5, 5⟩
/-- HEARTH_SESS.HSHAKE [8:6] RO. -/
abbrev HEARTH_SESS_HSHAKE : Field := ⟨0x20040, 8, 6⟩
/-- HEARTH_IDLE (HEARTH). -/
abbrev HEARTH_IDLE : Nat := 0x20044
/-- HEARTH_IDLE.IDLE [11:0] RW. -/
abbrev HEARTH_IDLE_IDLE : Field := ⟨0x20044, 11, 0⟩
/-- HEARTH_LOGSEQ (HEARTH). -/
abbrev HEARTH_LOGSEQ : Nat := 0x20048
/-- HEARTH_N_AUTHFAIL_CORD (HEARTH). -/
abbrev HEARTH_N_AUTHFAIL_CORD : Nat := 0x20060
/-- HEARTH_N_AUTHFAIL_RING (HEARTH). -/
abbrev HEARTH_N_AUTHFAIL_RING : Nat := 0x20064
/-- HEARTH_N_AUTHFAIL_SESS (HEARTH). -/
abbrev HEARTH_N_AUTHFAIL_SESS : Nat := 0x20068
/-- HEARTH_N_SIGFAIL (HEARTH). -/
abbrev HEARTH_N_SIGFAIL : Nat := 0x2006c
/-- HEARTH_N_LOCKVIOL (HEARTH). -/
abbrev HEARTH_N_LOCKVIOL : Nat := 0x20070
/-- HEARTH_N_TOKENFAIL (HEARTH). -/
abbrev HEARTH_N_TOKENFAIL : Nat := 0x20074
/-- HEARTH_N_SESSFULL (HEARTH). -/
abbrev HEARTH_N_SESSFULL : Nat := 0x20078
/-- HEARTH_N_OWNER_MISMATCH (HEARTH). -/
abbrev HEARTH_N_OWNER_MISMATCH : Nat := 0x2007c

/-! ### Block 3: FAB -/

/-- FAB_CTRL (FAB). -/
abbrev FAB_CTRL : Nat := 0x30000
/-- FAB_CTRL.CLRCNT [0:0] WO. -/
abbrev FAB_CTRL_CLRCNT : Field := ⟨0x30000, 0, 0⟩
/-- FAB_CTRL.COMMIT [1:1] WO. -/
abbrev FAB_CTRL_COMMIT : Field := ⟨0x30000, 1, 1⟩
/-- FAB_STAT (FAB). -/
abbrev FAB_STAT : Nat := 0x30004
/-- FAB_STAT.DECERR [0:0] W1C. -/
abbrev FAB_STAT_DECERR : Field := ⟨0x30004, 0, 0⟩
/-- FAB_DECADDR_LO (FAB). -/
abbrev FAB_DECADDR_LO : Nat := 0x30008
/-- FAB_DECADDR_HI (FAB). -/
abbrev FAB_DECADDR_HI : Nat := 0x3000c
/-- FAB_DECADDR_HI.ADDR [7:0] RO. -/
abbrev FAB_DECADDR_HI_ADDR : Field := ⟨0x3000c, 7, 0⟩
/-- FAB_DECADDR_HI.REQ [11:8] RO. -/
abbrev FAB_DECADDR_HI_REQ : Field := ⟨0x3000c, 11, 8⟩
/-- FAB_DECADDR_HI.WRITE [12:12] RO. -/
abbrev FAB_DECADDR_HI_WRITE : Field := ⟨0x3000c, 12, 12⟩
/-- FAB_N_DECERR (FAB). -/
abbrev FAB_N_DECERR : Nat := 0x30010
/-- FAB_ARB_CFG (FAB). -/
abbrev FAB_ARB_CFG (i : Nat) : Nat := 0x30100 + 0x20 * i
/-- FAB_ARB_CFG.BURSTLIM [7:0] RW. -/
abbrev FAB_ARB_CFG_BURSTLIM (i : Nat) : Field := ⟨0x30100 + 0x20 * i, 7, 0⟩
/-- FAB_ARB_CFG.FREEZE [8:8] RW. -/
abbrev FAB_ARB_CFG_FREEZE (i : Nat) : Field := ⟨0x30100 + 0x20 * i, 8, 8⟩
/-- FAB_ARB_CFG.AGE [23:16] RW. -/
abbrev FAB_ARB_CFG_AGE (i : Nat) : Field := ⟨0x30100 + 0x20 * i, 23, 16⟩
/-- FAB_ARB_STAT (FAB). -/
abbrev FAB_ARB_STAT (i : Nat) : Nat := 0x30104 + 0x20 * i
/-- FAB_ARB_STAT.DRAINED [0:0] RO. -/
abbrev FAB_ARB_STAT_DRAINED (i : Nat) : Field := ⟨0x30104 + 0x20 * i, 0, 0⟩
/-- FAB_ARB_STAT.BUSY [1:1] RO. -/
abbrev FAB_ARB_STAT_BUSY (i : Nat) : Field := ⟨0x30104 + 0x20 * i, 1, 1⟩
/-- FAB_ARB_STAT.OWNER [5:2] RO. -/
abbrev FAB_ARB_STAT_OWNER (i : Nat) : Field := ⟨0x30104 + 0x20 * i, 5, 2⟩
/-- FAB_ARB_STAT.QUEUED [9:6] RO. -/
abbrev FAB_ARB_STAT_QUEUED (i : Nat) : Field := ⟨0x30104 + 0x20 * i, 9, 6⟩
/-- FAB_ARB_N_GRANTS (FAB). -/
abbrev FAB_ARB_N_GRANTS (i : Nat) : Nat := 0x30108 + 0x20 * i
/-- FAB_ARB_N_QFULL (FAB). -/
abbrev FAB_ARB_N_QFULL (i : Nat) : Nat := 0x3010c + 0x20 * i
/-- FAB_ARB_N_WITHDRAW (FAB). -/
abbrev FAB_ARB_N_WITHDRAW (i : Nat) : Nat := 0x30110 + 0x20 * i
/-- FAB_PRIO (FAB). -/
abbrev FAB_PRIO (i : Nat) : Nat := 0x30400 + 0x4 * i
/-- FAB_PRIO.PRIO [2:0] RW. -/
abbrev FAB_PRIO_PRIO (i : Nat) : Field := ⟨0x30400 + 0x4 * i, 2, 0⟩
/-- FAB_PRIO_SH (FAB). -/
abbrev FAB_PRIO_SH (i : Nat) : Nat := 0x30500 + 0x4 * i
/-- FAB_PRIO_SH.PRIO [2:0] RW. -/
abbrev FAB_PRIO_SH_PRIO (i : Nat) : Field := ⟨0x30500 + 0x4 * i, 2, 0⟩

/-! ### Block 4: DDR -/

/-- DDR_CTRL (DDR). -/
abbrev DDR_CTRL : Nat := 0x40000
/-- DDR_CTRL.CLRCNT [0:0] WO. -/
abbrev DDR_CTRL_CLRCNT : Field := ⟨0x40000, 0, 0⟩
/-- DDR_CTRL.RETRAIN [1:1] WO. -/
abbrev DDR_CTRL_RETRAIN : Field := ⟨0x40000, 1, 1⟩
/-- DDR_CTRL.SCRUB_NOW [2:2] WO. -/
abbrev DDR_CTRL_SCRUB_NOW : Field := ⟨0x40000, 2, 2⟩
/-- DDR_STAT (DDR). -/
abbrev DDR_STAT : Nat := 0x40004
/-- DDR_STAT.TRAINED [0:0] RO. -/
abbrev DDR_STAT_TRAINED : Field := ⟨0x40004, 0, 0⟩
/-- DDR_STAT.TRAIN_FAIL [1:1] RO. -/
abbrev DDR_STAT_TRAIN_FAIL : Field := ⟨0x40004, 1, 1⟩
/-- DDR_STAT.DOWN [2:2] RO. -/
abbrev DDR_STAT_DOWN : Field := ⟨0x40004, 2, 2⟩
/-- DDR_STAT.RETRAIN [3:3] W1C. -/
abbrev DDR_STAT_RETRAIN : Field := ⟨0x40004, 3, 3⟩
/-- DDR_STAT.REPLAYING [4:4] RO. -/
abbrev DDR_STAT_REPLAYING : Field := ⟨0x40004, 4, 4⟩
/-- DDR_STAT.CE [5:5] W1C. -/
abbrev DDR_STAT_CE : Field := ⟨0x40004, 5, 5⟩
/-- DDR_STAT.UE [6:6] W1C. -/
abbrev DDR_STAT_UE : Field := ⟨0x40004, 6, 6⟩
/-- DDR_STAT.PANIC [7:7] RO. -/
abbrev DDR_STAT_PANIC : Field := ⟨0x40004, 7, 7⟩
/-- DDR_STAT.REFX2 [8:8] RO. -/
abbrev DDR_STAT_REFX2 : Field := ⟨0x40004, 8, 8⟩
/-- DDR_CFG (DDR). -/
abbrev DDR_CFG : Nat := 0x40008
/-- DDR_CFG.DEVW [0:0] RO. -/
abbrev DDR_CFG_DEVW : Field := ⟨0x40008, 0, 0⟩
/-- DDR_CFG.DENS [2:1] RO. -/
abbrev DDR_CFG_DENS : Field := ⟨0x40008, 2, 1⟩
/-- DDR_CFG.RANKS [3:3] RO. -/
abbrev DDR_CFG_RANKS : Field := ⟨0x40008, 3, 3⟩
/-- DDR_CFG.RATE [5:4] RO. -/
abbrev DDR_CFG_RATE : Field := ⟨0x40008, 5, 4⟩
/-- DDR_CFG.CAP [13:8] RO. -/
abbrev DDR_CFG_CAP : Field := ⟨0x40008, 13, 8⟩
/-- DDR_PAGE (DDR). -/
abbrev DDR_PAGE : Nat := 0x4000c
/-- DDR_PAGE.IDLE [9:0] RW. -/
abbrev DDR_PAGE_IDLE : Field := ⟨0x4000c, 9, 0⟩
/-- DDR_PAR (DDR). -/
abbrev DDR_PAR : Nat := 0x40010
/-- DDR_PAR.WIN [7:0] RW. -/
abbrev DDR_PAR_WIN : Field := ⟨0x40010, 7, 0⟩
/-- DDR_PAR.RECOV [15:8] RW. -/
abbrev DDR_PAR_RECOV : Field := ⟨0x40010, 15, 8⟩
/-- DDR_PANIC (DDR). -/
abbrev DDR_PANIC : Nat := 0x40014
/-- DDR_PANIC.CE_LO [5:0] RW. -/
abbrev DDR_PANIC_CE_LO : Field := ⟨0x40014, 5, 0⟩
/-- DDR_PANIC.CE_HI [13:8] RW. -/
abbrev DDR_PANIC_CE_HI : Field := ⟨0x40014, 13, 8⟩
/-- DDR_PANIC.AUD_LO [23:16] RW. -/
abbrev DDR_PANIC_AUD_LO : Field := ⟨0x40014, 23, 16⟩
/-- DDR_PANIC.AUD_HI [31:24] RW. -/
abbrev DDR_PANIC_AUD_HI : Field := ⟨0x40014, 31, 24⟩
/-- DDR_ECC (DDR). -/
abbrev DDR_ECC : Nat := 0x40018
/-- DDR_ECC.WB [0:0] RW. -/
abbrev DDR_ECC_WB : Field := ⟨0x40018, 0, 0⟩
/-- DDR_ECC.SCRUB_H [15:8] RW. -/
abbrev DDR_ECC_SCRUB_H : Field := ⟨0x40018, 15, 8⟩
/-- DDR_CEADDR_LO (DDR). -/
abbrev DDR_CEADDR_LO : Nat := 0x40020
/-- DDR_CEADDR_HI (DDR). -/
abbrev DDR_CEADDR_HI : Nat := 0x40024
/-- DDR_CEADDR_HI.ADDR [7:0] RO. -/
abbrev DDR_CEADDR_HI_ADDR : Field := ⟨0x40024, 7, 0⟩
/-- DDR_UEADDR_LO (DDR). -/
abbrev DDR_UEADDR_LO : Nat := 0x40028
/-- DDR_UEADDR_HI (DDR). -/
abbrev DDR_UEADDR_HI : Nat := 0x4002c
/-- DDR_UEADDR_HI.ADDR [7:0] RO. -/
abbrev DDR_UEADDR_HI_ADDR : Field := ⟨0x4002c, 7, 0⟩
/-- DDR_UEADDR_HI.UE_REQ [11:8] RO. -/
abbrev DDR_UEADDR_HI_UE_REQ : Field := ⟨0x4002c, 11, 8⟩
/-- DDR_N_CE (DDR). -/
abbrev DDR_N_CE : Nat := 0x40040
/-- DDR_N_UE (DDR). -/
abbrev DDR_N_UE : Nat := 0x40044
/-- DDR_N_PARERR (DDR). -/
abbrev DDR_N_PARERR : Nat := 0x40048
/-- DDR_N_REPLAYS (DDR). -/
abbrev DDR_N_REPLAYS : Nat := 0x4004c
/-- DDR_N_REPLAYFAIL (DDR). -/
abbrev DDR_N_REPLAYFAIL : Nat := 0x40050
/-- DDR_N_RETRAINS (DDR). -/
abbrev DDR_N_RETRAINS : Nat := 0x40054
/-- DDR_N_PANICS (DDR). -/
abbrev DDR_N_PANICS : Nat := 0x40058
/-- DDR_N_RMW (DDR). -/
abbrev DDR_N_RMW : Nat := 0x4005c
/-- DDR_N_SCRUBPASS (DDR). -/
abbrev DDR_N_SCRUBPASS : Nat := 0x40060

/-! ### Block 5: FSQ -/

/-- FSQ_CTRL (FSQ). -/
abbrev FSQ_CTRL : Nat := 0x50000
/-- FSQ_CTRL.START [0:0] WO. -/
abbrev FSQ_CTRL_START : Field := ⟨0x50000, 0, 0⟩
/-- FSQ_CTRL.CLRCNT [1:1] WO. -/
abbrev FSQ_CTRL_CLRCNT : Field := ⟨0x50000, 1, 1⟩
/-- FSQ_STAT (FSQ). -/
abbrev FSQ_STAT : Nat := 0x50004
/-- FSQ_STAT.RUN [0:0] RO. -/
abbrev FSQ_STAT_RUN : Field := ⟨0x50004, 0, 0⟩
/-- FSQ_STAT.HALTED [1:1] RO. -/
abbrev FSQ_STAT_HALTED : Field := ⟨0x50004, 1, 1⟩
/-- FSQ_STAT.FAULTED [2:2] RO. -/
abbrev FSQ_STAT_FAULTED : Field := ⟨0x50004, 2, 2⟩
/-- FSQ_STAT.SWITCH_PEND [3:3] RO. -/
abbrev FSQ_STAT_SWITCH_PEND : Field := ⟨0x50004, 3, 3⟩
/-- FSQ_STAT.DL_SHORT [4:4] W1C. -/
abbrev FSQ_STAT_DL_SHORT : Field := ⟨0x50004, 4, 4⟩
/-- FSQ_STAT.THROTTLED [5:5] RO. -/
abbrev FSQ_STAT_THROTTLED : Field := ⟨0x50004, 5, 5⟩
/-- FSQ_FAULT (FSQ). -/
abbrev FSQ_FAULT : Nat := 0x50008
/-- FSQ_FAULT.CODE [7:0] RO. -/
abbrev FSQ_FAULT_CODE : Field := ⟨0x50008, 7, 0⟩
/-- FSQ_FAULT.PC [31:16] RO. -/
abbrev FSQ_FAULT_PC : Field := ⟨0x50008, 31, 16⟩
/-- FSQ_FWORD_LO (FSQ). -/
abbrev FSQ_FWORD_LO : Nat := 0x5000c
/-- FSQ_FWORD_HI (FSQ). -/
abbrev FSQ_FWORD_HI : Nat := 0x50010
/-- FSQ_FPER (FSQ). -/
abbrev FSQ_FPER : Nat := 0x50014
/-- FSQ_DL (FSQ). -/
abbrev FSQ_DL : Nat := 0x50018
/-- FSQ_DL.DEADLINE [23:0] RO. -/
abbrev FSQ_DL_DEADLINE : Field := ⟨0x50018, 23, 0⟩
/-- FSQ_ADMIT (FSQ). -/
abbrev FSQ_ADMIT : Nat := 0x5001c
/-- FSQ_FCNT_LO (FSQ). -/
abbrev FSQ_FCNT_LO : Nat := 0x50020
/-- FSQ_FCNT_HI (FSQ). -/
abbrev FSQ_FCNT_HI : Nat := 0x50024
/-- FSQ_FCNT_HI.FCNT [7:0] RO. -/
abbrev FSQ_FCNT_HI_FCNT : Field := ⟨0x50024, 7, 0⟩
/-- FSQ_FLIP_FCNT_LO (FSQ). -/
abbrev FSQ_FLIP_FCNT_LO : Nat := 0x50028
/-- FSQ_FLIP_FCNT_HI (FSQ). -/
abbrev FSQ_FLIP_FCNT_HI : Nat := 0x5002c
/-- FSQ_FLIP_FCNT_HI.F [7:0] RO. -/
abbrev FSQ_FLIP_FCNT_HI_F : Field := ⟨0x5002c, 7, 0⟩
/-- FSQ_FLIP_T_LO (FSQ). -/
abbrev FSQ_FLIP_T_LO : Nat := 0x50030
/-- FSQ_FLIP_T_HI (FSQ). -/
abbrev FSQ_FLIP_T_HI : Nat := 0x50034
/-- FSQ_FLIP_ACK (FSQ). -/
abbrev FSQ_FLIP_ACK : Nat := 0x50038
/-- FSQ_FLIP_ACK.FLIPPED [9:0] RO. -/
abbrev FSQ_FLIP_ACK_FLIPPED : Field := ⟨0x50038, 9, 0⟩
/-- FSQ_FLIP_ACK.NOT_FLIPPED [25:16] RO. -/
abbrev FSQ_FLIP_ACK_NOT_FLIPPED : Field := ⟨0x50038, 25, 16⟩
/-- FSQ_SWEV (FSQ). -/
abbrev FSQ_SWEV : Nat := 0x5003c
/-- FSQ_SWEV.PEND [7:0] W1C. -/
abbrev FSQ_SWEV_PEND : Field := ⟨0x5003c, 7, 0⟩
/-- FSQ_SWEV.RAISE [15:8] WO. -/
abbrev FSQ_SWEV_RAISE : Field := ⟨0x5003c, 15, 8⟩
/-- FSQ_N_DISCFLIP (FSQ). -/
abbrev FSQ_N_DISCFLIP : Nat := 0x50040
/-- FSQ_N_EVOVR (FSQ). -/
abbrev FSQ_N_EVOVR : Nat := 0x50044

/-! ### Block 6: COMP -/

/-- COMP_CTRL (COMP). -/
abbrev COMP_CTRL : Nat := 0x60000
/-- COMP_CTRL.CLRCNT [0:0] WO. -/
abbrev COMP_CTRL_CLRCNT : Field := ⟨0x60000, 0, 0⟩
/-- COMP_CTRL.FULLDMG [1:1] WO. -/
abbrev COMP_CTRL_FULLDMG : Field := ⟨0x60000, 1, 1⟩
/-- COMP_CTRL.GCOMMIT [2:2] WO. -/
abbrev COMP_CTRL_GCOMMIT : Field := ⟨0x60000, 2, 2⟩
/-- COMP_STAT (COMP). -/
abbrev COMP_STAT : Nat := 0x60004
/-- COMP_STAT.PROTECT_FAULT [0:0] W1C. -/
abbrev COMP_STAT_PROTECT_FAULT : Field := ⟨0x60004, 0, 0⟩
/-- COMP_STAT.OMIT [1:1] W1C. -/
abbrev COMP_STAT_OMIT : Field := ⟨0x60004, 1, 1⟩
/-- COMP_STAT.MISSED [2:2] W1C. -/
abbrev COMP_STAT_MISSED : Field := ⟨0x60004, 2, 2⟩
/-- COMP_STAT.GEO_ERR [3:3] W1C. -/
abbrev COMP_STAT_GEO_ERR : Field := ⟨0x60004, 3, 3⟩
/-- COMP_STAT.GEO_PEND [4:4] RO. -/
abbrev COMP_STAT_GEO_PEND : Field := ⟨0x60004, 4, 4⟩
/-- COMP_STAT.DEFER [5:5] W1C. -/
abbrev COMP_STAT_DEFER : Field := ⟨0x60004, 5, 5⟩
/-- COMP_STAT.ENG_BUSY [11:8] RO. -/
abbrev COMP_STAT_ENG_BUSY : Field := ⟨0x60004, 11, 8⟩
/-- COMP_WALL (COMP). -/
abbrev COMP_WALL : Nat := 0x60008
/-- COMP_WALL.WIDTH [15:0] RW. -/
abbrev COMP_WALL_WIDTH : Field := ⟨0x60008, 15, 0⟩
/-- COMP_WALL.HEIGHT [31:16] RW. -/
abbrev COMP_WALL_HEIGHT : Field := ⟨0x60008, 31, 16⟩
/-- COMP_ENC (COMP). -/
abbrev COMP_ENC : Nat := 0x6000c
/-- COMP_ENC.TF [1:0] RW. -/
abbrev COMP_ENC_TF : Field := ⟨0x6000c, 1, 0⟩
/-- COMP_ENC.PRIM [2:2] RW. -/
abbrev COMP_ENC_PRIM : Field := ⟨0x6000c, 2, 2⟩
/-- COMP_BG (COMP). -/
abbrev COMP_BG : Nat := 0x60010
/-- COMP_BG.BG [29:0] RW. -/
abbrev COMP_BG_BG : Field := ⟨0x60010, 29, 0⟩
/-- COMP_ADMIT_DL (COMP). -/
abbrev COMP_ADMIT_DL : Nat := 0x60014
/-- COMP_ADMIT_DL.DL [23:0] RO. -/
abbrev COMP_ADMIT_DL_DL : Field := ⟨0x60014, 23, 0⟩
/-- COMP_ADMIT_ENG (COMP). -/
abbrev COMP_ADMIT_ENG : Nat := 0x60018
/-- COMP_ADMIT_ENG.ENG [3:0] RO. -/
abbrev COMP_ADMIT_ENG_ENG : Field := ⟨0x60018, 3, 0⟩
/-- COMP_DRAMBW (COMP). -/
abbrev COMP_DRAMBW : Nat := 0x6001c
/-- COMP_DRAMBW.BW [7:0] RW. -/
abbrev COMP_DRAMBW_BW : Field := ⟨0x6001c, 7, 0⟩
/-- COMP_ACKWIN (COMP). -/
abbrev COMP_ACKWIN : Nat := 0x60020
/-- COMP_ACKWIN.WIN [15:0] RW. -/
abbrev COMP_ACKWIN_WIN : Field := ⟨0x60020, 15, 0⟩
/-- COMP_QUAL (COMP). -/
abbrev COMP_QUAL : Nat := 0x60024
/-- COMP_QUAL.FORCE_LOW [0:0] RO. -/
abbrev COMP_QUAL_FORCE_LOW : Field := ⟨0x60024, 0, 0⟩
/-- COMP_N_SENT (COMP). -/
abbrev COMP_N_SENT (i : Nat) : Nat := 0x60100 + 0x4 * i
/-- COMP_N_MISSED (COMP). -/
abbrev COMP_N_MISSED (i : Nat) : Nat := 0x60120 + 0x4 * i
/-- COMP_N_PFAULT (COMP). -/
abbrev COMP_N_PFAULT (i : Nat) : Nat := 0x60140 + 0x4 * i
/-- COMP_N_DEFER (COMP). -/
abbrev COMP_N_DEFER : Nat := 0x60160
/-- COMP_N_OMIT (COMP). -/
abbrev COMP_N_OMIT (i : Nat) : Nat := 0x60200 + 0x4 * i
/-- COMP_SLOT (COMP). -/
abbrev COMP_SLOT (i : Nat) : Nat := 0x60300 + 0x4 * i
/-- COMP_SLOT.TENANT [3:0] RO. -/
abbrev COMP_SLOT_TENANT (i : Nat) : Field := ⟨0x60300 + 0x4 * i, 3, 0⟩
/-- COMP_SLOT.ASSIGNED [4:4] RO. -/
abbrev COMP_SLOT_ASSIGNED (i : Nat) : Field := ⟨0x60300 + 0x4 * i, 4, 4⟩
/-- COMP_GEO_XY (COMP). -/
abbrev COMP_GEO_XY (i : Nat) : Nat := 0x61000 + 0x8 * i
/-- COMP_GEO_XY.X [15:0] RW. -/
abbrev COMP_GEO_XY_X (i : Nat) : Field := ⟨0x61000 + 0x8 * i, 15, 0⟩
/-- COMP_GEO_XY.Y [31:16] RW. -/
abbrev COMP_GEO_XY_Y (i : Nat) : Field := ⟨0x61000 + 0x8 * i, 31, 16⟩
/-- COMP_GEO_WH (COMP). -/
abbrev COMP_GEO_WH (i : Nat) : Nat := 0x61004 + 0x8 * i
/-- COMP_GEO_WH.W [13:0] RW. -/
abbrev COMP_GEO_WH_W (i : Nat) : Field := ⟨0x61004 + 0x8 * i, 13, 0⟩
/-- COMP_GEO_WH.H [28:16] RW. -/
abbrev COMP_GEO_WH_H (i : Nat) : Field := ⟨0x61004 + 0x8 * i, 28, 16⟩
/-- COMP_GEO_WH.EN [31:31] RW. -/
abbrev COMP_GEO_WH_EN (i : Nat) : Field := ⟨0x61004 + 0x8 * i, 31, 31⟩
/-- COMP_DMG (COMP). -/
abbrev COMP_DMG (i : Nat) (j : Nat) (k : Nat) : Nat := 0x64000 + 0x800 * i + 0x20 * j + 0x4 * k
/-- COMP_DESC (COMP). -/
abbrev COMP_DESC (i : Nat) (j : Nat) : Nat := 0x68000 + 0x40 * i + 0x4 * j
/-- COMP_ZLIST (COMP). -/
abbrev COMP_ZLIST (i : Nat) (j : Nat) : Nat := 0x6c000 + 0x40 * i + 0x4 * j

/-! ### Block 7: SRC -/

/-- SRC_PCFG (SRC). -/
abbrev SRC_PCFG (i : Nat) : Nat := 0x70000 + 0x10 * i
/-- SRC_PCFG.EN [0:0] RW. -/
abbrev SRC_PCFG_EN (i : Nat) : Field := ⟨0x70000 + 0x10 * i, 0, 0⟩
/-- SRC_PCFG.RATE [1:1] RW. -/
abbrev SRC_PCFG_RATE (i : Nat) : Field := ⟨0x70000 + 0x10 * i, 1, 1⟩
/-- SRC_PCFG.FEC [2:2] RW. -/
abbrev SRC_PCFG_FEC (i : Nat) : Field := ⟨0x70000 + 0x10 * i, 2, 2⟩
/-- SRC_PSTAT (SRC). -/
abbrev SRC_PSTAT (i : Nat) : Nat := 0x70004 + 0x10 * i
/-- SRC_PSTAT.LINK [0:0] RO. -/
abbrev SRC_PSTAT_LINK (i : Nat) : Field := ⟨0x70004 + 0x10 * i, 0, 0⟩
/-- SRC_PSTAT.FEC_LOCK [1:1] RO. -/
abbrev SRC_PSTAT_FEC_LOCK (i : Nat) : Field := ⟨0x70004 + 0x10 * i, 1, 1⟩
/-- SRC_PSTAT.LINK_LOST [2:2] W1C. -/
abbrev SRC_PSTAT_LINK_LOST (i : Nat) : Field := ⟨0x70004 + 0x10 * i, 2, 2⟩
/-- SRC_PSTAT.FILT_USED [8:3] RO. -/
abbrev SRC_PSTAT_FILT_USED (i : Nat) : Field := ⟨0x70004 + 0x10 * i, 8, 3⟩
/-- SRC_PSTAT.FILT_FULL [9:9] RO. -/
abbrev SRC_PSTAT_FILT_FULL (i : Nat) : Field := ⟨0x70004 + 0x10 * i, 9, 9⟩
/-- SRC_N_PFCS (SRC). -/
abbrev SRC_N_PFCS (i : Nat) : Nat := 0x70008 + 0x10 * i
/-- SRC_N_PUNM (SRC). -/
abbrev SRC_N_PUNM (i : Nat) : Nat := 0x7000c + 0x10 * i
/-- SRC_CTRL (SRC). -/
abbrev SRC_CTRL : Nat := 0x700f0
/-- SRC_CTRL.CLRCNT [0:0] WO. -/
abbrev SRC_CTRL_CLRCNT : Field := ⟨0x700f0, 0, 0⟩
/-- SRC_VCFG (SRC). -/
abbrev SRC_VCFG (i : Nat) : Nat := 0x70100 + 0x40 * i
/-- SRC_VCFG.EN [0:0] RO. -/
abbrev SRC_VCFG_EN (i : Nat) : Field := ⟨0x70100 + 0x40 * i, 0, 0⟩
/-- SRC_VCFG.DUAL [1:1] RO. -/
abbrev SRC_VCFG_DUAL (i : Nat) : Field := ⟨0x70100 + 0x40 * i, 1, 1⟩
/-- SRC_VCFG.PORTA [3:2] RO. -/
abbrev SRC_VCFG_PORTA (i : Nat) : Field := ⟨0x70100 + 0x40 * i, 3, 2⟩
/-- SRC_VCFG.PORTB [5:4] RO. -/
abbrev SRC_VCFG_PORTB (i : Nat) : Field := ⟨0x70100 + 0x40 * i, 5, 4⟩
/-- SRC_VCFG.TIMED [6:6] RW. -/
abbrev SRC_VCFG_TIMED (i : Nat) : Field := ⟨0x70100 + 0x40 * i, 6, 6⟩
/-- SRC_VCFG.TENANT [11:8] RO. -/
abbrev SRC_VCFG_TENANT (i : Nat) : Field := ⟨0x70100 + 0x40 * i, 11, 8⟩
/-- SRC_VCFG.SAMP [13:12] RO. -/
abbrev SRC_VCFG_SAMP (i : Nat) : Field := ⟨0x70100 + 0x40 * i, 13, 12⟩
/-- SRC_VCFG.DEPTH [15:14] RO. -/
abbrev SRC_VCFG_DEPTH (i : Nat) : Field := ⟨0x70100 + 0x40 * i, 15, 14⟩
/-- SRC_VCFG.COLR [17:16] RO. -/
abbrev SRC_VCFG_COLR (i : Nat) : Field := ⟨0x70100 + 0x40 * i, 17, 16⟩
/-- SRC_VCFG.TCS [19:18] RO. -/
abbrev SRC_VCFG_TCS (i : Nat) : Field := ⟨0x70100 + 0x40 * i, 19, 18⟩
/-- SRC_VCFG.PM [20:20] RO. -/
abbrev SRC_VCFG_PM (i : Nat) : Field := ⟨0x70100 + 0x40 * i, 20, 20⟩
/-- SRC_VSIZE (SRC). -/
abbrev SRC_VSIZE (i : Nat) : Nat := 0x70104 + 0x40 * i
/-- SRC_VSIZE.WIDTH [15:0] RO. -/
abbrev SRC_VSIZE_WIDTH (i : Nat) : Field := ⟨0x70104 + 0x40 * i, 15, 0⟩
/-- SRC_VSIZE.HEIGHT [31:16] RO. -/
abbrev SRC_VSIZE_HEIGHT (i : Nat) : Field := ⟨0x70104 + 0x40 * i, 31, 16⟩
/-- SRC_VDELAY (SRC). -/
abbrev SRC_VDELAY (i : Nat) : Nat := 0x70108 + 0x40 * i
/-- SRC_VDELAY.DELAY [23:0] RW. -/
abbrev SRC_VDELAY_DELAY (i : Nat) : Field := ⟨0x70108 + 0x40 * i, 23, 0⟩
/-- SRC_VCONC (SRC). -/
abbrev SRC_VCONC (i : Nat) : Nat := 0x7010c + 0x40 * i
/-- SRC_VCONC.CONCEAL_MAX [15:0] RW. -/
abbrev SRC_VCONC_CONCEAL_MAX (i : Nat) : Field := ⟨0x7010c + 0x40 * i, 15, 0⟩
/-- SRC_VSTAT (SRC). -/
abbrev SRC_VSTAT (i : Nat) : Nat := 0x70110 + 0x40 * i
/-- SRC_VSTAT.NO_SIGNAL [0:0] RO. -/
abbrev SRC_VSTAT_NO_SIGNAL (i : Nat) : Field := ⟨0x70110 + 0x40 * i, 0, 0⟩
/-- SRC_VSTAT.PATH_SKEW [1:1] RO. -/
abbrev SRC_VSTAT_PATH_SKEW (i : Nat) : Field := ⟨0x70110 + 0x40 * i, 1, 1⟩
/-- SRC_VSTAT.HELD_VALID [2:2] RO. -/
abbrev SRC_VSTAT_HELD_VALID (i : Nat) : Field := ⟨0x70110 + 0x40 * i, 2, 2⟩
/-- SRC_V_N_RX (SRC). -/
abbrev SRC_V_N_RX (i : Nat) : Nat := 0x70114 + 0x40 * i
/-- SRC_V_N_LOST (SRC). -/
abbrev SRC_V_N_LOST (i : Nat) : Nat := 0x70118 + 0x40 * i
/-- SRC_V_N_LATE (SRC). -/
abbrev SRC_V_N_LATE (i : Nat) : Nat := 0x7011c + 0x40 * i
/-- SRC_V_N_DUP (SRC). -/
abbrev SRC_V_N_DUP (i : Nat) : Nat := 0x70120 + 0x40 * i
/-- SRC_V_N_CONCEALED (SRC). -/
abbrev SRC_V_N_CONCEALED (i : Nat) : Nat := 0x70124 + 0x40 * i
/-- SRC_V_N_DISCARDED (SRC). -/
abbrev SRC_V_N_DISCARDED (i : Nat) : Nat := 0x70128 + 0x40 * i
/-- SRC_V_N_SKIPPED (SRC). -/
abbrev SRC_V_N_SKIPPED (i : Nat) : Nat := 0x7012c + 0x40 * i
/-- SRC_V_N_REPEATED (SRC). -/
abbrev SRC_V_N_REPEATED (i : Nat) : Nat := 0x70130 + 0x40 * i
/-- SRC_V_N_LEGA (SRC). -/
abbrev SRC_V_N_LEGA (i : Nat) : Nat := 0x70134 + 0x40 * i
/-- SRC_V_N_LEGB (SRC). -/
abbrev SRC_V_N_LEGB (i : Nat) : Nat := 0x70138 + 0x40 * i
/-- SRC_ACFG (SRC). -/
abbrev SRC_ACFG (i : Nat) : Nat := 0x70600 + 0x20 * i
/-- SRC_ACFG.EN [0:0] RO. -/
abbrev SRC_ACFG_EN (i : Nat) : Field := ⟨0x70600 + 0x20 * i, 0, 0⟩
/-- SRC_ACFG.DUAL [1:1] RO. -/
abbrev SRC_ACFG_DUAL (i : Nat) : Field := ⟨0x70600 + 0x20 * i, 1, 1⟩
/-- SRC_ACFG.PORTA [3:2] RO. -/
abbrev SRC_ACFG_PORTA (i : Nat) : Field := ⟨0x70600 + 0x20 * i, 3, 2⟩
/-- SRC_ACFG.PORTB [5:4] RO. -/
abbrev SRC_ACFG_PORTB (i : Nat) : Field := ⟨0x70600 + 0x20 * i, 5, 4⟩
/-- SRC_ACFG.TENANT [11:8] RO. -/
abbrev SRC_ACFG_TENANT (i : Nat) : Field := ⟨0x70600 + 0x20 * i, 11, 8⟩
/-- SRC_ACFG.DEPTH [12:12] RO. -/
abbrev SRC_ACFG_DEPTH (i : Nat) : Field := ⟨0x70600 + 0x20 * i, 12, 12⟩
/-- SRC_ACFG.CHANNELS [17:13] RO. -/
abbrev SRC_ACFG_CHANNELS (i : Nat) : Field := ⟨0x70600 + 0x20 * i, 17, 13⟩
/-- SRC_ACFG.PTIME [18:18] RO. -/
abbrev SRC_ACFG_PTIME (i : Nat) : Field := ⟨0x70600 + 0x20 * i, 18, 18⟩
/-- SRC_A_N_RX (SRC). -/
abbrev SRC_A_N_RX (i : Nat) : Nat := 0x70604 + 0x20 * i
/-- SRC_A_N_LOST (SRC). -/
abbrev SRC_A_N_LOST (i : Nat) : Nat := 0x70608 + 0x20 * i
/-- SRC_A_N_LATE (SRC). -/
abbrev SRC_A_N_LATE (i : Nat) : Nat := 0x7060c + 0x20 * i
/-- SRC_A_N_DUP (SRC). -/
abbrev SRC_A_N_DUP (i : Nat) : Nat := 0x70610 + 0x20 * i

/-! ### Block 8: CORD -/

/-- CORD_CTRL (CORD). -/
abbrev CORD_CTRL : Nat := 0x80000
/-- CORD_CTRL.CLRCNT [0:0] WO. -/
abbrev CORD_CTRL_CLRCNT : Field := ⟨0x80000, 0, 0⟩
/-- CORD_GUARD (CORD). -/
abbrev CORD_GUARD : Nat := 0x80004
/-- CORD_GUARD.GUARD [15:0] RW. -/
abbrev CORD_GUARD_GUARD : Field := ⟨0x80004, 15, 0⟩
/-- CORD_BERLIM (CORD). -/
abbrev CORD_BERLIM : Nat := 0x80008
/-- CORD_BERLIM.LIM [15:0] RW. -/
abbrev CORD_BERLIM_LIM : Field := ⟨0x80008, 15, 0⟩
/-- CORD_PROBE (CORD). -/
abbrev CORD_PROBE : Nat := 0x8000c
/-- CORD_PROBE.INT [15:0] RW. -/
abbrev CORD_PROBE_INT : Field := ⟨0x8000c, 15, 0⟩
/-- CORD_PROBE.N [31:16] RW. -/
abbrev CORD_PROBE_N : Field := ⟨0x8000c, 31, 16⟩
/-- CORD_TSTAT (CORD). -/
abbrev CORD_TSTAT : Nat := 0x80010
/-- CORD_TSTAT.TSYNC_LOCK [0:0] RO. -/
abbrev CORD_TSTAT_TSYNC_LOCK : Field := ⟨0x80010, 0, 0⟩
/-- CORD_TSTAT.CLAIMED [1:1] RO. -/
abbrev CORD_TSTAT_CLAIMED : Field := ⟨0x80010, 1, 1⟩
/-- CORD_TSTAT.CFPORT [2:2] RO. -/
abbrev CORD_TSTAT_CFPORT : Field := ⟨0x80010, 2, 2⟩
/-- CORD_TSTAT.POS [13:8] RO. -/
abbrev CORD_TSTAT_POS : Field := ⟨0x80010, 13, 8⟩
/-- CORD_TSTAT.POS_A [21:16] RO. -/
abbrev CORD_TSTAT_POS_A : Field := ⟨0x80010, 21, 16⟩
/-- CORD_TSTAT.POS_B [29:24] RO. -/
abbrev CORD_TSTAT_POS_B : Field := ⟨0x80010, 29, 24⟩
/-- CORD_CLAIM_HI_LO (CORD). -/
abbrev CORD_CLAIM_HI_LO : Nat := 0x80014
/-- CORD_CLAIM_HI_HI (CORD). -/
abbrev CORD_CLAIM_HI_HI : Nat := 0x80018
/-- CORD_ASYM (CORD). -/
abbrev CORD_ASYM : Nat := 0x8001c
/-- CORD_ASYM.ASYM_U [15:0] RW. -/
abbrev CORD_ASYM_ASYM_U : Field := ⟨0x8001c, 15, 0⟩
/-- CORD_ASYM.ASYM_D [31:16] RW. -/
abbrev CORD_ASYM_ASYM_D : Field := ⟨0x8001c, 31, 16⟩
/-- CORD_LF (CORD). -/
abbrev CORD_LF : Nat := 0x80020
/-- CORD_LF_HI (CORD). -/
abbrev CORD_LF_HI : Nat := 0x80024
/-- CORD_LF_HI.LF_FCNT_HI [7:0] RO. -/
abbrev CORD_LF_HI_LF_FCNT_HI : Field := ⟨0x80024, 7, 0⟩
/-- CORD_LF_HI.LF_RESULT [15:8] RO. -/
abbrev CORD_LF_HI_LF_RESULT : Field := ⟨0x80024, 15, 8⟩
/-- CORD_LF_HI.LF_FLAGS [23:16] RO. -/
abbrev CORD_LF_HI_LF_FLAGS : Field := ⟨0x80024, 23, 16⟩
/-- CORD_SEQ_APPLIED (CORD). -/
abbrev CORD_SEQ_APPLIED : Nat := 0x80028
/-- CORD_PCFG (CORD). -/
abbrev CORD_PCFG (i : Nat) : Nat := 0x80100 + 0x80 * i
/-- CORD_PCFG.EN [0:0] RWS. -/
abbrev CORD_PCFG_EN (i : Nat) : Field := ⟨0x80100 + 0x80 * i, 0, 0⟩
/-- CORD_PCFG.RING [1:1] RW. -/
abbrev CORD_PCFG_RING (i : Nat) : Field := ⟨0x80100 + 0x80 * i, 1, 1⟩
/-- CORD_PCFG.RELAY [2:2] RW. -/
abbrev CORD_PCFG_RELAY (i : Nat) : Field := ⟨0x80100 + 0x80 * i, 2, 2⟩
/-- CORD_PCFG.ENC [3:3] RW. -/
abbrev CORD_PCFG_ENC (i : Nat) : Field := ⟨0x80100 + 0x80 * i, 3, 3⟩
/-- CORD_PCFG.MAXSTEP [5:4] RW. -/
abbrev CORD_PCFG_MAXSTEP (i : Nat) : Field := ⟨0x80100 + 0x80 * i, 5, 4⟩
/-- CORD_PSTAT (CORD). -/
abbrev CORD_PSTAT (i : Nat) : Nat := 0x80104 + 0x80 * i
/-- CORD_PSTAT.LINK [0:0] RO. -/
abbrev CORD_PSTAT_LINK (i : Nat) : Field := ⟨0x80104 + 0x80 * i, 0, 0⟩
/-- CORD_PSTAT.AUTH [1:1] RO. -/
abbrev CORD_PSTAT_AUTH (i : Nat) : Field := ⟨0x80104 + 0x80 * i, 1, 1⟩
/-- CORD_PSTAT.STEP [3:2] RO. -/
abbrev CORD_PSTAT_STEP (i : Nat) : Field := ⟨0x80104 + 0x80 * i, 3, 2⟩
/-- CORD_PSTAT.WIDTH2 [4:4] RO. -/
abbrev CORD_PSTAT_WIDTH2 (i : Nat) : Field := ⟨0x80104 + 0x80 * i, 4, 4⟩
/-- CORD_PSTAT.ENUM_DONE [5:5] RO. -/
abbrev CORD_PSTAT_ENUM_DONE (i : Nat) : Field := ⟨0x80104 + 0x80 * i, 5, 5⟩
/-- CORD_PSTAT.TILES [12:6] RO. -/
abbrev CORD_PSTAT_TILES (i : Nat) : Field := ⟨0x80104 + 0x80 * i, 12, 6⟩
/-- CORD_PSTAT.CORD_FULL [13:13] RO. -/
abbrev CORD_PSTAT_CORD_FULL (i : Nat) : Field := ⟨0x80104 + 0x80 * i, 13, 13⟩
/-- CORD_PSTAT.SLOWHOP [14:14] W1C. -/
abbrev CORD_PSTAT_SLOWHOP (i : Nat) : Field := ⟨0x80104 + 0x80 * i, 14, 14⟩
/-- CORD_PSTAT.RING_OK [15:15] RO. -/
abbrev CORD_PSTAT_RING_OK (i : Nat) : Field := ⟨0x80104 + 0x80 * i, 15, 15⟩
/-- CORD_PSTAT.STARVE [16:16] W1C. -/
abbrev CORD_PSTAT_STARVE (i : Nat) : Field := ⟨0x80104 + 0x80 * i, 16, 16⟩
/-- CORD_PSTAT.LINK_LOST [17:17] W1C. -/
abbrev CORD_PSTAT_LINK_LOST (i : Nat) : Field := ⟨0x80104 + 0x80 * i, 17, 17⟩
/-- CORD_PSTAT.END [18:18] RO. -/
abbrev CORD_PSTAT_END (i : Nat) : Field := ⟨0x80104 + 0x80 * i, 18, 18⟩
/-- CORD_N_BLKERR (CORD). -/
abbrev CORD_N_BLKERR (i : Nat) : Nat := 0x80110 + 0x80 * i
/-- CORD_N_HTAGERR (CORD). -/
abbrev CORD_N_HTAGERR (i : Nat) : Nat := 0x80114 + 0x80 * i
/-- CORD_N_TAGERR (CORD). -/
abbrev CORD_N_TAGERR (i : Nat) : Nat := 0x80118 + 0x80 * i
/-- CORD_N_ABORTRX (CORD). -/
abbrev CORD_N_ABORTRX (i : Nat) : Nat := 0x8011c + 0x80 * i
/-- CORD_N_STALE (CORD). -/
abbrev CORD_N_STALE (i : Nat) : Nat := 0x80120 + 0x80 * i
/-- CORD_N_DUP (CORD). -/
abbrev CORD_N_DUP (i : Nat) : Nat := 0x80124 + 0x80 * i
/-- CORD_N_LINKLOSS (CORD). -/
abbrev CORD_N_LINKLOSS (i : Nat) : Nat := 0x80128 + 0x80 * i
/-- CORD_N_DOWNSHIFT (CORD). -/
abbrev CORD_N_DOWNSHIFT (i : Nat) : Nat := 0x8012c + 0x80 * i
/-- CORD_N_STARVE (CORD). -/
abbrev CORD_N_STARVE (i : Nat) : Nat := 0x80130 + 0x80 * i
/-- CORD_N_SCHEDDROP (CORD). -/
abbrev CORD_N_SCHEDDROP (i : Nat) : Nat := 0x80134 + 0x80 * i
/-- CORD_N_LATEJOB (CORD). -/
abbrev CORD_N_LATEJOB (i : Nat) : Nat := 0x80138 + 0x80 * i
/-- CORD_N_ACCEPTOVF (CORD). -/
abbrev CORD_N_ACCEPTOVF (i : Nat) : Nat := 0x8013c + 0x80 * i
/-- CORD_HOP (CORD). -/
abbrev CORD_HOP (i : Nat) (j : Nat) : Nat := 0x81000 + 0x100 * i + 0x4 * j
/-- CORD_HOP.STEP [1:0] RO. -/
abbrev CORD_HOP_STEP (i : Nat) (j : Nat) : Field := ⟨0x81000 + 0x100 * i + 0x4 * j, 1, 0⟩
/-- CORD_HOP.WIDTH2 [2:2] RO. -/
abbrev CORD_HOP_WIDTH2 (i : Nat) (j : Nat) : Field := ⟨0x81000 + 0x100 * i + 0x4 * j, 2, 2⟩
/-- CORD_HOP.UP [3:3] RO. -/
abbrev CORD_HOP_UP (i : Nat) (j : Nat) : Field := ⟨0x81000 + 0x100 * i + 0x4 * j, 3, 3⟩
/-- CORD_HOP.LOCK [4:4] RO. -/
abbrev CORD_HOP_LOCK (i : Nat) (j : Nat) : Field := ⟨0x81000 + 0x100 * i + 0x4 * j, 4, 4⟩
/-- CORD_HOP.LAT [31:12] RO. -/
abbrev CORD_HOP_LAT (i : Nat) (j : Nat) : Field := ⟨0x81000 + 0x100 * i + 0x4 * j, 31, 12⟩

/-! ### Block 9: RING -/

/-- RING_CTRL (RING). -/
abbrev RING_CTRL : Nat := 0x90000
/-- RING_CTRL.CLRCNT [0:0] WO. -/
abbrev RING_CTRL_CLRCNT : Field := ⟨0x90000, 0, 0⟩
/-- RING_STAT (RING). -/
abbrev RING_STAT : Nat := 0x90004
/-- RING_STAT.POS [2:0] RO. -/
abbrev RING_STAT_POS : Field := ⟨0x90004, 2, 0⟩
/-- RING_STAT.LEADER [5:3] RO. -/
abbrev RING_STAT_LEADER : Field := ⟨0x90004, 5, 3⟩
/-- RING_STAT.MEMBERS [15:8] RO. -/
abbrev RING_STAT_MEMBERS : Field := ⟨0x90004, 15, 8⟩
/-- RING_STAT.FORMED [16:16] RO. -/
abbrev RING_STAT_FORMED : Field := ⟨0x90004, 16, 16⟩
/-- RING_STAT.OPEN [17:17] RO. -/
abbrev RING_STAT_OPEN : Field := ⟨0x90004, 17, 17⟩
/-- RING_STAT.RING_POS_DUP [18:18] RO. -/
abbrev RING_STAT_RING_POS_DUP : Field := ⟨0x90004, 18, 18⟩
/-- RING_STAT.REFEREE_DUP [19:19] RO. -/
abbrev RING_STAT_REFEREE_DUP : Field := ⟨0x90004, 19, 19⟩
/-- RING_STAT.REFEREE [20:20] RO. -/
abbrev RING_STAT_REFEREE : Field := ⟨0x90004, 20, 20⟩
/-- RING_STAT.FWD_LINK [21:21] RO. -/
abbrev RING_STAT_FWD_LINK : Field := ⟨0x90004, 21, 21⟩
/-- RING_STAT.BWD_LINK [22:22] RO. -/
abbrev RING_STAT_BWD_LINK : Field := ⟨0x90004, 22, 22⟩
/-- RING_STAT.FWD_STEP [24:23] RO. -/
abbrev RING_STAT_FWD_STEP : Field := ⟨0x90004, 24, 23⟩
/-- RING_STAT.BWD_STEP [26:25] RO. -/
abbrev RING_STAT_BWD_STEP : Field := ⟨0x90004, 26, 25⟩
/-- RING_CFG (RING). -/
abbrev RING_CFG : Nat := 0x90008
/-- RING_CFG.MAXSTEP [1:0] RW. -/
abbrev RING_CFG_MAXSTEP : Field := ⟨0x90008, 1, 0⟩
/-- RING_F_N_BLKERR (RING). -/
abbrev RING_F_N_BLKERR : Nat := 0x90010
/-- RING_F_N_TAGERR (RING). -/
abbrev RING_F_N_TAGERR : Nat := 0x90014
/-- RING_F_N_LINKLOSS (RING). -/
abbrev RING_F_N_LINKLOSS : Nat := 0x90018
/-- RING_B_N_BLKERR (RING). -/
abbrev RING_B_N_BLKERR : Nat := 0x9001c
/-- RING_B_N_TAGERR (RING). -/
abbrev RING_B_N_TAGERR : Nat := 0x90020
/-- RING_B_N_LINKLOSS (RING). -/
abbrev RING_B_N_LINKLOSS : Nat := 0x90024
/-- CLM_CFG (RING). -/
abbrev CLM_CFG : Nat := 0x90100
/-- CLM_CFG.YIELD_MASK [5:0] RW. -/
abbrev CLM_CFG_YIELD_MASK : Field := ⟨0x90100, 5, 0⟩
/-- CLM_CFG.TAKE_MASK [13:8] RW. -/
abbrev CLM_CFG_TAKE_MASK : Field := ⟨0x90100, 13, 8⟩
/-- CLM_CFG.EXTREF [16:16] RW. -/
abbrev CLM_CFG_EXTREF : Field := ⟨0x90100, 16, 16⟩
/-- CLM_CFG.HOLD [31:24] RW. -/
abbrev CLM_CFG_HOLD : Field := ⟨0x90100, 31, 24⟩
/-- CLM_STAT (RING). -/
abbrev CLM_STAT : Nat := 0x90104
/-- CLM_STAT.STATE [2:0] RO. -/
abbrev CLM_STAT_STATE : Field := ⟨0x90104, 2, 0⟩
/-- CLM_STAT.REF_OK [3:3] RO. -/
abbrev CLM_STAT_REF_OK : Field := ⟨0x90104, 3, 3⟩
/-- CLM_STAT.PARTNER_OK [4:4] RO. -/
abbrev CLM_STAT_PARTNER_OK : Field := ⟨0x90104, 4, 4⟩
/-- CLM_STAT.GEN_OK [5:5] RO. -/
abbrev CLM_STAT_GEN_OK : Field := ⟨0x90104, 5, 5⟩
/-- CLM_STAT.PMIRRORED [6:6] RO. -/
abbrev CLM_STAT_PMIRRORED : Field := ⟨0x90104, 6, 6⟩
/-- CLM_STAT.STALE_RSP [7:7] W1C. -/
abbrev CLM_STAT_STALE_RSP : Field := ⟨0x90104, 7, 7⟩
/-- CLM_STAT.NO_STANDBY [8:8] W1C. -/
abbrev CLM_STAT_NO_STANDBY : Field := ⟨0x90104, 8, 8⟩
/-- CLM_STAT.MIRROR_LOST [9:9] W1C. -/
abbrev CLM_STAT_MIRROR_LOST : Field := ⟨0x90104, 9, 9⟩
/-- CLM_STAT.HEALTH [15:10] RO. -/
abbrev CLM_STAT_HEALTH : Field := ⟨0x90104, 15, 10⟩
/-- CLM_STAT.PHEALTH [21:16] RO. -/
abbrev CLM_STAT_PHEALTH : Field := ⟨0x90104, 21, 16⟩
/-- CLM_CLAIM_LO (RING). -/
abbrev CLM_CLAIM_LO : Nat := 0x90108
/-- CLM_CLAIM_HI (RING). -/
abbrev CLM_CLAIM_HI : Nat := 0x9010c
/-- CLM_SEEN_LO (RING). -/
abbrev CLM_SEEN_LO : Nat := 0x90110
/-- CLM_SEEN_HI (RING). -/
abbrev CLM_SEEN_HI : Nat := 0x90114
/-- CLM_PAIR (RING). -/
abbrev CLM_PAIR : Nat := 0x90118
/-- CLM_PAIR.POS_A [2:0] RW. -/
abbrev CLM_PAIR_POS_A : Field := ⟨0x90118, 2, 0⟩
/-- CLM_PAIR.POS_B [6:4] RW. -/
abbrev CLM_PAIR_POS_B : Field := ⟨0x90118, 6, 4⟩
/-- CLM_SWAP (RING). -/
abbrev CLM_SWAP : Nat := 0x9011c
/-- CLM_SWAP.REQ [0:0] WO. -/
abbrev CLM_SWAP_REQ : Field := ⟨0x9011c, 0, 0⟩
/-- CLM_MGEN (RING). -/
abbrev CLM_MGEN : Nat := 0x90120
/-- CLM_HOLDER (RING). -/
abbrev CLM_HOLDER : Nat := 0x90124
/-- CLM_HOLDER.POS [2:0] RO. -/
abbrev CLM_HOLDER_POS : Field := ⟨0x90124, 2, 0⟩
/-- CLM_HOLDER.VALID [3:3] RO. -/
abbrev CLM_HOLDER_VALID : Field := ⟨0x90124, 3, 3⟩
/-- CLM_N_HB_MISS (RING). -/
abbrev CLM_N_HB_MISS : Nat := 0x90140
/-- CLM_N_GRANTS (RING). -/
abbrev CLM_N_GRANTS : Nat := 0x90144
/-- CLM_N_SWAPREQ (RING). -/
abbrev CLM_N_SWAPREQ : Nat := 0x90148
/-- CLM_N_STALE (RING). -/
abbrev CLM_N_STALE : Nat := 0x9014c
/-- CLM_N_NO_STANDBY (RING). -/
abbrev CLM_N_NO_STANDBY : Nat := 0x90150
/-- CLM_N_TAKEOVERS (RING). -/
abbrev CLM_N_TAKEOVERS : Nat := 0x90154
/-- CLM_N_FENCES (RING). -/
abbrev CLM_N_FENCES : Nat := 0x90158
/-- CLM_N_MIRROR_LOST (RING). -/
abbrev CLM_N_MIRROR_LOST : Nat := 0x9015c
/-- CLM_N_EXTDROP (RING). -/
abbrev CLM_N_EXTDROP : Nat := 0x90160

/-! ### Block 10: LAMP -/

/-- LAMP_CTRL (LAMP). -/
abbrev LAMP_CTRL : Nat := 0xa0000
/-- LAMP_CTRL.CLRCNT [0:0] WO. -/
abbrev LAMP_CTRL_CLRCNT : Field := ⟨0xa0000, 0, 0⟩
/-- LAMP_CTRL.SWEEP [1:1] WO. -/
abbrev LAMP_CTRL_SWEEP : Field := ⟨0xa0000, 1, 1⟩
/-- LAMP_STAT (LAMP). -/
abbrev LAMP_STAT : Nat := 0xa0004
/-- LAMP_STAT.PROTECT_FAULT [0:0] W1C. -/
abbrev LAMP_STAT_PROTECT_FAULT : Field := ⟨0xa0004, 0, 0⟩
/-- LAMP_STAT.LOADING [1:1] RO. -/
abbrev LAMP_STAT_LOADING : Field := ⟨0xa0004, 1, 1⟩
/-- LAMP_STAT.UNCAL [2:2] RO. -/
abbrev LAMP_STAT_UNCAL : Field := ⟨0xa0004, 2, 2⟩
/-- LAMP_STAT.GEN_PEND [3:3] RO. -/
abbrev LAMP_STAT_GEN_PEND : Field := ⟨0xa0004, 3, 3⟩
/-- LAMP_STAT.SWEEP_ACT [4:4] RO. -/
abbrev LAMP_STAT_SWEEP_ACT : Field := ⟨0xa0004, 4, 4⟩
/-- LAMP_STAT.TSENS_FAIL [5:5] RO. -/
abbrev LAMP_STAT_TSENS_FAIL : Field := ⟨0xa0004, 5, 5⟩
/-- LAMP_STAT.CAL_SLOT [6:6] RO. -/
abbrev LAMP_STAT_CAL_SLOT : Field := ⟨0xa0004, 6, 6⟩
/-- LAMP_STAT.CLK_FULL [7:7] W1C. -/
abbrev LAMP_STAT_CLK_FULL : Field := ⟨0xa0004, 7, 7⟩
/-- LAMP_GEOM (LAMP). -/
abbrev LAMP_GEOM : Nat := 0xa0008
/-- LAMP_GEOM.W [13:0] RO. -/
abbrev LAMP_GEOM_W : Field := ⟨0xa0008, 13, 0⟩
/-- LAMP_GEOM.H [28:16] RO. -/
abbrev LAMP_GEOM_H : Field := ⟨0xa0008, 28, 16⟩
/-- LAMP_GEOM.LPP [31:29] RO. -/
abbrev LAMP_GEOM_LPP : Field := ⟨0xa0008, 31, 29⟩
/-- LAMP_CAL (LAMP). -/
abbrev LAMP_CAL : Nat := 0xa000c
/-- LAMP_CAL.NBINS [6:0] RO. -/
abbrev LAMP_CAL_NBINS : Field := ⟨0xa000c, 6, 0⟩
/-- LAMP_CAL.DBITS [11:8] RO. -/
abbrev LAMP_CAL_DBITS : Field := ⟨0xa000c, 11, 8⟩
/-- LAMP_CAL.CLKW [23:16] RW. -/
abbrev LAMP_CAL_CLKW : Field := ⟨0xa000c, 23, 16⟩
/-- LAMP_TF (LAMP). -/
abbrev LAMP_TF : Nat := 0xa0010
/-- LAMP_TF.TF [1:0] RW. -/
abbrev LAMP_TF_TF : Field := ⟨0xa0010, 1, 0⟩
/-- LAMP_BRIGHT (LAMP). -/
abbrev LAMP_BRIGHT : Nat := 0xa0014
/-- LAMP_BRIGHT.BRIGHT [15:0] RW. -/
abbrev LAMP_BRIGHT_BRIGHT : Field := ⟨0xa0014, 15, 0⟩
/-- LAMP_RESERVE (LAMP). -/
abbrev LAMP_RESERVE : Nat := 0xa0018
/-- LAMP_RESERVE.RESERVE [15:0] RW. -/
abbrev LAMP_RESERVE_RESERVE : Field := ⟨0xa0018, 15, 0⟩
/-- LAMP_CEIL (LAMP). -/
abbrev LAMP_CEIL : Nat := 0xa001c
/-- LAMP_CEIL.CEIL [9:0] RO. -/
abbrev LAMP_CEIL_CEIL : Field := ⟨0xa001c, 9, 0⟩
/-- LAMP_K (LAMP). -/
abbrev LAMP_K : Nat := 0xa0020
/-- LAMP_K.K [15:0] RO. -/
abbrev LAMP_K_K : Field := ⟨0xa0020, 15, 0⟩
/-- LAMP_TEMP (LAMP). -/
abbrev LAMP_TEMP : Nat := 0xa0024
/-- LAMP_TEMP.TEFF [15:0] RO. -/
abbrev LAMP_TEMP_TEFF : Field := ⟨0xa0024, 15, 0⟩
/-- LAMP_TEMP.TGEN [31:16] RO. -/
abbrev LAMP_TEMP_TGEN : Field := ⟨0xa0024, 31, 16⟩
/-- LAMP_TCFG (LAMP). -/
abbrev LAMP_TCFG : Nat := 0xa0028
/-- LAMP_TCFG.TSTEP [7:0] RW. -/
abbrev LAMP_TCFG_TSTEP : Field := ⟨0xa0028, 7, 0⟩
/-- LAMP_TCFG.TSENS [11:8] RW. -/
abbrev LAMP_TCFG_TSENS : Field := ⟨0xa0028, 11, 8⟩
/-- LAMP_GEN (LAMP). -/
abbrev LAMP_GEN : Nat := 0xa002c
/-- LAMP_GEN.GEN [15:0] RO. -/
abbrev LAMP_GEN_GEN : Field := ⟨0xa002c, 15, 0⟩
/-- LAMP_GEN.STALE_BANDS [24:16] RO. -/
abbrev LAMP_GEN_STALE_BANDS : Field := ⟨0xa002c, 24, 16⟩
/-- LAMP_CLKE (LAMP). -/
abbrev LAMP_CLKE : Nat := 0xa0030
/-- LAMP_CLKE.LAMP [17:0] WO. -/
abbrev LAMP_CLKE_LAMP : Field := ⟨0xa0030, 17, 0⟩
/-- LAMP_CLKE.STATE [21:20] WO. -/
abbrev LAMP_CLKE_STATE : Field := ⟨0xa0030, 21, 20⟩
/-- LAMP_CLKN (LAMP). -/
abbrev LAMP_CLKN : Nat := 0xa0034
/-- LAMP_CLKN.COUNT [12:0] RO. -/
abbrev LAMP_CLKN_COUNT : Field := ⟨0xa0034, 12, 0⟩
/-- LAMP_SWT (LAMP). -/
abbrev LAMP_SWT : Nat := 0xa0038
/-- LAMP_SWT.SWEEP_US [15:0] RO. -/
abbrev LAMP_SWT_SWEEP_US : Field := ⟨0xa0038, 15, 0⟩
/-- LAMP_N_BANDS (LAMP). -/
abbrev LAMP_N_BANDS : Nat := 0xa0040
/-- LAMP_N_PFAULT (LAMP). -/
abbrev LAMP_N_PFAULT : Nat := 0xa0044
/-- LAMP_N_GEOMERR (LAMP). -/
abbrev LAMP_N_GEOMERR : Nat := 0xa0048
/-- LAMP_N_CALBUSY (LAMP). -/
abbrev LAMP_N_CALBUSY : Nat := 0xa004c
/-- LAMP_N_CLIPPED (LAMP). -/
abbrev LAMP_N_CLIPPED : Nat := 0xa0050
/-- LAMP_N_SWEEPS (LAMP). -/
abbrev LAMP_N_SWEEPS : Nat := 0xa0054
/-- LAMP_N_COMMITS (LAMP). -/
abbrev LAMP_N_COMMITS : Nat := 0xa0058
/-- LAMP_ACTIVE (LAMP). -/
abbrev LAMP_ACTIVE (i : Nat) : Nat := 0xa0100 + 0x4 * i
/-- LAMP_TSENS (LAMP). -/
abbrev LAMP_TSENS (i : Nat) : Nat := 0xa0200 + 0x4 * i
/-- LAMP_TSENS.ADDR [6:0] RW. -/
abbrev LAMP_TSENS_ADDR (i : Nat) : Field := ⟨0xa0200 + 0x4 * i, 6, 0⟩
/-- LAMP_TSENS.FMT [7:7] RW. -/
abbrev LAMP_TSENS_FMT (i : Nat) : Field := ⟨0xa0200 + 0x4 * i, 7, 7⟩
/-- LAMP_TSENS.TREG [15:8] RW. -/
abbrev LAMP_TSENS_TREG (i : Nat) : Field := ⟨0xa0200 + 0x4 * i, 15, 8⟩
/-- LAMP_TSENS.SRC [17:16] RW. -/
abbrev LAMP_TSENS_SRC (i : Nat) : Field := ⟨0xa0200 + 0x4 * i, 17, 16⟩
/-- LAMP_TSTAT (LAMP). -/
abbrev LAMP_TSTAT (i : Nat) : Nat := 0xa0210 + 0x4 * i
/-- LAMP_TSTAT.TEMP [15:0] RO. -/
abbrev LAMP_TSTAT_TEMP (i : Nat) : Field := ⟨0xa0210 + 0x4 * i, 15, 0⟩
/-- LAMP_TSTAT.VALID [16:16] RO. -/
abbrev LAMP_TSTAT_VALID (i : Nat) : Field := ⟨0xa0210 + 0x4 * i, 16, 16⟩
/-- LAMP_TSTAT.FAILED [17:17] W1C. -/
abbrev LAMP_TSTAT_FAILED (i : Nat) : Field := ⟨0xa0210 + 0x4 * i, 17, 17⟩
/-- LAMP_DERATE (LAMP). -/
abbrev LAMP_DERATE : Nat := 0xa0220
/-- LAMP_DERATE.TD_START [15:0] RW. -/
abbrev LAMP_DERATE_TD_START : Field := ⟨0xa0220, 15, 0⟩
/-- LAMP_DERATE.TD_END [31:16] RW. -/
abbrev LAMP_DERATE_TD_END : Field := ⟨0xa0220, 31, 16⟩
/-- LAMP_DERATE2 (LAMP). -/
abbrev LAMP_DERATE2 : Nat := 0xa0224
/-- LAMP_DERATE2.TD_MIN [9:0] RW. -/
abbrev LAMP_DERATE2_TD_MIN : Field := ⟨0xa0224, 9, 0⟩
/-- LAMP_DERATE2.CEIL_FAIL [25:16] RW. -/
abbrev LAMP_DERATE2_CEIL_FAIL : Field := ⟨0xa0224, 25, 16⟩
/-- LAMP_CEILSRC (LAMP). -/
abbrev LAMP_CEILSRC : Nat := 0xa0228
/-- LAMP_CEILSRC.CEIL_T [9:0] RO. -/
abbrev LAMP_CEILSRC_CEIL_T : Field := ⟨0xa0228, 9, 0⟩
/-- LAMP_CEILSRC.CEIL_THERM [25:16] RO. -/
abbrev LAMP_CEILSRC_CEIL_THERM : Field := ⟨0xa0228, 25, 16⟩
/-- LAMP_RAMP (LAMP). -/
abbrev LAMP_RAMP : Nat := 0xa0230
/-- LAMP_RAMP.TARGET [15:0] RW. -/
abbrev LAMP_RAMP_TARGET : Field := ⟨0xa0230, 15, 0⟩
/-- LAMP_RAMP.RAMP_MS [27:16] RW. -/
abbrev LAMP_RAMP_RAMP_MS : Field := ⟨0xa0230, 27, 16⟩
/-- LAMP_RAMP.ACTIVE [28:28] RO. -/
abbrev LAMP_RAMP_ACTIVE : Field := ⟨0xa0230, 28, 28⟩
/-- LAMP_HRCFG (LAMP). -/
abbrev LAMP_HRCFG : Nat := 0xa0240
/-- LAMP_HRCFG.WIN [7:0] RW. -/
abbrev LAMP_HRCFG_WIN : Field := ⟨0xa0240, 7, 0⟩
/-- LAMP_HRCFG.HOLD [15:8] RW. -/
abbrev LAMP_HRCFG_HOLD : Field := ⟨0xa0240, 15, 8⟩
/-- LAMP_HRCFG.STEP_UP [23:16] RW. -/
abbrev LAMP_HRCFG_STEP_UP : Field := ⟨0xa0240, 23, 16⟩
/-- LAMP_HRCFG.STEP_DN [31:24] RW. -/
abbrev LAMP_HRCFG_STEP_DN : Field := ⟨0xa0240, 31, 24⟩
/-- LAMP_HRLIM (LAMP). -/
abbrev LAMP_HRLIM : Nat := 0xa0244
/-- LAMP_HRLIM.VMIN [15:0] RW. -/
abbrev LAMP_HRLIM_VMIN : Field := ⟨0xa0244, 15, 0⟩
/-- LAMP_HRLIM.VMAX [31:16] RW. -/
abbrev LAMP_HRLIM_VMAX : Field := ⟨0xa0244, 31, 16⟩
/-- LAMP_HRSET (LAMP). -/
abbrev LAMP_HRSET : Nat := 0xa0248
/-- LAMP_HRSET.SETPOINT [15:0] RO. -/
abbrev LAMP_HRSET_SETPOINT : Field := ⟨0xa0248, 15, 0⟩
/-- LAMP_HRSET.VSTART [31:16] RW. -/
abbrev LAMP_HRSET_VSTART : Field := ⟨0xa0248, 31, 16⟩
/-- LAMP_HRSTAT (LAMP). -/
abbrev LAMP_HRSTAT : Nat := 0xa024c
/-- LAMP_HRSTAT.VOTE [1:0] RO. -/
abbrev LAMP_HRSTAT_VOTE : Field := ⟨0xa024c, 1, 0⟩
/-- LAMP_HRSTAT.MASTER [2:2] RO. -/
abbrev LAMP_HRSTAT_MASTER : Field := ⟨0xa024c, 2, 2⟩
/-- LAMP_HRSTAT.SUP_ERR [3:3] W1C. -/
abbrev LAMP_HRSTAT_SUP_ERR : Field := ⟨0xa024c, 3, 3⟩
/-- LAMP_HRSTAT.SUP_STALE [4:4] RO. -/
abbrev LAMP_HRSTAT_SUP_STALE : Field := ⟨0xa024c, 4, 4⟩
/-- LAMP_HRSTAT.AT_VMAX [5:5] W1C. -/
abbrev LAMP_HRSTAT_AT_VMAX : Field := ⟨0xa024c, 5, 5⟩
/-- LAMP_HRSTAT.PMB_MODE [6:6] W1C. -/
abbrev LAMP_HRSTAT_PMB_MODE : Field := ⟨0xa024c, 6, 6⟩
/-- LAMP_PMB (LAMP). -/
abbrev LAMP_PMB : Nat := 0xa0250
/-- LAMP_PMB.ADDR [6:0] RW. -/
abbrev LAMP_PMB_ADDR : Field := ⟨0xa0250, 6, 0⟩
/-- LAMP_PMB.EN [7:7] RW. -/
abbrev LAMP_PMB_EN : Field := ⟨0xa0250, 7, 7⟩
/-- LAMP_HRMASK (LAMP). -/
abbrev LAMP_HRMASK (i : Nat) : Nat := 0xa0260 + 0x4 * i
/-- LAMP_N_UPWIN (LAMP). -/
abbrev LAMP_N_UPWIN : Nat := 0xa0280
/-- LAMP_N_STEPUP (LAMP). -/
abbrev LAMP_N_STEPUP : Nat := 0xa0284
/-- LAMP_N_STEPDN (LAMP). -/
abbrev LAMP_N_STEPDN : Nat := 0xa0288
/-- LAMP_N_PMBERR (LAMP). -/
abbrev LAMP_N_PMBERR : Nat := 0xa028c
/-- LAMP_N_TSERR (LAMP). -/
abbrev LAMP_N_TSERR (i : Nat) : Nat := 0xa0290 + 0x4 * i

/-! ### Block 11: PSQ -/

/-- PSQ_CTRL (PSQ). -/
abbrev PSQ_CTRL (i : Nat) : Nat := 0xb0000 + 0x1000 * i
/-- PSQ_CTRL.START [0:0] WO. -/
abbrev PSQ_CTRL_START (i : Nat) : Field := ⟨0xb0000 + 0x1000 * i, 0, 0⟩
/-- PSQ_CTRL.STOP [1:1] WO. -/
abbrev PSQ_CTRL_STOP (i : Nat) : Field := ⟨0xb0000 + 0x1000 * i, 1, 1⟩
/-- PSQ_CTRL.CLRCNT [2:2] WO. -/
abbrev PSQ_CTRL_CLRCNT (i : Nat) : Field := ⟨0xb0000 + 0x1000 * i, 2, 2⟩
/-- PSQ_STAT (PSQ). -/
abbrev PSQ_STAT (i : Nat) : Nat := 0xb0004 + 0x1000 * i
/-- PSQ_STAT.RUN [0:0] RO. -/
abbrev PSQ_STAT_RUN (i : Nat) : Field := ⟨0xb0004 + 0x1000 * i, 0, 0⟩
/-- PSQ_STAT.HALTED [1:1] RO. -/
abbrev PSQ_STAT_HALTED (i : Nat) : Field := ⟨0xb0004 + 0x1000 * i, 1, 1⟩
/-- PSQ_STAT.FAULTED [2:2] RO. -/
abbrev PSQ_STAT_FAULTED (i : Nat) : Field := ⟨0xb0004 + 0x1000 * i, 2, 2⟩
/-- PSQ_STAT.VSTOP [3:3] RO. -/
abbrev PSQ_STAT_VSTOP (i : Nat) : Field := ⟨0xb0004 + 0x1000 * i, 3, 3⟩
/-- PSQ_STAT.SWITCH_PEND [4:4] RO. -/
abbrev PSQ_STAT_SWITCH_PEND (i : Nat) : Field := ⟨0xb0004 + 0x1000 * i, 4, 4⟩
/-- PSQ_STAT.SAFE [5:5] RO. -/
abbrev PSQ_STAT_SAFE (i : Nat) : Field := ⟨0xb0004 + 0x1000 * i, 5, 5⟩
/-- PSQ_STAT.NOPROG [6:6] RO. -/
abbrev PSQ_STAT_NOPROG (i : Nat) : Field := ⟨0xb0004 + 0x1000 * i, 6, 6⟩
/-- PSQ_STAT.CMAP_ERR [7:7] W1C. -/
abbrev PSQ_STAT_CMAP_ERR (i : Nat) : Field := ⟨0xb0004 + 0x1000 * i, 7, 7⟩
/-- PSQ_STAT.STREAM_EMPTY [8:8] W1C. -/
abbrev PSQ_STAT_STREAM_EMPTY (i : Nat) : Field := ⟨0xb0004 + 0x1000 * i, 8, 8⟩
/-- PSQ_STAT.GEN_DONE [9:9] W1C. -/
abbrev PSQ_STAT_GEN_DONE (i : Nat) : Field := ⟨0xb0004 + 0x1000 * i, 9, 9⟩
/-- PSQ_STAT.GEN_ERR [10:10] W1C. -/
abbrev PSQ_STAT_GEN_ERR (i : Nat) : Field := ⟨0xb0004 + 0x1000 * i, 10, 10⟩
/-- PSQ_STAT.CAPT_ARMED [11:11] RO. -/
abbrev PSQ_STAT_CAPT_ARMED (i : Nat) : Field := ⟨0xb0004 + 0x1000 * i, 11, 11⟩
/-- PSQ_STAT.CAPT_FULL [12:12] W1C. -/
abbrev PSQ_STAT_CAPT_FULL (i : Nat) : Field := ⟨0xb0004 + 0x1000 * i, 12, 12⟩
/-- PSQ_STAT.CAM [13:13] RO. -/
abbrev PSQ_STAT_CAM (i : Nat) : Field := ⟨0xb0004 + 0x1000 * i, 13, 13⟩
/-- PSQ_FAULT (PSQ). -/
abbrev PSQ_FAULT (i : Nat) : Nat := 0xb0008 + 0x1000 * i
/-- PSQ_FAULT.CODE [7:0] RO. -/
abbrev PSQ_FAULT_CODE (i : Nat) : Field := ⟨0xb0008 + 0x1000 * i, 7, 0⟩
/-- PSQ_FAULT.PC [31:16] RO. -/
abbrev PSQ_FAULT_PC (i : Nat) : Field := ⟨0xb0008 + 0x1000 * i, 31, 16⟩
/-- PSQ_FWORD_LO (PSQ). -/
abbrev PSQ_FWORD_LO (i : Nat) : Nat := 0xb000c + 0x1000 * i
/-- PSQ_FWORD_HI (PSQ). -/
abbrev PSQ_FWORD_HI (i : Nat) : Nat := 0xb0010 + 0x1000 * i
/-- PSQ_PERIOD (PSQ). -/
abbrev PSQ_PERIOD (i : Nat) : Nat := 0xb0014 + 0x1000 * i
/-- PSQ_PERIOD.UNITS [23:0] RO. -/
abbrev PSQ_PERIOD_UNITS (i : Nat) : Field := ⟨0xb0014 + 0x1000 * i, 23, 0⟩
/-- PSQ_POS (PSQ). -/
abbrev PSQ_POS (i : Nat) : Nat := 0xb0018 + 0x1000 * i
/-- PSQ_POS.LINE [7:0] RO. -/
abbrev PSQ_POS_LINE (i : Nat) : Field := ⟨0xb0018 + 0x1000 * i, 7, 0⟩
/-- PSQ_POS.MAP [19:8] RO. -/
abbrev PSQ_POS_MAP (i : Nat) : Field := ⟨0xb0018 + 0x1000 * i, 19, 8⟩
/-- PSQ_POS.MAPSEL [20:20] RO. -/
abbrev PSQ_POS_MAPSEL (i : Nat) : Field := ⟨0xb0018 + 0x1000 * i, 20, 20⟩
/-- PSQ_LTIM (PSQ). -/
abbrev PSQ_LTIM (i : Nat) : Nat := 0xb001c + 0x1000 * i
/-- PSQ_LTIM.INTERVAL [23:0] RW. -/
abbrev PSQ_LTIM_INTERVAL (i : Nat) : Field := ⟨0xb001c + 0x1000 * i, 23, 0⟩
/-- PSQ_LTIM.FSYNC [31:31] RW. -/
abbrev PSQ_LTIM_FSYNC (i : Nat) : Field := ⟨0xb001c + 0x1000 * i, 31, 31⟩
/-- PSQ_TRIGIN (PSQ). -/
abbrev PSQ_TRIGIN (i : Nat) : Nat := 0xb0020 + 0x1000 * i
/-- PSQ_TRIGIN.SRC [5:0] RW. -/
abbrev PSQ_TRIGIN_SRC (i : Nat) : Field := ⟨0xb0020 + 0x1000 * i, 5, 0⟩
/-- PSQ_CAPT (PSQ). -/
abbrev PSQ_CAPT (i : Nat) : Nat := 0xb0024 + 0x1000 * i
/-- PSQ_CAPT.PTR [13:0] RO. -/
abbrev PSQ_CAPT_PTR (i : Nat) : Field := ⟨0xb0024 + 0x1000 * i, 13, 0⟩
/-- PSQ_CAPT.MODE [15:14] RO. -/
abbrev PSQ_CAPT_MODE (i : Nat) : Field := ⟨0xb0024 + 0x1000 * i, 15, 14⟩
/-- PSQ_CAPT.CAPSRC [16:16] RW. -/
abbrev PSQ_CAPT_CAPSRC (i : Nat) : Field := ⟨0xb0024 + 0x1000 * i, 16, 16⟩
/-- PSQ_CAPT.WRAPPED [17:17] W1C. -/
abbrev PSQ_CAPT_WRAPPED (i : Nat) : Field := ⟨0xb0024 + 0x1000 * i, 17, 17⟩
/-- PSQ_VCNT_LO (PSQ). -/
abbrev PSQ_VCNT_LO (i : Nat) : Nat := 0xb0028 + 0x1000 * i
/-- PSQ_VCNT_HI (PSQ). -/
abbrev PSQ_VCNT_HI (i : Nat) : Nat := 0xb002c + 0x1000 * i
/-- PSQ_VCNT_HI.V [15:0] RO. -/
abbrev PSQ_VCNT_HI_V (i : Nat) : Field := ⟨0xb002c + 0x1000 * i, 15, 0⟩
/-- PSQ_FFAIL_LO (PSQ). -/
abbrev PSQ_FFAIL_LO (i : Nat) : Nat := 0xb0030 + 0x1000 * i
/-- PSQ_FFAIL_HI (PSQ). -/
abbrev PSQ_FFAIL_HI (i : Nat) : Nat := 0xb0034 + 0x1000 * i
/-- PSQ_FFAIL_HI.V [15:0] RO. -/
abbrev PSQ_FFAIL_HI_V (i : Nat) : Field := ⟨0xb0034 + 0x1000 * i, 15, 0⟩
/-- PSQ_FFAIL_HI.VALID [16:16] RO. -/
abbrev PSQ_FFAIL_HI_VALID (i : Nat) : Field := ⟨0xb0034 + 0x1000 * i, 16, 16⟩
/-- PSQ_FFAIL_MASK (PSQ). -/
abbrev PSQ_FFAIL_MASK (i : Nat) : Nat := 0xb0038 + 0x1000 * i
/-- PSQ_N_STALLEV (PSQ). -/
abbrev PSQ_N_STALLEV (i : Nat) : Nat := 0xb0040 + 0x1000 * i
/-- PSQ_N_STALLPER (PSQ). -/
abbrev PSQ_N_STALLPER (i : Nat) : Nat := 0xb0044 + 0x1000 * i
/-- PSQ_N_EVOVR (PSQ). -/
abbrev PSQ_N_EVOVR (i : Nat) : Nat := 0xb0048 + 0x1000 * i
/-- PSQ_N_FAILVEC (PSQ). -/
abbrev PSQ_N_FAILVEC (i : Nat) : Nat := 0xb004c + 0x1000 * i
/-- PSQ_N_SKIPSTB (PSQ). -/
abbrev PSQ_N_SKIPSTB (i : Nat) : Nat := 0xb0050 + 0x1000 * i
/-- PSQ_N_EMPTYBITS (PSQ). -/
abbrev PSQ_N_EMPTYBITS (i : Nat) : Nat := 0xb0054 + 0x1000 * i
/-- PSQ_N_CAPLOST (PSQ). -/
abbrev PSQ_N_CAPLOST (i : Nat) : Nat := 0xb0058 + 0x1000 * i
/-- GEN_CFG (PSQ). -/
abbrev GEN_CFG (i : Nat) : Nat := 0xb0060 + 0x1000 * i
/-- GEN_CFG.DMODE [2:0] RW. -/
abbrev GEN_CFG_DMODE (i : Nat) : Field := ⟨0xb0060 + 0x1000 * i, 2, 0⟩
/-- GEN_CFG.NELEM [6:4] RW. -/
abbrev GEN_CFG_NELEM (i : Nat) : Field := ⟨0xb0060 + 0x1000 * i, 6, 4⟩
/-- GEN_ASTART (PSQ). -/
abbrev GEN_ASTART (i : Nat) : Nat := 0xb0064 + 0x1000 * i
/-- GEN_ASTART.A [23:0] RW. -/
abbrev GEN_ASTART_A (i : Nat) : Field := ⟨0xb0064 + 0x1000 * i, 23, 0⟩
/-- GEN_AEND (PSQ). -/
abbrev GEN_AEND (i : Nat) : Nat := 0xb0068 + 0x1000 * i
/-- GEN_AEND.A [23:0] RW. -/
abbrev GEN_AEND_A (i : Nat) : Field := ⟨0xb0068 + 0x1000 * i, 23, 0⟩
/-- GEN_DPAT (PSQ). -/
abbrev GEN_DPAT (i : Nat) : Nat := 0xb006c + 0x1000 * i
/-- GEN_SEED (PSQ). -/
abbrev GEN_SEED (i : Nat) : Nat := 0xb0070 + 0x1000 * i
/-- GEN_SEED.SEED [30:0] RW. -/
abbrev GEN_SEED_SEED (i : Nat) : Field := ⟨0xb0070 + 0x1000 * i, 30, 0⟩
/-- GEN_STAT (PSQ). -/
abbrev GEN_STAT (i : Nat) : Nat := 0xb0074 + 0x1000 * i
/-- GEN_STAT.ADDR [23:0] RO. -/
abbrev GEN_STAT_ADDR (i : Nat) : Field := ⟨0xb0074 + 0x1000 * i, 23, 0⟩
/-- GEN_STAT.ELEM [26:24] RO. -/
abbrev GEN_STAT_ELEM (i : Nat) : Field := ⟨0xb0074 + 0x1000 * i, 26, 24⟩
/-- GEN_STAT.OP [28:27] RO. -/
abbrev GEN_STAT_OP (i : Nat) : Field := ⟨0xb0074 + 0x1000 * i, 28, 27⟩
/-- GEN_ELEM (PSQ). -/
abbrev GEN_ELEM (i : Nat) (j : Nat) : Nat := 0xb0080 + 0x1000 * i + 0x4 * j
/-- GEN_ELEM.DIR [0:0] RW. -/
abbrev GEN_ELEM_DIR (i : Nat) (j : Nat) : Field := ⟨0xb0080 + 0x1000 * i + 0x4 * j, 0, 0⟩
/-- GEN_ELEM.NOPS [2:1] RW. -/
abbrev GEN_ELEM_NOPS (i : Nat) (j : Nat) : Field := ⟨0xb0080 + 0x1000 * i + 0x4 * j, 2, 1⟩
/-- GEN_ELEM.INV [6:3] RW. -/
abbrev GEN_ELEM_INV (i : Nat) (j : Nat) : Field := ⟨0xb0080 + 0x1000 * i + 0x4 * j, 6, 3⟩
/-- PSQ_DEEP_BASE (PSQ). -/
abbrev PSQ_DEEP_BASE (i : Nat) : Nat := 0xb00a0 + 0x1000 * i
/-- PSQ_DEEP_CFG (PSQ). -/
abbrev PSQ_DEEP_CFG (i : Nat) : Nat := 0xb00a4 + 0x1000 * i
/-- PSQ_DEEP_CFG.SIZE [15:0] RW. -/
abbrev PSQ_DEEP_CFG_SIZE (i : Nat) : Field := ⟨0xb00a4 + 0x1000 * i, 15, 0⟩
/-- PSQ_DEEP_CFG.EN [31:31] RW. -/
abbrev PSQ_DEEP_CFG_EN (i : Nat) : Field := ⟨0xb00a4 + 0x1000 * i, 31, 31⟩
/-- PSQ_CADDR (PSQ). -/
abbrev PSQ_CADDR (i : Nat) : Nat := 0xb00b0 + 0x1000 * i
/-- PSQ_CADDR.ADDR [13:0] RW. -/
abbrev PSQ_CADDR_ADDR (i : Nat) : Field := ⟨0xb00b0 + 0x1000 * i, 13, 0⟩
/-- PSQ_CDATA (PSQ). -/
abbrev PSQ_CDATA (i : Nat) : Nat := 0xb00b4 + 0x1000 * i
/-- PSQ_DADDR (PSQ). -/
abbrev PSQ_DADDR (i : Nat) : Nat := 0xb00b8 + 0x1000 * i
/-- PSQ_DADDR.ADDR [11:0] RW. -/
abbrev PSQ_DADDR_ADDR (i : Nat) : Field := ⟨0xb00b8 + 0x1000 * i, 11, 0⟩
/-- PSQ_DDATA (PSQ). -/
abbrev PSQ_DDATA (i : Nat) : Nat := 0xb00bc + 0x1000 * i
/-- PSQ_TDRIVE (PSQ). -/
abbrev PSQ_TDRIVE (i : Nat) (j : Nat) : Nat := 0xb0100 + 0x1000 * i + 0x10 * j
/-- PSQ_TDRIVE.V [23:0] RO. -/
abbrev PSQ_TDRIVE_V (i : Nat) (j : Nat) : Field := ⟨0xb0100 + 0x1000 * i + 0x10 * j, 23, 0⟩
/-- PSQ_TRETURN (PSQ). -/
abbrev PSQ_TRETURN (i : Nat) (j : Nat) : Nat := 0xb0104 + 0x1000 * i + 0x10 * j
/-- PSQ_TRETURN.V [23:0] RO. -/
abbrev PSQ_TRETURN_V (i : Nat) (j : Nat) : Field := ⟨0xb0104 + 0x1000 * i + 0x10 * j, 23, 0⟩
/-- PSQ_TSTROBE (PSQ). -/
abbrev PSQ_TSTROBE (i : Nat) (j : Nat) : Nat := 0xb0108 + 0x1000 * i + 0x10 * j
/-- PSQ_TSTROBE.V [23:0] RO. -/
abbrev PSQ_TSTROBE_V (i : Nat) (j : Nat) : Field := ⟨0xb0108 + 0x1000 * i + 0x10 * j, 23, 0⟩
/-- PSQ_N_PFAIL (PSQ). -/
abbrev PSQ_N_PFAIL (i : Nat) (j : Nat) : Nat := 0xb0200 + 0x1000 * i + 0x4 * j
/-- PSQ_SWEV (PSQ). -/
abbrev PSQ_SWEV : Nat := 0xb8000
/-- PSQ_SWEV.PEND [7:0] W1C. -/
abbrev PSQ_SWEV_PEND : Field := ⟨0xb8000, 7, 0⟩
/-- PSQ_SWEV.RAISE [15:8] WO. -/
abbrev PSQ_SWEV_RAISE : Field := ⟨0xb8000, 15, 8⟩
/-- TS_CTRL (PSQ). -/
abbrev TS_CTRL : Nat := 0xb8100
/-- TS_CTRL.CLRCNT [0:0] WO. -/
abbrev TS_CTRL_CLRCNT : Field := ⟨0xb8100, 0, 0⟩
/-- TS_CFG (PSQ). -/
abbrev TS_CFG : Nat := 0xb8104
/-- TS_CFG.SETTLE [7:0] RW. -/
abbrev TS_CFG_SETTLE : Field := ⟨0xb8104, 7, 0⟩
/-- TS_CFG.CONFIRM [11:8] RW. -/
abbrev TS_CFG_CONFIRM : Field := ⟨0xb8104, 11, 8⟩
/-- TS_CFG.TESTWIN [31:16] RW. -/
abbrev TS_CFG_TESTWIN : Field := ⟨0xb8104, 31, 16⟩
/-- TS_RUNTO (PSQ). -/
abbrev TS_RUNTO : Nat := 0xb8108
/-- TS_RUNTO.RUNTO [15:0] RW. -/
abbrev TS_RUNTO_RUNTO : Field := ⟨0xb8108, 15, 0⟩
/-- TS_STAT (PSQ). -/
abbrev TS_STAT : Nat := 0xb810c
/-- TS_STAT.SLOT_PEND [0:0] RO. -/
abbrev TS_STAT_SLOT_PEND : Field := ⟨0xb810c, 0, 0⟩
/-- TS_STAT.WIN_OPEN [1:1] RO. -/
abbrev TS_STAT_WIN_OPEN : Field := ⟨0xb810c, 1, 1⟩
/-- TS_STAT.ARMED [2:2] RO. -/
abbrev TS_STAT_ARMED : Field := ⟨0xb810c, 2, 2⟩
/-- TS_STAT.FULL [3:3] RO. -/
abbrev TS_STAT_FULL : Field := ⟨0xb810c, 3, 3⟩
/-- TS_STAT.RUN_ACT [4:4] RO. -/
abbrev TS_STAT_RUN_ACT : Field := ⟨0xb810c, 4, 4⟩
/-- TS_STAT.FIND_OVF [5:5] W1C. -/
abbrev TS_STAT_FIND_OVF : Field := ⟨0xb810c, 5, 5⟩
/-- TS_STAT.SLOTS_LEFT [15:8] RO. -/
abbrev TS_STAT_SLOTS_LEFT : Field := ⟨0xb810c, 15, 8⟩
/-- TS_STAT.CAND [24:16] RO. -/
abbrev TS_STAT_CAND : Field := ⟨0xb810c, 24, 16⟩
/-- TS_RUNID (PSQ). -/
abbrev TS_RUNID : Nat := 0xb8110
/-- TS_N_SLOTS (PSQ). -/
abbrev TS_N_SLOTS : Nat := 0xb8120
/-- TS_N_SLOTREPL (PSQ). -/
abbrev TS_N_SLOTREPL : Nat := 0xb8124
/-- TS_N_RESFRAG (PSQ). -/
abbrev TS_N_RESFRAG : Nat := 0xb8128
/-- TS_N_RESDROP (PSQ). -/
abbrev TS_N_RESDROP : Nat := 0xb812c
/-- TS_N_EDITS (PSQ). -/
abbrev TS_N_EDITS : Nat := 0xb8130
/-- TS_N_TESTERR (PSQ). -/
abbrev TS_N_TESTERR : Nat := 0xb8134
/-- TS_N_SITEPASS (PSQ). -/
abbrev TS_N_SITEPASS : Nat := 0xb8138
/-- TS_N_SITEFAIL (PSQ). -/
abbrev TS_N_SITEFAIL : Nat := 0xb813c
/-- TS_N_NORESP (PSQ). -/
abbrev TS_N_NORESP : Nat := 0xb8140
/-- TS_N_LATERES (PSQ). -/
abbrev TS_N_LATERES : Nat := 0xb8144

/-! ### Block 12: PIN -/

/-- PIN_PCFG0 (PIN). -/
abbrev PIN_PCFG0 (i : Nat) : Nat := 0xc0000 + 0x8 * i
/-- PIN_PCFG0.DRIVE [1:0] RW. -/
abbrev PIN_PCFG0_DRIVE (i : Nat) : Field := ⟨0xc0000 + 0x8 * i, 1, 0⟩
/-- PIN_PCFG0.SAFE [3:2] RW. -/
abbrev PIN_PCFG0_SAFE (i : Nat) : Field := ⟨0xc0000 + 0x8 * i, 3, 2⟩
/-- PIN_PCFG0.PRELVL [4:4] RW. -/
abbrev PIN_PCFG0_PRELVL (i : Nat) : Field := ⟨0xc0000 + 0x8 * i, 4, 4⟩
/-- PIN_PCFG0.GSEL [9:5] RW. -/
abbrev PIN_PCFG0_GSEL (i : Nat) : Field := ⟨0xc0000 + 0x8 * i, 9, 5⟩
/-- PIN_PCFG0.GCMP [10:10] RW. -/
abbrev PIN_PCFG0_GCMP (i : Nat) : Field := ⟨0xc0000 + 0x8 * i, 10, 10⟩
/-- PIN_PCFG0.TRGSEL [13:11] RW. -/
abbrev PIN_PCFG0_TRGSEL (i : Nat) : Field := ⟨0xc0000 + 0x8 * i, 13, 11⟩
/-- PIN_PCFG0.DESKEW [24:16] RW. -/
abbrev PIN_PCFG0_DESKEW (i : Nat) : Field := ⟨0xc0000 + 0x8 * i, 24, 16⟩
/-- PIN_PCFG1 (PIN). -/
abbrev PIN_PCFG1 (i : Nat) : Nat := 0xc0004 + 0x8 * i
/-- PIN_PCFG1.VTL [7:0] RW. -/
abbrev PIN_PCFG1_VTL (i : Nat) : Field := ⟨0xc0004 + 0x8 * i, 7, 0⟩
/-- PIN_PCFG1.VTH [15:8] RW. -/
abbrev PIN_PCFG1_VTH (i : Nat) : Field := ⟨0xc0004 + 0x8 * i, 15, 8⟩
/-- PIN_PCFG1.HYS [17:16] RW. -/
abbrev PIN_PCFG1_HYS (i : Nat) : Field := ⟨0xc0004 + 0x8 * i, 17, 16⟩
/-- PIN_PCFG1.SLOPE [19:18] RW. -/
abbrev PIN_PCFG1_SLOPE (i : Nat) : Field := ⟨0xc0004 + 0x8 * i, 19, 18⟩
/-- PIN_BCFG (PIN). -/
abbrev PIN_BCFG (i : Nat) : Nat := 0xc0800 + 0x10 * i
/-- PIN_BCFG.VSEL [2:0] RW. -/
abbrev PIN_BCFG_VSEL (i : Nat) : Field := ⟨0xc0800 + 0x10 * i, 2, 0⟩
/-- PIN_BCFG.PRESET [7:4] RW. -/
abbrev PIN_BCFG_PRESET (i : Nat) : Field := ⟨0xc0800 + 0x10 * i, 7, 4⟩
/-- PIN_BSTAT (PIN). -/
abbrev PIN_BSTAT (i : Nat) : Nat := 0xc0804 + 0x10 * i
/-- PIN_BSTAT.VDDP_MV [11:0] RO. -/
abbrev PIN_BSTAT_VDDP_MV (i : Nat) : Field := ⟨0xc0804 + 0x10 * i, 11, 0⟩
/-- PIN_BSTAT.VDDP_FAIL [12:12] W1C. -/
abbrev PIN_BSTAT_VDDP_FAIL (i : Nat) : Field := ⟨0xc0804 + 0x10 * i, 12, 12⟩
/-- PIN_BSTAT.SAFE [13:13] RO. -/
abbrev PIN_BSTAT_SAFE (i : Nat) : Field := ⟨0xc0804 + 0x10 * i, 13, 13⟩

/-! ### Block 13: TIM -/

/-- TIM_CTRL (TIM). -/
abbrev TIM_CTRL : Nat := 0xd0000
/-- TIM_CTRL.ABORT [15:0] WO. -/
abbrev TIM_CTRL_ABORT : Field := ⟨0xd0000, 15, 0⟩
/-- TIM_CFG (TIM). -/
abbrev TIM_CFG (i : Nat) : Nat := 0xd0100 + 0x40 * i
/-- TIM_CFG.MODE [1:0] RW. -/
abbrev TIM_CFG_MODE (i : Nat) : Field := ⟨0xd0100 + 0x40 * i, 1, 0⟩
/-- TIM_CFG.ARM [2:2] WO. -/
abbrev TIM_CFG_ARM (i : Nat) : Field := ⟨0xd0100 + 0x40 * i, 2, 2⟩
/-- TIM_CFG.START [12:4] RW. -/
abbrev TIM_CFG_START (i : Nat) : Field := ⟨0xd0100 + 0x40 * i, 12, 4⟩
/-- TIM_CFG.STOP [24:16] RW. -/
abbrev TIM_CFG_STOP (i : Nat) : Field := ⟨0xd0100 + 0x40 * i, 24, 16⟩
/-- TIM_N (TIM). -/
abbrev TIM_N (i : Nat) : Nat := 0xd0104 + 0x40 * i
/-- TIM_N.N [15:0] RW. -/
abbrev TIM_N_N (i : Nat) : Field := ⟨0xd0104 + 0x40 * i, 15, 0⟩
/-- TIM_GATE (TIM). -/
abbrev TIM_GATE (i : Nat) : Nat := 0xd0108 + 0x40 * i
/-- TIM_GATE.GATE [9:0] RW. -/
abbrev TIM_GATE_GATE (i : Nat) : Field := ⟨0xd0108 + 0x40 * i, 9, 0⟩
/-- TIM_NOM_LO (TIM). -/
abbrev TIM_NOM_LO (i : Nat) : Nat := 0xd010c + 0x40 * i
/-- TIM_NOM_HI (TIM). -/
abbrev TIM_NOM_HI (i : Nat) : Nat := 0xd0110 + 0x40 * i
/-- TIM_NOM_HI.NOM [7:0] RW. -/
abbrev TIM_NOM_HI_NOM (i : Nat) : Field := ⟨0xd0110 + 0x40 * i, 7, 0⟩
/-- TIM_TMO (TIM). -/
abbrev TIM_TMO (i : Nat) : Nat := 0xd0114 + 0x40 * i
/-- TIM_TMO.TMO [15:0] RW. -/
abbrev TIM_TMO_TMO (i : Nat) : Field := ⟨0xd0114 + 0x40 * i, 15, 0⟩
/-- TIM_STAT (TIM). -/
abbrev TIM_STAT (i : Nat) : Nat := 0xd0118 + 0x40 * i
/-- TIM_STAT.BUSY [0:0] RO. -/
abbrev TIM_STAT_BUSY (i : Nat) : Field := ⟨0xd0118 + 0x40 * i, 0, 0⟩
/-- TIM_STAT.DONE [1:1] W1C. -/
abbrev TIM_STAT_DONE (i : Nat) : Field := ⟨0xd0118 + 0x40 * i, 1, 1⟩
/-- TIM_STAT.BASE_COLD [2:2] RO. -/
abbrev TIM_STAT_BASE_COLD (i : Nat) : Field := ⟨0xd0118 + 0x40 * i, 2, 2⟩
/-- TIM_STAT.DEGRADED [3:3] RO. -/
abbrev TIM_STAT_DEGRADED (i : Nat) : Field := ⟨0xd0118 + 0x40 * i, 3, 3⟩
/-- TIM_STAT.OVR [4:4] RO. -/
abbrev TIM_STAT_OVR (i : Nat) : Field := ⟨0xd0118 + 0x40 * i, 4, 4⟩
/-- TIM_STAT.TIMEOUT [5:5] RO. -/
abbrev TIM_STAT_TIMEOUT (i : Nat) : Field := ⟨0xd0118 + 0x40 * i, 5, 5⟩
/-- TIM_STAT.LOST [6:6] RO. -/
abbrev TIM_STAT_LOST (i : Nat) : Field := ⟨0xd0118 + 0x40 * i, 6, 6⟩
/-- TIM_RES (TIM). -/
abbrev TIM_RES (i : Nat) (j : Nat) : Nat := 0xd011c + 0x40 * i + 0x4 * j

/-! ### Block 14: REF -/

/-- REF_CTRL (REF). -/
abbrev REF_CTRL : Nat := 0xe0000
/-- REF_CTRL.CLRCNT [0:0] WO. -/
abbrev REF_CTRL_CLRCNT : Field := ⟨0xe0000, 0, 0⟩
/-- REF_CFG (REF). -/
abbrev REF_CFG : Nat := 0xe0004
/-- REF_CFG.ENA [0:0] RWS. -/
abbrev REF_CFG_ENA : Field := ⟨0xe0004, 0, 0⟩
/-- REF_CFG.ENB [1:1] RWS. -/
abbrev REF_CFG_ENB : Field := ⟨0xe0004, 1, 1⟩
/-- REF_CFG.ENNET [2:2] RWS. -/
abbrev REF_CFG_ENNET : Field := ⟨0xe0004, 2, 2⟩
/-- REF_CFG.BASESRC [3:3] RWS. -/
abbrev REF_CFG_BASESRC : Field := ⟨0xe0004, 3, 3⟩
/-- REF_QUAL (REF). -/
abbrev REF_QUAL : Nat := 0xe0008
/-- REF_QUAL.TQUAL [7:0] RW. -/
abbrev REF_QUAL_TQUAL : Field := ⟨0xe0008, 7, 0⟩
/-- REF_QUAL.TQUAL_RET [15:8] RW. -/
abbrev REF_QUAL_TQUAL_RET : Field := ⟨0xe0008, 15, 8⟩
/-- REF_QUAL.SLEW [23:16] RW. -/
abbrev REF_QUAL_SLEW : Field := ⟨0xe0008, 23, 16⟩
/-- REF_QUAL.EPOCH_TMO [31:24] RW. -/
abbrev REF_QUAL_EPOCH_TMO : Field := ⟨0xe0008, 31, 24⟩
/-- REF_STAT (REF). -/
abbrev REF_STAT : Nat := 0xe000c
/-- REF_STAT.SEL [1:0] RO. -/
abbrev REF_STAT_SEL : Field := ⟨0xe000c, 1, 0⟩
/-- REF_STAT.STA_A [3:2] RO. -/
abbrev REF_STAT_STA_A : Field := ⟨0xe000c, 3, 2⟩
/-- REF_STAT.STA_B [5:4] RO. -/
abbrev REF_STAT_STA_B : Field := ⟨0xe000c, 5, 4⟩
/-- REF_STAT.STA_NET [7:6] RO. -/
abbrev REF_STAT_STA_NET : Field := ⟨0xe000c, 7, 6⟩
/-- REF_STAT.HOLDOVER [8:8] RO. -/
abbrev REF_STAT_HOLDOVER : Field := ⟨0xe000c, 8, 8⟩
/-- REF_STAT.SLEWING [9:9] RO. -/
abbrev REF_STAT_SLEWING : Field := ⟨0xe000c, 9, 9⟩
/-- REF_STAT.BASE_COLD [10:10] RO. -/
abbrev REF_STAT_BASE_COLD : Field := ⟨0xe000c, 10, 10⟩
/-- REF_STAT.DEGRADED [11:11] RO. -/
abbrev REF_STAT_DEGRADED : Field := ⟨0xe000c, 11, 11⟩
/-- REF_STAT.BASE_UNQUAL [12:12] RO. -/
abbrev REF_STAT_BASE_UNQUAL : Field := ⟨0xe000c, 12, 12⟩
/-- REF_STAT.EPOCH_FIXED [13:13] RO. -/
abbrev REF_STAT_EPOCH_FIXED : Field := ⟨0xe000c, 13, 13⟩
/-- REF_STAT.EPOCH_NET [14:14] RO. -/
abbrev REF_STAT_EPOCH_NET : Field := ⟨0xe000c, 14, 14⟩
/-- REF_STAT.GROUP_LOCK [15:15] RO. -/
abbrev REF_STAT_GROUP_LOCK : Field := ⟨0xe000c, 15, 15⟩
/-- REF_STAT.FREERUN [16:16] RO. -/
abbrev REF_STAT_FREERUN : Field := ⟨0xe000c, 16, 16⟩
/-- REF_SYNC_CFG (REF). -/
abbrev REF_SYNC_CFG (i : Nat) : Nat := 0xe0010 + 0x10 * i
/-- REF_SYNC_CFG.THR [7:0] RW. -/
abbrev REF_SYNC_CFG_THR (i : Nat) : Field := ⟨0xe0010 + 0x10 * i, 7, 0⟩
/-- REF_SYNC_CFG.SLOPE [8:8] RW. -/
abbrev REF_SYNC_CFG_SLOPE (i : Nat) : Field := ⟨0xe0010 + 0x10 * i, 8, 8⟩
/-- REF_SYNC_CFG.HYS [10:9] RW. -/
abbrev REF_SYNC_CFG_HYS (i : Nat) : Field := ⟨0xe0010 + 0x10 * i, 10, 9⟩
/-- REF_SYNC_CFG.MODE [12:11] RW. -/
abbrev REF_SYNC_CFG_MODE (i : Nat) : Field := ⟨0xe0010 + 0x10 * i, 12, 11⟩
/-- REF_SYNC_OFF (REF). -/
abbrev REF_SYNC_OFF (i : Nat) : Nat := 0xe0014 + 0x10 * i
/-- REF_SYNC_CLKPER (REF). -/
abbrev REF_SYNC_CLKPER (i : Nat) : Nat := 0xe0018 + 0x10 * i
/-- REF_SYNC_CLKPER.CLKPER [13:0] RW. -/
abbrev REF_SYNC_CLKPER_CLKPER (i : Nat) : Field := ⟨0xe0018 + 0x10 * i, 13, 0⟩
/-- REF_SYNC_PERR (REF). -/
abbrev REF_SYNC_PERR (i : Nat) : Nat := 0xe001c + 0x10 * i
/-- REF_FOFF (REF). -/
abbrev REF_FOFF : Nat := 0xe0030
/-- REF_PHERR (REF). -/
abbrev REF_PHERR : Nat := 0xe0034
/-- REF_FCORR (REF). -/
abbrev REF_FCORR : Nat := 0xe0038
/-- REF_HOLD (REF). -/
abbrev REF_HOLD : Nat := 0xe003c
/-- REF_WTB_LO (REF). -/
abbrev REF_WTB_LO : Nat := 0xe0040
/-- REF_WTB_HI (REF). -/
abbrev REF_WTB_HI : Nat := 0xe0044
/-- REF_WTB_FRAC (REF). -/
abbrev REF_WTB_FRAC : Nat := 0xe0048
/-- REF_WTB_FRAC.FRAC [5:0] RO. -/
abbrev REF_WTB_FRAC_FRAC : Field := ⟨0xe0048, 5, 0⟩
/-- REF_TSC32 (REF). -/
abbrev REF_TSC32 : Nat := 0xe004c
/-- REF_NTOFF_LO (REF). -/
abbrev REF_NTOFF_LO : Nat := 0xe0050
/-- REF_NTOFF_HI (REF). -/
abbrev REF_NTOFF_HI : Nat := 0xe0054
/-- REF_NET (REF). -/
abbrev REF_NET : Nat := 0xe0058
/-- REF_NET.NET_VALID [0:0] RW. -/
abbrev REF_NET_NET_VALID : Field := ⟨0xe0058, 0, 0⟩
/-- REF_OUT (REF). -/
abbrev REF_OUT : Nat := 0xe0060
/-- REF_OUT.SOUT_EN [0:0] RW. -/
abbrev REF_OUT_SOUT_EN : Field := ⟨0xe0060, 0, 0⟩
/-- REF_OUT.PPS_EN [1:1] RW. -/
abbrev REF_OUT_PPS_EN : Field := ⟨0xe0060, 1, 1⟩
/-- REF_OUT.SOUT_W [15:4] RW. -/
abbrev REF_OUT_SOUT_W : Field := ⟨0xe0060, 15, 4⟩
/-- REF_OUT.PPS_W [25:16] RW. -/
abbrev REF_OUT_PPS_W : Field := ⟨0xe0060, 25, 16⟩
/-- REF_OUTOFF (REF). -/
abbrev REF_OUTOFF : Nat := 0xe0064
/-- REF_N_OCXO_STOP (REF). -/
abbrev REF_N_OCXO_STOP : Nat := 0xe0080
/-- REF_N_OCXO_GLITCH (REF). -/
abbrev REF_N_OCXO_GLITCH : Nat := 0xe0084
/-- REF_N_OCXO_RATE (REF). -/
abbrev REF_N_OCXO_RATE : Nat := 0xe0088
/-- REF_N_A_STOP (REF). -/
abbrev REF_N_A_STOP : Nat := 0xe008c
/-- REF_N_A_GLITCH (REF). -/
abbrev REF_N_A_GLITCH : Nat := 0xe0090
/-- REF_N_A_RATE (REF). -/
abbrev REF_N_A_RATE : Nat := 0xe0094
/-- REF_N_B_STOP (REF). -/
abbrev REF_N_B_STOP : Nat := 0xe0098
/-- REF_N_B_GLITCH (REF). -/
abbrev REF_N_B_GLITCH : Nat := 0xe009c
/-- REF_N_B_RATE (REF). -/
abbrev REF_N_B_RATE : Nat := 0xe00a0
/-- REF_N_NET_LOSS (REF). -/
abbrev REF_N_NET_LOSS : Nat := 0xe00a4
/-- REF_N_NET_DISCARD (REF). -/
abbrev REF_N_NET_DISCARD : Nat := 0xe00a8
/-- REF_N_SWITCH (REF). -/
abbrev REF_N_SWITCH : Nat := 0xe00ac

/-! ### Block 15: NAND -/

/-- NAND_CTRL (NAND). -/
abbrev NAND_CTRL : Nat := 0xf0000
/-- NAND_CTRL.CLRCNT [0:0] WO. -/
abbrev NAND_CTRL_CLRCNT : Field := ⟨0xf0000, 0, 0⟩
/-- NAND_CTRL.SCRUB_NOW [1:1] WO. -/
abbrev NAND_CTRL_SCRUB_NOW : Field := ⟨0xf0000, 1, 1⟩
/-- NAND_STAT (NAND). -/
abbrev NAND_STAT : Nat := 0xf0004
/-- NAND_STAT.PRESENT [0:0] RO. -/
abbrev NAND_STAT_PRESENT : Field := ⟨0xf0004, 0, 0⟩
/-- NAND_STAT.GEOERR [1:1] RO. -/
abbrev NAND_STAT_GEOERR : Field := ⟨0xf0004, 1, 1⟩
/-- NAND_STAT.SCAN_DONE [2:2] RO. -/
abbrev NAND_STAT_SCAN_DONE : Field := ⟨0xf0004, 2, 2⟩
/-- NAND_STAT.ASH_FULL [3:3] RO. -/
abbrev NAND_STAT_ASH_FULL : Field := ⟨0xf0004, 3, 3⟩
/-- NAND_STAT.BUSY [4:4] RO. -/
abbrev NAND_STAT_BUSY : Field := ⟨0xf0004, 4, 4⟩
/-- NAND_STAT.SAG_HOLD [5:5] RO. -/
abbrev NAND_STAT_SAG_HOLD : Field := ⟨0xf0004, 5, 5⟩
/-- NAND_STAT.DEGRADED [6:6] W1C. -/
abbrev NAND_STAT_DEGRADED : Field := ⟨0xf0004, 6, 6⟩
/-- NAND_STAT.FALLBACK [7:7] W1C. -/
abbrev NAND_STAT_FALLBACK : Field := ⟨0xf0004, 7, 7⟩
/-- NAND_STAT.SCRUBBING [8:8] RO. -/
abbrev NAND_STAT_SCRUBBING : Field := ⟨0xf0004, 8, 8⟩
/-- NAND_GEOM (NAND). -/
abbrev NAND_GEOM : Nat := 0xf0008
/-- NAND_GEOM.PAGE [1:0] RO. -/
abbrev NAND_GEOM_PAGE : Field := ⟨0xf0008, 1, 0⟩
/-- NAND_GEOM.PPB [3:2] RO. -/
abbrev NAND_GEOM_PPB : Field := ⟨0xf0008, 3, 2⟩
/-- NAND_GEOM.MODE [4:4] RO. -/
abbrev NAND_GEOM_MODE : Field := ⟨0xf0008, 4, 4⟩
/-- NAND_GEOM.TMODE [7:5] RO. -/
abbrev NAND_GEOM_TMODE : Field := ⟨0xf0008, 7, 5⟩
/-- NAND_GEOM.NBLK [31:16] RO. -/
abbrev NAND_GEOM_NBLK : Field := ⟨0xf0008, 31, 16⟩
/-- NAND_ASH (NAND). -/
abbrev NAND_ASH : Nat := 0xf000c
/-- NAND_ASH.USED [15:0] RO. -/
abbrev NAND_ASH_USED : Field := ⟨0xf000c, 15, 0⟩
/-- NAND_ASH.CAP [31:16] RO. -/
abbrev NAND_ASH_CAP : Field := ⟨0xf000c, 31, 16⟩
/-- NAND_CFG (NAND). -/
abbrev NAND_CFG : Nat := 0xf0010
/-- NAND_CFG.DDR_EN [0:0] RW. -/
abbrev NAND_CFG_DDR_EN : Field := ⟨0xf0010, 0, 0⟩
/-- NAND_CFG.RETIRE_BITS [7:4] RW. -/
abbrev NAND_CFG_RETIRE_BITS : Field := ⟨0xf0010, 7, 4⟩
/-- NAND_CFG.REFRESH_BITS [12:8] RW. -/
abbrev NAND_CFG_REFRESH_BITS : Field := ⟨0xf0010, 12, 8⟩
/-- NAND_SCRUB (NAND). -/
abbrev NAND_SCRUB : Nat := 0xf0014
/-- NAND_SCRUB.DAYS [6:0] RW. -/
abbrev NAND_SCRUB_DAYS : Field := ⟨0xf0014, 6, 0⟩
/-- NAND_SCRUB.READLIM [31:16] RW. -/
abbrev NAND_SCRUB_READLIM : Field := ⟨0xf0014, 31, 16⟩
/-- NAND_PACE (NAND). -/
abbrev NAND_PACE : Nat := 0xf0018
/-- NAND_PACE.PACE [15:0] RW. -/
abbrev NAND_PACE_PACE : Field := ⟨0xf0018, 15, 0⟩
/-- NAND_WL (NAND). -/
abbrev NAND_WL : Nat := 0xf001c
/-- NAND_WL.DELTA [15:0] RW. -/
abbrev NAND_WL_DELTA : Field := ⟨0xf001c, 15, 0⟩
/-- NAND_ECMIN (NAND). -/
abbrev NAND_ECMIN : Nat := 0xf0020
/-- NAND_ECMAX (NAND). -/
abbrev NAND_ECMAX : Nat := 0xf0024
/-- NAND_BLKS (NAND). -/
abbrev NAND_BLKS : Nat := 0xf0028
/-- NAND_BLKS.CLEAN [15:0] RO. -/
abbrev NAND_BLKS_CLEAN : Field := ⟨0xf0028, 15, 0⟩
/-- NAND_BLKS.DIRTY [31:16] RO. -/
abbrev NAND_BLKS_DIRTY : Field := ⟨0xf0028, 31, 16⟩
/-- NAND_SLOT (NAND). -/
abbrev NAND_SLOT (i : Nat) : Nat := 0xf0040 + 0x4 * i
/-- NAND_SLOT.ACTIVE [0:0] RO. -/
abbrev NAND_SLOT_ACTIVE (i : Nat) : Field := ⟨0xf0040 + 0x4 * i, 0, 0⟩
/-- NAND_SLOT.NONE [1:1] RO. -/
abbrev NAND_SLOT_NONE (i : Nat) : Field := ⟨0xf0040 + 0x4 * i, 1, 1⟩
/-- NAND_SLOT.STA_A [3:2] RO. -/
abbrev NAND_SLOT_STA_A (i : Nat) : Field := ⟨0xf0040 + 0x4 * i, 3, 2⟩
/-- NAND_SLOT.STA_B [5:4] RO. -/
abbrev NAND_SLOT_STA_B (i : Nat) : Field := ⟨0xf0040 + 0x4 * i, 5, 4⟩
/-- NAND_SLOT.WRITING [6:6] RO. -/
abbrev NAND_SLOT_WRITING (i : Nat) : Field := ⟨0xf0040 + 0x4 * i, 6, 6⟩
/-- NAND_SLOT.NBLK [15:8] RO. -/
abbrev NAND_SLOT_NBLK (i : Nat) : Field := ⟨0xf0040 + 0x4 * i, 15, 8⟩
/-- NAND_N_CORRSECT (NAND). -/
abbrev NAND_N_CORRSECT : Nat := 0xf0080
/-- NAND_N_UNCORR (NAND). -/
abbrev NAND_N_UNCORR : Nat := 0xf0084
/-- NAND_N_REFRESH (NAND). -/
abbrev NAND_N_REFRESH : Nat := 0xf0088
/-- NAND_N_RETIRE (NAND). -/
abbrev NAND_N_RETIRE : Nat := 0xf008c
/-- NAND_N_ERASES (NAND). -/
abbrev NAND_N_ERASES : Nat := 0xf0090
/-- NAND_N_PROGRAMS (NAND). -/
abbrev NAND_N_PROGRAMS : Nat := 0xf0094
/-- NAND_N_HALFERASE (NAND). -/
abbrev NAND_N_HALFERASE : Nat := 0xf0098
/-- NAND_N_REFRESH_SKIP (NAND). -/
abbrev NAND_N_REFRESH_SKIP : Nat := 0xf009c
/-- NAND_N_SAGWAIT (NAND). -/
abbrev NAND_N_SAGWAIT : Nat := 0xf00a0
/-- NAND_N_SCRUBPASS (NAND). -/
abbrev NAND_N_SCRUBPASS : Nat := 0xf00a4

/-! ### Block 16: NVJ -/

/-- NVJ_CTRL (NVJ). -/
abbrev NVJ_CTRL : Nat := 0x100000
/-- NVJ_CTRL.CLRCNT [0:0] WO. -/
abbrev NVJ_CTRL_CLRCNT : Field := ⟨0x100000, 0, 0⟩
/-- NVJ_STAT (NVJ). -/
abbrev NVJ_STAT : Nat := 0x100004
/-- NVJ_STAT.REPLAYED [0:0] RO. -/
abbrev NVJ_STAT_REPLAYED : Field := ⟨0x100004, 0, 0⟩
/-- NVJ_STAT.CRCERR [1:1] W1C. -/
abbrev NVJ_STAT_CRCERR : Field := ⟨0x100004, 1, 1⟩
/-- NVJ_STAT.FIRSTUSE [2:2] RO. -/
abbrev NVJ_STAT_FIRSTUSE : Field := ⟨0x100004, 2, 2⟩
/-- NVJ_WPTR (NVJ). -/
abbrev NVJ_WPTR : Nat := 0x100008
/-- NVJ_WPTR.WORD [13:0] RO. -/
abbrev NVJ_WPTR_WORD : Field := ⟨0x100008, 13, 0⟩
/-- NVJ_JSEQ (NVJ). -/
abbrev NVJ_JSEQ : Nat := 0x10000c
/-- NVJ_PASSES (NVJ). -/
abbrev NVJ_PASSES : Nat := 0x100010
/-- NVJ_LIVE (NVJ). -/
abbrev NVJ_LIVE : Nat := 0x100014
/-- NVJ_LIVE.WORDS [13:0] RO. -/
abbrev NVJ_LIVE_WORDS : Field := ⟨0x100014, 13, 0⟩
/-- NVJ_N_RECORDS (NVJ). -/
abbrev NVJ_N_RECORDS : Nat := 0x100020
/-- NVJ_N_COMPACTED (NVJ). -/
abbrev NVJ_N_COMPACTED : Nat := 0x100024
/-- NVJ_N_CRCERR (NVJ). -/
abbrev NVJ_N_CRCERR : Nat := 0x100028

/-! ### Block 17: KILN -/

/-- KILN_CTRL (KILN). -/
abbrev KILN_CTRL : Nat := 0x110000
/-- KILN_CTRL.CLRCNT [0:0] WO. -/
abbrev KILN_CTRL_CLRCNT : Field := ⟨0x110000, 0, 0⟩
/-- KILN_CTRL.RUN [1:1] WO. -/
abbrev KILN_CTRL_RUN : Field := ⟨0x110000, 1, 1⟩
/-- KILN_STAT (KILN). -/
abbrev KILN_STAT : Nat := 0x110004
/-- KILN_STAT.BUSY [0:0] RO. -/
abbrev KILN_STAT_BUSY : Field := ⟨0x110004, 0, 0⟩
/-- KILN_STAT.PENDING [1:1] RO. -/
abbrev KILN_STAT_PENDING : Field := ⟨0x110004, 1, 1⟩
/-- KILN_STAT.TRIM_LIMIT [2:2] W1C. -/
abbrev KILN_STAT_TRIM_LIMIT : Field := ⟨0x110004, 2, 2⟩
/-- KILN_STAT.DISAGREE [3:3] W1C. -/
abbrev KILN_STAT_DISAGREE : Field := ⟨0x110004, 3, 3⟩
/-- KILN_STAT.MEASURED [8:4] RO. -/
abbrev KILN_STAT_MEASURED : Field := ⟨0x110004, 8, 4⟩
/-- KILN_CFG (KILN). -/
abbrev KILN_CFG : Nat := 0x110008
/-- KILN_CFG.TDELTA [4:0] RW. -/
abbrev KILN_CFG_TDELTA : Field := ⟨0x110008, 4, 0⟩
/-- KILN_CFG.TMO [15:8] RW. -/
abbrev KILN_CFG_TMO : Field := ⟨0x110008, 15, 8⟩
/-- KILN_LAST (KILN). -/
abbrev KILN_LAST : Nat := 0x11000c
/-- KILN_LAST.TEMP [15:0] RO. -/
abbrev KILN_LAST_TEMP : Field := ⟨0x11000c, 15, 0⟩
/-- KILN_LAST.DUR [31:16] RO. -/
abbrev KILN_LAST_DUR : Field := ⟨0x11000c, 31, 16⟩
/-- KILN_TSEL (KILN). -/
abbrev KILN_TSEL : Nat := 0x110020
/-- KILN_TSEL.CLASS [2:0] RW. -/
abbrev KILN_TSEL_CLASS : Field := ⟨0x110020, 2, 0⟩
/-- KILN_TSEL.INDEX [17:8] RW. -/
abbrev KILN_TSEL_INDEX : Field := ⟨0x110020, 17, 8⟩
/-- KILN_TDATA (KILN). -/
abbrev KILN_TDATA : Nat := 0x110024
/-- KILN_TDATA.APPLIED [7:0] RO. -/
abbrev KILN_TDATA_APPLIED : Field := ⟨0x110024, 7, 0⟩
/-- KILN_TDATA.TARGET [15:8] RO. -/
abbrev KILN_TDATA_TARGET : Field := ⟨0x110024, 15, 8⟩
/-- KILN_TDATA.DRIFT [23:16] RO. -/
abbrev KILN_TDATA_DRIFT : Field := ⟨0x110024, 23, 16⟩
/-- KILN_N_RUNS (KILN). -/
abbrev KILN_N_RUNS : Nat := 0x110040
/-- KILN_N_DISAGREE (KILN). -/
abbrev KILN_N_DISAGREE : Nat := 0x110044
/-- KILN_N_SKIPPED (KILN). -/
abbrev KILN_N_SKIPPED : Nat := 0x110048
/-- KILN_N_TRIM_LIMIT (KILN). -/
abbrev KILN_N_TRIM_LIMIT : Nat := 0x11004c

/-! ### Block 18: THERM -/

/-- THERM_CTRL (THERM). -/
abbrev THERM_CTRL : Nat := 0x120000
/-- THERM_CTRL.CLRCNT [0:0] WO. -/
abbrev THERM_CTRL_CLRCNT : Field := ⟨0x120000, 0, 0⟩
/-- THERM_STAT (THERM). -/
abbrev THERM_STAT : Nat := 0x120004
/-- THERM_STAT.STATE [1:0] RO. -/
abbrev THERM_STAT_STATE : Field := ⟨0x120004, 1, 0⟩
/-- THERM_STAT.LEVEL [10:4] RO. -/
abbrev THERM_STAT_LEVEL : Field := ⟨0x120004, 10, 4⟩
/-- THERM_STAT.FAST [11:11] RO. -/
abbrev THERM_STAT_FAST : Field := ⟨0x120004, 11, 11⟩
/-- THERM_STAT.SENS_FAIL [12:12] RO. -/
abbrev THERM_STAT_SENS_FAIL : Field := ⟨0x120004, 12, 12⟩
/-- THERM_STAT.IMMED [13:13] RO. -/
abbrev THERM_STAT_IMMED : Field := ⟨0x120004, 13, 13⟩
/-- THERM_TEMP (THERM). -/
abbrev THERM_TEMP : Nat := 0x120008
/-- THERM_TEMP.DIE [15:0] RO. -/
abbrev THERM_TEMP_DIE : Field := ⟨0x120008, 15, 0⟩
/-- THERM_TEMP.PEAK [31:16] RO. -/
abbrev THERM_TEMP_PEAK : Field := ⟨0x120008, 31, 16⟩
/-- THERM_CFG (THERM). -/
abbrev THERM_CFG : Nat := 0x12000c
/-- THERM_CFG.GRACE [5:0] RW. -/
abbrev THERM_CFG_GRACE : Field := ⟨0x12000c, 5, 0⟩
/-- THERM_CFG.STEP_T [13:8] RW. -/
abbrev THERM_CFG_STEP_T : Field := ⟨0x12000c, 13, 8⟩
/-- THERM_CFG.RELEASE [23:16] RW. -/
abbrev THERM_CFG_RELEASE : Field := ⟨0x12000c, 23, 16⟩
/-- THERM_CFG.HYS [27:24] RW. -/
abbrev THERM_CFG_HYS : Field := ⟨0x12000c, 27, 24⟩
/-- THERM_TILE (THERM). -/
abbrev THERM_TILE : Nat := 0x120010
/-- THERM_TILE.TSTEP [9:0] RW. -/
abbrev THERM_TILE_TSTEP : Field := ⟨0x120010, 9, 0⟩
/-- THERM_TILE.TMIN [25:16] RW. -/
abbrev THERM_TILE_TMIN : Field := ⟨0x120010, 25, 16⟩
/-- THERM_RESUME (THERM). -/
abbrev THERM_RESUME : Nat := 0x120014
/-- THERM_RESUME.RESUME [6:0] RW. -/
abbrev THERM_RESUME_RESUME : Field := ⟨0x120014, 6, 0⟩
/-- THERM_SVALID (THERM). -/
abbrev THERM_SVALID : Nat := 0x120018
/-- THERM_SVALID.VALID [11:0] RO. -/
abbrev THERM_SVALID_VALID : Field := ⟨0x120018, 11, 0⟩
/-- THERM_SENS (THERM). -/
abbrev THERM_SENS (i : Nat) : Nat := 0x120040 + 0x4 * i
/-- THERM_SENS.TEMP [15:0] RO. -/
abbrev THERM_SENS_TEMP (i : Nat) : Field := ⟨0x120040 + 0x4 * i, 15, 0⟩
/-- THERM_N_REQUESTS (THERM). -/
abbrev THERM_N_REQUESTS : Nat := 0x120080
/-- THERM_N_ENFORCES (THERM). -/
abbrev THERM_N_ENFORCES : Nat := 0x120084
/-- THERM_N_IMMEDIATES (THERM). -/
abbrev THERM_N_IMMEDIATES : Nat := 0x120088
/-- THERM_N_THERM_SMOULDERS (THERM). -/
abbrev THERM_N_THERM_SMOULDERS : Nat := 0x12008c
/-- THERM_N_SENSOR_EXCLUSIONS (THERM). -/
abbrev THERM_N_SENSOR_EXCLUSIONS : Nat := 0x120090

/-! ### Block 19: AGE -/

/-- AGE_CTRL (AGE). -/
abbrev AGE_CTRL : Nat := 0x130000
/-- AGE_CTRL.CLRCNT [0:0] WO. -/
abbrev AGE_CTRL_CLRCNT : Field := ⟨0x130000, 0, 0⟩
/-- AGE_CTRL.PLAN_NOW [1:1] WO. -/
abbrev AGE_CTRL_PLAN_NOW : Field := ⟨0x130000, 1, 1⟩
/-- AGE_STAT (AGE). -/
abbrev AGE_STAT : Nat := 0x130004
/-- AGE_STAT.PLANNING [0:0] RO. -/
abbrev AGE_STAT_PLANNING : Field := ⟨0x130004, 0, 0⟩
/-- AGE_STAT.AVS_ERR [1:1] W1C. -/
abbrev AGE_STAT_AVS_ERR : Field := ⟨0x130004, 1, 1⟩
/-- AGE_STAT.LOW_MARGIN [2:2] W1C. -/
abbrev AGE_STAT_LOW_MARGIN : Field := ⟨0x130004, 2, 2⟩
/-- AGE_STAT.HR_LIMIT [3:3] W1C. -/
abbrev AGE_STAT_HR_LIMIT : Field := ⟨0x130004, 3, 3⟩
/-- AGE_STAT.RESERVE_EXH [4:4] RO. -/
abbrev AGE_STAT_RESERVE_EXH : Field := ⟨0x130004, 4, 4⟩
/-- AGE_STAT.MON_FAIL [5:5] W1C. -/
abbrev AGE_STAT_MON_FAIL : Field := ⟨0x130004, 5, 5⟩
/-- AGE_OPH (AGE). -/
abbrev AGE_OPH : Nat := 0x130008
/-- AGE_EQH (AGE). -/
abbrev AGE_EQH : Nat := 0x13000c
/-- AGE_AVSLIM (AGE). -/
abbrev AGE_AVSLIM : Nat := 0x130010
/-- AGE_AVSLIM.AVS_MIN [15:0] RW. -/
abbrev AGE_AVSLIM_AVS_MIN : Field := ⟨0x130010, 15, 0⟩
/-- AGE_AVSLIM.AVS_MAX [31:16] RW. -/
abbrev AGE_AVSLIM_AVS_MAX : Field := ⟨0x130010, 31, 16⟩
/-- AGE_AVSCFG (AGE). -/
abbrev AGE_AVSCFG : Nat := 0x130014
/-- AGE_AVSCFG.KMV [7:0] RW. -/
abbrev AGE_AVSCFG_KMV : Field := ⟨0x130014, 7, 0⟩
/-- AGE_AVSCFG.STEP [15:8] RW. -/
abbrev AGE_AVSCFG_STEP : Field := ⟨0x130014, 15, 8⟩
/-- AGE_AVSCFG.RAIL [19:16] RW. -/
abbrev AGE_AVSCFG_RAIL : Field := ⟨0x130014, 19, 16⟩
/-- AGE_AVSCFG.EN [20:20] RW. -/
abbrev AGE_AVSCFG_EN : Field := ⟨0x130014, 20, 20⟩
/-- AGE_AVSSET (AGE). -/
abbrev AGE_AVSSET : Nat := 0x130018
/-- AGE_AVSSET.SETPOINT [15:0] RO. -/
abbrev AGE_AVSSET_SETPOINT : Field := ⟨0x130018, 15, 0⟩
/-- AGE_AVSSET.BASE [31:16] RW. -/
abbrev AGE_AVSSET_BASE : Field := ⟨0x130018, 31, 16⟩
/-- AGE_LANE (AGE). -/
abbrev AGE_LANE : Nat := 0x13001c
/-- AGE_LANE.HMIN [5:0] RW. -/
abbrev AGE_LANE_HMIN : Field := ⟨0x13001c, 5, 0⟩
/-- AGE_LANE.VMIN [15:8] RW. -/
abbrev AGE_LANE_VMIN : Field := ⟨0x13001c, 15, 8⟩
/-- AGE_LANE.DOWN [16:16] RW. -/
abbrev AGE_LANE_DOWN : Field := ⟨0x13001c, 16, 16⟩
/-- AGE_LDEP (AGE). -/
abbrev AGE_LDEP (i : Nat) : Nat := 0x130020 + 0x4 * i
/-- AGE_LDEP.HOURS [15:0] RW. -/
abbrev AGE_LDEP_HOURS (i : Nat) : Field := ⟨0x130020 + 0x4 * i, 15, 0⟩
/-- AGE_LDEP.LUM [31:16] RW. -/
abbrev AGE_LDEP_LUM (i : Nat) : Field := ⟨0x130020 + 0x4 * i, 31, 16⟩
/-- AGE_LMEAS (AGE). -/
abbrev AGE_LMEAS : Nat := 0x130040
/-- AGE_LMEAS.LOSS [15:0] RW. -/
abbrev AGE_LMEAS_LOSS : Field := ⟨0x130040, 15, 0⟩
/-- AGE_LMEAS.VALID [31:31] RW. -/
abbrev AGE_LMEAS_VALID : Field := ⟨0x130040, 31, 31⟩
/-- AGE_LUM (AGE). -/
abbrev AGE_LUM : Nat := 0x130044
/-- AGE_LUM.LUM [15:0] RO. -/
abbrev AGE_LUM_LUM : Field := ⟨0x130044, 15, 0⟩
/-- AGE_MON (AGE). -/
abbrev AGE_MON (i : Nat) : Nat := 0x130080 + 0x4 * i
/-- AGE_MON.DEG [15:0] RO. -/
abbrev AGE_MON_DEG (i : Nat) : Field := ⟨0x130080 + 0x4 * i, 15, 0⟩
/-- AGE_MON.VALID [16:16] RO. -/
abbrev AGE_MON_VALID (i : Nat) : Field := ⟨0x130080 + 0x4 * i, 16, 16⟩
/-- AGE_N_PLANS (AGE). -/
abbrev AGE_N_PLANS : Nat := 0x1300c0
/-- AGE_N_AVSWRITES (AGE). -/
abbrev AGE_N_AVSWRITES : Nat := 0x1300c4
/-- AGE_N_AVSERR (AGE). -/
abbrev AGE_N_AVSERR : Nat := 0x1300c8
/-- AGE_N_MONFAIL (AGE). -/
abbrev AGE_N_MONFAIL : Nat := 0x1300cc

/-! ### Block 20: CAM -/

/-- CAM_CTRL (CAM). -/
abbrev CAM_CTRL : Nat := 0x140000
/-- CAM_CTRL.CLRCNT [0:0] WO. -/
abbrev CAM_CTRL_CLRCNT : Field := ⟨0x140000, 0, 0⟩
/-- CAM_CTRL.PCOMMIT [1:1] WO. -/
abbrev CAM_CTRL_PCOMMIT : Field := ⟨0x140000, 1, 1⟩
/-- CAM_CTRL.HOLD [2:2] RW. -/
abbrev CAM_CTRL_HOLD : Field := ⟨0x140000, 2, 2⟩
/-- CAM_CFG (CAM). -/
abbrev CAM_CFG : Nat := 0x140004
/-- CAM_CFG.EN [0:0] RW. -/
abbrev CAM_CFG_EN : Field := ⟨0x140004, 0, 0⟩
/-- CAM_CFG.WIDTH [5:1] RW. -/
abbrev CAM_CFG_WIDTH : Field := ⟨0x140004, 5, 1⟩
/-- CAM_CFG.PCLKEDGE [6:6] RW. -/
abbrev CAM_CFG_PCLKEDGE : Field := ⟨0x140004, 6, 6⟩
/-- CAM_CFG.HPOL [7:7] RW. -/
abbrev CAM_CFG_HPOL : Field := ⟨0x140004, 7, 7⟩
/-- CAM_CFG.VPOL [8:8] RW. -/
abbrev CAM_CFG_VPOL : Field := ⟨0x140004, 8, 8⟩
/-- CAM_CFG.FMT [9:9] RW. -/
abbrev CAM_CFG_FMT : Field := ⟨0x140004, 9, 9⟩
/-- CAM_CFG.PATTERN [11:10] RW. -/
abbrev CAM_CFG_PATTERN : Field := ⟨0x140004, 11, 10⟩
/-- CAM_SIZE (CAM). -/
abbrev CAM_SIZE : Nat := 0x140008
/-- CAM_SIZE.XSIZE [13:0] RW. -/
abbrev CAM_SIZE_XSIZE : Field := ⟨0x140008, 13, 0⟩
/-- CAM_SIZE.YSIZE [29:16] RW. -/
abbrev CAM_SIZE_YSIZE : Field := ⟨0x140008, 29, 16⟩
/-- CAM_BASE (CAM). -/
abbrev CAM_BASE : Nat := 0x14000c
/-- CAM_STRIDE (CAM). -/
abbrev CAM_STRIDE : Nat := 0x140010
/-- CAM_STRIDE.STRIDE [15:0] RW. -/
abbrev CAM_STRIDE_STRIDE : Field := ⟨0x140010, 15, 0⟩
/-- CAM_STAT (CAM). -/
abbrev CAM_STAT : Nat := 0x140014
/-- CAM_STAT.ACTIVE [0:0] RO. -/
abbrev CAM_STAT_ACTIVE : Field := ⟨0x140014, 0, 0⟩
/-- CAM_STAT.FRAME_DONE [1:1] W1C. -/
abbrev CAM_STAT_FRAME_DONE : Field := ⟨0x140014, 1, 1⟩
/-- CAM_STAT.SHORTLINE [2:2] W1C. -/
abbrev CAM_STAT_SHORTLINE : Field := ⟨0x140014, 2, 2⟩
/-- CAM_STAT.LONGLINE [3:3] W1C. -/
abbrev CAM_STAT_LONGLINE : Field := ⟨0x140014, 3, 3⟩
/-- CAM_STAT.SHORTFRAME [4:4] W1C. -/
abbrev CAM_STAT_SHORTFRAME : Field := ⟨0x140014, 4, 4⟩
/-- CAM_STAT.LONGFRAME [5:5] W1C. -/
abbrev CAM_STAT_LONGFRAME : Field := ⟨0x140014, 5, 5⟩
/-- CAM_STAT.OVF [6:6] W1C. -/
abbrev CAM_STAT_OVF : Field := ⟨0x140014, 6, 6⟩
/-- CAM_STAT.PPEND [7:7] RO. -/
abbrev CAM_STAT_PPEND : Field := ⟨0x140014, 7, 7⟩
/-- CAM_STAT.PARAM_ERR [8:8] W1C. -/
abbrev CAM_STAT_PARAM_ERR : Field := ⟨0x140014, 8, 8⟩
/-- CAM_STAT.BUF [9:9] RO. -/
abbrev CAM_STAT_BUF : Field := ⟨0x140014, 9, 9⟩
/-- CAM_STAT.PGEN [23:16] RO. -/
abbrev CAM_STAT_PGEN : Field := ⟨0x140014, 23, 16⟩
/-- CAM_STAT.SGEN [31:24] RO. -/
abbrev CAM_STAT_SGEN : Field := ⟨0x140014, 31, 24⟩
/-- CAM_SENS (CAM). -/
abbrev CAM_SENS : Nat := 0x140018
/-- CAM_SENS.ADDR [6:0] RW. -/
abbrev CAM_SENS_ADDR : Field := ⟨0x140018, 6, 0⟩
/-- CAM_SENS.A16 [7:7] RW. -/
abbrev CAM_SENS_A16 : Field := ⟨0x140018, 7, 7⟩
/-- CAM_SENS.D16 [8:8] RW. -/
abbrev CAM_SENS_D16 : Field := ⟨0x140018, 8, 8⟩
/-- CAM_SENS.NP [11:9] RW. -/
abbrev CAM_SENS_NP : Field := ⟨0x140018, 11, 9⟩
/-- CAM_SENS.DELAY [15:12] RW. -/
abbrev CAM_SENS_DELAY : Field := ⟨0x140018, 15, 12⟩
/-- CAM_PSET (CAM). -/
abbrev CAM_PSET (i : Nat) : Nat := 0x140020 + 0x4 * i
/-- CAM_PSET.REG [15:0] RW. -/
abbrev CAM_PSET_REG (i : Nat) : Field := ⟨0x140020 + 0x4 * i, 15, 0⟩
/-- CAM_PSET.DATA [31:16] RW. -/
abbrev CAM_PSET_DATA (i : Nat) : Field := ⟨0x140020 + 0x4 * i, 31, 16⟩
/-- CAM_N_FRAMES (CAM). -/
abbrev CAM_N_FRAMES : Nat := 0x140060
/-- CAM_N_SHORTLINE (CAM). -/
abbrev CAM_N_SHORTLINE : Nat := 0x140064
/-- CAM_N_LONGLINE (CAM). -/
abbrev CAM_N_LONGLINE : Nat := 0x140068
/-- CAM_N_SHORTFRAME (CAM). -/
abbrev CAM_N_SHORTFRAME : Nat := 0x14006c
/-- CAM_N_LONGFRAME (CAM). -/
abbrev CAM_N_LONGFRAME : Nat := 0x140070
/-- CAM_N_OVF (CAM). -/
abbrev CAM_N_OVF : Nat := 0x140074
/-- CAM_N_PARAMERR (CAM). -/
abbrev CAM_N_PARAMERR : Nat := 0x140078
/-- CAM_N_STATSKIP (CAM). -/
abbrev CAM_N_STATSKIP : Nat := 0x14007c
/-- CAM_HIST (CAM). -/
abbrev CAM_HIST (i : Nat) (j : Nat) : Nat := 0x141000 + 0x400 * i + 0x4 * j
/-- CAM_ZONE (CAM). -/
abbrev CAM_ZONE (i : Nat) (j : Nat) : Nat := 0x144000 + 0x1000 * i + 0x4 * j
/-- CAM_ZONE.MEAN [15:0] RO. -/
abbrev CAM_ZONE_MEAN (i : Nat) (j : Nat) : Field := ⟨0x144000 + 0x1000 * i + 0x4 * j, 15, 0⟩
/-- CAM_ZONE.EMPTY [16:16] RO. -/
abbrev CAM_ZONE_EMPTY (i : Nat) (j : Nat) : Field := ⟨0x144000 + 0x1000 * i + 0x4 * j, 16, 16⟩

/-! ### Block 21: AUD -/

/-- AUD_CTRL (AUD). -/
abbrev AUD_CTRL : Nat := 0x150000
/-- AUD_CTRL.CLRCNT [0:0] WO. -/
abbrev AUD_CTRL_CLRCNT : Field := ⟨0x150000, 0, 0⟩
/-- AUD_GCFG (AUD). -/
abbrev AUD_GCFG : Nat := 0x150004
/-- AUD_GCFG.MCLK_EN [0:0] RW. -/
abbrev AUD_GCFG_MCLK_EN : Field := ⟨0x150004, 0, 0⟩
/-- AUD_TXCFG (AUD). -/
abbrev AUD_TXCFG : Nat := 0x150010
/-- AUD_TXCFG.PORTS [7:0] RW. -/
abbrev AUD_TXCFG_PORTS : Field := ⟨0x150010, 7, 0⟩
/-- AUD_TXCFG.TXSTREAM [10:8] RW. -/
abbrev AUD_TXCFG_TXSTREAM : Field := ⟨0x150010, 10, 8⟩
/-- AUD_TXCFG.EN [11:11] RW. -/
abbrev AUD_TXCFG_EN : Field := ⟨0x150010, 11, 11⟩
/-- AUD_TXCFG.TPORT [13:12] RW. -/
abbrev AUD_TXCFG_TPORT : Field := ⟨0x150010, 13, 12⟩
/-- AUD_TXCFG.LEAD [21:16] RW. -/
abbrev AUD_TXCFG_LEAD : Field := ⟨0x150010, 21, 16⟩
/-- AUD_TXDELAY (AUD). -/
abbrev AUD_TXDELAY : Nat := 0x150014
/-- AUD_TXDELAY.TXDELAY [15:0] RW. -/
abbrev AUD_TXDELAY_TXDELAY : Field := ⟨0x150014, 15, 0⟩
/-- AUD_CFG (AUD). -/
abbrev AUD_CFG (i : Nat) : Nat := 0x150100 + 0x40 * i
/-- AUD_CFG.EN [0:0] RW. -/
abbrev AUD_CFG_EN (i : Nat) : Field := ⟨0x150100 + 0x40 * i, 0, 0⟩
/-- AUD_CFG.MUTE [1:1] RW. -/
abbrev AUD_CFG_MUTE (i : Nat) : Field := ⟨0x150100 + 0x40 * i, 1, 1⟩
/-- AUD_CFG.SLOTS [5:2] RW. -/
abbrev AUD_CFG_SLOTS (i : Nat) : Field := ⟨0x150100 + 0x40 * i, 5, 2⟩
/-- AUD_CFG.SW [7:6] RW. -/
abbrev AUD_CFG_SW (i : Nat) : Field := ⟨0x150100 + 0x40 * i, 7, 6⟩
/-- AUD_CFG.FSPOL [8:8] RW. -/
abbrev AUD_CFG_FSPOL (i : Nat) : Field := ⟨0x150100 + 0x40 * i, 8, 8⟩
/-- AUD_CFG.BCLKEDGE [9:9] RW. -/
abbrev AUD_CFG_BCLKEDGE (i : Nat) : Field := ⟨0x150100 + 0x40 * i, 9, 9⟩
/-- AUD_CFG.STREAM [12:10] RW. -/
abbrev AUD_CFG_STREAM (i : Nat) : Field := ⟨0x150100 + 0x40 * i, 12, 10⟩
/-- AUD_CFG.RAMP [23:16] RW. -/
abbrev AUD_CFG_RAMP (i : Nat) : Field := ⟨0x150100 + 0x40 * i, 23, 16⟩
/-- AUD_CHMAP_LO (AUD). -/
abbrev AUD_CHMAP_LO (i : Nat) : Nat := 0x150104 + 0x40 * i
/-- AUD_CHMAP_HI (AUD). -/
abbrev AUD_CHMAP_HI (i : Nat) : Nat := 0x150108 + 0x40 * i
/-- AUD_SMASK (AUD). -/
abbrev AUD_SMASK (i : Nat) : Nat := 0x15010c + 0x40 * i
/-- AUD_SMASK.SMASK [15:0] RW. -/
abbrev AUD_SMASK_SMASK (i : Nat) : Field := ⟨0x15010c + 0x40 * i, 15, 0⟩
/-- AUD_DELAY (AUD). -/
abbrev AUD_DELAY (i : Nat) : Nat := 0x150110 + 0x40 * i
/-- AUD_DELAY.DELAY [15:0] RW. -/
abbrev AUD_DELAY_DELAY (i : Nat) : Field := ⟨0x150110 + 0x40 * i, 15, 0⟩
/-- AUD_STAT (AUD). -/
abbrev AUD_STAT (i : Nat) : Nat := 0x150114 + 0x40 * i
/-- AUD_STAT.RUN [0:0] RO. -/
abbrev AUD_STAT_RUN (i : Nat) : Field := ⟨0x150114 + 0x40 * i, 0, 0⟩
/-- AUD_STAT.RAMPING [1:1] RO. -/
abbrev AUD_STAT_RAMPING (i : Nat) : Field := ⟨0x150114 + 0x40 * i, 1, 1⟩
/-- AUD_STAT.UNDERRUN [2:2] W1C. -/
abbrev AUD_STAT_UNDERRUN (i : Nat) : Field := ⟨0x150114 + 0x40 * i, 2, 2⟩
/-- AUD_STAT.OVERRUN [3:3] W1C. -/
abbrev AUD_STAT_OVERRUN (i : Nat) : Field := ⟨0x150114 + 0x40 * i, 3, 3⟩
/-- AUD_STAT.LATE [4:4] W1C. -/
abbrev AUD_STAT_LATE (i : Nat) : Field := ⟨0x150114 + 0x40 * i, 4, 4⟩
/-- AUD_STAT.FILL [21:8] RO. -/
abbrev AUD_STAT_FILL (i : Nat) : Field := ⟨0x150114 + 0x40 * i, 21, 8⟩
/-- AUD_N_BLOCKS (AUD). -/
abbrev AUD_N_BLOCKS (i : Nat) : Nat := 0x150120 + 0x40 * i
/-- AUD_N_INSERTED (AUD). -/
abbrev AUD_N_INSERTED (i : Nat) : Nat := 0x150124 + 0x40 * i
/-- AUD_N_UNDERRUN (AUD). -/
abbrev AUD_N_UNDERRUN (i : Nat) : Nat := 0x150128 + 0x40 * i
/-- AUD_N_DROPPED (AUD). -/
abbrev AUD_N_DROPPED (i : Nat) : Nat := 0x15012c + 0x40 * i
/-- AUD_N_OVERRUN (AUD). -/
abbrev AUD_N_OVERRUN (i : Nat) : Nat := 0x150130 + 0x40 * i

/-! ### Block 22: TRACE -/

/-- TRACE_CTRL (TRACE). -/
abbrev TRACE_CTRL : Nat := 0x160000
/-- TRACE_CTRL.CLRCNT [0:0] WO. -/
abbrev TRACE_CTRL_CLRCNT : Field := ⟨0x160000, 0, 0⟩
/-- TRACE_CTRL.STK_EN [1:1] RW. -/
abbrev TRACE_CTRL_STK_EN : Field := ⟨0x160000, 1, 1⟩
/-- TRACE_CTRL.SEQ_EN [2:2] RW. -/
abbrev TRACE_CTRL_SEQ_EN : Field := ⟨0x160000, 2, 2⟩
/-- TRACE_CTRL.MODE [3:3] RW. -/
abbrev TRACE_CTRL_MODE : Field := ⟨0x160000, 3, 3⟩
/-- TRACE_CTRL.MARKPWR [4:4] RW. -/
abbrev TRACE_CTRL_MARKPWR : Field := ⟨0x160000, 4, 4⟩
/-- TRACE_CTRL.CLEAR [5:5] WO. -/
abbrev TRACE_CTRL_CLEAR : Field := ⟨0x160000, 5, 5⟩
/-- TRACE_SEQMASK (TRACE). -/
abbrev TRACE_SEQMASK : Nat := 0x160004
/-- TRACE_SEQMASK.MASK [8:0] RW. -/
abbrev TRACE_SEQMASK_MASK : Field := ⟨0x160004, 8, 0⟩
/-- TRACE_STAT (TRACE). -/
abbrev TRACE_STAT : Nat := 0x160008
/-- TRACE_STAT.WRAPPED [0:0] RO. -/
abbrev TRACE_STAT_WRAPPED : Field := ⟨0x160008, 0, 0⟩
/-- TRACE_STAT.FULL [1:1] RO. -/
abbrev TRACE_STAT_FULL : Field := ⟨0x160008, 1, 1⟩
/-- TRACE_STAT.RETAINED [2:2] RO. -/
abbrev TRACE_STAT_RETAINED : Field := ⟨0x160008, 2, 2⟩
/-- TRACE_STAT.READABLE [3:3] RO. -/
abbrev TRACE_STAT_READABLE : Field := ⟨0x160008, 3, 3⟩
/-- TRACE_WPTR (TRACE). -/
abbrev TRACE_WPTR : Nat := 0x16000c
/-- TRACE_WPTR.PTR [12:0] RO. -/
abbrev TRACE_WPTR_PTR : Field := ⟨0x16000c, 12, 0⟩
/-- TRACE_RADDR (TRACE). -/
abbrev TRACE_RADDR : Nat := 0x160010
/-- TRACE_RADDR.ADDR [12:0] RW. -/
abbrev TRACE_RADDR_ADDR : Field := ⟨0x160010, 12, 0⟩
/-- TRACE_RDATA_LO (TRACE). -/
abbrev TRACE_RDATA_LO : Nat := 0x160014
/-- TRACE_RDATA_HI (TRACE). -/
abbrev TRACE_RDATA_HI : Nat := 0x160018
/-- TRACE_SWMSG (TRACE). -/
abbrev TRACE_SWMSG : Nat := 0x16001c
/-- TRACE_HALT (TRACE). -/
abbrev TRACE_HALT : Nat := 0x160020
/-- TRACE_HALT.STK_HALT [0:0] RW. -/
abbrev TRACE_HALT_STK_HALT : Field := ⟨0x160020, 0, 0⟩
/-- TRACE_HALT.STK_STEP [1:1] WO. -/
abbrev TRACE_HALT_STK_STEP : Field := ⟨0x160020, 1, 1⟩
/-- TRACE_HALT.FSQ_HALT [2:2] RW. -/
abbrev TRACE_HALT_FSQ_HALT : Field := ⟨0x160020, 2, 2⟩
/-- TRACE_HALT.FSQ_STEP [3:3] WO. -/
abbrev TRACE_HALT_FSQ_STEP : Field := ⟨0x160020, 3, 3⟩
/-- TRACE_HALT.PSQ_HALT [11:4] WO. -/
abbrev TRACE_HALT_PSQ_HALT : Field := ⟨0x160020, 11, 4⟩
/-- TRACE_N_DROPPED (TRACE). -/
abbrev TRACE_N_DROPPED : Nat := 0x160040
/-- TRACE_N_EXTEST_REFUSED (TRACE). -/
abbrev TRACE_N_EXTEST_REFUSED : Nat := 0x160044

/-! ### Block 23: LANE -/

/-- LANE_CTRL (LANE). -/
abbrev LANE_CTRL : Nat := 0x170000
/-- LANE_CTRL.CLRCNT [0:0] WO. -/
abbrev LANE_CTRL_CLRCNT : Field := ⟨0x170000, 0, 0⟩
/-- LANE_STAT (LANE). -/
abbrev LANE_STAT : Nat := 0x170004
/-- LANE_STAT.TABLE_OK [0:0] RO. -/
abbrev LANE_STAT_TABLE_OK : Field := ⟨0x170004, 0, 0⟩
/-- LANE_STAT.TABLE_COPY [1:1] RO. -/
abbrev LANE_STAT_TABLE_COPY : Field := ⟨0x170004, 1, 1⟩
/-- LANE_STAT.TABLE_NONE [2:2] RO. -/
abbrev LANE_STAT_TABLE_NONE : Field := ⟨0x170004, 2, 2⟩
/-- LANE_STAT.DDR_REC [3:3] RO. -/
abbrev LANE_STAT_DDR_REC : Field := ⟨0x170004, 3, 3⟩
/-- LANE_STAT.PENDING [4:4] RO. -/
abbrev LANE_STAT_PENDING : Field := ⟨0x170004, 4, 4⟩
/-- LANE_WAKE (LANE). -/
abbrev LANE_WAKE : Nat := 0x170008
/-- LANE_WAKE.WPAT [13:0] RW. -/
abbrev LANE_WAKE_WPAT : Field := ⟨0x170008, 13, 0⟩
/-- LANE_WAKE.KEEP [22:16] RW. -/
abbrev LANE_WAKE_KEEP : Field := ⟨0x170008, 22, 16⟩
/-- LANE_SLEEP (LANE). -/
abbrev LANE_SLEEP (i : Nat) : Nat := 0x170040 + 0x4 * i
/-- LANE_SLEEP.EN [0:0] RW. -/
abbrev LANE_SLEEP_EN (i : Nat) : Field := ⟨0x170040 + 0x4 * i, 0, 0⟩
/-- LANE_SLEEP.LEAD [15:8] RW. -/
abbrev LANE_SLEEP_LEAD (i : Nat) : Field := ⟨0x170040 + 0x4 * i, 15, 8⟩
/-- LANE_SLEEP.IDLE [23:16] RW. -/
abbrev LANE_SLEEP_IDLE (i : Nat) : Field := ⟨0x170040 + 0x4 * i, 23, 16⟩
/-- LANE_SLEEP.HOLD [31:24] RW. -/
abbrev LANE_SLEEP_HOLD (i : Nat) : Field := ⟨0x170040 + 0x4 * i, 31, 24⟩
/-- LANE_LSTAT (LANE). -/
abbrev LANE_LSTAT (i : Nat) : Nat := 0x170100 + 0x40 * i
/-- LANE_LSTAT.USE [1:0] RO. -/
abbrev LANE_LSTAT_USE (i : Nat) : Field := ⟨0x170100 + 0x40 * i, 1, 0⟩
/-- LANE_LSTAT.RATE [3:2] RO. -/
abbrev LANE_LSTAT_RATE (i : Nat) : Field := ⟨0x170100 + 0x40 * i, 3, 2⟩
/-- LANE_LSTAT.TXST [5:4] RO. -/
abbrev LANE_LSTAT_TXST (i : Nat) : Field := ⟨0x170100 + 0x40 * i, 5, 4⟩
/-- LANE_LSTAT.RXST [7:6] RO. -/
abbrev LANE_LSTAT_RXST (i : Nat) : Field := ⟨0x170100 + 0x40 * i, 7, 6⟩
/-- LANE_LSTAT.ENTRY [11:8] RO. -/
abbrev LANE_LSTAT_ENTRY (i : Nat) : Field := ⟨0x170100 + 0x40 * i, 11, 8⟩
/-- LANE_LSTAT.NOENTRY [12:12] W1C. -/
abbrev LANE_LSTAT_NOENTRY (i : Nat) : Field := ⟨0x170100 + 0x40 * i, 12, 12⟩
/-- LANE_PRESET (LANE). -/
abbrev LANE_PRESET (i : Nat) : Nat := 0x170104 + 0x40 * i
/-- LANE_PRESET.PRE [7:0] RO. -/
abbrev LANE_PRESET_PRE (i : Nat) : Field := ⟨0x170104 + 0x40 * i, 7, 0⟩
/-- LANE_PRESET.MAIN [15:8] RO. -/
abbrev LANE_PRESET_MAIN (i : Nat) : Field := ⟨0x170104 + 0x40 * i, 15, 8⟩
/-- LANE_PRESET.POST [23:16] RO. -/
abbrev LANE_PRESET_POST (i : Nat) : Field := ⟨0x170104 + 0x40 * i, 23, 16⟩
/-- LANE_PRESET.CTLE [27:24] RO. -/
abbrev LANE_PRESET_CTLE (i : Nat) : Field := ⟨0x170104 + 0x40 * i, 27, 24⟩
/-- LANE_ESCAN_CFG (LANE). -/
abbrev LANE_ESCAN_CFG (i : Nat) : Nat := 0x170108 + 0x40 * i
/-- LANE_ESCAN_CFG.START [0:0] WO. -/
abbrev LANE_ESCAN_CFG_START (i : Nat) : Field := ⟨0x170108 + 0x40 * i, 0, 0⟩
/-- LANE_ESCAN_CFG.ABORT [1:1] WO. -/
abbrev LANE_ESCAN_CFG_ABORT (i : Nat) : Field := ⟨0x170108 + 0x40 * i, 1, 1⟩
/-- LANE_ESCAN_CFG.MODE [2:2] RW. -/
abbrev LANE_ESCAN_CFG_MODE (i : Nat) : Field := ⟨0x170108 + 0x40 * i, 2, 2⟩
/-- LANE_ESCAN_CFG.HOFF [13:8] RW. -/
abbrev LANE_ESCAN_CFG_HOFF (i : Nat) : Field := ⟨0x170108 + 0x40 * i, 13, 8⟩
/-- LANE_ESCAN_CFG.VOFF [23:16] RW. -/
abbrev LANE_ESCAN_CFG_VOFF (i : Nat) : Field := ⟨0x170108 + 0x40 * i, 23, 16⟩
/-- LANE_ESCAN_CFG.DWELL [29:24] RW. -/
abbrev LANE_ESCAN_CFG_DWELL (i : Nat) : Field := ⟨0x170108 + 0x40 * i, 29, 24⟩
/-- LANE_ESCAN_LIM (LANE). -/
abbrev LANE_ESCAN_LIM (i : Nat) : Nat := 0x17010c + 0x40 * i
/-- LANE_ESCAN_LIM.ERRLIM [15:0] RW. -/
abbrev LANE_ESCAN_LIM_ERRLIM (i : Nat) : Field := ⟨0x17010c + 0x40 * i, 15, 0⟩
/-- LANE_ESCAN_STAT (LANE). -/
abbrev LANE_ESCAN_STAT (i : Nat) : Nat := 0x170110 + 0x40 * i
/-- LANE_ESCAN_STAT.BUSY [0:0] RO. -/
abbrev LANE_ESCAN_STAT_BUSY (i : Nat) : Field := ⟨0x170110 + 0x40 * i, 0, 0⟩
/-- LANE_ESCAN_STAT.DONE [1:1] W1C. -/
abbrev LANE_ESCAN_STAT_DONE (i : Nat) : Field := ⟨0x170110 + 0x40 * i, 1, 1⟩
/-- LANE_ESCAN_STAT.WAITKILN [2:2] RO. -/
abbrev LANE_ESCAN_STAT_WAITKILN (i : Nat) : Field := ⟨0x170110 + 0x40 * i, 2, 2⟩
/-- LANE_ESCAN_STAT.NOLINK [3:3] RO. -/
abbrev LANE_ESCAN_STAT_NOLINK (i : Nat) : Field := ⟨0x170110 + 0x40 * i, 3, 3⟩
/-- LANE_ESCAN_STAT.TIMEOUT [4:4] RO. -/
abbrev LANE_ESCAN_STAT_TIMEOUT (i : Nat) : Field := ⟨0x170110 + 0x40 * i, 4, 4⟩
/-- LANE_ERRCNT (LANE). -/
abbrev LANE_ERRCNT (i : Nat) : Nat := 0x170114 + 0x40 * i
/-- LANE_BITCNT_LO (LANE). -/
abbrev LANE_BITCNT_LO (i : Nat) : Nat := 0x170118 + 0x40 * i
/-- LANE_BITCNT_HI (LANE). -/
abbrev LANE_BITCNT_HI (i : Nat) : Nat := 0x17011c + 0x40 * i
/-- LANE_BITCNT_HI.B [15:0] RO. -/
abbrev LANE_BITCNT_HI_B (i : Nat) : Field := ⟨0x17011c + 0x40 * i, 15, 0⟩
/-- LANE_MARGIN (LANE). -/
abbrev LANE_MARGIN (i : Nat) : Nat := 0x170120 + 0x40 * i
/-- LANE_MARGIN.LEFT [7:0] RO. -/
abbrev LANE_MARGIN_LEFT (i : Nat) : Field := ⟨0x170120 + 0x40 * i, 7, 0⟩
/-- LANE_MARGIN.RIGHT [15:8] RO. -/
abbrev LANE_MARGIN_RIGHT (i : Nat) : Field := ⟨0x170120 + 0x40 * i, 15, 8⟩
/-- LANE_MARGIN.TOP [23:16] RO. -/
abbrev LANE_MARGIN_TOP (i : Nat) : Field := ⟨0x170120 + 0x40 * i, 23, 16⟩
/-- LANE_MARGIN.BOTTOM [31:24] RO. -/
abbrev LANE_MARGIN_BOTTOM (i : Nat) : Field := ⟨0x170120 + 0x40 * i, 31, 24⟩
/-- LANE_N_TXWAKE (LANE). -/
abbrev LANE_N_TXWAKE (i : Nat) : Nat := 0x170124 + 0x40 * i
/-- LANE_N_RXRELOCK (LANE). -/
abbrev LANE_N_RXRELOCK (i : Nat) : Nat := 0x170128 + 0x40 * i
/-- LANE_N_RELOCKFAIL (LANE). -/
abbrev LANE_N_RELOCKFAIL (i : Nat) : Nat := 0x17012c + 0x40 * i
/-- LANE_N_WAKELATE (LANE). -/
abbrev LANE_N_WAKELATE (i : Nat) : Nat := 0x170130 + 0x40 * i

/-! ### Block 24: SUP -/

/-- SUP_CTRL (SUP). -/
abbrev SUP_CTRL : Nat := 0x180000
/-- SUP_CTRL.CLRCNT [0:0] WO. -/
abbrev SUP_CTRL_CLRCNT : Field := ⟨0x180000, 0, 0⟩
/-- SUP_STAT (SUP). -/
abbrev SUP_STAT : Nat := 0x180004
/-- SUP_STAT.WARN [3:0] RO. -/
abbrev SUP_STAT_WARN : Field := ⟨0x180004, 3, 0⟩
/-- SUP_STAT.VSAG_WARN [4:4] RO. -/
abbrev SUP_STAT_VSAG_WARN : Field := ⟨0x180004, 4, 4⟩
/-- SUP_STAT.WARNED [11:8] W1C. -/
abbrev SUP_STAT_WARNED : Field := ⟨0x180004, 11, 8⟩
/-- SUP_STAT.VMON_OFF [12:12] RO. -/
abbrev SUP_STAT_VMON_OFF : Field := ⟨0x180004, 12, 12⟩
/-- SUP_VMON (SUP). -/
abbrev SUP_VMON : Nat := 0x180008
/-- SUP_VMON.WARN_PCT [6:0] RO. -/
abbrev SUP_VMON_WARN_PCT : Field := ⟨0x180008, 6, 0⟩
/-- SUP_VMON.RST_PCT [14:8] RO. -/
abbrev SUP_VMON_RST_PCT : Field := ⟨0x180008, 14, 8⟩
/-- SUP_MEAS (SUP). -/
abbrev SUP_MEAS (i : Nat) : Nat := 0x180010 + 0x4 * i
/-- SUP_MEAS.MV [11:0] RO. -/
abbrev SUP_MEAS_MV (i : Nat) : Field := ⟨0x180010 + 0x4 * i, 11, 0⟩
/-- SUP_MEAS.NOM [27:16] RO. -/
abbrev SUP_MEAS_NOM (i : Nat) : Field := ⟨0x180010 + 0x4 * i, 27, 16⟩
/-- SUP_N_WARN (SUP). -/
abbrev SUP_N_WARN (i : Nat) : Nat := 0x180040 + 0x4 * i
/-- SUP_N_RESET (SUP). -/
abbrev SUP_N_RESET (i : Nat) : Nat := 0x180050 + 0x4 * i

/-! ### Block 25: TEN -/

/-- TEN_CTRL (TEN). -/
abbrev TEN_CTRL : Nat := 0x190000
/-- TEN_CTRL.CLRCNT [0:0] WO. -/
abbrev TEN_CTRL_CLRCNT : Field := ⟨0x190000, 0, 0⟩
/-- TEN_GSTAT (TEN). -/
abbrev TEN_GSTAT : Nat := 0x190004
/-- TEN_GSTAT.PROTECT_T [3:0] RO. -/
abbrev TEN_GSTAT_PROTECT_T : Field := ⟨0x190004, 3, 0⟩
/-- TEN_GSTAT.PROTECT_VALID [4:4] RO. -/
abbrev TEN_GSTAT_PROTECT_VALID : Field := ⟨0x190004, 4, 4⟩
/-- TEN_GSTAT.INSTALLED [20:5] RO. -/
abbrev TEN_GSTAT_INSTALLED : Field := ⟨0x190004, 20, 5⟩
/-- TEN_N_BUDGET (TEN). -/
abbrev TEN_N_BUDGET : Nat := 0x190010
/-- TEN_N_BUDGET_INUSE (TEN). -/
abbrev TEN_N_BUDGET_INUSE : Nat := 0x190014
/-- TEN_N_MEM (TEN). -/
abbrev TEN_N_MEM : Nat := 0x190018
/-- TEN_N_CERT_CHAIN (TEN). -/
abbrev TEN_N_CERT_CHAIN : Nat := 0x19001c
/-- TEN_STAT (TEN). -/
abbrev TEN_STAT (i : Nat) : Nat := 0x190100 + 0x20 * i
/-- TEN_STAT.VALID [0:0] RO. -/
abbrev TEN_STAT_VALID (i : Nat) : Field := ⟨0x190100 + 0x20 * i, 0, 0⟩
/-- TEN_STAT.PROTECT [1:1] RO. -/
abbrev TEN_STAT_PROTECT (i : Nat) : Field := ⟨0x190100 + 0x20 * i, 1, 1⟩
/-- TEN_STAT.SESS [6:2] RO. -/
abbrev TEN_STAT_SESS (i : Nat) : Field := ⟨0x190100 + 0x20 * i, 6, 2⟩
/-- TEN_DRAMB (TEN). -/
abbrev TEN_DRAMB (i : Nat) : Nat := 0x190104 + 0x20 * i
/-- TEN_CYCB (TEN). -/
abbrev TEN_CYCB (i : Nat) : Nat := 0x190108 + 0x20 * i
/-- TEN_DRAM (TEN). -/
abbrev TEN_DRAM (i : Nat) : Nat := 0x19010c + 0x20 * i
/-- TEN_CYC (TEN). -/
abbrev TEN_CYC (i : Nat) : Nat := 0x190110 + 0x20 * i
/-- TEN_MEMBASE (TEN). -/
abbrev TEN_MEMBASE (i : Nat) : Nat := 0x190114 + 0x20 * i
/-- TEN_MEMSIZE (TEN). -/
abbrev TEN_MEMSIZE (i : Nat) : Nat := 0x190118 + 0x20 * i
/-- TEN_CERTID (TEN). -/
abbrev TEN_CERTID (i : Nat) : Nat := 0x19011c + 0x20 * i

/-! ### Block 26: POP -/

/-- POP_CTRL (POP). -/
abbrev POP_CTRL : Nat := 0x1a0000
/-- POP_CTRL.CLRCNT [0:0] WO. -/
abbrev POP_CTRL_CLRCNT : Field := ⟨0x1a0000, 0, 0⟩
/-- POP_CTRL.CKPT [1:1] WO. -/
abbrev POP_CTRL_CKPT : Field := ⟨0x1a0000, 1, 1⟩
/-- POP_STAT (POP). -/
abbrev POP_STAT : Nat := 0x1a0004
/-- POP_STAT.TIME_SET [0:0] RO. -/
abbrev POP_STAT_TIME_SET : Field := ⟨0x1a0004, 0, 0⟩
/-- POP_STAT.CLOCK_BACK [1:1] RO. -/
abbrev POP_STAT_CLOCK_BACK : Field := ⟨0x1a0004, 1, 1⟩
/-- POP_STAT.CLOCK_FWD [2:2] RO. -/
abbrev POP_STAT_CLOCK_FWD : Field := ⟨0x1a0004, 2, 2⟩
/-- POP_STAT.NET_LOST [3:3] RO. -/
abbrev POP_STAT_NET_LOST : Field := ⟨0x1a0004, 3, 3⟩
/-- POP_STAT.SLEWING [4:4] RO. -/
abbrev POP_STAT_SLEWING : Field := ⟨0x1a0004, 4, 4⟩
/-- POP_STAT.FULL [5:5] RO. -/
abbrev POP_STAT_FULL : Field := ⟨0x1a0004, 5, 5⟩
/-- POP_PERIOD (POP). -/
abbrev POP_PERIOD : Nat := 0x1a0008
/-- POP_PERIOD.LEN [10:0] RW. -/
abbrev POP_PERIOD_LEN : Field := ⟨0x1a0008, 10, 0⟩
/-- POP_ALIGN (POP). -/
abbrev POP_ALIGN : Nat := 0x1a000c
/-- POP_CLK (POP). -/
abbrev POP_CLK : Nat := 0x1a0010
/-- POP_CLK.LIM [15:0] RW. -/
abbrev POP_CLK_LIM : Field := ⟨0x1a0010, 15, 0⟩
/-- POP_CLK.SLEW [25:16] RW. -/
abbrev POP_CLK_SLEW : Field := ⟨0x1a0010, 25, 16⟩
/-- POP_CKPT (POP). -/
abbrev POP_CKPT : Nat := 0x1a0014
/-- POP_CKPT.CKPT [9:0] RW. -/
abbrev POP_CKPT_CKPT : Field := ⟨0x1a0014, 9, 0⟩
/-- POP_PIDX (POP). -/
abbrev POP_PIDX : Nat := 0x1a0018
/-- POP_BOFF_LO (POP). -/
abbrev POP_BOFF_LO : Nat := 0x1a001c
/-- POP_BOFF_HI (POP). -/
abbrev POP_BOFF_HI : Nat := 0x1a0020
/-- POP_BT_LO (POP). -/
abbrev POP_BT_LO : Nat := 0x1a0024
/-- POP_BT_HI (POP). -/
abbrev POP_BT_HI : Nat := 0x1a0028
/-- POP_STORE (POP). -/
abbrev POP_STORE : Nat := 0x1a002c
/-- POP_STORE.NREC [12:0] RO. -/
abbrev POP_STORE_NREC : Field := ⟨0x1a002c, 12, 0⟩
/-- POP_STORE.NPER [26:16] RO. -/
abbrev POP_STORE_NPER : Field := ⟨0x1a002c, 26, 16⟩
/-- POP_RSEQ_LO (POP). -/
abbrev POP_RSEQ_LO : Nat := 0x1a0030
/-- POP_RSEQ_HI (POP). -/
abbrev POP_RSEQ_HI : Nat := 0x1a0034
/-- POP_N_RECORDS (POP). -/
abbrev POP_N_RECORDS : Nat := 0x1a0040
/-- POP_N_FOLDS (POP). -/
abbrev POP_N_FOLDS : Nat := 0x1a0044
/-- POP_N_STEPS (POP). -/
abbrev POP_N_STEPS : Nat := 0x1a0048
/-- POP_N_STEPREF (POP). -/
abbrev POP_N_STEPREF : Nat := 0x1a004c
/-- POP_N_COLLECTED (POP). -/
abbrev POP_N_COLLECTED : Nat := 0x1a0050

/-! ### Block 27: FW -/

/-- FW_CTRL (FW). -/
abbrev FW_CTRL : Nat := 0x1b0000
/-- FW_CTRL.CLRCNT [0:0] WO. -/
abbrev FW_CTRL_CLRCNT : Field := ⟨0x1b0000, 0, 0⟩
/-- FW_CTRL.COMMIT [1:1] WO. -/
abbrev FW_CTRL_COMMIT : Field := ⟨0x1b0000, 1, 1⟩
/-- FW_CTRL.ABANDON [2:2] WO. -/
abbrev FW_CTRL_ABANDON : Field := ⟨0x1b0000, 2, 2⟩
/-- FW_STAT (FW). -/
abbrev FW_STAT : Nat := 0x1b0004
/-- FW_STAT.RUN_SLOT [0:0] RO. -/
abbrev FW_STAT_RUN_SLOT : Field := ⟨0x1b0004, 0, 0⟩
/-- FW_STAT.TRIAL [1:1] RO. -/
abbrev FW_STAT_TRIAL : Field := ⟨0x1b0004, 1, 1⟩
/-- FW_STAT.INSTALLING [2:2] RO. -/
abbrev FW_STAT_INSTALLING : Field := ⟨0x1b0004, 2, 2⟩
/-- FW_STAT.REVERTED [3:3] W1C. -/
abbrev FW_STAT_REVERTED : Field := ⟨0x1b0004, 3, 3⟩
/-- FW_STAT.FALLBACK [4:4] W1C. -/
abbrev FW_STAT_FALLBACK : Field := ⟨0x1b0004, 4, 4⟩
/-- FW_STAT.BOOT_SRC [6:5] RO. -/
abbrev FW_STAT_BOOT_SRC : Field := ⟨0x1b0004, 6, 5⟩
/-- FW_STAT.BOOT_RSVD [7:7] RO. -/
abbrev FW_STAT_BOOT_RSVD : Field := ⟨0x1b0004, 7, 7⟩
/-- FW_SLOT (FW). -/
abbrev FW_SLOT (i : Nat) : Nat := 0x1b0008 + 0x4 * i
/-- FW_SLOT.STATE [1:0] RO. -/
abbrev FW_SLOT_STATE (i : Nat) : Field := ⟨0x1b0008 + 0x4 * i, 1, 0⟩
/-- FW_SLOT.ACTIVE [2:2] RO. -/
abbrev FW_SLOT_ACTIVE (i : Nat) : Field := ⟨0x1b0008 + 0x4 * i, 2, 2⟩
/-- FW_SLOT.SVN [10:4] RO. -/
abbrev FW_SLOT_SVN (i : Nat) : Field := ⟨0x1b0008 + 0x4 * i, 10, 4⟩
/-- FW_CFG (FW). -/
abbrev FW_CFG : Nat := 0x1b0010
/-- FW_CFG.COMMIT_TMO [11:0] RW. -/
abbrev FW_CFG_COMMIT_TMO : Field := ⟨0x1b0010, 11, 0⟩
/-- FW_BOOT (FW). -/
abbrev FW_BOOT : Nat := 0x1b0014
/-- FW_BOOT.KTIME [15:0] RO. -/
abbrev FW_BOOT_KTIME : Field := ⟨0x1b0014, 15, 0⟩
/-- FW_STG_CFG (FW). -/
abbrev FW_STG_CFG : Nat := 0x1b0020
/-- FW_STG_CFG.LEAD [7:0] RW. -/
abbrev FW_STG_CFG_LEAD : Field := ⟨0x1b0020, 7, 0⟩
/-- FW_STG_CFG.RETRY [11:8] RW. -/
abbrev FW_STG_CFG_RETRY : Field := ⟨0x1b0020, 11, 8⟩
/-- FW_STG_STAT (FW). -/
abbrev FW_STG_STAT : Nat := 0x1b0024
/-- FW_STG_STAT.STATE [2:0] RO. -/
abbrev FW_STG_STAT_STATE : Field := ⟨0x1b0024, 2, 0⟩
/-- FW_STG_STAT.KIND [4:3] RO. -/
abbrev FW_STG_STAT_KIND : Field := ⟨0x1b0024, 4, 3⟩
/-- FW_STG_STAT.CONFIRMED [25:16] RO. -/
abbrev FW_STG_STAT_CONFIRMED : Field := ⟨0x1b0024, 25, 16⟩
/-- FW_STG_F_LO (FW). -/
abbrev FW_STG_F_LO : Nat := 0x1b0028
/-- FW_STG_F_HI (FW). -/
abbrev FW_STG_F_HI : Nat := 0x1b002c
/-- FW_STG_F_HI.F [7:0] RO. -/
abbrev FW_STG_F_HI_F : Field := ⟨0x1b002c, 7, 0⟩
/-- FW_STG_N (FW). -/
abbrev FW_STG_N : Nat := 0x1b0030
/-- FW_STG_N.GROUP [9:0] RO. -/
abbrev FW_STG_N_GROUP : Field := ⟨0x1b0030, 9, 0⟩
/-- FW_N_INSTALLS (FW). -/
abbrev FW_N_INSTALLS : Nat := 0x1b0040
/-- FW_N_ACTIVATES (FW). -/
abbrev FW_N_ACTIVATES : Nat := 0x1b0044
/-- FW_N_COMMITS (FW). -/
abbrev FW_N_COMMITS : Nat := 0x1b0048
/-- FW_N_REVERTS (FW). -/
abbrev FW_N_REVERTS : Nat := 0x1b004c
/-- FW_N_RECOVERIES (FW). -/
abbrev FW_N_RECOVERIES : Nat := 0x1b0050
/-- FW_N_STG_DONE (FW). -/
abbrev FW_N_STG_DONE : Nat := 0x1b0054
/-- FW_N_STG_CANCEL (FW). -/
abbrev FW_N_STG_CANCEL : Nat := 0x1b0058
/-- FW_N_STG_RESEND (FW). -/
abbrev FW_N_STG_RESEND : Nat := 0x1b005c
/-- FW_N_CATCHUP (FW). -/
abbrev FW_N_CATCHUP : Nat := 0x1b0060

end Sys2Proof.Machine
end

