-- ==== Sys2Proof/Machine/SMap.lean ====
section
/-! DEFINITION. Machine/SMap.lean: sparse maps in one canonical form. Every memory, register file and table of the part that is
larger than a handful of entries is such a map. The canonical form (keys strictly rising, no entry equal to what an unlisted
key reads as) makes equal memories equal data. -/

namespace Sys2Proof.Machine

/-- Reading key k: its entry, or what an unlisted key reads as. -/
def SMap.get {α : Type} (d : Nat → α) : SMap α → Nat → α
  | [], k => d k
  | (k', v) :: m, k => if k = k' then v else if k < k' then d k else SMap.get d m k

/-- Writing v at key k, with no regard to the default. -/
def SMap.insert {α : Type} (k : Nat) (v : α) : SMap α → SMap α
  | [] => [(k, v)]
  | (k', v') :: m =>
    if k < k' then (k, v) :: (k', v') :: m
    else if k = k' then (k, v) :: m
    else (k', v') :: SMap.insert k v m

/-- Removing key k. -/
def SMap.erase {α : Type} (k : Nat) : SMap α → SMap α
  | [] => []
  | (k', v') :: m =>
    if k < k' then (k', v') :: m
    else if k = k' then m
    else (k', v') :: SMap.erase k m

/-- Writing v at key k: an entry that would equal the default is removed instead, so the canonical form is kept. -/
def SMap.set {α : Type} [DecidableEq α] (d : Nat → α) (m : SMap α) (k : Nat) (v : α) : SMap α :=
  if v = d k then SMap.erase k m else SMap.insert k v m

/-- Writing a list of values at keys k, k + 1, and so on. -/
def SMap.setList {α : Type} [DecidableEq α] (d : Nat → α) : SMap α → Nat → List α → SMap α
  | m, _, [] => m
  | m, k, v :: vs => SMap.setList d (SMap.set d m k v) (k + 1) vs

/-- The values at n keys from k on. -/
def SMap.getList {α : Type} (d : Nat → α) (m : SMap α) (k : Nat) : Nat → List α
  | 0 => []
  | n + 1 => SMap.get d m k :: SMap.getList d m (k + 1) n

/-- The entries whose keys lie from lo up to, but not at, hi. -/
def SMap.slice {α : Type} (lo hi : Nat) (m : SMap α) : SMap α :=
  m.filter fun e => lo ≤ e.1 && e.1 < hi

/-- The entries whose keys do not lie from lo up to hi: the range is cleared to the default. -/
def SMap.clear {α : Type} (lo hi : Nat) (m : SMap α) : SMap α :=
  m.filter fun e => e.1 < lo || hi ≤ e.1

/-- Key k lies above the bound, where there is one. -/
def SMap.above : Option Nat → Nat → Bool
  | none, _ => true
  | some l, k => decide (l < k)

/-- The canonical form: every key is above `lo`, keys rise strictly, and no entry equals the default. -/
def SMap.wfFrom {α : Type} [DecidableEq α] (d : Nat → α) : Option Nat → SMap α → Bool
  | _, [] => true
  | lo, (k, v) :: m => SMap.above lo k && decide (v ≠ d k) && SMap.wfFrom d (some k) m

/-- The canonical form of a sparse map. -/
def SMap.wf {α : Type} [DecidableEq α] (d : Nat → α) (m : SMap α) : Bool := SMap.wfFrom d none m

end Sys2Proof.Machine
end

