-- ==== Sys2Proof/Machine/State.lean ====
section
/-! DEFINITION. Machine/State.lean: everything the part holds, as plain data, the reasons a step can stop, and the state right
after reset. -/

namespace Sys2Proof.Machine

/-! ### Sequencers (Table 2-1) -/

/-- One sequencer's state (R30, Table 2-1), its memories (R72), the image it was loaded from and an image staged for it (R75). -/
structure Seq where
  g : SMap Word                       -- G1 to G15; G0 reads 0
  lc : SMap (BitVec 24)               -- LC0 to LC3
  pc : BitVec 16
  stack : List (BitVec 16)            -- top first
  z : Bool
  n : Bool
  c : Bool
  ev : BitVec 32                      -- event pending bits
  waiting : Option (Nat × Nat)        -- the event waited for and the timeout (R44)
  image : Option SeqImage             -- the loaded image, as loaded (R77)
  prog : SMap (BitVec 64)
  lits : SMap (BitVec 128)
  cmap : SMap (BitVec 64)
  dmem : SMap Word                    -- data memory, keyed by word
  staged : Option (Option SeqImage)   -- staged for the switch; some none: the staged set has no image for the bank
  deriving DecidableEq, Repr

/-- A sequencer that has never run. -/
def Seq.init : Seq :=
  { g := [], lc := [], pc := 0, stack := [], z := false, n := false, c := false, ev := 0, waiting := none,
    image := none, prog := [], lits := [], cmap := [], dmem := [], staged := none }

/-! ### The pin engine -/

/-- A change made by a non-vector pin instruction, in effect from the next vector (R60). -/
inductive PinSetting where
  | tset (set edge value : Nat)
  | period (units : Nat)
  | map (entry : Nat)
  | capt (mode start : Nat)
  | trig (mode outs : Nat)
  | line (n : Nat)
  deriving DecidableEq, Repr

/-- A pin's stream position (R214): the word index of its current segment, the bits already taken from that segment, the lamp
index the segment started at, and whether the pin has a stream at all (R215). -/
structure Stream where
  first : Nat
  seg : Nat
  bit : Nat
  start : Nat
  ok : Bool
  deriving DecidableEq, Repr

/-- A pin without a stream. -/
def Stream.none : Stream := { first := 0, seg := 0, bit := 0, start := 0, ok := false }

/-- One bank of 32 pins (R193, R194). -/
structure Bank where
  pend : List PinSetting              -- oldest first
  nonvec : Nat                        -- non-vector instructions since the last vector (R64)
  fresh : Bool                        -- no vector produced since program start (R67)
  level : BitVec 32                   -- the level each pin last drove (R202)
  drv : BitVec 32                     -- drivers that are on
  streams : SMap Stream
  sel : BitVec 256                    -- select bits latched at the last map (R182)
  op : Nat                            -- the generator's operation within its element (R217)
  prbs : BitVec 31                    -- the generator's PRBS-31 register (R218)
  trigMode : SMap Nat                 -- outputs 0 to 3: 0 off, 1 pulse, 2 segment
  capOn : Bool                        -- capture stores (armed and not stopped, R210)
  capSrc : Nat                        -- CAPSRC as it stood at the last capt
  capBuf : SMap Word                  -- 16,384 words
  deep : Nat                          -- words stored in the DDR5 ring since the last capt (R211)
  vsel : Nat                          -- VSEL as it stood at program start (Table 7-9)
  vddpBad : Bool                      -- VDDPn outside its window (R207)
  hi : BitVec 32                      -- inputs at or above VTH (R206)
  lo : BitVec 32                      -- inputs at or below VTL
  deriving DecidableEq, Repr

/-- A bank after reset: safe, nothing loaded. -/
def Bank.init : Bank :=
  { pend := [], nonvec := 0, fresh := true, level := 0, drv := 0, streams := [], sel := 0, op := 0, prbs := 1, trigMode := [],
    capOn := false, capSrc := 0, capBuf := [], deep := 0, vsel := 4, vddpBad := false, hi := 0, lo := 0 }

/-! ### Sessions and events -/

/-- A WCP response: its STATUS (Table 21-4) and payload. -/
structure Rsp where
  status : Nat
  payload : List Byte
  deriving DecidableEq, Repr

/-- An event kept for a session (R517). -/
structure EventMsg where
  eseq : Word
  code : Nat
  port : Nat
  pos : Nat
  life : Nat
  detail : List Byte
  deriving DecidableEq, Repr

/-- An upload handle (R513): its kind, length, digest, the bytes written and whether it was closed and checked. -/
structure Upload where
  handle : Nat
  kind : Nat
  len : Nat
  digest : List Byte
  data : SMap Byte
  next : Nat                          -- bytes received in order (TILE role, R513)
  closed : Bool
  last : Nat                          -- life counter at the last data
  deriving DecidableEq, Repr

/-- A request of a session that has no response yet: its SEQ and MAXRSP, whether it has been applied, and its result once there is one. -/
structure WaitReq where
  seq : Word
  maxrsp : Nat
  applied : Bool
  rsp : Option Rsp
  req : WcpReq
  deriving DecidableEq, Repr

/-- An open DTLS session and its WCP state (R331 to R333, R508 to R510, R517). -/
structure Session where
  id : Nat
  tenant : Nat                        -- 0 to 15; 0xFE the referee credential; 0xFF none (recovery)
  spi : Bool
  port : Nat                          -- UDP port the session began on (R505)
  newest : Option Word
  cache : List (Word × Rsp)           -- newest first, at most 64
  waiting : List WaitReq              -- oldest first
  eseq : Word
  events : List EventMsg              -- newest first, at most 256
  uploads : List Upload
  last : Nat                          -- life counter at the last record
  unverified : Bool                   -- the leaf's validity period was not checked (R332)
  rxRec : Nat                         -- DTLS records received and sent (R331)
  txRec : Nat
  deriving DecidableEq, Repr

/-! ### Composition (sender) -/

/-- A descriptor generation (R125): the COMP registers and the values in force as they stood. -/
structure CompGen where
  regs : SMap Word
  live : SMap Word
  deriving DecidableEq, Repr

/-- A band job (R56, R116). -/
structure Job where
  port : Nat
  pos : Nat
  band : Nat
  eng : Nat                           -- engines allowed (mask); the engine that runs it once started
  gen : Nat                           -- descriptor generation of its frame's mark (R125)
  zsel : Nat                          -- blend order it was issued with (R109)
  fcnt : Nat
  start : Nat                         -- WTB units at the start
  omitted : List Nat                  -- slots omitted (R123)
  far : Bool                          -- routed over the far path of a ring cord (R159)
  deriving DecidableEq, Repr

/-- What a completed job showed of each layer, for proof of play (R350, R351). -/
structure BandVis where
  port : Nat
  pos : Nat
  band : Nat
  vis : List (Nat × Nat)              -- slot, visible pixels
  omitted : List Nat
  deriving DecidableEq, Repr

/-- One marked frame at the sender. -/
structure FrameRec where
  fcnt : Nat
  ports : Nat                         -- mask of ports the mark went out on
  tmark : Nat                         -- WTB units at which the mark left
  fper : Nat
  gen : Nat
  issued : List (Nat × Nat × Nat)     -- jobs issued: port, position, band
  late : Nat                          -- jobs issued after PRESENT
  present : Option Nat                -- present time, ns
  pports : Nat                        -- ports of the PRESENT
  acks : List (Nat × Nat × AckPkt)    -- port, position, ACK
  ev3 : Bool                          -- EV3 has been raised
  jobsDone : Bool                     -- EV5 has been raised
  vis : List BandVis
  popDone : Bool                      -- evaluated for proof of play
  next : Option Nat                   -- WTB units at which the next mark left
  deriving DecidableEq, Repr

/-- A surface write held until it is safe (R106). -/
structure HeldSurf where
  sess : Nat
  seq : Word
  slot : Nat
  offset : Nat
  data : List Byte
  gen : Nat                           -- the generation whose jobs must be done
  applied : Bool                      -- the tick has applied the change
  deriving DecidableEq, Repr

/-- Composition state beside the COMP and FSQ registers. -/
structure CompSt where
  zsel : SMap Nat                     -- port's blend-order selection; 256 is fixed slot order
  frameDmg : List (Nat × Nat × Nat)   -- the frame damage set
  jobs : List Job                     -- queued, oldest first
  backlog : List Job                  -- jobs of the band instruction in execution that wait for queue space (R56)
  running : List Job
  cordq : List (Nat × Nat × BandPkt × Nat × Bool)  -- composed, waiting for PRESENT: port, position, band, frame, far path
  frames : List FrameRec              -- newest first
  gen : Nat
  gens : List (Nat × CompGen)         -- generations that jobs or the last mark still need
  acc : SMap Word                     -- descriptors and zlist table as accepted, not yet applied (R125)
  touched : List Nat                  -- slots with a change waiting for the tick
  ztouched : List Nat                 -- zlist entries with a change waiting for the tick
  held : List HeldSurf
  unloaded : List Nat                 -- layers UNLOADED after a takeover (R310)
  written : List Nat                  -- UNLOADED layers whose surface has been written since
  staged : Option (Nat × Nat × List (Nat × Word))   -- ADMIT_DL, ADMIT_ENG and zlist words of a staged program (R514)
  coef : SMap (BitVec 16)             -- scaler coefficients; what is not listed is a firmware default
  hopF : SMap Nat                     -- F_h in 1/2880 ns, key (far, port, hop)
  started : Bool                      -- a mark has been executed since program start (R57)
  flipped : Bool                      -- a flip has been executed since the last mark (R57)
  dmgSeen : Bool                      -- EV4 raised since the last damage instruction
  holdTick : Option Nat               -- R297: WTB units before which no FRAME_TICK reaches the FSQ
  endBind : List Nat                  -- bindings that end at the next tick (R346)
  endTen : List Nat                   -- tenants whose records close at the next tick (R346)
  ticks : Nat                         -- frame ticks since the last mark heard from the previous holder (R297)
  deriving DecidableEq, Repr

def CompSt.init : CompSt :=
  { zsel := [], frameDmg := [], jobs := [], backlog := [], running := [], cordq := [], frames := [], gen := 0, gens := [], acc := [], touched := [],
    ztouched := [], held := [], unloaded := [], written := [], staged := none, coef := [], hopF := [], started := false, flipped := false,
    dmgSeen := false, endBind := [], endTen := [], holdTick := none, ticks := 0 }

/-! ### Cords -/

/-- A packet waiting to leave a port: its 64-byte blocks still to send, the receive port whose buffer holds them (a forwarded packet), and
the packet. -/
structure TxEnt where
  blocks : Nat
  src : Option Nat
  pkt : CordPkt
  deriving DecidableEq, Repr

/-- What the sender knows of an enumerated tile (R130). -/
structure TileInfo where
  enumerated : Bool
  tid : Nat
  bands : Nat
  geom : Nat                          -- LAMP_GEOM of the tile, informational
  deriving DecidableEq, Repr

def TileInfo.none : TileInfo := { enumerated := false, tid := 0, bands := 0, geom := 0 }

/-- A control request of the sender that has no response yet (R163). -/
structure CtrlOut where
  port : Nat
  pos : Nat
  seq : Word
  op : Nat
  data : List Byte
  tries : Nat
  wcp : Option (Nat × Word)           -- the WCP session and SEQ that waits for it
  deriving DecidableEq, Repr

/-- The authentication state of a hop (R14, R335, R336). -/
inductive HopAuth where
  | down | trained | failed | keyed
  deriving DecidableEq, Repr

/-- Cord state beside the CORD registers. -/
structure CordSt where
  sent : SMap Nat                     -- blocks sent, running count modulo 65,536, key port * 2 + class (0 B, 1 C)
  freed : SMap Nat                    -- the partner's running count of freed blocks
  rxFreed : SMap Nat                  -- this receiver's running count of freed blocks
  txq : SMap (List TxEnt)             -- packets waiting, key port * 2 + class, oldest first
  tiles : SMap TileInfo               -- key port * 64 + position
  ctrlSeq : SMap Word                 -- last request number per tile, key port * 64 + position
  ctrlOut : List CtrlOut
  hops : SMap HopAuth                 -- ports (0 to 7) and ring ports (8 forward, 9 backward)
  held : SMap Nat                     -- rate step a hop held before its link was lost, plus 1
  epoch : SMap Nat                    -- link epoch (R139)
  badSec : SMap Nat                   -- consecutive seconds over CORD_BERLIM (R135)
  dormAt : Option (Nat × Nat)         -- ports to become dormant and the frame at which (R442)
  partnerTid : SMap Nat               -- partner identity on each port, plus 1
  ringTids : SMap Nat                 -- identity heard in the hellos of each ring position, plus 1
  ringDup : Nat                       -- positions that two parts have reported, mask (R20)
  ringLat : SMap Nat                  -- mean latency of a ring port's hop, 1/64 ns (R152, R159)
  deriving DecidableEq, Repr

def CordSt.init : CordSt :=
  { sent := [], freed := [], rxFreed := [], txq := [], tiles := [], ctrlSeq := [], ctrlOut := [], hops := [], held := [], epoch := [],
    badSec := [], ringTids := [], ringDup := 0, dormAt := none, partnerTid := [], ringLat := [] }

/-! ### Tile -/

/-- A band taken in by a tile and not yet corrected (R169, R171). -/
structure RxBand where
  band : Nat
  lines : Nat
  pixels : List Word
  fcnt : Nat                          -- the frame it was accepted for
  deriving DecidableEq, Repr

/-- The frame a tile has open (R145). -/
structure TileFrame where
  fcnt : Nat
  ptime : Option Nat
  count : List Nat
  late : Bool                         -- the PRESENT arrived after PTIME
  held : List Nat                     -- bands held
  corrected : List Nat
  protFail : Bool
  deriving DecidableEq, Repr

/-- A probe exchange under way or kept for the statistics (R152, R153). -/
structure Exch where
  port : Nat
  id : Nat
  t1 : Nat
  t4 : Option Nat
  deriving DecidableEq, Repr

/-- Tile state beside the CORD and LAMP registers. -/
structure TileSt where
  frame : Option TileFrame
  last : Option Nat                   -- last accepted FCNT
  fper : Option Nat                   -- FPER of the last accepted MARK
  lastMark : Nat                      -- WTB units at the last accepted MARK
  ntiles : Nat
  rx : List RxBand                    -- in correction, oldest first
  slots : List (Nat × Nat × Nat)      -- announced test slots not yet open: FCNT, TSTART, LEN
  exch : List Exch
  stats : List (Int × Int)            -- hop delay and neighbour offset, 1/128 ns, newest first
  nextId : Nat
  stepped : Bool
  cfWait : Bool                       -- the claim-facing port of a new claim is still open (R158)
  ctlCache : List (Word × Nat × Nat × List Byte)   -- SEQ, OP, STATUS, data; newest first, at most 64
  ctlNewest : Option Word
  psqFault : Bool                     -- a PSQ fault or VSTOP to report in the next ACK (R71)
  eseq : Word                         -- ESEQ of EVENT packets
  deriving DecidableEq, Repr

def TileSt.init : TileSt :=
  { frame := none, last := none, fper := none, lastMark := 0, ntiles := 0, rx := [], slots := [], exch := [], stats := [], nextId := 0,
    stepped := false, cfWait := false, ctlCache := [], ctlNewest := none, psqFault := false, eseq := 0 }

/-- A temperature packet heard on the ring (Table 8-5). -/
structure TempMsg where
  pos : Nat
  temps : List Nat
  loc : Nat
  valid : Nat
  at_ : Nat                           -- WTB units of arrival
  deriving DecidableEq, Repr

/-- A supply vote heard on the ring (Table 8-4). -/
structure VoteMsg where
  pos : Nat
  vote : Nat
  pmbEn : Bool
  vsag : Bool
  fails : Nat
  at_ : Nat
  deriving DecidableEq, Repr

/-- Lamp correction state beside the LAMP registers. -/
structure LampSt where
  cal : Option (List Byte)            -- the loaded calibration image
  loading : Option (List Byte × Nat)  -- the image being loaded and its slot
  lamps : SMap (BitVec 16)            -- lamp frame store, key half * 262,144 + lamp
  codes : SMap Word                   -- code store, key half * 131,072 + pixel
  overlay : SMap (Option Nat)         -- clinker overlay as edited (R191)
  overlayLive : SMap (Option Nat)     -- the overlay of the generation in force
  bandGen : SMap Nat                  -- generation of each band's active content
  swept : List Nat                    -- bands written by the sweep, not yet committed
  pendAt : Option Nat                 -- WTB units at which the pending change was made
  switchAt : Option Nat               -- WTB units at the last switch, while a commit is due
  sweepStart : Nat
  overdue : Bool                      -- the second instant of R184 fell while LOADING was set
  deriving DecidableEq, Repr

/-- Lamp board services beside the LAMP registers: temperature readings, supply headroom, the brightness ramp. -/
structure BoardSt where
  goodRun : SMap Nat                  -- consecutive good readings of a failed sensor (R229)
  bad : Nat                           -- sensors that count as failed, mask
  lastRaw : SMap (Option Int)         -- previous received reading of each sensor
  ring : List TempMsg
  tempSeq : Word
  rampStep : Nat                      -- steps taken of the brightness ramp
  rampOn : Bool                       -- the ramp has started
  hrMade : Bool                       -- a headroom compare was made in this window
  hrFails : Nat
  win : Word                          -- window count
  votes : List VoteMsg
  down : Nat                          -- the master's down count
  lastSet : Option Nat                -- last SETPOINT received from a master
  noSet : Nat                         -- own windows without a SETPOINT
  pmbMode : Option Nat                -- VOUT_MODE read on becoming master
  pmbRetry : Bool
  deriving DecidableEq, Repr

def LampSt.init : LampSt :=
  { cal := none, loading := none, lamps := [], codes := [], overlay := [], overlayLive := [], bandGen := [], swept := [],
    pendAt := none, switchAt := none, sweepStart := 0, overdue := false }

def BoardSt.init : BoardSt :=
  { goodRun := [], bad := 0, lastRaw := [], ring := [], tempSeq := 0, rampStep := 0,
    rampOn := false, hrMade := false, hrFails := 0, win := 0, votes := [], down := 0, lastSet := none, noSet := 0, pmbMode := none,
    pmbRetry := false }

/-! ### Claims -/

/-- A complete mirror generation, or a CFG copy (R304, R369). -/
structure MirrorGen where
  program : Option MirrorItem
  layers : Option MirrorItem
  sources : Option MirrorItem
  tenants : Option MirrorItem
  billing : Option MirrorItem
  deriving DecidableEq, Repr

/-- A swap request of this member that has no response yet (R301). -/
structure SwapOut where
  seq : Word
  kind : Nat
  cause : Nat
  claim : BitVec 64
  tries : Nat
  wcp : Option (Nat × Word)           -- the WCP session and SEQ that wait for it
  deriving DecidableEq, Repr

/-- The result of a swap request in the referee's cache. -/
structure SwapRes where
  pos : Nat
  seq : Word
  cur : BitVec 64
  status : Nat
  deriving DecidableEq, Repr

/-- Claim state beside the CLM registers. -/
structure ClaimSt where
  hbRef : Option Nat                  -- WTB units at the last referee heartbeat
  hbPart : Option (Nat × Heartbeat)   -- the partner's last heartbeat
  grant : Option (BitVec 64)          -- claim of the latest GRANT heard
  grantAt : Option Nat
  curHeard : BitVec 64                -- CUR of the latest referee heartbeat
  swapSeq : Word
  swapOut : List SwapOut              -- sent and not yet answered, the next to be retried first
  mirror : Option MirrorGen           -- standby: the complete generation held
  mirrorNew : MirrorGen               -- standby: a bulk copy arriving
  toAck : List (Word × Nat)           -- holder: MGEN and item not yet acknowledged
  pendRsp : List (Word × Nat × Word × Rsp)  -- holder: MGEN, session, SEQ and the response that waits for the acknowledgement
  bulk : Bool                         -- holder: a bulk copy is under way
  dmemWords : SMap Word               -- FSQ data memory words written through WCP (R304)
  -- the referee: CUR, TOP and the holder's position as journalled (R290), and what it has heard
  nvCur : BitVec 64
  nvTop : BitVec 64
  nvHolder : Option Nat
  hbA : Option (Nat × Heartbeat)
  hbB : Option (Nat × Heartbeat)
  firstHb : Option Nat                -- WTB units of the first heartbeat in a startup wait
  started : Bool                      -- the startup wait is over
  lossCounted : Bool
  inbox : List SwapIn                 -- oldest first
  swapCache : List SwapRes            -- newest first
  lastGrant : Option Nat
  deriving DecidableEq, Repr

def MirrorGen.none : MirrorGen := { program := .none, layers := .none, sources := .none, tenants := .none, billing := .none }

def ClaimSt.init : ClaimSt :=
  { hbRef := none, hbPart := none, grant := none, grantAt := none, curHeard := 0, swapSeq := 0, swapOut := [], mirror := none,
    mirrorNew := MirrorGen.none, toAck := [], pendRsp := [], bulk := false, dmemWords := [],
    nvCur := 0, nvTop := 0, nvHolder := none, hbA := none, hbB := none, firstHb := none,
    started := false, lossCounted := false, inbox := [], swapCache := [], lastGrant := none }

/-! ### Source streams (R82 to R97) -/

/-- A frame that fills, or the sequence and timestamp state of a stream (R88 to R92, R97). -/
structure StreamRx where
  seqHigh : Option Nat                -- highest extended sequence number
  tsHigh : Option Nat                 -- highest extended timestamp
  legHigh : SMap (Option Nat)         -- highest extended sequence number by leg
  frameTs : Option Nat                -- the filling frame's timestamp
  firstAt : Nat                       -- WTB units of its first packet
  arrNt : Int                         -- network time of its first packet, ns
  got : List (Nat × Nat)              -- extended sequence numbers received and when, newest first
  segs : List (Nat × Nat × Nat)       -- line, first byte, bytes received of the filling frame
  counted : Option Nat                -- sequence numbers up to here have been accounted for
  closedTs : Option Nat               -- timestamp of the last closed frame
  lastAt : Nat                        -- WTB units of the last packet
  missing : List (Nat × Nat)          -- audio: sequence numbers not yet received and when that showed
  deriving DecidableEq, Repr

def StreamRx.init : StreamRx :=
  { seqHigh := none, tsHigh := none, legHigh := [], frameTs := none, firstAt := 0, arrNt := 0, got := [], segs := [], counted := none,
    closedTs := none, lastAt := 0, missing := [] }

/-- A bound stream: its binding, its buffers in DDR5 and their roles (R87, R94). -/
structure Bound where
  b : Binding
  base : Nat                          -- byte offset in DDR5
  size : Nat
  rx : StreamRx
  filling : Nat
  newest : Option Nat
  held : Option Nat
  tsrc : SMap Int                     -- source time of each buffer's frame, ns (R96)
  deriving DecidableEq, Repr

/-! ### Proof of play (R350 to R363) -/

/-- What a period counts for one tenant and layer slot (R351, R352). -/
structure PopCount where
  key : Nat                           -- tenant * 64 + slot
  composed : Nat
  lit : Nat
  omitfr : Nat
  vis : Option (Nat × Nat)            -- least and greatest visible fraction
  lum : Option (Nat × Nat)            -- least and greatest luminance; none while LIT is 0
  flags : Nat
  deriving DecidableEq, Repr

/-- A billing period. -/
structure PopPeriod where
  idx : Word
  claim : BitVec 64
  fcnt : Option (Nat × Nat)           -- first and last frame
  wallS : Nat
  wallE : Nat
  netS : Nat
  netE : Nat
  flags : Nat
  counts : List PopCount
  deriving DecidableEq, Repr

/-- A final record (Table 13-4), without its signature. -/
structure PopRec where
  rseq : Nat
  overflow : Bool
  slot : Nat
  tenant : Nat
  flags : Nat
  pindex : Word
  pindexEnd : Word
  claim : BitVec 64
  fcntS : Nat
  fcntE : Nat
  wallS : Nat
  wallE : Nat
  netS : Nat
  netE : Nat
  composed : Nat
  lit : Nat
  omitfr : Nat
  vis : Option (Nat × Nat)
  lum : Option (Nat × Nat)
  nfold : Nat
  deriving DecidableEq, Repr

/-- What the NV journal holds for billing (R355, R359 to R361). -/
structure PopNv where
  idx : Word
  rseq : Nat
  recs : List PopRec                  -- ascending RSEQ
  agg : List PopRec                   -- one per tenant at most
  ckpt : List PopPeriod
  deriving DecidableEq, Repr

/-- Proof-of-play state beside the POP registers. -/
structure PopSt where
  nv : PopNv
  boff : Option Int                   -- BOFF in ns; none while UNSET (R356)
  cur : Option PopPeriod              -- the open period
  closing : List PopPeriod            -- closed, with frames not yet evaluated
  nextB : Option Int                  -- the next boundary, ms of billing time
  claimStart : Bool                   -- the next period opens under the taken index with CLAIM_START (R362)
  intended : SMap (List (Nat × Nat))  -- V of the last completed job by band: slot, pixels
  shown : SMap (List (Nat × Nat))     -- V of the job whose frame was flipped
  returned : List Nat                 -- RSEQs returned to collectors and not yet deleted
  deriving DecidableEq, Repr

def PopNv.init : PopNv := { idx := 0, rseq := 0, recs := [], agg := [], ckpt := [] }

def PopSt.init : PopSt :=
  { nv := PopNv.init, boff := none, cur := none, closing := [], nextB := none, claimStart := false, intended := [], shown := [],
    returned := [] }

/-! ### Time (R261 to R282) -/

/-- A SYNC input (R264 to R268). -/
structure RefIn where
  last : Option Nat                   -- WTB units of the last accepted edge
  since : Option Nat                  -- when its qualification began
  returning : Bool                    -- it qualifies for TQUAL_RET (R268)
  ever : Bool                         -- selected at least once since reset
  deriving DecidableEq, Repr

def RefIn.init : RefIn := { last := none, since := none, returning := false, ever := false }

/-- A TIM channel's measurement under way (R278, R279). -/
structure TimRun where
  armedAt : Nat
  opened : Option Nat                 -- stamp of the open interval's START edge
  vals : List Int                     -- completed intervals, newest first (LATENCY)
  stamps : List Nat                   -- stamps, newest first (FREQ)
  last : Option Nat                   -- last stamp, for R277
  lost : Bool
  ovr : Bool
  deriving DecidableEq, Repr

/-- Time state beside the REF and TIM registers. -/
structure TimeSt where
  refs : SMap RefIn                   -- 0 A, 1 B, 2 NET
  selAt : Option Nat                  -- when the present selection was made
  anySel : Bool                       -- a reference has been selected since the epoch was fixed
  track : Int                         -- frequency tracking, 10^-12
  hist : List (Nat × Int)             -- FCORR and the time from which it held, newest first
  ntoffSel : Int                      -- NTOFF when NET was selected (R272)
  holdAt : Option Nat                 -- when holdover began
  ocxoRatio : Int                     -- OCXO to lane reference ratio less one, 10^-12 (R265)
  frac : Nat                          -- residue of the WTB's advance, 10^-12 of a unit
  lifeFrac : Nat                      -- residue of the life counter's advance
  qualAt : Option Nat                 -- when the OCXO's renewed qualification began
  runs : SMap (Option TimRun)         -- by channel
  tickFrom : Option Nat               -- the first tick lies at or after this instant (R274)
  gates : List Int                    -- OCXO to lane reference ratios of the last gates, newest first (R264)
  lostAt : Option Nat                 -- when the selected reference was lost (R271)
  fromNet : Bool                      -- the WTB has been set from network time (R273)
  warm : Bool                         -- the OCXO_WARM input (R263)
  deriving DecidableEq, Repr

def TimeSt.init : TimeSt :=
  { refs := [], selAt := none, anySel := false, track := 0, hist := [], ntoffSel := 0, holdAt := none, ocxoRatio := 0, frac := 0,
    lifeFrac := 0, qualAt := none, runs := [], tickFrom := none, gates := [], lostAt := none, fromNet := false, warm := true }

/-! ### Hearth (R316 to R344) -/

/-- An entry of the security log (R339), without its chain digest, and the digest. -/
structure LogEntry where
  seq : Word
  life : Nat
  code : Nat
  detail : List Byte
  rep : Nat
  chain : List Byte
  deriving DecidableEq, Repr

/-- Hearth's state beside the HEARTH registers. All but the nonce and the handshakes outlives a reset. -/
structure HearthSt where
  owner : Option (List Byte)          -- the owner's root certificate (R319)
  ownerGen : Word
  fuses : BitVec 64                   -- anti-rollback field (R328)
  mirror : Nat
  target : Option (Nat × Nat)         -- an increment under way: the security version and FUSED when it began (R329)
  blowing : Bool                      -- one of its steps runs; clear while the next waits for VSAG_WARN (R329)
  makers : List (List Byte)           -- tile-maker keys, SEC1 uncompressed
  refcred : Option (List Byte)        -- digest of the referee credential
  tenants : SMap (Option TenantRec)   -- slots T0 to T15 (R345)
  log : List LogEntry                 -- newest first, at most 1,024
  nonce : Option (List Byte × Nat)    -- a valid debug nonce and the life counter at its issue
  shakes : List (Bool × Nat)          -- handshakes in progress: over SPI, UDP port
  nextSess : Nat
  deriving DecidableEq, Repr

def HearthSt.init : HearthSt :=
  { owner := none, ownerGen := 0, fuses := 0, mirror := 0, target := none, blowing := false, makers := [], refcred := none, tenants := [], log := [],
    nonce := none, shakes := [], nextSess := 0 }

/-! ### Calibration store, journal and firmware (R366 to R394, R485 to R504) -/

/-- A block's header and marks as they stand in the NAND (R370). -/
structure NandBlk where
  ecnt : Nat
  hdr : Bool                          -- valid header
  alloc : Bool                        -- allocation mark
  blank : Bool
  deriving DecidableEq, Repr

def NandBlk.init : NandBlk := { ecnt := 0, hdr := true, alloc := false, blank := true }

/-- A block's class (R371). -/
inductive BlkCls where
  | ash | slot | clean | dirty | half
  deriving DecidableEq, Repr

/-- A copy of a slot (R368): its descriptor, the image and, for CFG, the mirror items it serialises. -/
structure CopySt where
  state : Nat                         -- 0 EMPTY, 1 VALID, 2 BAD
  len : Nat
  blocks : List Nat
  data : List Byte
  cfg : Option MirrorGen
  deriving DecidableEq, Repr

def CopySt.init : CopySt := { state := 0, len := 0, blocks := [], data := [], cfg := none }

/-- What a slot write answers to when it ends. -/
inductive WriteFor where
  | none
  | wcp (sess : Nat) (seq : Word)
  | ctrl (seq : Word) (op : Nat)
  deriving DecidableEq, Repr

/-- A slot write in progress (R376): the copy, the image, whether the record of step 4 also makes it active, the blocks allocated, the
pages programmed and verified so far, and the pages to be done again after a block was retired. -/
structure SlotWrite where
  kind : Nat
  copy : Nat
  data : List Byte
  cfg : Option MirrorGen
  now : Bool
  blocks : List Nat
  prog : Nat                          -- pages programmed
  ver : Nat                           -- pages verified
  redo : List Nat                     -- pages to be programmed again
  qspi : Bool                         -- the NAND copy is done; the QSPI copy is being written (R392)
  qver : Bool                         -- the QSPI copy is programmed and being verified
  inst : Option Nat                   -- the KIND of INSTALL_DONE that its end reports
  fwdone : WriteFor
  deriving DecidableEq, Repr

/-- The NAND operation that runs. -/
inductive NandOp where
  | erase (blk : Nat) (half : Bool)
  | header (blk : Nat)
  | program (kind page : Nat)
  | verify (kind page : Nat)
  | load (kind page : Nat)
  | scrub (blk page : Nat)
  | refRead (blk page : Nat)
  | refProg (blk page : Nat)
  deriving DecidableEq, Repr

/-- A refresh under way (R382): the block, its target, the pages copied. -/
structure Refresh where
  blk : Nat
  target : Nat
  page : Nat
  verify : Bool
  deriving DecidableEq, Repr

/-- The store: what lies in the NAND, the QSPI flash and the journal's SLOT, ASH, ERASE and SCRUB records, and what the controller is
doing. -/
structure StoreSt where
  blks : SMap NandBlk
  copies : SMap CopySt                -- key kind * 2 + copy
  active : SMap (Option Nat)          -- active copy by kind
  ash : List Nat
  ashKnown : Bool                     -- the journal holds an ash record
  intent : Option (Nat × Nat)         -- open ERASE_BEGIN: block, new erase count
  lastEc : SMap (Nat × Nat)           -- each block's latest ERASE_BEGIN: its erase count, and the ring words written up to it
  scrubPass : Option (Nat × Nat)      -- the open pass: life counter at its start, next block
  qspi : SMap (List Byte)             -- boot flash: 0, 1 lane table A, B; 2, 3 firmware slots 0, 1
  -- volatile
  op : Option NandOp
  loads : List (Nat × Nat × Bool)     -- kind, pages read, all correctable
  writes : List SlotWrite
  wantRef : List Nat                  -- blocks to be refreshed
  refresh : Option Refresh
  scrubReq : Bool
  scrubNow : Bool                     -- the open pass was asked for and runs at NAND_PACE
  scrubPage : Nat
  hot : Option (Nat × Nat)            -- a block scrubbed out of turn and its next page
  paceOk : Bool
  reads : SMap Nat                    -- reads of a block since its last scrub
  clkAgain : Bool                     -- the overlay changed while its write was in progress
  deriving DecidableEq, Repr

def StoreSt.init : StoreSt :=
  { blks := [], copies := [], active := [], ash := [], ashKnown := false, intent := none, lastEc := [], scrubPass := none, qspi := [],
    scrubNow := false, op := none, loads := [], writes := [], wantRef := [], refresh := none, scrubReq := false, scrubPage := 0, hot := none, paceOk := false,
    reads := [], clkAgain := false }

/-- A live record of the journal's ring (R389, R390): type, key, payload words and the ring word its header stands at. -/
structure JRec where
  typ : Nat
  key : Nat
  len : Nat
  at_ : Nat
  deriving DecidableEq, Repr

/-- The journal's ring: its write position, its count of records and passes, and the live records. -/
structure NvjSt where
  wpos : Nat
  jseq : Nat
  passes : Nat
  live : List JRec
  deriving DecidableEq, Repr

def NvjSt.init : NvjSt := { wpos := 0, jseq := 0, passes := 0, live := [] }

/-- Firmware state beside the FW registers (R485 to R500). -/
structure FwSt where
  inReset : Bool                      -- the part is held in full reset
  powerGood : Bool
  rstLow : Bool
  recovery : Bool                     -- Kindling recovery mode
  recNext : Bool                      -- entered at the next full reset
  goodAt : Nat                        -- life counter at power-good
  kindled : Option Nat                -- WTB units when Kindling completed
  prev : Nat                          -- the slot that ran before a trial
  trialAt : Nat                       -- life counter at the start of a trial
  pause : Bool                        -- activation pause
  arrivals : List (Nat × Word)        -- requests not yet applied, in order of arrival: session, SEQ (R511)
  replies : List (Nat × Word × Rsp)   -- WCP answers that wait for the Stoker: session, SEQ (R498)
  rsps : List CordBody                -- control responses that wait for the Stoker
  actWait : Option Nat                -- an activation or a commit that waits for the supply warning to clear: 0 activate, 1 commit
  image : List Byte                   -- the running firmware image as stored
  fwData : SMap Byte                  -- FW_DATA received by a tile
  deriving DecidableEq, Repr

def FwSt.init : FwSt :=
  { inReset := false, powerGood := true, rstLow := false, recovery := false, recNext := false, goodAt := 0, kindled := none, prev := 0, trialAt := 0,
    pause := false, arrivals := [], replies := [], rsps := [], actWait := none, image := [], fwData := [] }

/-- A tile of a staging group (R501 to R503). -/
structure StageTile where
  port : Nat
  pos : Nat
  confirmed : Bool
  armed : Bool                        -- ARM acknowledged
  tries : Nat
  ok : Bool                           -- its active hash matches the group's
  deriving DecidableEq, Repr

/-- The sender's staging (R501 to R503). -/
structure StageSt where
  kind : Nat                          -- 0 DRV, 1 CAL, 2 frame program
  data : List Byte
  frame : Nat
  tiles : List StageTile
  phase : Nat                         -- 0 confirming, 1 arming, 2 armed, 3 switched, 4 cancelled
  report : Bool                       -- INSTALL_DONE reports its end: not for the stagings of a full test run (R258, R510)
  deriving DecidableEq, Repr

/-- A tile's staging (R501): what was announced, the data received, and the frame of an ARM. -/
structure TileStage where
  kind : Nat
  len : Nat
  digest : List Byte
  data : SMap Byte
  arm : Option Nat
  due : Bool                          -- EV12 has been raised, and the SLOT record of the switch is still to be written
  asks : List Word                    -- CONFIRM requests that wait for the slot write
  deriving DecidableEq, Repr

/-! ### Test runs (R243 to R259) -/

/-- The counters of one bank as taken at a window opening or close (R248): the counts, FFAIL_VALID, the capture pointer, CAPT_FULL and
the position in the deep-capture ring. -/
structure BankSnap where
  bank : Nat
  vcnt : Nat
  failvec : Nat
  stall : Nat
  pfail : List Nat
  ffail : Bool
  ptr : Nat
  full : Bool
  deep : Nat
  deriving DecidableEq, Repr

/-- A run armed on this part's banks (Table 9-2). -/
structure ArmedRun where
  payload : List Byte                 -- the 80 bytes of the TEST payload
  left : Nat                          -- slots still to come
  slotno : Nat
  full : Bool
  deriving DecidableEq, Repr

/-- An open slot window, or the window of a FULL run: its frame, the counters at its opening, the run that takes it, and the banks that
have faulted (with the fault code) or stopped under R207 (0xFF) in it. -/
structure TestWin where
  fcnt : Nat
  snaps : List BankSnap
  run : Option ArmedRun
  faults : List (Nat × Nat)
  openLife : Nat
  deriving DecidableEq, Repr

/-- A candidate of the clinker table (R253). -/
structure Cand where
  lamp : Nat
  st : Nat
  n : Nat
  deriving DecidableEq, Repr

/-- The record of one site of a run at the sender (R254); port 8 is the sender itself. -/
structure SiteRec where
  port : Nat
  pos : Nat
  frags : List TestResPkt             -- newest first
  noresp : List Nat                   -- slots recorded NO_RESP
  tries : Nat                         -- RESEND packets sent since a slot of the site was last complete
  deriving DecidableEq, Repr

/-- A run at the sender (Table 9-1). -/
structure TestRun where
  payload : List Byte
  runid : Word
  full : Bool
  sites : List SiteRec
  slot : Nat                          -- slots announced
  evd : List Nat                      -- slots whose EV8 has been raised
  start : Nat                         -- life counter at the ARM
  phase : Nat                         -- FULL: 0 staging the test, 1 testing, 2 staging back
  image : List Byte
  prev : List Byte                    -- FULL: the drive program of the sites before the run
  status : Nat                        -- end status
  deriving DecidableEq, Repr

/-- Test state of the sites on this part and of the runs it controls. -/
structure TestSt where
  armed : Option ArmedRun
  win : Option TestWin
  held : List TestResPkt              -- results of the last window, in fragment order
  cand : List Cand                    -- oldest first
  run : Option TestRun
  past : List TestRun                 -- completed and uncollected, oldest first
  deriving DecidableEq, Repr

def TestSt.init : TestSt := { armed := none, win := none, held := [], cand := [], run := none, past := [] }

/-! ### DDR5 and the fabric (R395 to R416) -/

/-- One subchannel: the retry buffer, the requests that wait, the replay in progress and the open rows. -/
structure DdrSub where
  buf : List BusReq                   -- issued and unacknowledged, oldest first
  wait : List BusReq
  alert : Bool                        -- ALERT_N is asserted
  recov : Bool                        -- RECOV runs
  replay : Bool                       -- a replay has begun and is not yet successful
  fails : Nat                         -- consecutive failed replays
  retrain : Bool
  rows : SMap (Option (Nat × Nat))    -- open row by rank, bank group and bank, and WTB units of the last access
  deriving DecidableEq, Repr

def DdrSub.init : DdrSub := { buf := [], wait := [], alert := false, recov := false, replay := false, fails := 0, retrain := false, rows := [] }

/-- The controller beside the DDR registers. -/
structure DdrSt where
  sub : SMap DdrSub
  scrubAt : Nat                       -- next address of the patrol scrub
  scrubOn : Bool
  retrains : List Nat                 -- life counter at the last two retrainings, newest first
  panics : Nat                        -- feeders in panic, mask: CE0 to CE3 bits 4 to 7, audio ports bits 16 to 19
  deriving DecidableEq, Repr

def DdrSt.init : DdrSt := { sub := [], scrubAt := 0, scrubOn := false, retrains := [], panics := 0 }

/-- A request at an arbiter, its address translated: the beats still to transfer and the decisions it has lost. -/
structure ArbReq where
  r : BusReq
  left : Nat
  lost : Nat
  deriving DecidableEq, Repr

/-- One arbiter (R408 to R411). -/
structure Arb where
  owner : Option ArbReq
  queue : List ArbReq                 -- parked, oldest first
  ports : List ArbReq                 -- stalled at their ports
  last : Nat                          -- requester granted last
  deriving DecidableEq, Repr

def Arb.init : Arb := { owner := none, queue := [], ports := [], last := 15 }

/-! ### Lanes, power, heat -/

/-- An eye scan in progress on a lane (R426 to R428): the direction of a MARGIN scan (0 left, 1 right, 2 top, 3 bottom), the step of the
point being counted, and whether the receiver sleeps. -/
structure Scan where
  margin : Bool
  dir : Nat
  step : Nat
  deriving DecidableEq, Repr

/-- Power and heat state beside the EMBER, SUPPLY and THERM registers. -/
structure PwrSt where
  lifeCell : Nat                      -- the highest life counter cell
  smoulderAt : Option Nat             -- TILE: a held POWER request's FCNT
  t120 : Nat                          -- consecutive readings at or above 120 degrees
  powered : Bool                      -- the rails other than VDD_EMB are up
  dueWrites : Bool                    -- journal records to close under a warning have been closed
  deriving DecidableEq, Repr

def PwrSt.init : PwrSt := { lifeCell := 0, smoulderAt := none, t120 := 0, powered := false, dueWrites := false }

/-! ### Kiln and ageing (R457 to R467) -/

/-- A Kiln run: T at its start, the life counter at its start, and the next target. -/
structure KilnRun where
  t : Int
  at_ : Nat
  cls : Nat
  idx : Nat
  deriving DecidableEq, Repr

/-- Kiln state. Targets are keyed class * 1,024 + index, set values set * 8,192 + target. -/
structure KilnSt where
  sets : SMap (Option Int)            -- measured values
  applied : SMap (Option Int)         -- applied trims; none: the factory value at 40 degrees
  drift : SMap Int                    -- pin drift trims, R465
  run : Option KilnRun
  targets : SMap (Option Int)         -- target values of the last update; none: not computed since reset
  deriving DecidableEq, Repr

def KilnSt.init : KilnSt := { sets := [], applied := [], drift := [], run := none, targets := [] }

/-- One entry of the ageing history (Table 18-3). -/
structure AgeEntry where
  life : Nat
  oph : Nat
  eqh : Nat
  degmax : Nat
  degmean : Int
  avs : Nat
  reserve : Nat
  lum : Nat
  laneH : Nat
  laneV : Nat
  pindrift : Nat
  tempmean : Int
  runs : Nat
  disagree : Nat
  trimlim : Nat
  flags : Nat
  deriving DecidableEq, Repr

/-- Ageing state beside the AGE registers. -/
structure AgeSt where
  secs : Nat                          -- seconds of the operating hour under way
  eqh : Nat                           -- lamp equivalent seconds, 2^-32 s
  lanes : SMap (Option (Nat × Nat))   -- lowest horizontal and vertical margin of a lane since the last plan
  drift : SMap Int                    -- pin timing drift, 15.625 ps
  hrWins : Nat                        -- headroom windows since the last plan
  hrUps : Nat                         -- those with an UP vote while AT_VMAX was set
  tempSum : Int
  tempN : Nat
  base : List Nat                     -- Kiln RUNS, DISAGREE and TRIM_LIMIT at the last plan
  wait : Bool                         -- a plan waits for the supply warning to clear
  avs : Option Nat                    -- an AVSBus write to be repeated
  hist : List AgeEntry                -- newest first, at most 256
  deriving DecidableEq, Repr

def AgeSt.init : AgeSt :=
  { secs := 0, eqh := 0, lanes := [], drift := [], hrWins := 0, hrUps := 0, tempSum := 0, tempN := 0, base := [0, 0, 0], wait := false,
    avs := none, hist := [] }

/-! ### Camera and audio (R470 to R483) -/

/-- Camera state beside the CAM registers. -/
structure CamSt where
  size : Word                         -- CAM_SIZE, CAM_STRIDE and CAM_BASE of the frame being received
  stride : Word
  base : Word
  buf : Nat                           -- buffer the frame fills
  staged : List (Nat × Nat)           -- staged sensor parameters: register, data
  np : Nat
  gens : List Nat                     -- frames until each accepted parameter set shows in the statistics
  pgen : Nat                          -- parameter generation of the frames now being received
  deriving DecidableEq, Repr

def CamSt.init : CamSt := { size := 0, stride := 0, base := 0, buf := 0, staged := [], np := 0, gens := [], pgen := 0 }

/-- A buffered audio frame: its boundary, its place in the stream's ring (sender), and one sample per channel (tile). -/
structure AudFrame where
  at_ : Nat
  ts : Nat
  samples : List Word
  deriving DecidableEq, Repr

/-- One audio port: buffered frames by boundary (oldest first), the channels of the tile's blocks, and its gain. -/
structure AudPort where
  buf : List AudFrame
  chans : Nat
  gain : Nat                          -- steps of RAMP * 48
  under : Bool                        -- the last boundary inserted a frame
  deriving DecidableEq, Repr

def AudPort.init : AudPort := { buf := [], chans := 2, gain := 0, under := false }

/-- What the DTLS server sends outside WCP messages (R331 to R333). -/
inductive DtlsAnswer where
  | helloRetry | handshakeFailure | serverFlight | accepted | refused | sessionFull | keyUpdate
  deriving DecidableEq, Repr

/-- What the part puts out, newest first in `State.out`. -/
inductive Out where
  /-- One vector on a bank: the levels and enabled drivers from the drive edge, the levels after the return edge and the trigger
  outputs that pulse (Table 7-1, R220). -/
  | vector (bank : Nat) (drive on ret : BitVec 32) (trig : BitVec 4)
  /-- A packet whose last block has left a cord port. -/
  | cord (port : Nat) (pkt : CordPkt)
  /-- A forwarded copy ended with ABORT. -/
  | cordAbort (port : Nat)
  /-- A CREDIT symbol: port, class (0 B, 1 C), running count. -/
  | credit (port cls freed : Nat)
  /-- A PROBE or ECHO symbol. -/
  | probe (port id : Nat)
  | echo (port id : Nat)
  /-- A ring packet: destination position or 0xFF. -/
  | ring (enc : Bool) (dest : Nat) (body : RingBody)
  /-- The server's answer in a DTLS handshake or to a KeyUpdate: the port or session it goes to. -/
  | dtls (spi : Bool) (port : Nat) (a : DtlsAnswer)
  /-- A PMBus write to the lamp supply: address, command, value (R236). -/
  | pmbus (addr cmd value : Nat)
  /-- A pulse on SYNC_OUT or PPS_OUT: the instant of its rising edge, 1/64 ns, and its length in µs. -/
  | syncOut (at_ : Int) (us : Nat)
  | ppsOut (at_ : Int) (us : Nat)
  /-- The quiet sequence, and the WAKE pattern and ALIGN, of a port's transmit direction (R430, R431). -/
  | quiet (port : Nat)
  | wakePattern (port ns : Nat)
  /-- An AVSBus target voltage: rail, mV (R465). -/
  | avs (rail mv : Nat)
  /-- A sensor register write of the camera port: I2C address, register, data (R476). -/
  | sensor (addr reg data : Nat)
  /-- One audio frame on a port: the sample of each slot, at gain num / den (R478, R483). -/
  | audio (port : Nat) (slots : List Word) (num den : Nat)
  /-- What the selected JTAG instruction shifts out. -/
  | jtag (data : Nat)
  /-- A datagram returned over the local SPI port. -/
  | spi (status : Nat) (data : List Byte)
  /-- The Stoker takes its bus-error (0) or machine-check (1) exception (R404, R416). -/
  | stoker (exc : Nat)
  /-- A WCP response. -/
  | rsp (sess : Nat) (seq : Word) (r : Rsp)
  /-- A WCP event to a session. -/
  | event (sess : Nat) (e : EventMsg)
  /-- The response to a register or memory access: whether it is an error, and the data. -/
  | bus (err : Bool) (data : Nat)
  deriving DecidableEq, Repr

/-- Why the machine stops with a fault: no command does. -/
inductive Fault where
  /-- Raised by nothing; the type is inhabited so that a state can be written out. Safe. -/
  | none
  deriving DecidableEq, Repr

/-- Why a command has no meaning. -/
inductive Refusal where
  /-- Raised by an arm of `exec` for a command not modelled yet. Safe: the machine stops where the part goes on. -/
  | notModelled (mnemonic : String)
  deriving DecidableEq, Repr

/-- The part. -/
structure State where
  pending : List Instr                -- commands that wait, first in, first out
  out : List Out
  regs : SMap Word                    -- every register field's home, by offset from 0x00_F000_0000
  live : SMap Word                    -- values in force of registers whose writes wait for a tick or switch
  latch : SMap Word                   -- words latched by a read of a low word (R280)
  seqs : SMap Seq                     -- PSQ0 to PSQ7, and 8 for the FSQ
  banks : SMap Bank
  wtb : Nat                           -- wall time base, or a tile's local time counter, in 1/64 ns
  life : Nat                          -- Ember's life counter, 32,768 Hz
  sessions : List Session
  comp : CompSt
  cord : CordSt
  tl : TileSt
  lamp : LampSt
  brd : BoardSt
  clm : ClaimSt
  pop : PopSt
  src : List Bound
  tim : TimeSt
  test : TestSt
  mc : DdrSt
  arbs : SMap Arb
  scans : SMap (Option Scan)          -- eye scans by lane
  laneDone : Nat                      -- lanes that have trained under the lane table in use, mask (R423)
  pwr : PwrSt
  kiln : KilnSt
  age : AgeSt
  cam : CamSt
  aud : SMap AudPort
  jtag : Nat                          -- the selected JTAG instruction
  sram : SMap Byte                    -- SRAM as bus masters see it, by byte offset from 0x00_1000_0000
  spiRx : List (List Byte)            -- datagrams from the local SPI port, oldest first
  spiTx : List Out                    -- what waits in its transmit queue, oldest first, at most 8
  trace : SMap (BitVec 64)            -- the trace ring, 8,192 entries
  ddr : SMap Byte                     -- DDR5 contents, by byte offset from 0x10_0000_0000
  hea : HearthSt
  sto : StoreSt
  nvj : NvjSt
  fw : FwSt
  stage : Option StageSt
  stageLast : SMap (List Byte)        -- the image of the last staging that switched, by staging kind (R503)
  tstage : Option TileStage
  dsetLoaded : List (Nat × Word)      -- register values of the loaded drive program set, as they stand in its payload
  dsetPairs : List (Nat × Word)       -- register values of a staged drive program set (R515)
  freeCtr : Nat                       -- the model's own: how many free values have been taken
  deriving DecidableEq, Repr

/-- The part right after reset. -/
def State.reset : State :=
  { pending := [], out := [], regs := [], live := [], latch := [], seqs := [], banks := [],
    wtb := 0, life := 0, sessions := [], comp := CompSt.init, cord := CordSt.init, tl := TileSt.init, lamp := LampSt.init, brd := BoardSt.init,
    clm := ClaimSt.init, pop := PopSt.init, src := [], tim := TimeSt.init,
    test := TestSt.init, mc := DdrSt.init, arbs := [], scans := [], laneDone := 0, pwr := PwrSt.init, kiln := KilnSt.init, age := AgeSt.init,
    cam := CamSt.init, aud := [], jtag := 1, sram := [], spiRx := [], spiTx := [], trace := [], ddr := [], hea := HearthSt.init,
    sto := StoreSt.init, nvj := NvjSt.init, fw := FwSt.init, stage := none, stageLast := [], tstage := none, dsetLoaded := [], dsetPairs := [], freeCtr := 0 }

end Sys2Proof.Machine
end

