-- ==== Sys2Proof/Machine/Ops.lean ====
section
/-! DEFINITION. Machine/Ops.lean: the named operations over registers, fields, counts, sequencers and banks that every meaning is
built from. -/

namespace Sys2Proof.Machine

/-! ### Register map -/

/-- The offset r falls on an element of an array with these strides and counts. -/
def dimsHit : List (Nat × Nat) → Nat → Bool
  | [], r => r == 0
  | (st, c) :: ds, r => decide (r / st < c) && dimsHit ds (r % st)

/-- The register definition lists the offset. -/
def regHit (d : RegDef) (off : Nat) : Bool := decide (d.off ≤ off) && dimsHit d.dims (off - d.off)

/-- The register at an offset in register space, if one is listed there (R7, R521). -/
def regDef (a : Nat) : Option RegDef := (blockRegs (a / 0x10000)).find? fun d => regHit d (a % 0x10000)

/-- A register's reset value, from its fields. -/
def resetWord (d : RegDef) : Word := BitVec.ofNat 32 (d.fields.foldl (fun w f => w + f.reset * 2 ^ f.lo) 0)

/-- What an unwritten register reads as: its reset value, and 0 where no register is listed (R7). -/
def regReset (a : Nat) : Word :=
  match regDef a with
  | some d => resetWord d
  | none => 0

/-! ### Words and fields -/

/-- The mask of bits hi to lo. -/
def maskOf (hi lo : Nat) : Nat := (2 ^ (hi + 1 - lo) - 1) * 2 ^ lo

/-- Bits hi to lo of a word. -/
def bitsOf (w hi lo : Nat) : Nat := w / 2 ^ lo % 2 ^ (hi + 1 - lo)

/-- The word with bits hi to lo replaced by the low bits of v. -/
def putBits (w : Word) (hi lo v : Nat) : Word :=
  (w &&& ~~~ BitVec.ofNat 32 (maskOf hi lo)) ||| (BitVec.ofNat 32 (v * 2 ^ lo) &&& BitVec.ofNat 32 (maskOf hi lo))

/-- A two's-complement field of n bits, as an integer. -/
def signed (n v : Nat) : Int := if v < 2 ^ (n - 1) then (v : Int) else (v : Int) - (2 ^ n : Nat)

/-- An integer as a two's-complement field of n bits. -/
def unsigned (n : Nat) (v : Int) : Nat := (v % ((2 ^ n : Nat) : Int)).toNat

/-- p / q rounded to the nearest integer, halves away from zero (R167); q is positive. -/
def roundDiv (p : Int) (q : Nat) : Int :=
  if 0 ≤ p then (2 * p + q) / (2 * q : Nat) else - ((2 * (-p) + q) / (2 * q : Nat))

/-- v held between two bounds. -/
def clampInt (lo hi v : Int) : Int := if v < lo then lo else if hi < v then hi else v

/-- p / q rounded up. -/
def ceilDiv (p q : Nat) : Nat := (p + q - 1) / q

/-- The little-endian bytes of a number. -/
def leBytes : Nat → Nat → List Byte
  | 0, _ => []
  | n + 1, v => BitVec.ofNat 8 v :: leBytes n (v / 256)

/-- The number that little-endian bytes spell. -/
def leNat : List Byte → Nat
  | [] => 0
  | b :: bs => b.toNat + 256 * leNat bs

/-- n bytes of a list from offset k, as a little-endian number. -/
def leAt (bs : List Byte) (k n : Nat) : Nat := leNat ((bs.drop k).take n)

/-! ### Registers -/

/-- The register at an offset of register space. -/
def State.reg (s : State) (a : Nat) : Word := SMap.get regReset s.regs a

/-- s with the register at an offset set. -/
def State.setReg (s : State) (a : Nat) (v : Word) : State := { s with regs := SMap.set regReset s.regs a v }

/-- A field's value. -/
def State.getF (s : State) (f : Field) : Nat := bitsOf (s.reg f.addr).toNat f.hi f.lo

/-- s with a field set. -/
def State.setF (s : State) (f : Field) (v : Nat) : State := s.setReg f.addr (putBits (s.reg f.addr) f.hi f.lo v)

/-- A one-bit field as a truth value. -/
def State.flag (s : State) (f : Field) : Bool := s.getF f != 0

/-- s with a one-bit field set or cleared. -/
def State.setFlag (s : State) (f : Field) (b : Bool) : State := s.setF f (if b then 1 else 0)

/-- s with n added to a 32-bit saturating count. -/
def State.count (s : State) (a : Nat) (n : Nat) : State :=
  s.setReg a (BitVec.ofNat 32 (min ((s.reg a).toNat + n) 0xFFFFFFFF))

/-- s with n added to a 16-bit saturating count. -/
def State.count16 (s : State) (a : Nat) (n : Nat) : State :=
  s.setReg a (BitVec.ofNat 32 (min ((s.reg a).toNat + n) 0xFFFF))

/-- The value in force of a register whose writes wait for a tick or a switch. -/
def State.liveReg (s : State) (a : Nat) : Word := SMap.get regReset s.live a

/-- A field of a value in force. -/
def State.liveF (s : State) (f : Field) : Nat := bitsOf (s.liveReg f.addr).toNat f.hi f.lo

/-- s with the value in force of a register set. -/
def State.setLive (s : State) (a : Nat) (v : Word) : State := { s with live := SMap.set regReset s.live a v }

/-- What a plain write leaves in a register: RW, RWS and RWL fields take the value written, every other bit stays (R6 to R8). -/
def writtenWord (d : RegDef) (old v : Word) : Word :=
  d.fields.foldl (fun w f =>
    match f.acc with
    | .rw | .rws | .rwl => putBits w f.hi f.lo (bitsOf v.toNat f.hi f.lo)
    | .w1c => putBits w f.hi f.lo (bitsOf (w &&& ~~~ v).toNat f.hi f.lo)
    | _ => w) old

/-- A plain write of a register: field by field, by access type. -/
def State.plainWrite (s : State) (a : Nat) (v : Word) : State :=
  match regDef a with
  | some d => s.setReg a (writtenWord d (s.reg a) v)
  | none => s

/-- s with something put out. -/
def State.emit (s : State) (o : Out) : State := { s with out := o :: s.out }

/-- s with something sent over a session's path: at once over UDP, or into the local SPI port's transmit queue of 8, whose oldest datagram
a ninth drops (R507). -/
def State.sessOut (s : State) (spi : Bool) (o : Out) : State :=
  if spi then
    let q := s.spiTx ++ [o]
    { s with spiTx := q.drop (q.length - 8) }
  else s.emit o

/-! ### Free values -/

/-- The free value number i of this step: below 2^w, and nothing else is known of it. -/
def State.free (s : State) (i w : Nat) : Nat := Config.freeNat s.freeCtr i % 2 ^ w

/-- s with the counter of free values advanced, so that the next step's free values are fresh. -/
def State.freed (s : State) : State := { s with freeCtr := s.freeCtr + 1 }

/-! ### Role and block interrupts -/

/-- The latched ROLE strap: TILE role (R1). -/
def State.tile (s : State) : Bool := s.flag EMB_STRAPS_ROLE

/-- SENDER role (R1). -/
def State.sender (s : State) : Bool := !s.tile

/-- The Stoker does not answer: an activation pause, or a debug halt, which acts alike (R498, R550). -/
def State.paused (s : State) : Bool := s.fw.pause || s.flag TRACE_HALT_STK_HALT

/-- Block b's interrupt to the Stoker becomes pending (Table 21-9). -/
def State.irq (s : State) (b : Nat) : State := s.setReg SYS_IRQ_STAT (s.reg SYS_IRQ_STAT ||| BitVec.ofNat 32 (2 ^ b))

/-! ### Sequencers and banks -/

/-- The index of a sequencer: PSQn is n, the FSQ is 8. -/
def seqIdx : SeqId → Nat
  | .fsq => 8
  | .psq n => n.val

/-- A sequencer's state. -/
def State.seq (s : State) (k : Nat) : Seq := SMap.get (fun _ => Seq.init) s.seqs k

/-- s with a sequencer's state replaced. -/
def State.setSeq (s : State) (k : Nat) (q : Seq) : State := { s with seqs := SMap.set (fun _ => Seq.init) s.seqs k q }

/-- A bank's state. -/
def State.bank (s : State) (k : Nat) : Bank := SMap.get (fun _ => Bank.init) s.banks k

/-- s with a bank's state replaced. -/
def State.setBank (s : State) (k : Nat) (b : Bank) : State := { s with banks := SMap.set (fun _ => Bank.init) s.banks k b }

/-! ### Time -/

/-- Whole ns of the wall time base, truncated (R261). -/
def State.ns (s : State) : Nat := s.wtb / 64

/-- A 64-bit two's-complement value in a pair of registers, low word first. -/
def State.pair (s : State) (a : Nat) : Nat := (s.reg a).toNat + (s.reg (a + 4)).toNat * 2 ^ 32

/-- s with a pair of registers set to a number modulo 2^64. -/
def State.setPair (s : State) (a v : Nat) : State :=
  (s.setReg a (BitVec.ofNat 32 v)).setReg (a + 4) (BitVec.ofNat 32 (v / 2 ^ 32))

/-- NTOFF in force, signed ns (R282). -/
def State.ntoff (s : State) : Int :=
  signed 64 ((s.liveReg REF_NTOFF_LO).toNat + (s.liveReg REF_NTOFF_HI).toNat * 2 ^ 32)

/-- NET_VALID. -/
def State.netValid (s : State) : Bool := s.flag REF_NET_NET_VALID

/-- The frame period in force, 1/64 ns. -/
def State.fper (s : State) : Nat := (s.liveReg FSQ_FPER).toNat

/-! ### DDR5 contents -/

/-- What a byte of DDR5 that nothing has written reads as (DESIGN CHOICE, log 3). -/
def ddrFill : Nat → Byte := fun _ => 0

/-- A byte of DDR5. -/
def State.ddrByte (s : State) (a : Nat) : Byte := SMap.get ddrFill s.ddr a

/-- s with bytes of DDR5 written from an offset on. -/
def State.ddrWrite (s : State) (a : Nat) (bs : List Byte) : State := { s with ddr := SMap.setList ddrFill s.ddr a bs }

end Sys2Proof.Machine
end

