-- ==== Sys2Proof/Machine/Link.lean ====
section
/-! DEFINITION. Machine/Link.lean: the link layer of the cord ports: packet sizes, draught credits and sending (R137, R141, R142). -/

namespace Sys2Proof.Machine

/-- A packet's payload bytes before padding (Tables 5-6 to 5-8, R162, Table 9-3). -/
def bodyLen : CordBody → Nat
  | .mark .. => 24
  | .present .. => 144
  | .band b => 24 + 4 * b.pixels.length
  | .testslot .. => 24
  | .test d => d.length
  | .ctrlReq _ _ d => 8 + d.length
  | .ctrlRsp _ _ _ d => 8 + d.length
  | .timeRsp .. => 24
  | .ack _ => 32
  | .event _ _ d => 8 + d.length
  | .testRes r => 32 + r.data.length
  | .undefinedType _ n => n

/-- The packet's class: 0 B, 1 C (Table 5-5). -/
def bodyCls : CordBody → Nat
  | .band _ | .test _ | .testRes _ => 0
  | _ => 1

/-- Header, payload padded to a multiple of 8, and TAG (R137). -/
def pktBytes (p : CordPkt) : Nat := 32 + ceilDiv (bodyLen p.body) 8 * 8 + 16

/-- 64-byte blocks; the last one takes a whole credit (R141). -/
def pktBlocks (p : CordPkt) : Nat := ceilDiv (pktBytes p) 64

/-- A receive port's pool of credits (R141). -/
def creditPool (cls : Nat) : Nat := if cls = 0 then 512 else 64

/-- Credits a transmitter holds: the pool less the blocks sent and not yet freed, on running counts modulo 65,536 (R141). -/
def State.credits (s : State) (port cls : Nat) : Nat :=
  let k := port * 2 + cls
  let out := (SMap.get (fun _ => 0) s.cord.sent k + 65536 - SMap.get (fun _ => 0) s.cord.freed k) % 65536
  creditPool cls - out

/-- What a transmitter's turn does: the credits left, the packets still waiting, those that have left, and the blocks that left receive
buffers. -/
structure Pumped where
  left : Nat
  wait : List TxEnt
  gone : List CordPkt
  freed : List (Nat × Nat)

/-- The blocks of an entry that free a receive buffer. -/
def TxEnt.frees (e : TxEnt) (n : Nat) : List (Nat × Nat) := match e.src with | some p => [(p, n)] | none => []

/-- Sends blocks of waiting packets while credits last. -/
def pumpQ : Nat → List TxEnt → Pumped
  | c, [] => { left := c, wait := [], gone := [], freed := [] }
  | c, e :: es =>
    if e.blocks ≤ c then
      let r := pumpQ (c - e.blocks) es
      { r with gone := e.pkt :: r.gone, freed := e.frees e.blocks ++ r.freed }
    else { left := 0, wait := { e with blocks := e.blocks - c } :: es, gone := [], freed := e.frees c }

/-- A receiver has freed blocks of a class on a port: its running count rises and a CREDIT symbol carries it (R141). -/
def State.freeBlocks (s : State) (port cls n : Nat) : State :=
  if n = 0 then s
  else
    let k := port * 2 + cls
    let v := (SMap.get (fun _ => 0) s.cord.rxFreed k + n) % 65536
    State.emit { s with cord := { s.cord with rxFreed := SMap.set (fun _ => 0) s.cord.rxFreed k v } } (.credit port cls v)

/-! ### Lanes of a port (R16, R429 to R431) -/

/-- The lanes of port n: 0 to 7 the cord ports, 8 the ring forward port, 9 the ring backward port (Table 1-2). -/
def State.portLanes (s : State) (p : Nat) : List Nat :=
  let one := s.flag EMB_STRAPS_CORDW
  if p = 8 then [20, 21] else if p = 9 then [22, 23]
  else if s.tile then (if p = 0 then (if one then [0] else [0, 1]) else if p = 1 then (if one then [2] else [2, 3]) else [])
  else if one then [4 + p] else [4 + 2 * p, 5 + 2 * p]

/-- The state of a port's transmit direction: 0 off, 1 awake, 2 waking, 3 asleep. -/
def State.txst (s : State) (p : Nat) : Nat := match s.portLanes p with | l :: _ => s.getF (LANE_LSTAT_TXST l) | [] => 0

/-- The transmit direction sleeps or is not yet awake. -/
def State.txAsleep (s : State) (p : Nat) : Bool := decide (2 ≤ s.txst p)

/-- A field of every lane of a port. -/
def State.setLanes (s : State) (p : Nat) (f : Nat → Field) (v : Nat) : State := (s.portLanes p).foldl (fun (t : State) l => t.setF (f l) v) s

/-- A count of every lane of a port. -/
def State.countLanes (s : State) (p : Nat) (a : Nat → Nat) : State := (s.portLanes p).foldl (fun (t : State) l => t.count (a l) 1) s

/-- A sleeping transmit direction starts to wake: the WAKE pattern follows (R431). -/
def State.txWake (s : State) (p : Nat) : State :=
  if s.txst p = 3 then
    ((s.setLanes p LANE_LSTAT_TXST 2).countLanes p LANE_N_TXWAKE).emit (.wakePattern p (s.getF LANE_WAKE_WPAT))
  else s

/-- Lets a port's class send what its credits allow; each packet whose last block leaves is put out (R141); a sleeping direction
wakes first (R431). -/
def State.pump (s : State) (port cls : Nat) : State :=
  let k := port * 2 + cls
  if s.txAsleep port then (if (SMap.get (fun _ => []) s.cord.txq k).isEmpty then s else s.txWake port) else
  let c := s.credits port cls
  let r := pumpQ c (SMap.get (fun _ => []) s.cord.txq k)
  let sent := (SMap.get (fun _ => 0) s.cord.sent k + (c - r.left)) % 65536
  let t : State := { s with cord := { s.cord with sent := SMap.set (fun _ => 0) s.cord.sent k sent,
                                                  txq := SMap.set (fun _ => []) s.cord.txq k r.wait } }
  let t := r.gone.foldl (fun u p => u.emit (.cord port p)) t
  r.freed.foldl (fun u f => u.freeBlocks f.1 cls f.2) t

/-- The hop on the port is authenticated and keyed, so it carries packets (R14, R336). -/
def State.linkUp (s : State) (port : Nat) : Bool := SMap.get (fun _ => HopAuth.down) s.cord.hops port == .keyed

/-- The queue with an entry added: a sender's band goes ahead of TEST packets that have not begun (R244), all else to the end. -/
def enqueue (own : Bool) (e : TxEnt) (q : List TxEnt) : List TxEnt :=
  let idle := fun (x : TxEnt) => match x.pkt.body with | .test _ => x.blocks == pktBlocks x.pkt | _ => false
  match e.pkt.body, own with
  | .band _, true => q.filter (fun x => !idle x) ++ [e] ++ q.filter idle
  | _, _ => q ++ [e]

/-- A packet handed to a port, from a receive port's buffer where it is forwarded: it waits behind its class and leaves as credits
allow; a port without a link carries nothing, and the buffer is freed. -/
def State.sendFrom (s : State) (src : Option Nat) (port : Nat) (p : CordPkt) : State :=
  let cls := bodyCls p.body
  if s.linkUp port then
    let k := port * 2 + cls
    let q := SMap.get (fun _ => []) s.cord.txq k
    let e : TxEnt := { blocks := pktBlocks p, src := src, pkt := p }
    let s := if s.tile && port == 1 && src.isSome && s.txAsleep 1 then s.countLanes 1 LANE_N_WAKELATE else s
    State.pump { s with cord := { s.cord with txq := SMap.set (fun _ => []) s.cord.txq k (enqueue src.isNone e q) } } port cls
  else match src with
    | some q => s.freeBlocks q cls (pktBlocks p)
    | none => s

/-- A packet of this part handed to a port. -/
def State.send (s : State) (port : Nat) (p : CordPkt) : State := s.sendFrom none port p

/-- A ring packet handed to the ring ports 8 and 9: it leaves where either has a keyed link, encrypted while REQ_RING_ENC is set (R164,
R336, R337). -/
def State.ringSend (s : State) (dest : Nat) (b : RingBody) : State :=
  let t := if s.linkUp 8 then s.txWake 8 else s
  let t := if t.linkUp 9 then t.txWake 9 else t
  if s.linkUp 8 || s.linkUp 9 then t.emit (.ring (s.flag HEARTH_POLICY_REQ_RING_ENC) dest b) else s

/-! ### Claims on packets -/

/-- The sender's own claim, and CLAIM_HI at a tile. -/
def State.claim (s : State) : BitVec 64 :=
  if s.tile then (s.reg CORD_CLAIM_HI_HI) ++ (s.reg CORD_CLAIM_HI_LO) else (s.reg CLM_CLAIM_HI) ++ (s.reg CLM_CLAIM_LO)

/-- The header of a packet from this sender to a position, or to all (Table 5-4, R139). -/
def State.downHdr (s : State) (port dest : Nat) : PktHdr :=
  { up := false, enc := s.flag (CORD_PCFG_ENC port) || s.flag HEARTH_POLICY_REQ_ENC, relay := false, dest := dest, src := 0xFF, claim := s.claim }

/-- The header of an UP packet of this tile (Table 5-4). -/
def State.upHdr (s : State) : PktHdr :=
  { up := true, enc := false, relay := false, dest := 0xFF, src := s.getF CORD_TSTAT_POS, claim := s.claim }

/-- The port an UP packet leaves by: the claim-facing port, or the other one where that has no link (R157). -/
def State.upPort (s : State) : Nat :=
  let cf := s.getF CORD_TSTAT_CFPORT
  if s.linkUp cf then cf else 1 - cf

/-- A tile's own UP packet handed to its port. -/
def State.sendUp (s : State) (b : CordBody) : State := s.send s.upPort { hdr := s.upHdr, body := b }

end Sys2Proof.Machine
end

