-- ==== Sys2Proof/Machine/Events.lean ====
section
/-! DEFINITION. Machine/Events.lean: events to sessions (R517, R518), events to sequencers (R34 to R36) and trace entries (R552). -/

namespace Sys2Proof.Machine

/-! ### Event messages -/

/-- Which sessions an event goes to besides the owner's (Table 21-6). -/
inductive Recips where
  | owner
  | tenants (mask : Nat)
  | all
  | referee
  deriving DecidableEq, Repr

/-- The session receives the event. -/
def Recips.has (r : Recips) (t : Nat) : Bool :=
  match r with
  | .owner => t == 0
  | .tenants m => t == 0 || (decide (t < 16) && m.testBit t)
  | .all => true
  | .referee => t == 0xFE

/-- Numbers the event for a session, keeps it among the last 256 and gives the message (R517). -/
def Session.event (x : Session) (code port pos life : Nat) (detail : List Byte) : Session × EventMsg :=
  let e : EventMsg := { eseq := x.eseq + 1, code := code, port := port, pos := pos, life := life, detail := detail }
  ({ x with eseq := x.eseq + 1, events := (e :: x.events).take 256, txRec := x.txRec + 1 }, e)

/-- The part asks for new keys after every 2^24 records that it has sent in a session (R331). -/
def State.keyAfter (s : State) (x : Session) : State :=
  if (x.txRec + 1) % 2 ^ 24 = 0 then s.sessOut x.spi (.dtls x.spi x.port .keyUpdate) else s

/-- Sends an event of a given port and position to every recipient session (R517, R518). -/
def State.eventAt (s : State) (code port pos : Nat) (detail : List Byte) (r : Recips) : State :=
  s.sessions.foldl (fun t x =>
      if r.has x.tenant then
        let p := x.event code port pos (s.life % 2 ^ 48) detail
        let u := State.sessOut { t with sessions := t.sessions.map fun y => if y.id = x.id then p.1 else y } x.spi (.event x.id p.2)
        let u := if 256 ≤ x.events.length then u.count SYS_N_EVENTS_DROPPED 1 else u
        u.keyAfter x
      else t) s

/-- Reports an event of this part: to the sessions, and from a tile up the cord as an EVENT packet (R518, Table 5-5). -/
def State.event (s : State) (code : Nat) (detail : List Byte) (r : Recips) : State :=
  let t := s.eventAt code 0xFF 0xFF detail r
  if s.tile then
    State.sendUp { t with tl := { t.tl with eseq := t.tl.eseq + 1 } } (.event (t.tl.eseq + 1) code detail)
  else t

/-! ### Trace -/

/-- Puts an entry into the ring (R552, R553). The FIFO in front of the ring empties at once. -/
def State.trace64 (s : State) (src kind : Nat) (data : Word) : State :=
  if s.flag TRACE_STAT_FULL && s.flag TRACE_CTRL_MODE then s else
  let w : BitVec 64 := BitVec.ofNat 64 ((src * 16 + kind) * 2 ^ 56 + data.toNat * 2 ^ 24 + s.wtb / 64 / 1024 % 2 ^ 24)
  let p := s.getF TRACE_WPTR_PTR
  let t := { s with trace := SMap.set (fun _ => 0) s.trace p w }
  let t := t.setF TRACE_WPTR_PTR (p + 1)
  if p = 8191 then
    if t.flag TRACE_CTRL_MODE then t.setFlag TRACE_STAT_FULL true else t.setFlag TRACE_STAT_WRAPPED true
  else t

/-- An entry of a sequencer, where its trace is enabled (R553). Index 8 is the FSQ (SRC 1); PSQn is SRC 2 + n. -/
def State.traceSeq (s : State) (k kind : Nat) (data : Word) : State :=
  if s.flag TRACE_CTRL_SEQ_EN && (s.getF TRACE_SEQMASK_MASK).testBit (if k = 8 then 0 else k + 1) then
    s.trace64 (if k = 8 then 1 else k + 2) kind data
  else s

/-- A marker entry. -/
def State.traceMark (s : State) (kind : Nat) (data : Word) : State := s.trace64 15 kind data

/-! ### Sequencer events -/

/-- An event occurs in a sequencer: its pending bit is set, or the occurrence is lost and counts in EVOVR (R34). -/
def State.raiseEv (s : State) (k n : Nat) : State :=
  let q := s.seq k
  if q.ev.getLsbD n then
    if k = 8 then s.count16 FSQ_N_EVOVR 1 else s.count16 (PSQ_N_EVOVR k) 1
  else s.setSeq k { q with ev := q.ev ||| BitVec.ofNat 32 (2 ^ n) }

/-- An event occurs in the FSQ, which exists in SENDER role only (R3, R35). -/
def State.raiseFsq (s : State) (n : Nat) : State := if s.sender then s.raiseEv 8 n else s

/-- An event occurs in every PSQ. -/
def State.raisePsqs (s : State) (n : Nat) : State := (List.range 8).foldl (fun t k => t.raiseEv k n) s

/-- A software event occurs: in the FSQ, in every PSQ and in the Stoker's register (R36). -/
def State.raiseSw (s : State) (n : Nat) : State :=
  let t := (s.raisePsqs n).raiseFsq n
  (t.setReg PSQ_SWEV (t.reg PSQ_SWEV ||| BitVec.ofNat 32 (2 ^ (n - 24)))).irq (if s.sender then 5 else 11)

/-- Raises the software events that a mask names, SW0 in bit 0. -/
def State.raiseSwMask (s : State) (m : Nat) : State :=
  (List.range 8).foldl (fun t k => if m.testBit k then t.raiseSw (24 + k) else t) s

/-! ### Banks and their safe state -/

/-- Pin p of bank n's SAFE field. -/
def State.pinSafe (s : State) (n p : Nat) : Nat := s.getF (PIN_PCFG0_SAFE (32 * n + p))

/-- A word made of one bit per pin. -/
def pinMask (f : Nat → Bool) : BitVec 32 := BitVec.ofNat 32 ((List.range 32).foldl (fun m p => if f p then m + 2 ^ p else m) 0)

/-- Bank n enters the bank safe state: each pin takes its SAFE level (R222). -/
def State.bankSafe (s : State) (n : Nat) : State :=
  let b := s.bank n
  let t := s.setBank n { b with drv := pinMask fun p => decide (2 ≤ s.pinSafe n p), level := pinMask fun p => s.pinSafe n p == 3,
                                pend := [] }
  (t.setFlag (PSQ_STAT_SAFE n) true).setFlag (PIN_BSTAT_SAFE n) true

/-- A PSQ that faults (with its code) or stops under R207 (0xFF) does so in the open test window too (R250). -/
def State.testFault (s : State) (n code : Nat) : State :=
  { s with test := { s.test with win := s.test.win.map fun w => { w with faults := (n, code) :: w.faults } } }

/-- Stops PSQn with its bank in the safe state. -/
def State.psqHaltSafe (s : State) (n : Nat) : State :=
  let t := s.setSeq n { s.seq n with waiting := none }
  (t.setFlag (PSQ_STAT_RUN n) false).bankSafe n

/-! ### Test state shown (Table 9-6) -/

/-- TS_STAT and TS_RUNID follow the armed run, the window and the run at the sender (Table 9-6). -/
def State.testRegs (s : State) : State :=
  let t := s.setFlag TS_STAT_SLOT_PEND (s.tile && !s.tl.slots.isEmpty)
  let t := t.setFlag TS_STAT_WIN_OPEN (s.tile && s.test.win.isSome)
  let t := t.setFlag TS_STAT_ARMED (s.tile && s.test.armed.isSome)
  let t := (t.setFlag TS_STAT_RUN_ACT (s.sender && s.test.run.isSome)).setF TS_STAT_CAND (if s.tile then s.test.cand.length else 0)
  let x : Bool × Nat × Nat :=
    if s.tile then (match s.test.armed with | some a => (a.full, a.left, leAt a.payload 0 4) | none => (false, 0, 0))
    else (match s.test.run with | some r => (r.full, (if r.full then 0 else leAt r.payload 18 1 - r.slot), r.runid.toNat) | none => (false, 0, 0))
  ((t.setFlag TS_STAT_FULL x.1).setF TS_STAT_SLOTS_LEFT x.2.1).setReg TS_RUNID (BitVec.ofNat 32 x.2.2)

/-- The test runs of the tile end with its claim: the site disarms, unsent results and candidates are dropped (R251, R253, R255). -/
def State.testDisarm (s : State) : State :=
  State.testRegs { s with test := { s.test with armed := none, win := none, held := [], cand := [] } }

/-! ### The composition engines' state and panic (R116, R407) -/

/-- The DDR5 controller and its registers are there (R418). -/
def State.ddrHere (s : State) : Bool := s.sender || s.flag LANE_STAT_DDR_REC

/-- A feeder's panic rises or falls; each rise counts (R407). -/
def State.panicSet (s : State) (b : Nat) (on : Bool) : State :=
  if !s.ddrHere || s.mc.panics.testBit b == on then s
  else if on then
    (State.count { s with mc := { s.mc with panics := s.mc.panics ||| 2 ^ b } } DDR_N_PANICS 1).setFlag DDR_STAT_PANIC true
  else State.setFlag { s with mc := { s.mc with panics := s.mc.panics - 2 ^ b } } DDR_STAT_PANIC (s.mc.panics != 2 ^ b)

/-- COMP_STAT.ENG_BUSY follows the running jobs, and the panic of an engine without a job falls (R407). -/
def State.engRegs (s : State) : State :=
  let on := fun (e : Nat) => s.comp.running.any fun j => j.eng == e
  let t := s.setF COMP_STAT_ENG_BUSY ((List.range 4).foldl (fun n e => if on e then n + 2 ^ e else n) 0)
  (List.range 4).foldl (fun (u : State) e => if on e then u else u.panicSet (4 + e) false) t

end Sys2Proof.Machine
end

