-- ==== Sys2Proof/Machine/Layers.lean ====
section
/-! DEFINITION. Machine/Layers.lean: wall geometry, layers, the damage map, the band cost model and admission (Layers, Bands and
Frame Programs, R98 to R126, R345 to R349). -/

namespace Sys2Proof.Machine

/-! ### Geometry (R98, R99) -/

/-- The geometry entry of port p, position q as a generation holds it: enabled, X, Y, W, H. -/
structure Geo where
  en : Bool
  x : Nat
  y : Nat
  w : Nat
  h : Nat
  deriving DecidableEq, Repr

/-- A word of a sparse register file. -/
def rd (m : SMap Word) (a : Nat) : Nat := (SMap.get regReset m a).toNat

/-- A field of a sparse register file. -/
def rdF (m : SMap Word) (f : Field) : Nat := bitsOf (rd m f.addr) f.hi f.lo

/-- The geometry entry at port p, position q of a set of values in force. -/
def geoOf (live : SMap Word) (p q : Nat) : Geo :=
  let i := 64 * p + q
  { en := rdF live (COMP_GEO_WH_EN i) == 1, x := rdF live (COMP_GEO_XY_X i), y := rdF live (COMP_GEO_XY_Y i),
    w := rdF live (COMP_GEO_WH_W i), h := rdF live (COMP_GEO_WH_H i) }

/-- The bands of a tile of H lines (R11). -/
def bandsOf (h : Nat) : Nat := ceilDiv h 16

/-- The lines of band k (R11, R99). -/
def bandLines (h k : Nat) : Nat := min 16 (h - 16 * k)

/-- Every (port, position) pair, ports inner, so that lists built from it are in cord order (R116). -/
def portPos : List (Nat × Nat) := (List.range 64).flatMap fun q => (List.range 8).map fun p => (p, q)

/-- Every band of every enabled entry: port, position, band. -/
def allBands (live : SMap Word) : List (Nat × Nat × Nat) :=
  portPos.flatMap fun pq =>
    let g := geoOf live pq.1 pq.2
    if g.en then (List.range (bandsOf g.h)).map fun k => (pq.1, pq.2, k) else []

/-- A shadow geometry entry keeps R99, and the wall R98. -/
def geoEntryOk (live : SMap Word) (p q : Nat) : Bool :=
  let g := geoOf live p q
  let ww := rdF live COMP_WALL_WIDTH
  let wh := rdF live COMP_WALL_HEIGHT
  !g.en || (decide (16 ≤ g.w) && decide (g.w ≤ 8192) && decide (1 ≤ g.h) && decide (g.h ≤ 4096) && decide (g.x + g.w ≤ ww) &&
    decide (g.y + g.h ≤ wh))

/-- The wall's size keeps R98. -/
def wallOk (live : SMap Word) : Bool :=
  let ww := rdF live COMP_WALL_WIDTH
  let wh := rdF live COMP_WALL_HEIGHT
  decide (16 ≤ ww) && decide (ww ≤ 32767) && decide (16 ≤ wh) && decide (wh ≤ 32767) && decide (ww * wh ≤ 50331648)

/-! ### Layers (R100 to R102) -/

/-- A descriptor (Table 4-3) with the slot it belongs to. -/
structure Layer where
  slot : Nat
  en : Bool
  tenant : Nat
  blend : Nat
  galpha : Nat
  fmt : Nat
  front : Nat
  stream : Nat
  hcoef : Nat
  vcoef : Nat
  dx : Int
  dy : Int
  dw : Nat
  dh : Nat
  sx : Nat
  sy : Nat
  sw : Nat
  sh : Nat
  baseA : Nat
  baseB : Nat
  stride : Nat
  deriving DecidableEq, Repr

/-- Reads a descriptor's words. -/
def decodeLayer (slot : Nat) (w : Nat → Nat) : Layer :=
  let w0 := w 0
  { slot := slot, en := bitsOf w0 0 0 == 1, tenant := bitsOf w0 4 1, blend := bitsOf w0 6 5, galpha := bitsOf w0 14 7,
    fmt := bitsOf w0 16 15, front := bitsOf w0 17 17, stream := bitsOf w0 21 18, hcoef := bitsOf w0 25 22, vcoef := bitsOf w0 29 26,
    dx := signed 16 (bitsOf (w 1) 15 0), dy := signed 16 (bitsOf (w 1) 31 16), dw := bitsOf (w 2) 15 0, dh := bitsOf (w 2) 31 16,
    sx := bitsOf (w 3) 15 0, sy := bitsOf (w 3) 31 16, sw := bitsOf (w 4) 15 0, sh := bitsOf (w 4) 31 16, baseA := w 5, baseB := w 6,
    stride := bitsOf (w 7) 15 0 }

/-- The descriptor of a slot in a register map. -/
def layerOf (m : SMap Word) (slot : Nat) : Layer := decodeLayer slot fun k => rd m (COMP_DESC slot k)

/-- The enabled layers of a register map, slot ascending. -/
def layersOf (m : SMap Word) : List Layer := ((List.range 64).map fun k => layerOf m k).filter fun l => l.en

/-- The layer is a video layer (Table 4-1). -/
def Layer.video (l : Layer) : Bool := decide (l.slot < 16)

/-- Bytes per pixel of a graphic format (R106). -/
def fmtBytes (fmt : Nat) : Nat := if fmt = 0 then 2 else if fmt = 1 then 3 else 4

/-- The length of the overlap of [a, a + n) and [b, b + m). -/
def overlap (a : Int) (n : Nat) (b : Int) (m : Nat) : Nat := (min (a + n) (b + m) - max a b).toNat

/-- Width and height of the part of a band that a layer covers. -/
def Layer.span (l : Layer) (g : Geo) (k : Nat) : Nat × Nat :=
  (overlap l.dx l.dw g.x g.w, overlap l.dy l.dh ((g.y + 16 * k : Nat) : Int) (bandLines g.h k))

/-- A_{l,b}: the pixels of the band that the layer covers. -/
def Layer.area (l : Layer) (g : Geo) (k : Nat) : Nat := (l.span g k).1 * (l.span g k).2

/-- The layer covers at least one pixel of the band. -/
def Layer.covers (l : Layer) (g : Geo) (k : Nat) : Bool := l.en && l.area g k != 0

/-- The layer covers a wall pixel. -/
def Layer.at (l : Layer) (x y : Int) : Bool :=
  l.en && decide (l.dx ≤ x) && decide (x < l.dx + l.dw) && decide (l.dy ≤ y) && decide (y < l.dy + l.dh)

/-- a_l: the pixels of the destination rectangle inside the wall (R350). -/
def Layer.wallArea (l : Layer) (ww wh : Nat) : Nat := overlap l.dx l.dw 0 ww * overlap l.dy l.dh 0 wh

/-! ### Cost (R119, R120) -/

/-- A non-negative fraction. -/
abbrev Frac := Nat × Nat

/-- Sum of fractions. -/
def Frac.add (a b : Frac) : Frac := (a.1 * b.2 + b.1 * a.2, a.2 * b.2)

/-- A_{l,b} × c_l. -/
def Layer.cyc (l : Layer) (g : Geo) (k : Nat) : Frac :=
  if l.video then (l.area g k * max l.dw l.sw * max l.dh l.sh, max 1 (l.dw * l.dh)) else (l.area g k, 1)

/-- Σ A × c over layers that cover the band. -/
def cycSum (ls : List Layer) (g : Geo) (k : Nat) : Frac :=
  ls.foldl (fun a l => if l.covers g k then Frac.add a (l.cyc g k) else a) (0, 1)

/-- A fraction rounded up. -/
def Frac.ceil (a : Frac) : Nat := ceilDiv a.1 a.2

/-- N_b: the band's pixels. -/
def bandPixels (g : Geo) (k : Nat) : Nat := g.w * bandLines g.h k

/-- E_b (R119). -/
def bandCost (ls : List Layer) (g : Geo) (k : Nat) : Nat := 64 + max (bandPixels g k) (Frac.ceil (cycSum ls g k))

/-- Stored bytes per pixel of a stream, in quarter bytes (R120): from VCFG SAMP and DEPTH. -/
def State.streamP4 (s : State) (i : Nat) : Nat :=
  let d := s.getF (SRC_VCFG_DEPTH i)
  if s.getF (SRC_VCFG_SAMP i) = 0 then (if d = 0 then 8 else if d = 1 then 10 else 12)
  else (if d = 0 then 12 else if d = 1 then 15 else 18)

/-- D_{l,b} (R120). -/
def State.layerDram (s : State) (l : Layer) (g : Geo) (k : Nat) : Nat :=
  let w := (l.span g k).1
  let h := (l.span g k).2
  if w * h = 0 then 0
  else if l.video then
    let rows := if l.sh = l.dh then h else ceilDiv (h * l.sh) l.dh + 5
    let cols := if l.sw = l.dw then w else ceilDiv (w * l.sw) l.dw + 7
    rows * 64 * (ceilDiv (s.streamP4 l.stream * cols) 256 + 1)
  else h * 64 * (ceilDiv (w * fmtBytes l.fmt) 64 + 1)

/-! ### Admission (R121, R122, R349) -/

/-- The bands of the worst-case frame: those that at least one enabled layer covers. -/
def worstBands (live : SMap Word) (ls : List Layer) : List (Nat × Nat × Nat) :=
  (allBands live).filter fun b => ls.any fun l => l.covers (geoOf live b.1 b.2.1) b.2.2

/-- Σ E_b and E_max over the worst-case frame. -/
def costTotals (live : SMap Word) (ls : List Layer) : Nat × Nat :=
  (worstBands live ls).foldl (fun a b => let e := bandCost ls (geoOf live b.1 b.2.1) b.2.2; (a.1 + e, max a.2 e)) (0, 0)

/-- T_admit for n engines. -/
def tAdmit (live : SMap Word) (ls : List Layer) (n : Nat) : Nat :=
  let c := costTotals live ls
  ceilDiv (5 * (c.1 + n * c.2)) (4 * n)

/-- Σ D_b over the worst-case frame, of the layers that p selects. -/
def State.dramTotal (s : State) (live : SMap Word) (ls : List Layer) (p : Layer → Bool) : Nat :=
  (worstBands live ls).foldl (fun a b =>
    (ls.filter p).foldl (fun c l => c + s.layerDram l (geoOf live b.1 b.2.1) b.2.2) a) 0

/-- T_dram. -/
def State.tDram (s : State) (live : SMap Word) (ls : List Layer) : Nat :=
  ceilDiv (s.dramTotal live ls fun _ => true) (s.getF COMP_DRAMBW_BW)

/-- A tenant's Σ A × c over the worst-case frame. -/
def tenantCyc (live : SMap Word) (ls : List Layer) (t : Nat) : Frac :=
  (worstBands live ls).foldl (fun a b =>
    Frac.add a (cycSum (ls.filter fun l => l.tenant == t) (geoOf live b.1 b.2.1) b.2.2)) (0, 1)

/-- A tenant's DRAM use over the worst-case frame. -/
def State.tenantDram (s : State) (live : SMap Word) (ls : List Layer) (t : Nat) : Nat :=
  s.dramTotal live ls fun l => l.tenant == t

/-- Every tenant stays within its budgets. -/
def State.budgetsOk (s : State) (live : SMap Word) (ls : List Layer) : Bool :=
  (List.range 16).all fun t =>
    decide (s.tenantDram live ls t ≤ (s.reg (TEN_DRAMB t)).toNat) &&
      decide (Frac.ceil (tenantCyc live ls t) ≤ (s.reg (TEN_CYCB t)).toNat)

/-- The tests of R121 against a deadline and an engine count; with no program loaded (0) only a frame without bands passes. -/
def State.admitTimes (s : State) (live : SMap Word) (ls : List Layer) (dl eng : Nat) : Bool :=
  if dl = 0 || eng = 0 then (worstBands live ls).isEmpty
  else decide (dl * 64 < rd s.live FSQ_FPER) && decide (tAdmit live ls eng ≤ dl) && decide (s.tDram live ls ≤ dl)

/-- A change that leaves these layers is admitted: against the values in force and, while a program is staged, the staged ones
(R121, R514). -/
def State.admitOk (s : State) (ls : List Layer) : Bool :=
  s.admitTimes s.live ls (s.getF COMP_ADMIT_DL_DL) (s.getF COMP_ADMIT_ENG_ENG) && s.budgetsOk s.live ls &&
    (match s.comp.staged with
     | some (dl, eng, _) => s.admitTimes s.live ls dl eng
     | none => true)

/-- An admitted change sets FSQ_ADMIT and the tenants' use (R121, R349). -/
def State.recordAdmit (s : State) (ls : List Layer) : State :=
  let eng := s.getF COMP_ADMIT_ENG_ENG
  let t := if eng = 0 then s else s.setReg FSQ_ADMIT (BitVec.ofNat 32 (tAdmit s.live ls eng))
  (List.range 16).foldl (fun u i =>
    (u.setReg (TEN_DRAM i) (BitVec.ofNat 32 (s.tenantDram s.live ls i))).setReg (TEN_CYC i)
      (BitVec.ofNat 32 (Frac.ceil (tenantCyc s.live ls i)))) t

/-- The layers as accepted, applied or not. -/
def State.accLayers (s : State) : List Layer := layersOf s.comp.acc

/-! ### Damage map (R113 to R115) -/

/-- The pending damage bit of a band. -/
def State.dmg (s : State) (p q k : Nat) : Bool := (s.reg (COMP_DMG p q (k / 32))).getLsbD (k % 32)

/-- A damage source sets bands' pending bits; the first since the last damage instruction raises EV4 (Table 2-2). -/
def State.damageBands (s : State) (bs : List (Nat × Nat × Nat)) : State :=
  if bs.isEmpty then s
  else
    let t := bs.foldl (fun u b =>
      let a := COMP_DMG b.1 b.2.1 (b.2.2 / 32)
      u.setReg a (u.reg a ||| BitVec.ofNat 32 (2 ^ (b.2.2 % 32)))) s
    if t.comp.dmgSeen then t else State.raiseFsq { t with comp := { t.comp with dmgSeen := true } } 4

/-- The bands that a set of layers covers. -/
def coveredBands (live : SMap Word) (ls : List Layer) : List (Nat × Nat × Nat) :=
  (allBands live).filter fun b => ls.any fun l => l.covers (geoOf live b.1 b.2.1) b.2.2

/-- Every band of a port's enabled entries. -/
def portBands (live : SMap Word) (p : Nat) : List (Nat × Nat × Nat) := (allBands live).filter fun b => b.1 == p

/-- Every band of one position. -/
def posBands (live : SMap Word) (p q : Nat) : List (Nat × Nat × Nat) := (allBands live).filter fun b => b.1 == p && b.2.1 == q

/-! ### Ports and tiles -/

/-- The enabled cord ports, as a mask. -/
def State.enabledPorts (s : State) : Nat :=
  (List.range 8).foldl (fun m p => if s.flag (CORD_PCFG_EN p) then m + 2 ^ p else m) 0

/-- The effective mask of a frame-class instruction (Frame-class instructions). -/
def State.effPorts (s : State) (m : Nat) : Nat := m &&& s.enabledPorts

/-- What the sender knows of the tile at a position. -/
def State.tileAt (s : State) (p q : Nat) : TileInfo := SMap.get (fun _ => TileInfo.none) s.cord.tiles (p * 64 + q)

/-- Enumerated positions of a port. -/
def State.enumPos (s : State) (p : Nat) : List Nat := (List.range 64).filter fun q => (s.tileAt p q).enumerated

/-- The part is the ACTIVE sender (R287). -/
def State.active (s : State) : Bool := s.sender && s.getF CLM_STAT_STATE == 3

end Sys2Proof.Machine
end

