-- ==== Sys2Proof/Machine/Journal.lean ====
section
/-! DEFINITION. Machine/Journal.lean: the ring of the NV journal: where records go and which are live (R387 to R391). What the records
say is held by the parts of the state that they make non-volatile. -/

namespace Sys2Proof.Machine

/-- The 16 bytes of the device serial. -/
def State.serial (s : State) : List Byte := (List.range 4).flatMap fun k => leBytes 4 (s.reg (SYS_SERIAL k)).toNat

/-- Words of the ring and of one page of it (Table 14-4). -/
def ringWords : Nat := 9728
def ringPage : Nat := 256

/-- Words written since the journal was new. -/
def NvjSt.total (j : NvjSt) : Nat := j.passes * ringWords + j.wpos

/-- The write position moves on by n words. -/
def NvjSt.advance (j : NvjSt) (n : Nat) : NvjSt :=
  let w := j.wpos + n
  if ringWords ≤ w then { j with wpos := w - ringWords, passes := j.passes + 1, jseq := j.jseq + 1 }
  else { j with wpos := w, jseq := j.jseq + 1 }

/-- A record of n payload words at the write position, live under its key; the record it replaces is no longer. -/
def NvjSt.place (j : NvjSt) (typ key n : Nat) : NvjSt :=
  let l := j.live.filter fun r => !(r.typ == typ && r.key == key)
  let j' : NvjSt := { j with live := l ++ [{ typ := typ, key := key, len := n, at_ := j.wpos }] }
  j'.advance (n + 1)

/-- A PAD record fills the page where the next record does not fit; the flag says whether one was written. -/
def NvjSt.pad (j : NvjSt) (n : Nat) : NvjSt × Nat :=
  let rest := ringPage - j.wpos % ringPage
  if rest < n + 1 then (j.advance rest, 1) else (j, 0)

/-- Puts a record; entering page k, every live record of page k + 2 is first written again at the head (R390). The numbers are the
records written and those written again. -/
def NvjSt.put : Nat → NvjSt → Nat → Nat → Nat → NvjSt × Nat × Nat
  | 0, j, typ, key, n => (j.place typ key n, 1, 0)
  | fuel + 1, j, typ, key, n =>
    let p := j.pad n
    let k := p.1.wpos / ringPage
    let old := if p.1.wpos % ringPage = 0 then p.1.live.filter (fun r => r.at_ / ringPage == (k + 2) % 38) else []
    let r := old.foldl (fun (a : NvjSt × Nat × Nat) e =>
      let q := NvjSt.put fuel a.1 e.typ e.key e.len
      (q.1, a.2.1 + q.2.1, a.2.2 + 1 + q.2.2)) (p.1, p.2, 0)
    let f := r.1.pad n
    (f.1.place typ key n, r.2.1 + f.2 + 1, r.2.2)

/-- The NVJ registers follow the ring. -/
def State.nvjRegs (s : State) : State :=
  let t := s.setF NVJ_WPTR_WORD s.nvj.wpos
  let t := t.setReg NVJ_JSEQ (BitVec.ofNat 32 s.nvj.jseq)
  let t := t.setReg NVJ_PASSES (BitVec.ofNat 32 s.nvj.passes)
  t.setF NVJ_LIVE_WORDS (s.nvj.live.foldl (fun n r => n + r.len + 1) 0)

/-- Writes a record of a type and key with n payload words. -/
def State.journal (s : State) (typ key n : Nat) : State :=
  let r := NvjSt.put 8 s.nvj typ key (min n 255)
  let t : State := { s with nvj := r.1 }
  ((t.count NVJ_N_RECORDS r.2.1).count NVJ_N_COMPACTED r.2.2).nvjRegs

/-- A record that is not live any more: an ERASE_BEGIN after its ERASE_DONE, and the ERASE_DONE itself. -/
def State.journalDrop (s : State) (typ key : Nat) : State :=
  State.nvjRegs { s with nvj := { s.nvj with live := s.nvj.live.filter fun r => !(r.typ == typ && r.key == key) } }

/-- The CLAIM record: CUR and the holder, TOP (R290). -/
def State.journalClaim (s : State) : State := s.journal 0x05 0 3
/-- The BILLING record: period index, RSEQ and table state. -/
def State.journalBilling (s : State) : State := s.journal 0x06 0 3
/-- The POPCKPT records: four words of a period and four of each count, in parts of at most 255 words. -/
def State.journalCkpt (s : State) (n : Nat) : State :=
  let w := 4 + 4 * n
  (List.range (max 1 (min 4 (ceilDiv w 255)))).foldl (fun t k => t.journal 0x07 k (min 255 (w - 255 * k))) s

end Sys2Proof.Machine
end

