-- ==== Sys2Proof/Machine/Pop.lean ====
section
/-! DEFINITION. Machine/Pop.lean: billing time, billing periods, what a frame counts and the records (Tenants, Budgets and Proof of
Play, R350 to R363). -/

namespace Sys2Proof.Machine

/-! ### Billing time (R356, R357) -/

/-- Billing time in ns; none while BOFF is UNSET. -/
def State.btNs (s : State) : Option Int := s.pop.boff.map fun b => (s.ns : Int) + b

/-- Billing time in ms, 0 while TIME_UNSET (Table 13-4). -/
def State.btMs (s : State) : Nat := match s.btNs with | some b => (b / 1000000).toNat | none => 0

/-- WTB + NTOFF in ms, 0 while NET_VALID is clear (Table 13-4). -/
def State.netMs (s : State) : Nat := if s.netValid then (((s.ns : Int) + s.ntoff) / 1000000).toNat else 0

/-- The first boundary after a billing time in ms (R353). -/
def State.nextBoundary (s : State) (bt : Int) : Int :=
  let len : Int := (s.getF POP_PERIOD_LEN : Int) * 60000
  let al : Int := signed 32 (s.reg POP_ALIGN).toNat * 1000
  al + ((bt - al) / len + 1) * len

/-- The record flags that billing time's status sets (Table 13-2 bits 0, 1, 4, 5). -/
def State.popTimeFlags (s : State) : Nat :=
  (if s.flag POP_STAT_CLOCK_BACK then 1 else 0) + (if s.flag POP_STAT_CLOCK_FWD then 2 else 0) +
    (if s.pop.boff.isNone then 16 else 0) + (if s.pop.boff.isSome && !s.netValid then 32 else 0)

/-! ### Storage (R359, R360) -/

/-- The period indexes that normal records hold. -/
def popPeriods (rs : List PopRec) : List Word := (rs.map fun r => r.pindex).dedup

/-- The storage registers follow the journal. -/
def State.popRegs (s : State) : State :=
  let t := s.setFlag POP_STAT_FULL (!s.pop.nv.agg.isEmpty)
  let t := t.setF POP_STORE_NREC s.pop.nv.recs.length
  let t := t.setF POP_STORE_NPER (popPeriods s.pop.nv.recs).length
  let t := t.setReg POP_PIDX s.pop.nv.idx
  t.setPair POP_RSEQ_LO s.pop.nv.rseq

/-- A minimum and maximum combined. -/
def joinRange (a b : Option (Nat × Nat)) : Option (Nat × Nat) :=
  match a, b with
  | some x, some y => some (min x.1 y.1, max x.2 y.2)
  | some x, none => some x
  | none, y => y

/-- Saturating addition to 2^32 − 1. -/
def satAdd (a b : Nat) : Nat := min (a + b) 0xFFFFFFFF

/-- Bitwise OR of record flags. -/
def orFlags (a b : Nat) : Nat := a ||| b

/-- The record that a count of a final period makes. -/
def popRecOf (p : PopPeriod) (c : PopCount) (rseq : Nat) : PopRec :=
  let f := match p.fcnt with | some x => x | none => (0, 0)
  { rseq := rseq, overflow := false, slot := c.key % 64, tenant := c.key / 64, flags := orFlags p.flags c.flags, pindex := p.idx,
    pindexEnd := p.idx, claim := p.claim, fcntS := f.1, fcntE := f.2, wallS := p.wallS, wallE := p.wallE, netS := p.netS, netE := p.netE,
    composed := c.composed, lit := c.lit, omitfr := c.omitfr, vis := c.vis, lum := c.lum, nfold := 1 }

/-- Folds a record into its tenant's aggregate, which takes a new RSEQ (R360). -/
def foldRec (agg : List PopRec) (r : PopRec) : List PopRec :=
  match agg.find? fun a => a.tenant == r.tenant with
  | none => agg ++ [{ r with overflow := true, slot := 0xFF }]
  | some a =>
    let b := { a with rseq := r.rseq, flags := orFlags a.flags r.flags, pindexEnd := r.pindexEnd, fcntE := r.fcntE, wallE := r.wallE,
                      netE := r.netE, composed := satAdd a.composed r.composed, lit := satAdd a.lit r.lit,
                      omitfr := satAdd a.omitfr r.omitfr, vis := joinRange a.vis r.vis, lum := joinRange a.lum r.lum,
                      nfold := satAdd a.nfold r.nfold, claim := if a.claim.toNat < r.claim.toNat then r.claim else a.claim }
    agg.map fun x => if x.tenant = r.tenant then b else x

/-- The checkpoint without what has become final: a closed period's counts leave the entry that holds them (R361). -/
def ckptDone (cs : List PopPeriod) (p : PopPeriod) : List PopPeriod :=
  let mine := fun (c : PopCount) => p.counts.any fun x => x.key == c.key
  match cs.findIdx? fun q => q.idx == p.idx && q.counts.any mine with
  | some i => (cs.modify i fun q => { q with counts := q.counts.filter fun c => !mine c }).filter fun q => !q.counts.isEmpty
  | none => cs

/-- A period becomes final: one record for each of its counts, or all folded where a table is full (R354, R359, R360). -/
def State.popFinal (s : State) (p : PopPeriod) : State :=
  let n := p.counts.length
  let rs := (List.range n).zipWith (fun i c => popRecOf p c (s.pop.nv.rseq + 1 + i)) p.counts
  let recs := s.pop.nv.recs
  let full := decide (4096 < recs.length + n) || decide (1024 ≤ (popPeriods recs).length && !(popPeriods recs).contains p.idx)
  let ckpt := ckptDone s.pop.nv.ckpt p
  let nv := if full then { s.pop.nv with agg := rs.foldl foldRec s.pop.nv.agg, rseq := s.pop.nv.rseq + n, ckpt := ckpt }
            else { s.pop.nv with recs := recs ++ rs, rseq := s.pop.nv.rseq + n, ckpt := ckpt }
  let t := State.popRegs { s with pop := { s.pop with nv := nv } }
  let t := t.journalBilling
  if full then t.count POP_N_FOLDS n else t.count POP_N_RECORDS n

/-! ### Periods (R354, R355, R362) -/

/-- A frame of the period is not evaluated yet. -/
def popOpenFrames (fs : List FrameRec) (p : PopPeriod) : Bool :=
  match p.fcnt with
  | some x => fs.any fun f => !f.popDone && decide (x.1 ≤ f.fcnt) && decide (f.fcnt ≤ x.2)
  | none => false

/-- Makes final each closed period whose last frame has been evaluated. -/
def State.popSettle (s : State) : State :=
  let done := s.pop.closing.filter fun p => !popOpenFrames s.comp.frames p
  let rest := s.pop.closing.filter fun p => popOpenFrames s.comp.frames p
  done.foldl (fun t p => t.popFinal p) { s with pop := { s.pop with closing := rest } }

/-- The open period closes at this instant, with flags added. -/
def State.popClose (s : State) (flags : Nat) : State :=
  match s.pop.cur with
  | none => s
  | some p =>
    let q := { p with wallE := s.btMs, netE := s.netMs, flags := orFlags (orFlags p.flags s.popTimeFlags) flags }
    State.popSettle { s with pop := { s.pop with cur := none, closing := s.pop.closing ++ [q] } }

/-- A period opens at this instant: the index rises, or after a takeover the index taken serves, with CLAIM_START (R355, R362). -/
def State.popOpen (s : State) (flags : Nat) : State :=
  let idx := if s.pop.claimStart then s.pop.nv.idx else s.pop.nv.idx + 1
  let fl := orFlags (orFlags flags s.popTimeFlags) (if s.pop.claimStart then 128 else 0)
  let p : PopPeriod := { idx := idx, claim := s.claim, fcnt := none, wallS := s.btMs, wallE := s.btMs, netS := s.netMs, netE := s.netMs,
                         flags := fl, counts := [] }
  (State.popRegs { s with pop := { s.pop with cur := some p, claimStart := false, nv := { s.pop.nv with idx := idx },
                                              nextB := s.btNs.map fun b => s.nextBoundary (b / 1000000) } }).journalBilling

/-- A mark left: the period closes at a boundary, one opens where none is open, and the frame belongs to it (R354). -/
def State.popMark (s : State) (fcnt : Nat) : State :=
  let past := match s.btNs, s.pop.nextB with | some b, some n => decide (n ≤ b / 1000000) | _, _ => false
  let t := if past then s.popClose 0 else s
  let t := if t.pop.cur.isNone then t.popOpen 0 else t
  match t.pop.cur with
  | none => t
  | some p =>
    let f := match p.fcnt with | some x => (x.1, fcnt) | none => (fcnt, fcnt)
    { t with pop := { t.pop with cur := some { p with fcnt := some f, flags := orFlags p.flags t.popTimeFlags } } }

/-- The records of a tenant, or of one slot of it, close with TENANT_END (R346, Table 13-2). -/
def State.popTenantEnd (s : State) (sel : Nat → Bool) : State :=
  match s.pop.cur with
  | none => s
  | some p =>
    let out := (p.counts.filter fun c => sel c.key).map fun c => { c with flags := orFlags c.flags 0x8000 }
    if out.isEmpty then s else
    let q := { p with wallE := s.btMs, netE := s.netMs, flags := orFlags p.flags s.popTimeFlags, counts := out }
    State.popSettle { s with pop := { s.pop with cur := some { p with counts := p.counts.filter fun c => !sel c.key },
                                                 closing := s.pop.closing ++ [q] } }

/-! ### Evaluation (R351, R352) -/

/-- A band's key in the INTENDED and SHOWN maps. -/
def bandKey (p q k : Nat) : Nat := (p * 64 + q) * 256 + k

/-- A layer's pixels in a list of (slot, pixels). -/
def slotPx (vs : List (Nat × Nat)) (slot : Nat) : Nat := vs.foldl (fun n v => if v.1 = slot then n + v.2 else n) 0

/-- A layer's pixels over the bands that a test selects by port and position. -/
def sumPx (m : SMap (List (Nat × Nat))) (slot : Nat) (sel : Nat → Nat → Bool) : Nat :=
  m.foldl (fun n e => if sel (e.1 / 256 / 64) (e.1 / 256 % 64) then n + slotPx e.2 slot else n) 0

/-- What one frame adds to a layer's count. -/
def PopCount.frame (c : PopCount) (comp lit omit_ : Bool) (vis : Nat) (lum : List Nat) (flags : Nat) : PopCount :=
  let sat := (comp && c.composed == 0xFFFFFFFF) || (lit && c.lit == 0xFFFFFFFF) || (omit_ && c.omitfr == 0xFFFFFFFF)
  { c with composed := if comp then satAdd c.composed 1 else c.composed, lit := if lit then satAdd c.lit 1 else c.lit,
           omitfr := if omit_ then satAdd c.omitfr 1 else c.omitfr, vis := joinRange c.vis (some (vis, vis)),
           lum := lum.foldl (fun r x => joinRange r (some (x, x))) c.lum,
           flags := orFlags (orFlags c.flags flags) (orFlags (if omit_ then 512 else 0) (if sat then 0x4000 else 0)) }

/-- Updates a count of a period, made anew where it is not listed. -/
def PopPeriod.upd (p : PopPeriod) (key : Nat) (f : PopCount → PopCount) : PopPeriod :=
  if p.counts.any fun c => c.key == key then { p with counts := p.counts.map fun c => if c.key = key then f c else c }
  else { p with counts := p.counts ++ [f { key := key, composed := 0, lit := 0, omitfr := 0, vis := none, lum := none, flags := 0 }] }

/-- The period's frames include this one. -/
def PopPeriod.holds (p : PopPeriod) (fcnt : Nat) : Bool :=
  match p.fcnt with | some x => decide (x.1 ≤ fcnt) && decide (fcnt ≤ x.2) | none => false

/-- Updates the count in the period that the frame belongs to: one that lists the key already, else the latest. -/
def popUpd (cs : List PopPeriod) (cur : Option PopPeriod) (fcnt key : Nat) (f : PopCount → PopCount) :
    List PopPeriod × Option PopPeriod :=
  match cs.findIdx? fun p => p.holds fcnt && p.counts.any fun c => c.key == key with
  | some i => (cs.modify i fun p => p.upd key f, cur)
  | none =>
    match cur with
    | some p => if p.holds fcnt then (cs, some (p.upd key f))
                else match cs.findIdx? fun p => p.holds fcnt with
                  | some i => (cs.modify i fun p => p.upd key f, cur)
                  | none => (cs, cur)
    | none => match cs.findIdx? fun p => p.holds fcnt with
      | some i => (cs.modify i fun p => p.upd key f, cur)
      | none => (cs, cur)

/-- Evaluates a frame for one layer that is enabled in it. -/
def State.popLayer (s : State) (f : FrameRec) (g : CompGen) (l : Layer) : State :=
  let conf := f.acks.filter fun a => a.2.2.litmask != 0
  let isConf := fun p q => conf.any fun a => a.1 == p && a.2.1 == q
  let inten := sumPx s.pop.intended l.slot fun _ _ => true
  let shown := sumPx s.pop.shown l.slot isConf
  let al := l.wallArea (rdF g.live COMP_WALL_WIDTH) (rdF g.live COMP_WALL_HEIGHT)
  let vis := if al = 0 then s.free l.slot 14 else shown * 10000 / al
  let omit_ := f.vis.any fun b => b.omitted.contains l.slot
  let lums := (conf.filter fun a => sumPx s.pop.shown l.slot (fun p q => p == a.1 && q == a.2.1) != 0).map fun a =>
    (roundDiv (a.2.2.bright * a.2.2.ceil : Nat) 1000).toNat
  let covers := fun p q => (List.range (bandsOf (geoOf g.live p q).h)).any fun k => l.covers (geoOf g.live p q) k
  let fl := (if f.acks.any fun a => a.2.2.result == 3 && covers a.1 a.2.1 then 1024 else 0) +
    (if conf.any fun a => a.2.2.flags.testBit 1 then 2048 else 0) + (if conf.any fun a => a.2.2.flags.testBit 0 then 4096 else 0) +
    (if conf.any fun a => a.2.2.flags.testBit 2 then 8192 else 0)
  let lit := decide (0 < shown)
  let u := popUpd s.pop.closing s.pop.cur f.fcnt (l.tenant * 64 + l.slot) fun c =>
    c.frame (decide (0 < inten)) lit omit_ vis (if lit then lums else []) fl
  { s with pop := { s.pop with closing := u.1, cur := u.2 } }

/-- The generation a frame was marked with. -/
def State.genOf (s : State) (n : Nat) : CompGen :=
  match s.comp.gens.find? fun e => e.1 == n with
  | some e => e.2
  | none => { regs := s.regs, live := s.live }

/-- Marks a frame's record in the list of frames. -/
def State.updFrame (s : State) (fcnt : Nat) (f : FrameRec → FrameRec) : State :=
  { s with comp := { s.comp with frames := s.comp.frames.map fun x => if x.fcnt = fcnt then f x else x } }

/-- Frame n's evaluation instant: each layer enabled in it counts, and closed periods whose last frame this was become final. -/
def State.popEval (s : State) (fcnt : Nat) : State :=
  match s.comp.frames.find? fun f => f.fcnt == fcnt && !f.popDone with
  | none => s
  | some f =>
    let g := s.genOf f.gen
    let t := (layersOf g.regs).foldl (fun u l => u.popLayer f g l) s
    (t.freed.updFrame fcnt fun x => { x with popDone := true }).popSettle

/-- A tile's ACK says FLIPPED: SHOWN takes V of the jobs of that frame (R351). -/
def State.popFlipped (s : State) (f : FrameRec) (p q : Nat) : State :=
  let m := f.vis.foldl (fun m b => if b.port = p ∧ b.pos = q then SMap.set (fun _ => []) m (bandKey p q b.band) b.vis else m) s.pop.shown
  { s with pop := { s.pop with shown := m } }

/-! ### Checkpoints (R361) -/

/-- The counts that SRAM holds go to the journal. -/
def State.popCheckpoint (s : State) : State :=
  let cs := s.pop.closing ++ (match s.pop.cur with
    | some p => [{ p with wallE := s.btMs, netE := s.netMs, flags := orFlags p.flags s.popTimeFlags }]
    | none => [])
  State.journalCkpt { s with pop := { s.pop with nv := { s.pop.nv with ckpt := cs } } }
    (cs.foldl (fun n p => n + p.counts.length) 0)

/-- After a reset a checkpointed period closes at its checkpoint values with RESTART and becomes final. -/
def State.popRestart (s : State) : State :=
  s.pop.nv.ckpt.foldl (fun t p => t.popFinal { p with flags := orFlags p.flags 64 }) s |>.popRegs

/-! ### Record bytes (Table 13-4) -/

/-- Bytes 0 to 127 of a record. The minima and maxima of a count that has none are values the manual leaves open. -/
def State.popBody (s : State) (r : PopRec) : List Byte :=
  let v := match r.vis with | some x => x | none => (s.free 0 16, s.free 1 16)
  let u := match r.lum with | some x => x | none => (s.free 2 16, s.free 3 16)
  leBytes 4 0x52504F50 ++ leBytes 2 1 ++ leBytes 1 (if r.overflow then 1 else 0) ++ leBytes 1 r.slot ++ leBytes 1 r.tenant ++ leBytes 1 0 ++
    leBytes 2 r.flags ++ leBytes 4 r.pindex.toNat ++ leBytes 4 r.pindexEnd.toNat ++ leBytes 4 0 ++ leBytes 8 r.rseq ++ s.serial ++
    leBytes 8 r.claim.toNat ++ leBytes 8 r.fcntS ++ leBytes 8 r.fcntE ++ leBytes 8 r.wallS ++ leBytes 8 r.wallE ++ leBytes 8 r.netS ++
    leBytes 8 r.netE ++ leBytes 4 r.composed ++ leBytes 4 r.lit ++ leBytes 4 r.omitfr ++ leBytes 2 v.1 ++ leBytes 2 v.2 ++
    leBytes 2 u.1 ++ leBytes 2 u.2 ++ leBytes 4 r.nfold

/-! ### Billing time's clock (R356 to R358) -/

/-- NET_VALID has come for the first time since reset: BOFF takes NTOFF, and the period without a time closes (R354, R356). -/
def State.popTimeSet (s : State) : State :=
  if s.pop.boff.isNone then
    let t := s.popClose 0
    State.setFlag { t with pop := { t.pop with boff := some t.ntoff } } POP_STAT_TIME_SET true
  else s

/-- The compare of each ms of the WTB (R357). -/
def State.popBoff (s : State) : State :=
  match s.pop.boff with
  | none => s
  | some b =>
    let d := s.ntoff - b
    let lim : Int := (s.getF POP_CLK_LIM : Int) * 1000000
    let t := s.setFlag POP_STAT_NET_LOST (!s.netValid)
    let back := s.netValid && decide (d < -lim)
    let fwd := s.netValid && decide (lim < d)
    let slew := s.netValid && !back && !fwd && decide (1000000 < d.natAbs)
    let t := ((t.setFlag POP_STAT_CLOCK_BACK back).setFlag POP_STAT_CLOCK_FWD fwd).setFlag POP_STAT_SLEWING slew
    if slew then
      let k : Int := s.getF POP_CLK_SLEW
      { t with pop := { t.pop with boff := some (if 0 < d then b + k else b - k) } }
    else t

/-- An accepted authorised step: the period closes, BOFF takes NTOFF, and the next period opens at the new time (R358). -/
def State.popStep (s : State) (b : Int) : State :=
  let fl := if s.ntoff < b then 4 else if b < s.ntoff then 8 else 0
  let t := s.popClose fl
  let t := { t with pop := { t.pop with boff := some t.ntoff } }
  (t.popOpen fl).count POP_N_STEPS 1

end Sys2Proof.Machine
end

