-- ==== Sys2Proof/Machine/Flags.lean ====
section
/-! DEFINITION. Machine/Flags.lean: the flag computations of the Gheol scalar instructions (R49). -/

namespace Sys2Proof.Machine

/-- Z: the 32-bit result is 0. -/
def flagZ (r : Word) : Bool := r == 0

/-- N: bit 31 of the result. -/
def flagN (r : Word) : Bool := r.getLsbD 31

/-- C of addi and add: the carry out of bit 31. -/
def carryAdd (a b : Word) : Bool := decide (2 ^ 32 ≤ a.toNat + b.toNat)

/-- C of sub and cmp: the first operand is lower than the second as unsigned numbers. -/
def borrowSub (a b : Word) : Bool := decide (a.toNat < b.toNat)

/-- C of shl: the last bit shifted out, 0 for a shift by 0. -/
def carryShl (a : Word) (n : Nat) : Bool := if n = 0 then false else a.getLsbD (32 - n)

/-- C of shr: the last bit shifted out, 0 for a shift by 0. -/
def carryShr (a : Word) (n : Nat) : Bool := if n = 0 then false else a.getLsbD (n - 1)

/-- A sequencer with Z and N taken from a result and C given. -/
def Seq.setFlags (q : Seq) (r : Word) (c : Bool) : Seq := { q with z := flagZ r, n := flagN r, c := c }

end Sys2Proof.Machine
end

