-- ==== Sys2Proof/Machine/Operands.lean ====
section
/-! DEFINITION. Machine/Operands.lean: the fields of a Gheol instruction word and its operand forms (R37, R38, Tables 2-4 to 2-8),
and which bits a format leaves reserved. -/

namespace Sys2Proof.Machine

/-- Bits hi to lo of an instruction word. -/
def fld (w : BitVec 64) (hi lo : Nat) : Nat := bitsOf w.toNat hi lo

/-- The opcode, bits 63 to 58. -/
def wOp (w : BitVec 64) : Nat := fld w 63 58
/-- D, the destination register. -/
def wD (w : BitVec 64) : Nat := fld w 57 54
/-- A, the source register. -/
def wA (w : BitVec 64) : Nat := fld w 53 50
/-- S: the operand comes from GA. -/
def wS (w : BitVec 64) : Bool := w.getLsbD 49
/-- B, the second source register of the scalar format. -/
def wB (w : BitVec 64) : Nat := fld w 49 46
/-- I: src is IMM. -/
def wI (w : BitVec 64) : Bool := w.getLsbD 45
/-- IMM of the scalar format. -/
def wImm (w : BitVec 64) : Word := BitVec.ofNat 32 (fld w 31 0)
/-- TARGET of a jump. -/
def wTarget (w : BitVec 64) : Nat := fld w 15 0
/-- LC of loop and endl. -/
def wLC (w : BitVec 64) : Nat := fld w 57 56
/-- EV of wait and sig. -/
def wEV (w : BitVec 64) : Nat := fld w 36 32
/-- The low 24 bits: COUNT, TIMEOUT, DEADLINE, OFFSET, START, REP, VALUE, UNITS. -/
def w24 (w : BitVec 64) : Nat := fld w 23 0
/-- PORTS of the frame class. -/
def wPorts (w : BitVec 64) : Nat := fld w 39 32
/-- M of band. -/
def wM (w : BitVec 64) : Bool := w.getLsbD 44
/-- ENG of band. -/
def wEng (w : BitVec 64) : Nat := fld w 43 40
/-- LEN of testslot. -/
def wLen (w : BitVec 64) : Nat := fld w 47 40
/-- ZSEL of zlist. -/
def wZsel (w : BitVec 64) : Nat := fld w 8 0
/-- TS and SET of the pin class. -/
def wTS (w : BitVec 64) : Nat := fld w 57 54
/-- LIT of the vector instructions. -/
def wLit (w : BitVec 64) : Nat := fld w 47 36
/-- EDGE of tset. -/
def wEdge (w : BitVec 64) : Nat := fld w 47 46
/-- MODE of capt and trig. -/
def wMode (w : BitVec 64) : Nat := fld w 33 32

/-- A general register; G0 reads 0 (R30). -/
def Seq.reg (q : Seq) (r : Nat) : Word := if r = 0 then 0 else SMap.get (fun _ => 0) q.g r

/-- A general register written; a write to G0 is discarded (R31). -/
def Seq.setReg (q : Seq) (r : Nat) (v : Word) : Seq :=
  if r = 0 then q else { q with g := SMap.set (fun _ => 0) q.g r v }

/-- src of a scalar instruction: GB, or IMM when I is 1 (R48). -/
def srcOf (q : Seq) (w : BitVec 64) : Word := if wI w then wImm w else q.reg (wB w)

/-- The 24-bit operand that S selects: the field, or GA[23:0] (R38). -/
def op24 (q : Seq) (w : BitVec 64) : Nat := if wS w then (q.reg (wA w)).toNat % 2 ^ 24 else w24 w

/-- The data memory address of ld and st, GA + IMM modulo 2^32 (R50). -/
def memAddr (q : Seq) (w : BitVec 64) : Nat := (q.reg (wA w) + wImm w).toNat

/-- A loop counter. -/
def Seq.lcv (q : Seq) (k : Nat) : BitVec 24 := SMap.get (fun _ => 0) q.lc k

/-- A loop counter written. -/
def Seq.setLc (q : Seq) (k : Nat) (v : BitVec 24) : Seq := { q with lc := SMap.set (fun _ => 0) q.lc k v }

/-! ### Opcodes (Table 2-3) -/

/-- The opcode is listed in Table 2-3. -/
def opDefined (op : Nat) : Bool :=
  decide (op ≤ 0x0A) || (decide (0x10 ≤ op) && decide (op ≤ 0x1B)) || (decide (0x20 ≤ op) && decide (op ≤ 0x26)) ||
    (decide (0x30 ≤ op) && decide (op ≤ 0x38))

/-- The opcode belongs to the other profile's class (R29): frame class in a PSQ, pin class in the FSQ. -/
def opForeign (q : SeqId) (op : Nat) : Bool :=
  match q with
  | .fsq => decide (0x30 ≤ op)
  | .psq _ => decide (0x20 ≤ op) && decide (op ≤ 0x26)

/-- The bits below the opcode that an instruction's format uses (Tables 2-4, 2-5, 2-6 and 2-8, with R38 and R48). -/
def usedBits (w : BitVec 64) : Nat :=
  let m := maskOf
  let srcM := if wI w then m 45 45 + m 31 0 else m 49 46
  let sh := if wI w then m 45 45 + m 4 0 else m 49 46
  let sForm (f : Nat) := m 49 49 + (if wS w then m 53 50 else f)
  match wOp w with
  | 0x01 | 0x02 | 0x03 | 0x04 => m 15 0
  | 0x06 => m 57 56 + m 47 32 + sForm (m 23 0)
  | 0x07 => m 57 56 + m 15 0
  | 0x08 => m 40 40 + m 36 32 + m 23 0
  | 0x09 => m 36 32
  | 0x10 => m 57 54 + srcM
  | 0x11 => m 57 54 + m 53 50 + m 31 0
  | 0x12 | 0x13 => m 57 54 + m 53 50 + m 49 46
  | 0x14 | 0x15 | 0x16 => m 57 54 + m 53 50 + srcM
  | 0x17 | 0x18 => m 57 54 + m 53 50 + sh
  | 0x19 => m 53 50 + srcM
  | 0x1A => m 57 54 + m 53 50 + m 31 0
  | 0x1B => m 53 50 + m 49 46 + m 31 0
  | 0x20 => m 39 32
  | 0x21 => m 57 54 + m 39 32
  | 0x22 => m 57 54 + m 53 50 + m 44 44 + m 43 40 + (if wM w then 0 else m 39 32)
  | 0x23 => m 39 32 + m 8 0
  | 0x24 => m 57 54 + m 23 0
  | 0x25 => m 39 32 + sForm (m 23 0)
  | 0x26 => m 47 40 + m 39 32 + m 23 0
  | 0x30 | 0x31 | 0x32 => m 57 54 + m 47 36 + sForm (m 23 0)
  | 0x33 => m 57 54 + m 47 46 + sForm (m 23 0)
  | 0x34 => sForm (m 23 0)
  | 0x35 => sForm (m 11 0)
  | 0x36 => m 33 32 + m 13 0
  | 0x37 => m 33 32 + m 3 0
  | 0x38 => sForm (m 7 0)
  | _ => 0

/-- A reserved bit of the instruction's format is nonzero (R38). -/
def rsvdSet (w : BitVec 64) : Bool := w.toNat % 2 ^ 58 &&& usedBits w != w.toNat % 2 ^ 58

/-- An operand lies outside the range of Tables 2-6, 2-8 or R58 (R53, R58, R60). -/
def valueBad (w : BitVec 64) : Bool :=
  match wOp w with
  | 0x22 => wEng w == 0
  | 0x23 => decide (256 < wZsel w)
  | 0x24 => w24 w == 0
  | 0x26 => wLen w == 0
  | 0x30 | 0x31 | 0x32 => !wS w && w24 w == 0
  | 0x33 => wEdge w == 3
  | 0x36 | 0x37 => wMode w == 3
  | _ => false

end Sys2Proof.Machine
end

