-- ==== Sys2Proof/Machine/Sequencer.lean ====
section
/-! DEFINITION. Machine/Sequencer.lean: how a sequencer starts, faults, switches its image and moves from one instruction to the
next (The Gheol Instruction Set, R29 to R46, R68 to R76), and the control and scalar instructions. -/

namespace Sys2Proof.Machine

/-! ### Where a sequencer's registers lie -/

/-- The sequencer's STAT register's RUN field. -/
def runF (k : Nat) : Field := if k = 8 then FSQ_STAT_RUN else PSQ_STAT_RUN k
/-- The HALTED field. -/
def haltedF (k : Nat) : Field := if k = 8 then FSQ_STAT_HALTED else PSQ_STAT_HALTED k
/-- The FAULTED field. -/
def faultedF (k : Nat) : Field := if k = 8 then FSQ_STAT_FAULTED else PSQ_STAT_FAULTED k
/-- The SWITCH_PEND field. -/
def switchF (k : Nat) : Field := if k = 8 then FSQ_STAT_SWITCH_PEND else PSQ_STAT_SWITCH_PEND k
/-- The fault register. -/
def faultA (k : Nat) : Nat := if k = 8 then FSQ_FAULT else PSQ_FAULT k

/-- The number of instructions that program memory holds (R72). -/
def progSize (k : Nat) : Nat := if k = 8 then 32768 else 16384

/-- What program memory holds beyond an image (R72). -/
def progFill : Nat → BitVec 64 := fun _ => 0xFC00000000000000
/-- What literal memory holds beyond an image: X symbols (R72). -/
def litFill : Nat → BitVec 128 := fun _ => 0x77777777777777777777777777777777
/-- What chain-map memory holds beyond an image (R72). -/
def cmapFill : Nat → BitVec 64 := fun _ => 0
/-- What data memory holds beyond an image (R32). -/
def dmemFill : Nat → Word := fun _ => 0

/-! ### Data memory (R50, R51) -/

/-- A data memory word by byte address. -/
def State.dmem (s : State) (k a : Nat) : Word := SMap.get dmemFill (s.seq k).dmem (a / 4)

/-- s with a data memory word written. -/
def State.setDmem (s : State) (k a : Nat) (v : Word) : State :=
  s.setSeq k { s.seq k with dmem := SMap.set dmemFill (s.seq k).dmem (a / 4) v }

/-! ### Images (R72 to R77) -/

/-- The bytes of an image header (Table 2-12). -/
def headerBytes (h : ImageHeader) : List Byte :=
  leBytes 4 h.magic ++ leBytes 2 h.version ++ leBytes 1 h.profile ++ leBytes 1 h.bank ++ leBytes 2 h.entry ++ leBytes 2 h.resA ++
    leBytes 4 h.ninstr ++ leBytes 4 h.nlit ++ leBytes 4 h.cmap ++ leBytes 4 h.dmem ++ leBytes 4 h.resB

/-- The bytes of an image, as stored (R73). -/
def imageBytes (i : SeqImage) : List Byte :=
  headerBytes i.hdr ++ i.instrs.flatMap (fun w => leBytes 8 w.toNat) ++ i.lits.flatMap (fun w => leBytes 16 w.toNat) ++
    i.cmap.flatMap (fun w => leBytes 8 w.toNat) ++ i.dmem.flatMap (fun w => leBytes 4 w.toNat)

/-- Hearth's measurement of a sequencer's image: SHA-384 over header and sections, as loaded (R77). -/
def State.measure (s : State) (k : Nat) : List Byte :=
  match (s.seq k).image with
  | some i => Config.sha384 (imageBytes i)
  | none => []

/-- n little-endian words of sz bytes from a byte list. -/
def wordsAt (w sz : Nat) : Nat → List Byte → List (BitVec w)
  | 0, _ => []
  | n + 1, bs => BitVec.ofNat w (leNat (bs.take sz)) :: wordsAt w sz n (bs.drop sz)

/-- The header at the start of an image. -/
def parseHeader (bs : List Byte) : ImageHeader :=
  { magic := leAt bs 0 4, version := leAt bs 4 2, profile := leAt bs 6 1, bank := leAt bs 7 1, entry := leAt bs 8 2, resA := leAt bs 10 2,
    ninstr := leAt bs 12 4, nlit := leAt bs 16 4, cmap := leAt bs 20 4, dmem := leAt bs 24 4, resB := leAt bs 28 4 }

/-- The header keeps Table 2-12 and the container's length is the image's (R74). -/
def headerOk (h : ImageHeader) (len : Nat) : Bool :=
  h.magic == 0x4C4F4847 && h.version == 1 && decide (h.profile ≤ 1) && h.resA == 0 && h.resB == 0 && decide (h.entry < h.ninstr) &&
    decide (1 ≤ h.ninstr) && h.dmem % 4 == 0 && decide (h.dmem ≤ 4096) &&
    (if h.profile = 0 then h.bank == 0 && decide (h.ninstr ≤ 32768) && h.nlit == 0 && h.cmap == 0
     else decide (h.bank ≤ 7) && decide (h.ninstr ≤ 16384) && decide (h.nlit ≤ 4096) && h.cmap % 8 == 0 && decide (h.cmap ≤ 32768)) &&
    len == 32 + 8 * h.ninstr + 16 * h.nlit + h.cmap + h.dmem

/-- Reads an image from its container's bytes, or refuses it (R73, R74). -/
def parseImage (bs : List Byte) : Option SeqImage :=
  let h := parseHeader bs
  if decide (32 ≤ bs.length) && headerOk h bs.length then
    let b1 := bs.drop 32
    let b2 := b1.drop (8 * h.ninstr)
    let b3 := b2.drop (16 * h.nlit)
    let b4 := b3.drop h.cmap
    some { hdr := h, instrs := wordsAt 64 8 h.ninstr b1, lits := wordsAt 128 16 h.nlit b2, cmap := wordsAt 64 8 (h.cmap / 8) b3,
           dmem := wordsAt 32 4 (h.dmem / 4) b4 }
  else none

/-- Writes an image into a stopped sequencer's memories (R72, R75). -/
def State.loadImage (s : State) (k : Nat) (i : SeqImage) : State :=
  let q := s.seq k
  let t := s.setSeq k { q with image := some i, prog := SMap.setList progFill [] 0 i.instrs, lits := SMap.setList litFill [] 0 i.lits,
                               cmap := SMap.setList cmapFill [] 0 i.cmap, dmem := SMap.setList dmemFill [] 0 i.dmem }
  if k = 8 then { t with clm := { t.clm with dmemWords := [] } } else t.setFlag (PSQ_STAT_NOPROG k) false

/-- Leaves a bank with no program and in the safe state (R74). -/
def State.unloadImage (s : State) (n : Nat) : State :=
  let t := s.setSeq n { s.seq n with image := none, prog := [], lits := [], cmap := [], dmem := [] }
  (((t.setFlag (PSQ_STAT_NOPROG n) true).setFlag (PSQ_STAT_HALTED n) false).setFlag (PSQ_STAT_FAULTED n) false).psqHaltSafe n

/-! ### Start (R32, R198, R202, R210, R218) -/

/-- The generator of bank n at the first step of element 0, with the seed loaded (R218); a seed of 0 is taken as 1. -/
def State.genRestart (s : State) (n : Nat) : State :=
  let seed := s.getF (GEN_SEED_SEED n)
  let a0 := s.getF (GEN_ASTART_A n)
  let a1 := if s.getF (GEN_AEND_A n) < a0 then a0 else s.getF (GEN_AEND_A n)
  let t := s.setBank n { s.bank n with prbs := BitVec.ofNat 31 (if seed = 0 then 1 else seed), op := 0 }
  t.setReg (GEN_STAT n) (BitVec.ofNat 32 (if t.flag (GEN_ELEM_DIR n 0) then a1 else a0))

/-- The registers and bank of a PSQ at program start: timing sets, period, vector count, map, capture, generator, last levels. -/
def State.pinStart (s : State) (n : Nat) : State :=
  let b := s.bank n
  let t := s.setBank n { b with pend := [], nonvec := 0, fresh := true, streams := [], capOn := false,
                                level := pinMask fun p => s.pinSafe n p == 3, vsel := s.getF (PIN_BCFG_VSEL n) }
  let t := (List.range 16).foldl (fun u j =>
    ((u.setReg (PSQ_TDRIVE n j) 0).setReg (PSQ_TRETURN n j) 512).setReg (PSQ_TSTROBE n j) 768) t
  let t := (t.setReg (PSQ_PERIOD n) 0x400).setFlag (PSQ_POS_MAPSEL n) false
  let t := (t.setReg (PSQ_VCNT_LO n) 0).setReg (PSQ_VCNT_HI n) 0
  let t := t.setFlag (PSQ_STAT_CAPT_ARMED n) false
  let t := if t.getF (GEN_AEND_A n) < t.getF (GEN_ASTART_A n) then t.setFlag (PSQ_STAT_GEN_ERR n) true else t
  t.genRestart n

/-- Program start: first start, restart or start after a switch (R32, R117). -/
def State.progStart (s : State) (k : Nat) : State :=
  let q := s.seq k
  let e := match q.image with | some i => i.hdr.entry | none => 0
  let d := match q.image with | some i => i.dmem | none => []
  let t := s.setSeq k { q with g := [], lc := [], z := false, n := false, c := false, stack := [], ev := 0, waiting := none,
                               dmem := SMap.setList dmemFill [] 0 d, pc := BitVec.ofNat 16 e }
  let t := ((t.setFlag (runF k) true).setFlag (haltedF k) false).setFlag (faultedF k) false
  if k = 8 then
    let t := t.setReg FSQ_DL (t.reg COMP_ADMIT_DL)
    { t with comp := { t.comp with started := false }, clm := { t.clm with dmemWords := [] } }
  else (t.setFlag (PSQ_STAT_VSTOP k) false).pinStart k

/-! ### Faults (R68 to R71) -/

/-- A sequencer stops at a fault: code, PC and word recorded, the Stoker and the owner told; a PSQ's bank goes safe, and a tile
reports it in its next ACK. -/
def State.seqFault (s : State) (k code : Nat) (w : BitVec 64) : State :=
  let q := s.seq k
  let t := ((s.setFlag (runF k) false).setFlag (haltedF k) false).setFlag (faultedF k) true
  let t := t.setReg (faultA k) (BitVec.ofNat 32 (code + q.pc.toNat * 65536))
  let t := (t.setReg (faultA k + 4) (w.extractLsb' 0 32)).setReg (faultA k + 8) (w.extractLsb' 32 32)
  let t := t.irq (if k = 8 then 5 else 11)
  let t := t.traceSeq k 5 (BitVec.ofNat 32 code)
  let t := t.event 0x0003 ([BitVec.ofNat 8 k, BitVec.ofNat 8 code] ++ leBytes 2 q.pc.toNat) .owner
  if k = 8 then t
  else
    let t := (t.psqHaltSafe k).testFault k code
    if t.tile then { t with tl := { t.tl with psqFault := true } } else t

/-- The bank minimum period in units, by VSEL (R61, Table 7-2). -/
def minPeriod (vsel : Nat) : Nat := if vsel ≤ 2 then 64 else if vsel = 3 then 160 else 256

/-- Where the instruction goes on: the next PC, or none where it stops (R41 to R43, R46). -/
def nextPc (q : Seq) (w : BitVec 64) : Option Nat :=
  let up := q.pc.toNat + 1
  match wOp w with
  | 0x01 | 0x04 => some (wTarget w)
  | 0x02 => some (if q.z then wTarget w else up)
  | 0x03 => some (if q.z then up else wTarget w)
  | 0x05 => some (match q.stack with | a :: _ => a.toNat | [] => up)
  | 0x06 => some (if op24 q w = 0 then fld w 47 32 + 1 else up)
  | 0x07 => some (if (q.lcv (wLC w)).toNat ≤ 1 then up else wTarget w)
  | 0x0A => none
  | _ => some up

/-- The first fault that applies to an instruction, in the order of R68, or none. -/
def faultOf (k : Nat) (id : SeqId) (q : Seq) (vsel : Nat) (w : BitVec 64) (ue : Bool) : Option Nat :=
  if ue then some 0x0B
  else if !opDefined (wOp w) then some 0x01
  else if opForeign id (wOp w) then some 0x02
  else if rsvdSet w then some 0x03
  else if valueBad w then some 0x0A
  else if wOp w == 0x34 && decide (op24 q w < minPeriod vsel) then some 0x09
  else if wOp w == 0x09 && decide (wEV w < 24) then some 0x08
  else if (wOp w == 0x1A || wOp w == 0x1B) && (decide (4096 ≤ memAddr q w) || memAddr q w % 4 != 0) then some 0x07
  else if wOp w == 0x04 && decide (8 ≤ q.stack.length) then some 0x05
  else if wOp w == 0x05 && q.stack.isEmpty then some 0x06
  else match nextPc q w with
    | some p => if progSize k ≤ p then some 0x04 else none
    | none => none

/-! ### Moving on -/

/-- A PSQ counts a non-vector instruction (R64). -/
def State.nonvec (s : State) (k : Nat) : State :=
  if k = 8 then s else s.setBank k { s.bank k with nonvec := (s.bank k).nonvec + 1 }

/-- The sequencer's new state with the PC moved, the instruction counted as non-vector. -/
def State.goTo (s : State) (k : Nat) (q : Seq) (pc : Nat) : State :=
  (s.setSeq k { q with pc := BitVec.ofNat 16 pc }).nonvec k

/-- As goTo, to the following instruction. -/
def State.goNext (s : State) (k : Nat) (q : Seq) : State := s.goTo k q (q.pc.toNat + 1)

/-- A taken jump, with its trace entry (Table 23-2). -/
def State.jumpTo (s : State) (k : Nat) (q : Seq) (pc : Nat) : State :=
  (s.goTo k q pc).traceSeq k 0 (BitVec.ofNat 32 pc)

/-! ### Image switch (R76) -/

/-- A drive program set's register pair belongs to bank n: its PIN and PSQ registers (R515). -/
def pairOfBank (n a : Nat) : Bool :=
  (a / 0x10000 == 0x0B && a % 0x10000 / 0x1000 == n) ||
    (a / 0x10000 == 0x0C && decide (a % 0x10000 < 0x800) && a % 0x10000 / 0x100 == n) ||
    (a / 0x10000 == 0x0C && decide (0x800 ≤ a % 0x10000) && (a % 0x10000 - 0x800) / 0x10 == n)

/-- Writes the pairs of a drive program set that bank n's switch brings: its own, and those of the LAMP and AGE blocks (R241). -/
def State.writePairs (s : State) (n : Nat) : State :=
  s.dsetPairs.foldl (fun t p => if pairOfBank n p.1 || p.1 / 0x10000 == 0x0A || p.1 / 0x10000 == 0x13 then t.plainWrite p.1 p.2 else t) s

/-- The values that change together with a staged frame program (R514). -/
def State.takeStagedAdmit (s : State) : State :=
  match s.comp.staged with
  | some (dl, eng, zl) =>
    let t := (s.setF COMP_ADMIT_DL_DL dl).setF COMP_ADMIT_ENG_ENG eng
    let t := zl.foldl (fun u e => u.setReg e.1 e.2) t
    { t with comp := { t.comp with staged := none, acc := zl.foldl (fun m e => SMap.set regReset m e.1 e.2) t.comp.acc } }
  | none => s

/-- The sequencer takes its staged image and restarts at the new ENTRY; a bank the set holds no image for is left with no program;
a PSQ whose VDDP lies outside its window stays safe with VSTOP set. -/
def State.imageSwitch (s : State) (k : Nat) : State :=
  let t := (s.setFlag (switchF k) false).setSeq k { s.seq k with staged := none }
  match (s.seq k).staged with
  | none => t.progStart k
  | some none => if k = 8 then t else ((t.setFlag (runF k) false).writePairs k).unloadImage k
  | some (some i) =>
    if k = 8 then (t.takeStagedAdmit.loadImage 8 i).progStart 8
    else
      let t := (t.writePairs k).loadImage k i
      if (t.bank k).vddpBad then
        (((t.setFlag (PSQ_STAT_VSTOP k) true).setFlag (haltedF k) false).psqHaltSafe k).testFault k 0xFF
      else t.progStart k

/-! ### Control instructions -/

/-- nop (R47). -/
def doNop (s : State) (k : Nat) (_w : BitVec 64) : State := s.goNext k (s.seq k)

/-- jmp (R41). -/
def doJmp (s : State) (k : Nat) (w : BitVec 64) : State := s.jumpTo k (s.seq k) (wTarget w)

/-- jz (R41). -/
def doJz (s : State) (k : Nat) (w : BitVec 64) : State :=
  if (s.seq k).z then s.jumpTo k (s.seq k) (wTarget w) else s.goNext k (s.seq k)

/-- jnz (R41). -/
def doJnz (s : State) (k : Nat) (w : BitVec 64) : State :=
  if (s.seq k).z then s.goNext k (s.seq k) else s.jumpTo k (s.seq k) (wTarget w)

/-- call: pushes PC + 1 (R42). -/
def doCall (s : State) (k : Nat) (w : BitVec 64) : State :=
  let q := s.seq k
  s.jumpTo k { q with stack := (q.pc + 1) :: q.stack } (wTarget w)

/-- ret: pops the top entry into PC (R42). -/
def doRet (s : State) (k : Nat) (_w : BitVec 64) : State :=
  let q := s.seq k
  match q.stack with
  | a :: rest => s.jumpTo k { q with stack := rest } a.toNat
  | [] => s

/-- loop: loads LC; a count of 0 continues at END + 1 (R43). -/
def doLoop (s : State) (k : Nat) (w : BitVec 64) : State :=
  let q := s.seq k
  let n := op24 q w
  let q' := q.setLc (wLC w) (BitVec.ofNat 24 n)
  if n = 0 then s.goTo k q' (fld w 47 32 + 1) else s.goNext k q'

/-- endl: a counter of 0 stays and continues; otherwise it is decremented, and TARGET is taken while it stays nonzero (R43). -/
def doEndl (s : State) (k : Nat) (w : BitVec 64) : State :=
  let q := s.seq k
  let c := q.lcv (wLC w)
  if c = 0 then s.goNext k q
  else
    let q' := q.setLc (wLC w) (c - 1)
    if c - 1 = 0 then s.goNext k q' else s.jumpTo k q' (wTarget w)

/-- wait: consumes a pending event, or waits for it (R44). A wait that waits ends a PSQ's run of counted instructions (R66). -/
def doWait (s : State) (k : Nat) (w : BitVec 64) : State :=
  let q := s.seq k
  let e := wEV w
  let bit : BitVec 32 := BitVec.ofNat 32 (2 ^ e)
  if q.ev.getLsbD e && !w.getLsbD 40 then s.goNext k { q with ev := q.ev &&& ~~~ bit, z := false }
  else
    let t := s.setSeq k { q with ev := q.ev &&& ~~~ bit, waiting := some (e, w24 w) }
    if k = 8 then t else t.setBank k { t.bank k with nonvec := 0 }

/-- sig: raises a software event in every sequencer and in the Stoker (R45). -/
def doSig (s : State) (k : Nat) (w : BitVec 64) : State :=
  let t := s.raiseSw (wEV w)
  t.goNext k (t.seq k)

/-- halt: stops the sequencer, or starts the image switch while one is pending (R46). -/
def doHalt (s : State) (k : Nat) (_w : BitVec 64) : State :=
  let q := s.seq k
  let t := s.traceSeq k 4 (BitVec.ofNat 32 q.pc.toNat)
  if t.flag (switchF k) then t.imageSwitch k
  else ((t.setSeq k { q with pc := q.pc + 1 }).setFlag (runF k) false).setFlag (haltedF k) true

/-! ### Scalar instructions (R48 to R50) -/

/-- mov: GD takes src, the flags stay. -/
def doMov (s : State) (k : Nat) (w : BitVec 64) : State :=
  let q := s.seq k
  s.goNext k (q.setReg (wD w) (srcOf q w))

/-- The result of an operation that sets the flags goes to GD; a write to G0 is discarded and the flags are still set (R31). -/
def State.scalar (s : State) (k d : Nat) (r : Word) (c : Bool) : State :=
  let q := s.seq k
  s.goNext k ((q.setReg d r).setFlags r c)

/-- addi. -/
def doAddi (s : State) (k : Nat) (w : BitVec 64) : State :=
  let a := (s.seq k).reg (wA w)
  s.scalar k (wD w) (a + wImm w) (carryAdd a (wImm w))

/-- add. -/
def doAdd (s : State) (k : Nat) (w : BitVec 64) : State :=
  let a := (s.seq k).reg (wA w)
  let b := (s.seq k).reg (wB w)
  s.scalar k (wD w) (a + b) (carryAdd a b)

/-- sub. -/
def doSub (s : State) (k : Nat) (w : BitVec 64) : State :=
  let a := (s.seq k).reg (wA w)
  let b := (s.seq k).reg (wB w)
  s.scalar k (wD w) (a - b) (borrowSub a b)

/-- and: C becomes 0. -/
def doAnd (s : State) (k : Nat) (w : BitVec 64) : State :=
  s.scalar k (wD w) ((s.seq k).reg (wA w) &&& srcOf (s.seq k) w) false

/-- or: C becomes 0. -/
def doOr (s : State) (k : Nat) (w : BitVec 64) : State :=
  s.scalar k (wD w) ((s.seq k).reg (wA w) ||| srcOf (s.seq k) w) false

/-- xor: C becomes 0. -/
def doXor (s : State) (k : Nat) (w : BitVec 64) : State :=
  s.scalar k (wD w) ((s.seq k).reg (wA w) ^^^ srcOf (s.seq k) w) false

/-- shl by src[4:0]. -/
def doShl (s : State) (k : Nat) (w : BitVec 64) : State :=
  let a := (s.seq k).reg (wA w)
  let n := (srcOf (s.seq k) w).toNat % 32
  s.scalar k (wD w) (a <<< n) (carryShl a n)

/-- shr by src[4:0], logical. -/
def doShr (s : State) (k : Nat) (w : BitVec 64) : State :=
  let a := (s.seq k).reg (wA w)
  let n := (srcOf (s.seq k) w).toNat % 32
  s.scalar k (wD w) (a >>> n) (carryShr a n)

/-- cmp: the flags of GA − src; no register changes. -/
def doCmp (s : State) (k : Nat) (w : BitVec 64) : State :=
  let a := (s.seq k).reg (wA w)
  let b := srcOf (s.seq k) w
  s.scalar k 0 (a - b) (borrowSub a b)

/-- ld: GD takes the data memory word at GA + IMM. -/
def doLd (s : State) (k : Nat) (w : BitVec 64) : State :=
  let q := s.seq k
  s.goNext k (q.setReg (wD w) (s.dmem k (memAddr q w)))

/-- st: the data memory word at GA + IMM takes GB. -/
def doSt (s : State) (k : Nat) (w : BitVec 64) : State :=
  let q := s.seq k
  let t := s.setDmem k (memAddr q w) (q.reg (wB w))
  t.goNext k (t.seq k)

/-! ### Issue -/

/-- The sequencer executes instructions: it exists in the role, runs and does not wait. -/
def State.seqRuns (s : State) (id : SeqId) : Bool :=
  (id != .fsq || s.sender) && s.flag (runF (seqIdx id)) && (s.seq (seqIdx id)).waiting.isNone

/-- The sequencer executes instructions, no debug halt holds it (R551) and no band waits for queue space (R56). -/
def State.seqReady (s : State) (id : SeqId) : Bool :=
  s.seqRuns id && !(id == .fsq && (s.flag TRACE_HALT_FSQ_HALT || !s.comp.backlog.isEmpty))

/-- The instruction word of a row: its opcode over the body. -/
def rowWord (op : BitVec 6) (body : BitVec 58) : BitVec 64 := op ++ body

/-- An instruction word reaches its turn: it faults, or it has its effect (R68). -/
def State.issueWord (s : State) (id : SeqId) (w : BitVec 64) (ue : Bool) (eff : State → Nat → BitVec 64 → State) : State :=
  let k := seqIdx id
  match faultOf k id (s.seq k) (s.bank k).vsel w ue with
  | some c => s.seqFault k c w
  | none => eff s k w

/-- One instruction of a row, in a sequencer that is ready for it; otherwise nothing happens. -/
def State.issue (s : State) (op : BitVec 6) (i : SeqInstr) (eff : State → Nat → BitVec 64 → State) : State :=
  if s.seqReady i.q then s.issueWord i.q (rowWord op i.body) i.ue eff else s

end Sys2Proof.Machine
end

