-- ==== Sys2Proof/Machine/Frame.lean ====
section
/-! DEFINITION. Machine/Frame.lean: the frame-class instructions of the FSQ, and how a frame's bands leave its ports (R52 to R57, R108,
R109, R114 to R118, R122, R127, R144, R155, R156, R159, R309). -/

namespace Sys2Proof.Machine

/-! ### The frame counter -/

/-- The 40-bit frame counter. -/
def State.fcnt (s : State) : Nat := (s.reg FSQ_FCNT_LO).toNat + s.getF FSQ_FCNT_HI_FCNT * 2 ^ 32

/-- s with the frame counter set. -/
def State.setFcnt (s : State) (n : Nat) : State :=
  (s.setReg FSQ_FCNT_LO (BitVec.ofNat 32 n)).setReg FSQ_FCNT_HI (BitVec.ofNat 32 (n / 2 ^ 32 % 256))

/-! ### Routes (R159, R308, R309) -/

/-- The ring position of the partner sender. -/
def State.partnerPos (s : State) : Nat :=
  if s.getF CLM_PAIR_POS_A = s.getF RING_STAT_POS then s.getF CLM_PAIR_POS_B else s.getF CLM_PAIR_POS_A

/-- The port may be reached through the partner: RELAY is set, and on a ring cord the partner is mirrored. -/
def State.relayOn (s : State) (p : Nat) : Bool :=
  s.flag (CORD_PCFG_RELAY p) && (!s.flag (CORD_PCFG_RING p) || s.flag CLM_STAT_PMIRRORED)

/-- The near path of a port reaches every enumerated position. -/
def State.nearWhole (s : State) (p : Nat) : Bool :=
  s.linkUp p && (s.enumPos p).all fun q => (List.range (q + 1)).all fun h => s.flag (CORD_HOP_UP p h)

/-- Hands a packet for a port to the partner over the ring: RELAY set on a ring cord, clear on any other. -/
def State.relayOut (s : State) (p : Nat) (k : CordPkt) : State :=
  s.ringSend s.partnerPos (.relay p 0 { k with hdr := { k.hdr with relay := s.flag (CORD_PCFG_RING p) } })

/-- The packet leaves an ACTIVE sender on a port's near path, and through the partner where the near path does not reach every
tile. -/
def State.frameSend (s : State) (p : Nat) (b : CordBody) : State :=
  if s.active then
    let k : CordPkt := { hdr := s.downHdr p 0xFF, body := b }
    let t := s.send p k
    if s.relayOn p && !s.nearWhole p then t.relayOut p k else t
  else s

/-- For each port of a mask, in order. -/
def State.eachPort (s : State) (mask : Nat) (f : State → Nat → State) : State :=
  (List.range 8).foldl (fun t p => if mask.testBit p then f t p else t) s

/-! ### Frames -/

/-- The frame of the last mark; before any mark, a frame that nothing was sent for. -/
def State.curFrame (s : State) : FrameRec :=
  match s.comp.frames with
  | f :: _ => f
  | [] => { fcnt := s.fcnt, ports := 0, tmark := s.wtb, fper := s.fper, gen := s.comp.gen, issued := [], late := 0, present := none,
            pports := 0, acks := [], ev3 := true, jobsDone := true, vis := [], popDone := true, next := none }

/-- s with the last mark's frame changed. -/
def State.setFrame (s : State) (f : FrameRec) : State :=
  { s with comp := { s.comp with frames := f :: s.comp.frames.tail } }

/-- The jobs of a frame that have not completed or been dropped. -/
def State.outstanding (s : State) (fcnt : Nat) : Bool :=
  (s.comp.jobs ++ s.comp.backlog ++ s.comp.running).any fun j => j.fcnt == fcnt

/-- EV5 JOBS_DONE once every band job issued since the last mark has completed or been dropped (Table 2-2). -/
def State.jobsCheck (s : State) : State :=
  let f := s.curFrame
  if !f.jobsDone && !s.outstanding f.fcnt then (s.setFrame { f with jobsDone := true }).raiseFsq 5 else s

/-- A band is missed: MISSED and COMP_STAT.MISSED (R117). -/
def State.missBand (s : State) (p : Nat) : State := (s.count (COMP_N_MISSED p) 1).setFlag COMP_STAT_MISSED true

/-- A job is discarded: its band is missed, and EV6 OVERRUN is raised (R117, Table 2-2). -/
def State.missJob (s : State) (j : Job) : State := ((s.missBand j.port).raiseFsq 6).jobsCheck

/-- The queue takes waiting jobs of the band instruction in execution while it has room (R56). -/
def State.feed (s : State) : State :=
  let n := 256 - s.comp.jobs.length
  { s with comp := { s.comp with jobs := s.comp.jobs ++ s.comp.backlog.take n, backlog := s.comp.backlog.drop n } }

/-! ### Sending bands (R116, R144, R159) -/

/-- The band's packet leaves on its path: the near one, or through the partner (R159, R309). -/
def State.bandOut (s : State) (p q : Nat) (b : BandPkt) (far : Bool) : State :=
  let k : CordPkt := { hdr := s.downHdr p q, body := .band b }
  let t := if far then s.relayOut p k else s.send p k
  t.count (COMP_N_SENT p) 1

/-- One issued band of a port at the head of its order: sent if composed, passed over if gone, and otherwise it holds back those
behind it. The flag says whether the order is held. -/
def State.releaseOne (s : State) (f : FrameRec) (e : Nat × Nat × Nat) : State × Bool :=
  if (s.comp.jobs ++ s.comp.backlog ++ s.comp.running).any fun j => j.fcnt == f.fcnt && j.port == e.1 && j.pos == e.2.1 && j.band == e.2.2
  then (s, true)
  else match s.comp.cordq.find? fun c => c.1 == e.1 && c.2.1 == e.2.1 && c.2.2.1.band == e.2.2 && c.2.2.2.1 == f.fcnt with
    | none => (s, false)
    | some c =>
      if f.present.isSome && f.pports.testBit e.1 then
        (State.bandOut { s with comp := { s.comp with cordq := s.comp.cordq.erase c } } c.1 c.2.1 c.2.2.1 c.2.2.2.2, false)
      else (s, true)

/-- The bands of a port that may leave, in issue order, frames oldest first (R116). -/
def State.releasePort (s : State) (p : Nat) : State :=
  let es := s.comp.frames.reverse.flatMap fun f => (f.issued.filter fun e => e.1 == p).map fun e => (f, e)
  (es.foldl (fun a fe => if a.2 then a else State.releaseOne a.1 fe.1 fe.2) (s, false)).1

/-! ### The band scheduler (R155, R156, R159) -/

/-- Payload rate of one lane at a rate step, in bytes per 160 ns (Table 5-1). -/
def laneRate (step : Nat) : Nat := if step = 0 then 18 else if step = 1 then 45 else if step = 2 then 180 else 450

/-- A path's rate (bytes per 160 ns, 0 where a hop is down) and latency sum (1/64 ns). -/
structure Path where
  rate : Nat
  lat : Nat
  hops : List Nat
  deriving DecidableEq, Repr

/-- One cord hop added to a path. -/
def State.addHop (s : State) (p : Nat) (a : Path) (h : Nat) : Path :=
  let r := if s.flag (CORD_HOP_UP p h) then laneRate (s.getF (CORD_HOP_STEP p h)) * (1 + s.getF (CORD_HOP_WIDTH2 p h)) else 0
  { rate := min a.rate r, lat := a.lat + s.getF (CORD_HOP_LAT p h), hops := a.hops ++ [h] }

/-- The near path to a position: hops 0 to q, and the port's own link. -/
def State.nearPath (s : State) (p q : Nat) : Path :=
  let a := (List.range (q + 1)).foldl (s.addHop p) { rate := 1000, lat := 0, hops := [] }
  if s.linkUp p then a else { a with rate := 0 }

/-- Ring hops from this sender to the partner, forward or backward by the ring port that has a link. -/
def State.ringHops (s : State) : Nat :=
  let d := (s.partnerPos + 8 - s.getF RING_STAT_POS) % 8
  if s.flag RING_STAT_FWD_LINK then d else 8 - d

/-- The far path of a ring cord to a position: the ring hops, then the cord hops from the standby end. -/
def State.farPath (s : State) (p q : Nat) : Path :=
  let n := (s.enumPos p).length
  let fwd := s.flag RING_STAT_FWD_LINK
  let up := fwd || s.flag RING_STAT_BWD_LINK
  let r := if up then laneRate (if fwd then s.getF RING_STAT_FWD_STEP else s.getF RING_STAT_BWD_STEP) * 2 else 0
  let l := SMap.get (fun _ => 0) s.cord.ringLat (if fwd then 8 else 9)
  let a := ((List.range (n - q)).map fun i => n - i).foldl (s.addHop p) { rate := r, lat := s.ringHops * l, hops := [] }
  { a with hops := 0 :: a.hops.map fun h => 64 + h }

/-- A far path is open for a band: the port's cord is a ring cord in relay. -/
def State.farOpen (s : State) (p : Nat) : Bool := s.relayOn p && s.flag (CORD_PCFG_RING p)

/-- The key of F_h for a hop of a path. -/
def hopKey (far : Bool) (p h : Nat) : Nat := ((if far then 8 else 0) + p) * 256 + h

/-- A band of S bytes with estimated completion t (1/2880 ns): its start s, end of carriage and arrival A on a path, in 1/2880 ns; none
where a hop has rate 0. -/
def State.pathTimes (s : State) (far : Bool) (p : Nat) (a : Path) (t size : Nat) : Option (Nat × Nat) :=
  if a.rate = 0 then none
  else
    let st := a.hops.foldl (fun m h => max m (SMap.get (fun _ => 0) s.comp.hopF (hopKey far p h))) t
    let e := st + size * 460800 / a.rate
    some (e, e + a.lat * 45)

/-- F of every hop of a path takes a value. -/
def State.setHopF (s : State) (far : Bool) (p : Nat) (hs : List Nat) (v : Nat) : State :=
  { s with comp := { s.comp with hopF := hs.foldl (fun m h => SMap.set (fun _ => 0) m (hopKey far p h) v) s.comp.hopF } }

/-- A path to the position crosses a slow hop: one below the highest step of its cord's hops (R133, R156). -/
def State.crossesSlow (s : State) (p q : Nat) : Bool :=
  let top := (s.enumPos p).foldl (fun m h => max m (s.getF (CORD_HOP_STEP p h))) 0
  (List.range (q + 1)).any fun h => decide (s.getF (CORD_HOP_STEP p h) < top)

/-- The scheduler's decision for a job against its frame's present time (ns): the path it takes, or none where it is discarded. A cord
that only the partner reaches is not timed. -/
def State.schedule (s : State) (j : Job) (size t ptime : Nat) : Option (State × Bool) :=
  if !s.flag (CORD_PCFG_RING j.port) && s.relayOn j.port && !s.linkUp j.port then some (s, true)
  else
    let np := s.nearPath j.port j.pos
    let fp := s.farPath j.port j.pos
    let near := s.pathTimes false j.port np t size
    let far := if s.farOpen j.port then s.pathTimes true j.port fp t size else none
    let lim := 2880 * ptime - 2880000 * s.getF CORD_GUARD_GUARD
    match near, far with
    | some a, some b =>
      if b.2 < a.2 then (if b.2 ≤ lim then some (s.setHopF true j.port fp.hops b.1, true) else none)
      else if a.2 ≤ lim then some (s.setHopF false j.port np.hops a.1, false) else none
    | some a, none => if a.2 ≤ lim then some (s.setHopF false j.port np.hops a.1, false) else none
    | none, some b => if b.2 ≤ lim then some (s.setHopF true j.port fp.hops b.1, true) else none
    | none, none => none

/-- A scheduler discard: SCHEDDROP, SLOWHOP across a slow hop, and missed as by R117 (R155, R156). -/
def State.schedDrop (s : State) (j : Job) : State :=
  let t := s.count (CORD_N_SCHEDDROP j.port) 1
  let t := if t.crossesSlow j.port j.pos then t.setFlag (CORD_PSTAT_SLOWHOP j.port) true else t
  t.missJob j

/-- The geometry and layers a job reads. -/
def State.jobGeo (s : State) (j : Job) : Geo := geoOf (s.genOf j.gen).live j.port j.pos

/-- E_b of a job: every enabled layer that covers the band, whatever the blend order (R119). -/
def State.jobCost (s : State) (j : Job) : Nat := bandCost (layersOf (s.genOf j.gen).regs) (s.jobGeo j) j.band

/-- The bytes of a job's packet (Table 5-7). -/
def State.jobBytes (s : State) (j : Job) : Nat := 72 + 4 * bandPixels (s.jobGeo j) j.band

/-- A job that started before its frame's PRESENT is checked when the PRESENT leaves; one that is turned away is discarded, composed or
not. -/
def State.scheduleTaken (s : State) (ptime : Nat) (j : Job) (t : Nat) : State :=
  match s.schedule j (s.jobBytes j) t ptime with
  | some r =>
    { r.1 with comp := { r.1.comp with
        running := r.1.comp.running.map fun x => if x = j then { x with far := r.2 } else x,
        cordq := r.1.comp.cordq.map fun c =>
          if c.1 = j.port ∧ c.2.1 = j.pos ∧ c.2.2.1.band = j.band ∧ c.2.2.2.1 = j.fcnt then (c.1, c.2.1, c.2.2.1, c.2.2.2.1, r.2) else c } }
  | none =>
    let t : State := { s with comp := { s.comp with
        running := s.comp.running.filter fun x => x != j,
        cordq := s.comp.cordq.filter fun c => !(c.1 == j.port && c.2.1 == j.pos && c.2.2.1.band == j.band && c.2.2.2.1 == j.fcnt) } }
    t.engRegs.schedDrop j

/-- As scheduleTaken for an issued band: one that still runs is timed from its start, one that waits composed from now. -/
def State.scheduleIssued (s : State) (f : FrameRec) (ptime : Nat) (e : Nat × Nat × Nat) : State :=
  match s.comp.running.find? fun j => j.fcnt == f.fcnt && j.port == e.1 && j.pos == e.2.1 && j.band == e.2.2 with
  | some j => s.scheduleTaken ptime j (45 * j.start + 2880 * s.jobCost j)
  | none =>
    if s.comp.cordq.any fun c => c.1 == e.1 && c.2.1 == e.2.1 && c.2.2.1.band == e.2.2 && c.2.2.2.1 == f.fcnt then
      s.scheduleTaken ptime { port := e.1, pos := e.2.1, band := e.2.2, eng := 0, gen := f.gen, zsel := 256, fcnt := f.fcnt, start := s.wtb,
                              omitted := [], far := false } (45 * s.wtb)
    else s

/-! ### Flip acknowledgements (R118, R127) -/

/-- The enumerated tiles of a frame's flip. -/
def State.flipTiles (s : State) (f : FrameRec) : List (Nat × Nat) :=
  (List.range 8).flatMap fun p => if f.pports.testBit p then (s.enumPos p).map fun q => (p, q) else []

/-- The tile's ACK counts as flipped: FLIPPED or NONE (R148). -/
def ackFlipped (f : FrameRec) (pq : Nat × Nat) : Bool :=
  f.acks.any fun a => a.1 == pq.1 && a.2.1 == pq.2 && decide (a.2.2.result ≤ 1)

/-- The acknowledgements of a frame are complete or their window has closed: the flip record, EV3, and re-damage of the bands of tiles
that did not flip; the frame is evaluated for proof of play (R118, R127, R351). -/
def State.flipClose (s : State) (f : FrameRec) : State :=
  let ts := s.flipTiles f
  let ok := (ts.filter fun t => ackFlipped f t).length
  let t := s.updFrame f.fcnt fun x => { x with ev3 := true }
  let t := (t.setReg FSQ_FLIP_FCNT_LO (BitVec.ofNat 32 f.fcnt)).setReg FSQ_FLIP_FCNT_HI (BitVec.ofNat 32 (f.fcnt / 2 ^ 32 % 256))
  let t := t.setPair FSQ_FLIP_T_LO (f.present.getD 0)
  let t := (t.setF FSQ_FLIP_ACK_FLIPPED ok).setF FSQ_FLIP_ACK_NOT_FLIPPED (ts.length - ok)
  let t := t.damageBands (f.issued.filter fun e => !ackFlipped f (e.1, e.2.1))
  (t.raiseFsq 3).popEval f.fcnt

/-- Closes the frame where every enumerated tile of its flip has acknowledged. -/
def State.flipCheck (s : State) (fcnt : Nat) : State :=
  match s.comp.frames.find? fun f => f.fcnt == fcnt && f.present.isSome && !f.ev3 with
  | some f =>
    if (s.flipTiles f).all fun t => f.acks.any fun a => a.1 == t.1 && a.2.1 == t.2 then s.flipClose f else s
  | none => s

/-! ### The instructions -/

/-- Frames that nothing refers to any more are forgotten, and the generations with them. -/
def State.pruneFrames (s : State) : State :=
  let keep := fun (f : FrameRec) => !f.popDone || (f.present.isSome && !f.ev3) || s.outstanding f.fcnt ||
    s.comp.cordq.any fun c => c.2.2.2.1 == f.fcnt
  let fs := match s.comp.frames with | [] => [] | f :: r => f :: r.filter keep
  let gs := s.comp.gens.filter fun g => g.1 == s.comp.gen || (fs.any fun f => f.gen == g.1) ||
    (s.comp.jobs ++ s.comp.backlog ++ s.comp.running).any fun j => j.gen == g.1
  { s with comp := { s.comp with frames := fs, gens := gs } }

/-- At a mark, a frame that sent no PRESENT is given up: its queued bands are discarded and missed, and every band with a job in it is
damaged again (R118, R144). -/
def State.closeUnsent (s : State) : State :=
  match s.comp.frames with
  | [] => s
  | f :: fs =>
    let s1 : State := { s with comp := { s.comp with frames := { f with next := some s.wtb } :: fs } }
    if f.present.isSome then s1 else
    let qd := s.comp.cordq.filter fun c => c.2.2.2.1 == f.fcnt
    let t := qd.foldl (fun u c => u.count (COMP_N_MISSED c.1) 1)
      { s1 with comp := { s1.comp with cordq := s1.comp.cordq.filter fun c => c.2.2.2.1 != f.fcnt } }
    t.damageBands f.issued

/-- The frame tick that R297 waits for has not come. -/
def State.heldBack (s : State) : Bool := match s.comp.holdTick with | some t => decide (s.wtb < t) | none => false

/-- COMP register words of a map. -/
def compSlice (m : SMap Word) : SMap Word := SMap.slice 0x60000 0x70000 m

/-- mark (R52, R118, R125, R127, R144): the counter rises, the frame before is closed where it sent no PRESENT, the mark leaves on each
port, and EV0 is raised in every PSQ. -/
def doMark (s : State) (k : Nat) (w : BitVec 64) : State :=
  let eff := s.effPorts (wPorts w)
  if eff = 0 ∨ s.heldBack then s.goNext k (s.seq k)
  else
    let n := (s.fcnt + 1) % 2 ^ 40
    let t := (s.setFcnt n).closeUnsent.pruneFrames
    let g := t.comp.gen
    let gens := if t.comp.gens.any fun e => e.1 == g then t.comp.gens
                else (g, { regs := compSlice t.regs, live := compSlice t.live }) :: t.comp.gens
    let f : FrameRec := { fcnt := n, ports := eff, tmark := s.wtb, fper := s.fper, gen := g, issued := [], late := 0, present := none,
                          pports := 0, acks := [], ev3 := false, jobsDone := true, vis := [], popDone := !s.active, next := none }
    let t : State := { t with comp := { t.comp with frames := f :: t.comp.frames, gens := gens, started := true, flipped := false } }
    let t := t.eachPort eff fun u p => u.frameSend p (.mark n s.ns s.fper (u.enumPos p).length)
    let t := if s.active then t.popMark n else t
    let t := t.raisePsqs 0
    t.goNext k (t.seq k)

/-- The band of the pending map takes part in a damage latch: an enumerated tile, an enabled entry, a band of it (R115). -/
def State.eligible (s : State) (b : Nat × Nat × Nat) : Bool :=
  let g := geoOf s.live b.1 b.2.1
  g.en && (s.tileAt b.1 b.2.1).enumerated && decide (b.2.2 < bandsOf g.h)

/-- The enabled layers that are UNLOADED (R310). -/
def State.unloadedLayers (s : State) : List Layer := (layersOf s.regs).filter fun l => s.comp.unloaded.contains l.slot

/-- The pending bands of the ports in a mask, in cord order. -/
def State.pendingBands (s : State) (mask : Nat) : List (Nat × Nat × Nat) :=
  (List.range 64).flatMap fun q => (List.range 256).flatMap fun b =>
    (List.range 8).flatMap fun p => if mask.testBit p && s.dmg p q b then [(p, q, b)] else []

/-- Clears pending bits. -/
def State.clearDmg (s : State) (bs : List (Nat × Nat × Nat)) : State :=
  bs.foldl (fun u b =>
    let a := COMP_DMG b.1 b.2.1 (b.2.2 / 32)
    u.setReg a (u.reg a &&& ~~~ BitVec.ofNat 32 (2 ^ (b.2.2 % 32)))) s

/-- damage (R54, R114, R115, R310). -/
def doDamage (s : State) (k : Nat) (w : BitVec 64) : State :=
  let eff := s.effPorts (wPorts w)
  let un := s.unloadedLayers
  let pend := s.pendingBands eff
  let held := fun (b : Nat × Nat × Nat) => s.eligible b && un.any fun l => l.covers (geoOf s.live b.1 b.2.1) b.2.2
  let set := pend.filter fun b => s.eligible b && !held b
  let t := s.clearDmg (pend.filter fun b => !held b)
  let t : State := { t with comp := { t.comp with frameDmg := set, dmgSeen := false } }
  let q := t.seq k
  t.goNext k { q.setReg (wD w) (BitVec.ofNat 32 set.length) with z := set.isEmpty, n := false }

/-- Issues jobs for bands: into the queue, or discarded as late after the frame's PRESENT (R56, R116, R144). -/
def State.issueJobs (s : State) (bs : List (Nat × Nat × Nat)) (eng : Nat) : State :=
  if bs.isEmpty then s
  else
    let f := s.curFrame
    if f.present.isSome then
      let t := bs.foldl (fun u b => u.count (CORD_N_LATEJOB b.1) 1) (s.setFrame { f with late := f.late + bs.length, jobsDone := false })
      (t.damageBands bs).jobsCheck
    else
      let js := bs.map fun b =>
        ({ port := b.1, pos := b.2.1, band := b.2.2, eng := eng, gen := f.gen, zsel := SMap.get (fun _ => 256) s.comp.zsel b.1,
           fcnt := f.fcnt, start := 0, omitted := [], far := false } : Job)
      let t := s.setFrame { f with issued := f.issued ++ bs, jobsDone := false }
      State.feed { t with comp := { t.comp with backlog := t.comp.backlog ++ js } }

/-- The number of ones in a 4-bit engine mask. -/
def engCount (m : Nat) : Nat := (List.range 4).foldl (fun n i => if m.testBit i then n + 1 else n) 0

/-- band (R52, R55, R56, R122). -/
def doBand (s : State) (k : Nat) (w : BitVec 64) : State :=
  let q := s.seq k
  let ga := (q.reg (wA w)).toNat
  let eff := s.effPorts (wPorts w)
  if !wM w && eff == 0 then s.goNext k q
  else
    let named := (ga / 65536 % 8, ga / 256 % 64, ga % 256)
    let bs := if wM w then (if s.eligible named then [named] else [])
              else s.comp.frameDmg.filter fun b => eff.testBit b.1
    let t := if engCount (wEng w) < s.getF COMP_ADMIT_ENG_ENG then s.setFlag FSQ_STAT_DL_SHORT true else s
    let t := t.issueJobs bs (wEng w)
    t.goNext k ((t.seq k).setReg (wD w) (BitVec.ofNat 32 bs.length))

/-- zlist (R108, R109). -/
def doZlist (s : State) (k : Nat) (w : BitVec 64) : State :=
  let t := s.eachPort (s.effPorts (wPorts w)) fun u p =>
    if SMap.get (fun _ => 256) u.comp.zsel p = wZsel w then u
    else State.damageBands { u with comp := { u.comp with zsel := SMap.set (fun _ => 256) u.comp.zsel p (wZsel w) } } (portBands u.live p)
  t.goNext k (t.seq k)

/-- budget (R117, R122). -/
def doBudget (s : State) (k : Nat) (w : BitVec 64) : State :=
  let t := s.setF FSQ_DL_DEADLINE (w24 w)
  let t := if w24 w < s.getF COMP_ADMIT_DL_DL then t.setFlag FSQ_STAT_DL_SHORT true else t
  t.goNext k ((t.seq k).setReg (wD w) (t.reg FSQ_ADMIT))

/-- The PRESENT of the last mark's frame leaves the ports of a mask: the bands composed so far are scheduled and may leave (R127, R144,
R155). -/
def State.presentOut (s : State) (eff off : Nat) : State :=
  let f := s.curFrame
  let pt := (f.tmark + 64 * off) / 64
  let t := s.setFrame { f with present := some pt, pports := eff }
  let t := t.eachPort eff fun u p =>
    u.frameSend p (.present f.fcnt pt ((List.range 64).map fun q => (f.issued.filter fun e => e.1 == p && e.2.1 == q).length))
  let t := t.eachPort eff fun u p =>
    let ks := (List.range 128).map fun h => h
    (u.setHopF false p ks (45 * s.wtb)).setHopF true p ks (45 * s.wtb)
  let t := (f.issued.filter fun e => eff.testBit e.1).foldl (fun u e => u.scheduleIssued f pt e) t
  (t.eachPort eff fun u p => u.releasePort p).flipCheck f.fcnt

/-- flip (R52, R57, R448). -/
def doFlip (s : State) (k : Nat) (w : BitVec 64) : State :=
  let q := s.seq k
  let eff := s.effPorts (wPorts w)
  if eff = 0 then s.goNext k q
  else if !s.comp.started || s.comp.flipped then (s.count FSQ_N_DISCFLIP 1).goNext k q
  else
    let t : State := { s with comp := { s.comp with flipped := true } }
    let t := if s.flag SUP_STAT_VSAG_WARN || !s.active then t else t.presentOut eff (op24 q w)
    t.goNext k (t.seq k)

/-- testslot (R52, R57, R257, R448). -/
def doTestslot (s : State) (k : Nat) (w : BitVec 64) : State :=
  let eff := s.effPorts (wPorts w)
  if eff = 0 ∨ !s.comp.started ∨ s.flag SUP_STAT_VSAG_WARN then s.goNext k (s.seq k)
  else
    let f := s.curFrame
    let ts := (f.tmark + 64 * w24 w) / 64
    let t := s.eachPort eff fun u p => u.frameSend p (.testslot f.fcnt ts (wLen w))
    let t : State := if s.active then { t with tl := { t.tl with slots := [(f.fcnt, ts, wLen w)] } } else t
    t.goNext k (t.seq k)

end Sys2Proof.Machine
end

