-- ==== Sys2Proof/Machine/Ctrl.lean ====
section
/-! DEFINITION. Machine/Ctrl.lean: the sender's control sessions (R162, R163). -/

namespace Sys2Proof.Machine

/-- A packet to one position leaves on the near path where that reaches it, and through the partner otherwise (R159, R309). -/
def State.sendTo (s : State) (p q : Nat) (b : CordBody) : State :=
  if s.active then
    let k : CordPkt := { hdr := s.downHdr p q, body := b }
    if s.relayOn p && (s.nearPath p q).rate == 0 then s.relayOut p k else s.send p k
  else s

/-- A new control request to a tile: the next SEQ of its session, kept until answered; a WCP request may wait for it. -/
def State.ctrlSend (s : State) (p q op : Nat) (data : List Byte) (wcp : Option (Nat × Word)) : State :=
  let key := p * 64 + q
  let n := SMap.get (fun _ => 0) s.cord.ctrlSeq key + 1
  let o : CtrlOut := { port := p, pos := q, seq := n, op := op, data := data, tries := 0, wcp := wcp }
  State.sendTo { s with cord := { s.cord with ctrlSeq := SMap.set (fun _ => 0) s.cord.ctrlSeq key n, ctrlOut := s.cord.ctrlOut ++ [o] } }
    p q (.ctrlReq n op data)

/-- Sends a kept request again with its own SEQ. -/
def State.ctrlResend (s : State) (o : CtrlOut) : State := s.sendTo o.port o.pos (.ctrlReq o.seq o.op o.data)

/-- Every enumerated tile of the enabled ports. -/
def State.allTiles (s : State) : List (Nat × Nat) :=
  (List.range 8).flatMap fun p => if s.flag (CORD_PCFG_EN p) then (s.enumPos p).map fun q => (p, q) else []

/-- The same request to every enumerated tile. -/
def State.ctrlAll (s : State) (op : Nat) (data : List Byte) : State :=
  s.allTiles.foldl (fun t pq => t.ctrlSend pq.1 pq.2 op data none) s

/-- LAMP_TF to a tile, from COMP_ENC.TF (R172). -/
def State.sendLampTf (s : State) (p q : Nat) : State :=
  s.ctrlSend p q Config.opLampTf (leBytes 1 (s.liveF COMP_ENC_TF)) none

end Sys2Proof.Machine
end

