-- ==== Sys2Proof/Machine/Src.lean ====
section
/-! DEFINITION. Machine/Src.lean: source ports, bound streams and frame assembly (Source Intake, R80 to R97). -/

namespace Sys2Proof.Machine

/-! ### Bindings (R83 to R87) -/

/-- DDR5 data capacity in bytes. -/
def State.ddrSize (s : State) : Nat := s.getF DDR_CFG_CAP * 2 ^ 30

/-- A stream's stored bytes per pixel, in quarter bytes. -/
def sdpP4 (d : Sdp) : Nat :=
  if d.samp = 0 then (if d.depth = 8 then 8 else if d.depth = 10 then 10 else 12)
  else (if d.depth = 8 then 12 else if d.depth = 10 then 15 else 18)

/-- Bytes of one line. -/
def sdpLine (d : Sdp) : Nat := ceilDiv (d.width * (sdpP4 d)) 4

/-- A stored line's stride (R87). -/
def sdpStride (d : Sdp) : Nat := 64 * ceilDiv (sdpLine d) 64

/-- Bytes of DDR5 that a stream takes: three frame buffers, or the 64 ms audio ring. -/
def sdpSpace (d : Sdp) : Nat := if d.video then 3 * (sdpStride d) * d.height else 3072 * d.channels * (d.depth / 8)

/-- Payload in bits per second (R85), rounded up. -/
def sdpPayload (d : Sdp) : Nat :=
  if d.video then ceilDiv ((sdpLine d) * d.height * 8 * d.rateNum) (max 1 d.rateDen) else d.channels * (d.depth / 8) * 8 * 48000

/-- The SDP keeps Table 3-1 or 3-2, with one leg or two on source ports (R83 to R85). -/
def sdpOk (d : Sdp) : Bool :=
  (decide (d.legs.length = 1) || decide (d.legs.length = 2)) && (d.legs.all fun l => decide (l.1 < 4)) &&
    (if d.video then
       d.progressive && decide (d.samp ≤ 2) && (d.depth == 8 || d.depth == 10 || d.depth == 12) && decide (d.colr ≤ 2) &&
         decide (d.tcs ≤ 2) && decide (d.pm ≤ 1) && decide (16 ≤ d.width) && decide (d.width ≤ 8192) && decide (16 ≤ d.height) &&
         decide (d.height ≤ 4320) && decide (0 < d.rateDen) && decide (24000 * d.rateDen ≤ 1001 * d.rateNum) &&
         decide (d.rateNum ≤ 240 * d.rateDen) && d.clock == 90000
     else
       (d.depth == 16 || d.depth == 24) && d.sampleRate == 48000 && decide (1 ≤ d.channels) && decide (d.channels ≤ 16) &&
         (d.ptimeUs == 1000 || d.ptimeUs == 125))

/-- Every bound leg: port and payload. -/
def State.legs (s : State) : List (Nat × Nat) := s.src.flatMap fun b => b.b.sdp.legs.map fun l => (l.1, (sdpPayload b.b.sdp))

/-- Sum of payloads. -/
def sumLegs (ls : List (Nat × Nat)) : Nat := ls.foldl (fun n l => n + l.2) 0

/-- A port's payload limit by its RATE field. -/
def State.portLimit (s : State) (p : Nat) : Nat := if s.flag (SRC_PCFG_RATE p) then 23000000000 else 9200000000

/-- The binding stays within the limits of R85 and the ports' filter entries. -/
def State.bindFits (s : State) (d : Sdp) : Bool :=
  let ls := s.legs ++ d.legs.map fun l => (l.1, (sdpPayload d))
  (if d.video then decide ((s.src.filter fun b => b.b.sdp.video).length < 16) else decide ((s.src.filter fun b => !b.b.sdp.video).length < 8)) &&
    ((List.range 4).all fun p => decide (sumLegs (ls.filter fun l => l.1 == p) ≤ s.portLimit p) &&
      decide ((ls.filter fun l => l.1 == p).length ≤ 32)) && decide (sumLegs ls ≤ 92000000000)

/-- The tenant windows and stream buffers, as (base, size) in bytes. -/
def State.takenDdr (s : State) : List (Nat × Nat) :=
  (s.src.map fun b => (b.base, b.size)) ++
    (List.range 16).map fun t => ((s.reg (TEN_MEMBASE t)).toNat * 64, (s.reg (TEN_MEMSIZE t)).toNat * 64)

/-- [a, a + n) and [b, b + m) have a byte in common. -/
def hits (a n b m : Nat) : Bool := decide (0 < n) && decide (0 < m) && decide (a < b + m) && decide (b < a + n)

/-- A free place in DDR5 for n bytes, outside every window (R87, R348): the lowest start that fits. -/
def State.allocDdr (s : State) (n : Nat) : Option Nat :=
  let cands := 0 :: s.takenDdr.map fun r => 64 * ceilDiv (r.1 + r.2) 64
  let ok := cands.filter fun a => decide (a + n ≤ s.ddrSize) && s.takenDdr.all fun r => !hits a n r.1 r.2
  match ok with
  | [] => none
  | a :: as => some (as.foldl min a)

/-- The lowest stream index of a class that is free: video 0 to 15, audio 16 to 23. -/
def State.freeStream (s : State) (video : Bool) : Option Nat :=
  ((List.range 24).filter fun i => decide (i < 16) == video).find? fun i => s.src.all fun b => b.b.index != i

/-- Filter registers of the ports follow the bindings (R82). -/
def State.filterRegs (s : State) : State :=
  (List.range 4).foldl (fun t p =>
    let n := (t.legs.filter fun l => l.1 == p).length
    (t.setF (SRC_PSTAT_FILT_USED p) n).setFlag (SRC_PSTAT_FILT_FULL p) (decide (n = 32))) s

/-- A leg's port. -/
def sdpLegPort (d : Sdp) (k : Nat) : Nat := match d.legs.drop k with | l :: _ => l.1 | [] => 0

/-- A binding's registers (Tables 3-6, 3-8). -/
def State.bindRegs (s : State) (b : Binding) : State :=
  let d := b.sdp
  let i := b.index
  let dual := decide (d.legs.length = 2)
  if d.video then
    let t := ((s.setFlag (SRC_VCFG_EN i) true).setFlag (SRC_VCFG_DUAL i) dual).setF (SRC_VCFG_PORTA i) ((sdpLegPort d) 0)
    let t := (t.setF (SRC_VCFG_PORTB i) ((sdpLegPort d) 1)).setF (SRC_VCFG_TENANT i) b.tenant
    let t := (t.setF (SRC_VCFG_SAMP i) d.samp).setF (SRC_VCFG_DEPTH i) (d.depth / 2 - 4)
    let t := ((t.setF (SRC_VCFG_COLR i) d.colr).setF (SRC_VCFG_TCS i) d.tcs).setF (SRC_VCFG_PM i) d.pm
    ((t.setF (SRC_VSIZE_WIDTH i) d.width).setF (SRC_VSIZE_HEIGHT i) d.height).setReg (SRC_VSTAT i) 1
  else
    let a := i - 16
    let t := ((s.setFlag (SRC_ACFG_EN a) true).setFlag (SRC_ACFG_DUAL a) dual).setF (SRC_ACFG_PORTA a) ((sdpLegPort d) 0)
    let t := (t.setF (SRC_ACFG_PORTB a) ((sdpLegPort d) 1)).setF (SRC_ACFG_TENANT a) b.tenant
    ((t.setFlag (SRC_ACFG_DEPTH a) (d.depth == 24)).setF (SRC_ACFG_CHANNELS a) d.channels).setFlag (SRC_ACFG_PTIME a) (d.ptimeUs == 125)

/-- A binding is made: buffers taken, registers set, groups joined (R82, R86, R87). -/
def State.addBinding (s : State) (b : Binding) (base : Nat) : State :=
  let t : State := { s with src := s.src ++ [{ b := b, base := base, size := (sdpSpace b.sdp), rx := StreamRx.init, filling := 0, newest := none,
                                               held := none, tsrc := [] }] }
  (t.bindRegs b).filterRegs

/-- A binding ends: its registers' read-only fields return to reset, its buffers and filter entries are free (R82, R86). -/
def State.endBinding (s : State) (i : Nat) : State :=
  let t : State := { s with src := s.src.filter fun b => b.b.index != i }
  let t := if i < 16 then
      let keep := s.getF (SRC_VCFG_TIMED i)
      (((t.setReg (SRC_VCFG i) 0).setF (SRC_VCFG_TIMED i) keep).setReg (SRC_VSIZE i) 0).setReg (SRC_VSTAT i) 1
    else t.setReg (SRC_ACFG (i - 16)) 0
  t.filterRegs

/-- A bound stream changed. -/
def State.updSrc (s : State) (i : Nat) (f : Bound → Bound) : State :=
  { s with src := s.src.map fun b => if b.b.index = i then f b else b }

/-! ### Extension (R92) -/

/-- A value of n bits extended by the highest seen: older if less than half the range behind it, else newer. -/
def extendSeen (n : Nat) (high : Option Nat) (v : Nat) : Nat :=
  match high with
  | none => v + 2 ^ n
  | some h =>
    let back := (h % 2 ^ n + 2 ^ n - v) % 2 ^ n
    if 2 * back < 2 ^ n then h - back else h + (2 ^ n - back)

/-! ### Closing a frame (R88 to R90, R94) -/

/-- A line of the filling frame lacks a byte. -/
def lineMissing (segs : List (Nat × Nat × Nat)) (line bytes : Nat) : Bool :=
  let parts := segs.filter fun g => g.1 == line
  -- the end of the run of bytes from 0 on, found by as many passes as there are parts
  let reach := parts.foldl (fun e _ => parts.foldl (fun e g => if g.2.1 ≤ e then max e (g.2.1 + g.2.2) else e) e) 0
  decide (reach < bytes)

/-- Where a line of a buffer lies. -/
def Bound.lineAt (b : Bound) (buf line : Nat) : Nat := b.base + (buf * b.b.sdp.height + line) * (sdpStride b.b.sdp)

/-- Copies a line from one buffer of a stream to another. -/
def State.copyLine (s : State) (b : Bound) (src dst line : Nat) : State :=
  s.ddrWrite (b.lineAt dst line) ((List.range (sdpLine b.b.sdp)).map fun i => s.ddrByte (b.lineAt src line + i))

/-- The buffer that fills next once a frame becomes newest (R94). -/
def nextFill (newest : Nat) (prev held : Option Nat) : Nat :=
  match prev with
  | some p => if held = some p then ((List.range 3).find? fun k => k != newest && k != p).getD 0 else p
  | none => ((List.range 3).find? fun k => k != newest && held != some k).getD 0

/-- The source time of a timestamp: the nearest media clock instant before the frame's arrival, in ns of network time (R96). -/
def sourceTime (d : Sdp) (ts : Nat) (arr : Int) : Int :=
  let a := arr * d.clock / 1000000000
  let k := (a + d.mediaOff - ts) % 2 ^ 32
  (a - k) * 1000000000 / (max 1 d.clock : Nat)

/-- Accounts for the sequence numbers of a closing frame that no leg delivered (R91). -/
def Bound.lostNow (b : Bound) : Nat :=
  match b.rx.counted, (b.rx.got.map fun g => g.1).foldl (fun m x => max m x) 0 with
  | some c, hi => ((List.range (hi - c)).filter fun k => b.rx.got.all fun g => g.1 != c + 1 + k).length
  | none, hi =>
    let lo := (b.rx.got.map fun g => g.1).foldl (fun m x => min m x) hi
    ((List.range (hi - lo)).filter fun k => b.rx.got.all fun g => g.1 != lo + 1 + k).length

/-- The stream's filling frame closes: repaired, or discarded (R88 to R90, R93). -/
def State.closeFrame (s : State) (b : Bound) : State :=
  match b.rx.frameTs with
  | none => s
  | some ts =>
    let d := b.b.sdp
    let i := b.b.index
    let miss := (List.range d.height).filter fun l => lineMissing b.rx.segs l (sdpLine d)
    let t := s.count (SRC_V_N_LOST i) b.lostNow
    let hi := (b.rx.got.map fun g => g.1).foldl (fun m x => max m x) 0
    let rx := { b.rx with frameTs := none, segs := [], counted := some hi, closedTs := some ts }
    let ok := miss.isEmpty || (b.newest.isSome && decide (miss.length ≤ s.liveF (SRC_VCONC_CONCEAL_MAX i)))
    if ok then
      let t := match b.newest with | some n => miss.foldl (fun (u : State) l => u.copyLine b n b.filling l) t | none => t
      let t := t.count (SRC_V_N_CONCEALED i) miss.length
      let t := if b.newest.isSome && b.newest != b.held then t.count (SRC_V_N_SKIPPED i) 1 else t
      let t := t.setFlag (SRC_VSTAT_NO_SIGNAL i) false
      t.updSrc i fun x => { x with rx := rx, newest := some b.filling, filling := nextFill b.filling b.newest b.held,
                                   tsrc := SMap.set (fun _ => 0) x.tsrc b.filling (sourceTime d ts b.rx.arrNt) }
    else (t.count (SRC_V_N_DISCARDED i) 1).updSrc i fun x => { x with rx := rx }

/-! ### Packets (R88, R91, R92, R97) -/

/-- Network time now, ns. -/
def State.netNs (s : State) : Int := (s.ns : Int) + s.ntoff

/-- A packet of a leg arrives: losses of that leg by the gap in its own sequence, the leg's highest number. -/
def legSeen (rx : StreamRx) (leg e : Nat) : Nat × StreamRx :=
  let h := SMap.get (fun _ => none) rx.legHigh leg
  let gap := match h with | some x => e - (x + 1) | none => 0
  let nh := match h with | some x => max x e | none => e
  (gap, { rx with legHigh := SMap.set (fun _ => none) rx.legHigh leg (some nh) })

/-- Stores a video packet's pixel groups in the filling buffer. -/
def State.storeSegs (s : State) (b : Bound) (segs : List (Nat × Nat × List Byte)) : State × List (Nat × Nat × Nat) :=
  segs.foldl (fun a g =>
    let off := g.2.1 * (sdpP4 b.b.sdp) / 4
    let bytes := g.2.2.take ((sdpLine b.b.sdp) - off)
    if g.1 < b.b.sdp.height then (a.1.ddrWrite (b.lineAt b.filling g.1 + off) bytes, (g.1, off, bytes.length) :: a.2) else a) (s, [])

/-- A video packet of a leg (R88, R91, R92). -/
def State.videoPacket (s : State) (b : Bound) (leg seq ts : Nat) (marker : Bool) (segs : List (Nat × Nat × List Byte)) : State :=
  let i := b.b.index
  let e := extendSeen 16 b.rx.seqHigh seq
  let x := extendSeen 32 b.rx.tsHigh ts
  let lg := legSeen { b.rx with lastAt := s.wtb } leg e
  let t := s.count (SRC_V_N_RX i) 1
  let t := if leg = 0 then t.count (SRC_V_N_LEGA i) lg.1 else t.count (SRC_V_N_LEGB i) lg.1
  match b.rx.got.find? fun g => g.1 == e with
  | some g =>
    let t := if g.2 + 640000000 < s.wtb then t.setFlag (SRC_VSTAT_PATH_SKEW i) true else t
    (t.count (SRC_V_N_DUP i) 1).updSrc i fun y => { y with rx := lg.2 }
  | none =>
    let closed := match b.rx.closedTs with | some c => decide (x ≤ c) | none => false
    let older := match b.rx.frameTs with | some f => decide (x < f) | none => false
    if closed || older then (t.count (SRC_V_N_LATE i) 1).updSrc i fun y => { y with rx := lg.2 }
    else
      -- a later timestamp closes the frame that was filling
      let b1 : Bound := { b with rx := { lg.2 with seqHigh := some (max e (lg.2.seqHigh.getD e)), tsHigh := some (max x (lg.2.tsHigh.getD x)) } }
      let later := match b.rx.frameTs with | some f => decide (f < x) | none => false
      let t := t.updSrc i fun _ => b1
      let t := if later then t.closeFrame b1 else t
      let b2 := (t.src.find? fun y => y.b.index == i).getD b1
      let rx := if b2.rx.frameTs.isNone then { b2.rx with frameTs := some x, firstAt := s.wtb, arrNt := s.netNs, segs := [] } else b2.rx
      let rx := { rx with got := ((e, s.wtb) :: rx.got).take 65536 }
      let st := t.storeSegs b2 segs
      let b3 : Bound := { b2 with rx := { rx with segs := st.2 ++ rx.segs } }
      let t := st.1.updSrc i fun _ => b3
      if marker then t.closeFrame b3 else t

/-- Where audio sample frame n lies in the ring. -/
def Bound.audioAt (b : Bound) (n : Nat) : Nat := b.base + n % 3072 * (b.b.sdp.channels * (b.b.sdp.depth / 8))

/-- An audio packet of a leg: its samples go to their place in the 64 ms ring, zeros into a gap before it (R97). -/
def State.audioPacket (s : State) (b : Bound) (leg seq ts : Nat) (data : List Byte) : State :=
  let i := b.b.index
  let a := i - 16
  let e := extendSeen 16 b.rx.seqHigh seq
  let x := extendSeen 32 b.rx.tsHigh ts
  let fb := b.b.sdp.channels * (b.b.sdp.depth / 8)
  let n := data.length / max 1 fb
  let rx := (legSeen { b.rx with lastAt := s.wtb } leg e).2
  let t := s.count (SRC_A_N_RX a) 1
  if b.rx.got.any fun g => g.1 == e then (t.count (SRC_A_N_DUP a) 1).updSrc i fun y => { y with rx := rx }
  else
    let hi := b.rx.tsHigh
    if (match hi with | some h => decide (x + 3072 ≤ h) | none => false) then
      (t.count (SRC_A_N_LATE a) 1).updSrc i fun y => { y with rx := rx }
    else
      let zero := match hi with
        | some h => (List.range (min 3072 (x - h))).foldl (fun (u : State) k => u.ddrWrite (b.audioAt (h + k)) (List.replicate fb 0)) t
        | none => t
      let t := (List.range n).foldl (fun (u : State) k => u.ddrWrite (b.audioAt (x + k)) ((data.drop (k * fb)).take fb)) zero
      let newMiss := match b.rx.seqHigh with | some h => (List.range (e - (h + 1))).map fun k => (h + 1 + k, s.wtb) | none => []
      let miss := (rx.missing ++ newMiss).filter fun m => m.1 != e
      let lost := miss.filter fun m => decide (m.2 + 640000000 < s.wtb)
      (t.count (SRC_A_N_LOST a) lost.length).updSrc i fun y =>
        { y with rx := { rx with seqHigh := some (max e (rx.seqHigh.getD e)), tsHigh := some (max (x + n) (hi.getD 0)),
                                 got := ((e, s.wtb) :: rx.got).take 4096, missing := miss.filter fun m => !lost.contains m } }

/-- The binding and leg that a packet's addresses match on a port (R82). -/
def State.matchLeg (s : State) (port dst dport src : Nat) : Option (Bound × Nat) :=
  s.src.findSome? fun b =>
    (b.b.sdp.legs.zipIdx.find? fun l => l.1.1 == port && l.1.2.1 == dst && l.1.2.2.1 == dport && (l.1.2.2.2 == 0 || l.1.2.2.2 == src)).map
      fun l => (b, l.2)

/-- SOURCE_FRAME_RX (R81). -/
def evSourceFrameRx (f : SrcFrame) (s : State) : State :=
  if s.tile || !s.flag (SRC_PCFG_EN f.port) || decide (4 ≤ f.port) || s.flag DDR_STAT_TRAIN_FAIL then s
  else if !f.fcs then s.count (SRC_N_PFCS f.port) 1
  else if 9216 < f.len ∨ 1 < f.tags then s.count (SRC_N_PUNM f.port) 1
  else match f.body with
    | .infra => s
    | .wcp dp => if dp = s.getF SYS_WCP_PORT then s else s.count (SRC_N_PUNM f.port) 1
    | .other => s.count (SRC_N_PUNM f.port) 1
    | .media dst dport src seq ts marker segs audio =>
      match s.matchLeg f.port dst dport src with
      | none => s.count (SRC_N_PUNM f.port) 1
      | some bl => if bl.1.b.sdp.video then s.videoPacket bl.1 bl.2 seq ts marker segs else s.audioPacket bl.1 bl.2 seq ts audio

/-- FRAME_CLOSE_TIMEOUT (R88): 1.5 source frame periods after its first packet the filling frame of a stream closes. -/
def evFrameCloseTimeout (i : Nat) (s : State) : State :=
  match s.src.find? fun b => b.b.index == i && b.b.sdp.video with
  | some b => s.closeFrame b
  | none => s

/-- The tenants of a stream, as a mask: the binding tenant and those it shares with. -/
def bindMask (b : Binding) : Nat := 2 ^ b.tenant ||| b.share % 2 ^ 16

/-- NO_SIGNAL (R90, R93): the stream has no newest complete frame any more; the held frame stays in use. -/
def evNoSignal (i : Nat) (s : State) : State :=
  match s.src.find? fun b => b.b.index == i with
  | some b =>
    let t := if i < 16 then s.setFlag (SRC_VSTAT_NO_SIGNAL i) true else s
    let t := t.updSrc i fun x => { x with newest := none }
    t.event 0x0002 (leBytes 1 i) (.tenants (bindMask b.b))
  | none => s

/-- PTP_SYNC_TIMEOUT (R281): NET_VALID is cleared, which loses NET. -/
def State.netLost (s : State) : State :=
  if s.netValid then
    let t := (s.setFlag REF_NET_NET_VALID false).count REF_N_NET_LOSS 1
    { t with tim := { t.tim with refs := SMap.set (fun _ => RefIn.init) t.tim.refs 2 { SMap.get (fun _ => RefIn.init) t.tim.refs 2 with since := none } } }.setF
      REF_STAT_STA_NET 0
  else s

/-- PTP_SYNC_TIMEOUT. -/
def evPtpSyncTimeout (s : State) : State := if s.tile then s else s.netLost

/-! ### Handover (R94 to R96) -/

/-- The present time that the wall frame starting at a tick will have: the tick plus the last flip's offset (R96). -/
def State.presentGuess (s : State) : Int :=
  match s.comp.frames.find? fun f => f.present.isSome with
  | some f => (s.ns : Int) + ((f.present.getD 0 : Nat) - (f.tmark / 64 : Nat) : Int)
  | none => s.ns

/-- The stream's newest frame may become held at this tick. -/
def State.handReady (s : State) (b : Bound) : Bool :=
  match b.newest with
  | none => false
  | some n =>
    b.held != some n &&
      (s.liveF (SRC_VCFG_TIMED b.b.index) == 0 ||
        decide (SMap.get (fun _ => 0) b.tsrc n + 1000 * (s.liveF (SRC_VDELAY_DELAY b.b.index) : Int) ≤ s.presentGuess + s.ntoff))

/-- At a tick each stream's newest frame becomes held, and the bands that read it are damaged (R94, R95). -/
def State.handover (s : State) : State :=
  s.src.foldl (fun t b =>
    let i := b.b.index
    if !b.b.sdp.video then t
    else if s.handReady b then
      let u := (t.updSrc i fun x => { x with held := b.newest }).setFlag (SRC_VSTAT_HELD_VALID i) true
      u.damageBands (coveredBands u.live ((layersOf u.regs).filter fun l => l.video && l.stream == i))
    else if b.held.isSome then t.count (SRC_V_N_REPEATED i) 1 else t) s

end Sys2Proof.Machine
end

