-- ==== Sys2Proof/Machine/Compose.lean ====
section
/-! DEFINITION. Machine/Compose.lean: composing a band's pixels (R103 to R111), running band jobs (R116, R117, R123, R124, R155), and the
frame tick (R125, R126, R274). -/

namespace Sys2Proof.Machine

/-! ### Blend order (R108, R110) -/

/-- The slots a zlist entry names: up to the first 0xFF, each once at its first depth, slot 63 left out. -/
def zlistSlots (bs : List Nat) : List Nat :=
  ((bs.takeWhile fun b => b != 0xFF).filter fun b => b != 63).reverse.dedup.reverse

/-- The bytes of a zlist entry. -/
def zlistBytes (m : SMap Word) (e : Nat) : List Nat :=
  (List.range 16).flatMap fun k => (leBytes 4 (rd m (COMP_ZLIST e k))).map fun b => b.toNat

/-- A selection's blend order, bottom first, slot 63 on top: the enabled layers of a generation. -/
def blendOrder (m : SMap Word) (zsel : Nat) : List Layer :=
  let slots := if 256 ≤ zsel then List.range 63 else zlistSlots (zlistBytes m zsel)
  ((slots ++ [63]).map fun k => layerOf m k).filter fun l => l.en

/-! ### Sources of pixels (R104 to R106) -/

/-- A working pixel: red, green, blue, 12 bits each. -/
abbrev Rgb := Nat × Nat × Nat

/-- A component of n bits widened to 12 by bit replication. -/
def widen (n v : Nat) : Nat := if n = 5 then v * 128 + v * 4 + v / 8 else if n = 6 then v * 64 + v else v * 16 + v / 16

/-- A graphic pixel and its A8 at byte offset a. -/
def State.graphicPixel (s : State) (fmt a : Nat) : Rgb × Nat :=
  let b := fun k => (s.ddrByte (a + k)).toNat
  if fmt = 0 then
    let w := b 0 + 256 * b 1
    ((widen 5 (w / 2048 % 32), widen 6 (w / 32 % 64), widen 5 (w % 32)), 255)
  else if fmt = 1 then ((widen 8 (b 2), widen 8 (b 1), widen 8 (b 0)), 255)
  else ((widen 8 (b 2), widen 8 (b 1), widen 8 (b 0)), b 3)

/-- Bits k up to k + n of a line of bytes, most significant first. -/
def State.bitsAt (s : State) (a k n : Nat) : Nat :=
  (List.range n).foldl (fun v i => 2 * v + ((s.ddrByte (a + (k + i) / 8)).toNat / 2 ^ (7 - (k + i) % 8)) % 2) 0

/-- Sample k of a line of a video buffer, of the stream's depth. -/
def State.sample (s : State) (b : Bound) (buf line k : Nat) : Int :=
  (s.bitsAt (b.lineAt buf line) (k * b.b.sdp.depth) b.b.sdp.depth : Nat)

/-- Red, green and blue weights of the luma of a primaries pair, in 1/10,000 (BT.709, BT.2020). -/
def lumaKrKb (colr : Nat) : Int × Int := if colr = 0 then (2126, 722) else (2627, 593)

/-- A code to 12 bits: (code − zero) × 4,095 / span, held to 0 to 4,095. -/
def to12 (num : Int) (den : Nat) : Nat := (clampInt 0 4095 (roundDiv num den)).toNat

/-- One source pixel in 12-bit RGB before the transfer stages (R105 steps 1 and 2). -/
def State.sourceRgb (s : State) (b : Bound) (buf x y : Nat) : Rgb :=
  let d := b.b.sdp
  let u : Int := (2 ^ (d.depth - 8) : Nat)
  let full : Int := ((2 ^ d.depth - 1 : Nat) : Int)
  let zero : Int := if d.full then 0 else 16 * u
  let span : Nat := if d.full then 2 ^ d.depth - 1 else 219 * 2 ^ (d.depth - 8)
  if d.samp = 2 then
    let c := fun k => to12 ((s.sample b buf y (3 * x + k) - zero) * 4095) span
    (c 0, c 1, c 2)
  else
    let cAt := fun (k : Nat) (cr : Nat) => s.sample b buf y (4 * k + 2 * cr)
    let last := (d.width - 1) / 2
    let chroma := fun cr => if d.samp = 1 then s.sample b buf y (3 * x + 2 * cr)
      else if x % 2 = 0 then cAt (x / 2) cr else roundDiv (cAt (x / 2) cr + cAt (min last (x / 2 + 1)) cr) 2
    let yv := (if d.samp = 1 then s.sample b buf y (3 * x + 1) else s.sample b buf y (4 * (x / 2) + 1 + 2 * (x % 2))) - zero
    let mid : Int := 128 * u
    let cspan : Int := if d.full then full else 224 * u
    let cb := chroma 0 - mid
    let cr := chroma 1 - mid
    let kk := lumaKrKb d.colr
    let kg := 10000 - kk.1 - kk.2
    -- over the common denominator span * cspan * 10,000 * kg
    let den : Nat := (span : Int).toNat * cspan.toNat * 10000 * kg.toNat
    let yy := yv * cspan * 10000 * kg
    let rr := yy + 2 * (10000 - kk.1) * cr * span * kg
    let bb := yy + 2 * (10000 - kk.2) * cb * span * kg
    let gg := yy - 2 * (10000 - kk.2) * kk.2 * cb * span - 2 * (10000 - kk.1) * kk.1 * cr * span
    (to12 (rr * 4095) den, to12 (gg * 4095) den, to12 (bb * 4095) den)

/-- A source pixel in the wall's transfer characteristic and primaries (R105 step 3); coordinates beyond the frame edge repeat it. -/
def State.videoAt (s : State) (g : CompGen) (b : Bound) (buf : Nat) (x y : Int) : Rgb :=
  let d := b.b.sdp
  let p := s.sourceRgb b buf (clampInt 0 (d.width - 1 : Int) x).toNat (clampInt 0 (d.height - 1 : Int) y).toNat
  let tf := rdF g.live COMP_ENC_TF
  let prim := rdF g.live COMP_ENC_PRIM
  let sp := if d.colr = 0 then 0 else 1
  if d.tcs = tf ∧ sp = prim then p
  else
    let c := Config.colourConvert d.tcs sp tf prim p
    (c.1 % 4096, c.2.1 % 4096, c.2.2 % 4096)

/-- The taps of one axis for output offset o (R104): source position, weight; an unscaled axis passes one sample through. -/
def State.taps (s : State) (table axis : Nat) (low : Bool) (src : Nat) (n dst : Nat) (o : Nat) : List (Int × Int) :=
  if n = dst then [((src + o : Nat), 256)]
  else
    -- s = SRC + (o + 0.5) * n / dst - 0.5, over 2 * dst
    let num : Int := ((2 * o + 1) * n : Nat) - (dst : Int) + 2 * dst * src
    let den : Int := 2 * dst
    let i := num / den
    let ph := (64 * (num - i * den) / den).toNat
    let back : Int := if axis = 0 then 3 else 2
    let cnt := if axis = 0 then 8 else 6
    let ks := if low then (if axis = 0 then [2, 3, 4, 5] else [2, 3]) else List.range cnt
    ks.map fun (k : Nat) => (i - back + (k : Int), signed 16 (SMap.get Config.coefDefault s.comp.coef (((table * 2 + axis) * 64 + ph) * 8 + k)).toNat)

/-- Sum of the weights of taps: 256 at full quality, the sum of those used in reduced quality. -/
def tapSum (low : Bool) (scaled : Bool) (ts : List (Int × Int)) : Int := if low && scaled then ts.foldl (fun a t => a + t.2) 0 else 256

/-- A video layer's pixel at a wall position; without a held frame, or where reduced weights sum to 0, a value the manual leaves open. -/
def State.videoPixel (s : State) (g : CompGen) (l : Layer) (x y : Nat) : Rgb :=
  let fr := fun k => s.free ((x * 65536 + y) * 4 + k) 12
  match s.src.find? fun b => b.b.index == l.stream && b.b.sdp.video with
  | none => (fr 0, fr 1, fr 2)
  | some b =>
    match b.held with
    | none => (fr 0, fr 1, fr 2)
    | some buf =>
      let low := s.flag COMP_QUAL_FORCE_LOW
      let hs := s.taps l.hcoef 0 low l.sx l.sw l.dw ((x : Int) - l.dx).toNat
      let vs := s.taps l.vcoef 1 low l.sy l.sh l.dh ((y : Int) - l.dy).toNat
      let den := tapSum low (l.sw != l.dw) hs * tapSum low (l.sh != l.dh) vs
      if den = 0 then (fr 0, fr 1, fr 2)
      else
        let px := vs.flatMap fun v => hs.map fun h => (v.2 * h.2, s.videoAt g b buf h.1 v.1)
        let sum := fun (c : Rgb → Nat) => px.foldl (fun a e => a + e.1 * (c e.2 : Int)) 0
        let out := fun (c : Rgb → Nat) => to12 (if 0 < den then sum c else - sum c) den.natAbs
        (out fun p => p.1, out fun p => p.2.1, out fun p => p.2.2)

/-- A layer's pixel and alpha A8 at a wall position. -/
def State.layerPixel (s : State) (g : CompGen) (l : Layer) (x y : Nat) : Rgb × Nat :=
  if l.video then (s.videoPixel g l x y, 255)
  else
    let base := (if l.front = 0 then l.baseA else l.baseB) * 64
    let lx := l.sx + ((x : Int) - l.dx).toNat
    let ly := l.sy + ((y : Int) - l.dy).toNat
    s.graphicPixel l.fmt (base + ly * 64 * l.stride + lx * fmtBytes l.fmt)

/-! ### Blending (R107) -/

/-- One component blended. -/
def blend1 (mode galpha a8 dst src : Nat) : Nat :=
  let a : Int := a8 * galpha
  let d : Int := dst
  let c : Int := src
  if mode = 2 then src
  else if mode = 1 then to12 (c * galpha * 255 + (65025 - a) * d) 65025
  else to12 (d * 65025 + a * (c - d)) 65025

/-- A layer blended onto a pixel. -/
def blendPixel (l : Layer) (dst : Rgb) (src : Rgb × Nat) : Rgb :=
  let f := blend1 l.blend l.galpha src.2
  (f dst.1 src.1.1, f dst.2.1 src.1.2.1, f dst.2.2 src.1.2.2)

/-- The 10-bit code of a component. -/
def code10 (v : Nat) : Nat := min 1023 ((v + 2) / 4)

/-- The pixel code of a working pixel. -/
def pixelCode (p : Rgb) : Word := BitVec.ofNat 32 (code10 p.1 * 2 ^ 20 + code10 p.2.1 * 2 ^ 10 + code10 p.2.2)

/-- The background in working format. -/
def bgPixel (w : Nat) : Rgb := (4 * (w / 2 ^ 20 % 1024), 4 * (w / 2 ^ 10 % 1024), 4 * (w % 1024))

/-- A band's pixel codes in raster order, the layers composed bottom first. -/
def State.composeBand (s : State) (g : CompGen) (ls : List Layer) (geo : Geo) (k : Nat) : List Word :=
  let bg := bgPixel (rdF g.live COMP_BG_BG)
  (List.range (bandPixels geo k)).map fun i =>
    let x := geo.x + i % geo.w
    let y := geo.y + 16 * k + i / geo.w
    pixelCode (ls.foldl (fun p l => if l.at x y then blendPixel l p (s.layerPixel g l x y) else p) bg)

/-! ### The protected region (R111) -/

/-- One byte of CRC-32C, reflected. -/
def crcByte (c : Word) (b : Nat) : Word :=
  (List.range 8).foldl (fun v _ => if v.getLsbD 0 then (v >>> 1) ^^^ 0x82F63B78 else v >>> 1) (c ^^^ BitVec.ofNat 32 b)

/-- CRC-32C of a byte list. -/
def crc32c (bs : List Nat) : Word := (bs.foldl crcByte 0xFFFFFFFF) ^^^ 0xFFFFFFFF

/-- CRC-32C over pixel codes, four bytes each, little-endian. -/
def crcPixels (ps : List Word) : Word := crc32c (ps.flatMap fun p => (leBytes 4 p.toNat).map fun b => b.toNat)

/-- A layer's rectangle within a band, relative to it: x, width, y, height. -/
def Layer.rect (l : Layer) (g : Geo) (k : Nat) : Nat × Nat × Nat × Nat :=
  let sp := l.span g k
  ((max l.dx g.x - g.x).toNat, sp.1, (max l.dy ((g.y + 16 * k : Nat) : Int) - ((g.y + 16 * k : Nat) : Int)).toNat, sp.2)

/-- The pixels of a rectangle of a band, raster order. -/
def regionPixels (w : Nat) (r : Nat × Nat × Nat × Nat) (px : List Word) : List Word :=
  ((List.range px.length).zip px).filterMap fun e =>
    let x := e.1 % max 1 w
    let y := e.1 / max 1 w
    if decide (r.1 ≤ x) && decide (x < r.1 + r.2.1) && decide (r.2.2.1 ≤ y) && decide (y < r.2.2.1 + r.2.2.2) then some e.2 else none

/-- The packet of a composed band (Table 5-7). -/
def State.bandPacket (s : State) (g : CompGen) (ls : List Layer) (geo : Geo) (j : Job) : BandPkt :=
  let px := s.composeBand g ls geo j.band
  let p := layerOf g.regs 63
  let has := p.covers geo j.band
  let r := if has then p.rect geo j.band else (0, 0, 0, 0)
  { ftag := j.fcnt % 65536, band := j.band, lines := bandLines geo.h j.band, width := geo.w, preg := has, px := r.1, pw := r.2.1,
    py := r.2.2.1, ph := r.2.2.2, pcrc := if has then crcPixels (regionPixels geo.w r px) else 0, pixels := px }

/-- V of each composed layer in a band (R350): its pixels with GALPHA at least 1 and no opaque layer above. -/
def visibleCounts (ls : List Layer) (geo : Geo) (k : Nat) : List (Nat × Nat) :=
  ls.zipIdx.map fun e =>
    let above := ls.drop (e.2 + 1)
    (e.1.slot, ((List.range (bandPixels geo k)).filter fun i =>
      let x := geo.x + i % geo.w
      let y := geo.y + 16 * k + i / geo.w
      decide (1 ≤ e.1.galpha) && e.1.at x y && !(above.any fun a => a.blend == 2 && a.at x y)).length)

/-! ### Jobs (R116, R117, R123, R124) -/

/-- LIT_RETURN: the part leaves BANKED when new work comes (R439, R554). -/
def State.litReturn (s : State) : State :=
  if s.getF EMB_PWR_STATE = 1 then
    let t := s.setF EMB_PWR_STATE 0
    if t.flag TRACE_CTRL_MARKPWR then t.traceMark 8 0 else t
  else s

/-- The frame of a job. -/
def State.frameOf (s : State) (fcnt : Nat) : FrameRec := (s.comp.frames.find? fun f => f.fcnt == fcnt).getD s.curFrame

/-- The band deadline of a job, WTB units (R117). -/
def State.deadline (s : State) (j : Job) : Nat := (s.frameOf j.fcnt).tmark + 64 * s.getF FSQ_DL_DEADLINE

/-- Cost in ns of what remains: 64 and the larger of N_b and Σ A × c (R123). -/
def remCost (ls : List Layer) (geo : Geo) (k : Nat) : Nat := 64 + max (bandPixels geo k) (Frac.ceil (cycSum ls geo k))

/-- The omissions at one check: while the time plus the remaining cost lies beyond the deadline, the highest slot but 63 of those left
goes (R123). Fuel: the number of layers. -/
def omitLoop : Nat → List Layer → Geo → Nat → Nat → Nat → List Nat → List Nat
  | 0, _, _, _, _, _, o => o
  | n + 1, left, geo, k, t, dl, o =>
    let l2 := left.filter fun l => !o.contains l.slot
    if t + 64 * remCost l2 geo k ≤ dl then o
    else match (l2.filter fun l => l.slot != 63).foldl (fun m l => max m (l.slot + 1)) 0 with
      | 0 => o
      | m + 1 => omitLoop n left geo k t dl (o ++ [m])

/-- The checks before each layer, at the times that elapse: (layers left, elapsed ns) steps. A layer already omitted is passed over. -/
def omitAll : List Layer → List Nat → Nat → Geo → Nat → Nat → Nat → List Nat → List Nat
  | [], _, _, _, _, _, _, o => o
  | l :: ls, ts, prev, geo, k, start, dl, o =>
    if o.contains l.slot then omitAll ls ts prev geo k start dl o
    else
      let e := match ts with | t :: _ => t | [] => prev
      omitAll ls ts.tail e geo k start dl (omitLoop (ls.length + 1) (l :: ls) geo k (start + 64 * e) dl o)

/-- BAND_JOB_START: engine e takes the oldest job it may run; the times are the ns since the start at each layer's check. -/
def evBandJobStart (e : Nat) (times : List Nat) (s : State) : State :=
  if s.tile || decide (4 ≤ e) || (s.getF COMP_STAT_ENG_BUSY).testBit e then s
  else match s.comp.jobs.find? fun j => j.eng.testBit e with
  | none => s
  | some j =>
    let t := State.feed { s.litReturn with comp := { s.comp with jobs := s.comp.jobs.erase j } }
    let g := t.genOf j.gen
    let geo := geoOf g.live j.port j.pos
    if t.flag SUP_STAT_VSAG_WARN then (t.damageBands [(j.port, j.pos, j.band)]).jobsCheck
    else
      let dl := t.deadline j
      let a63 := if (layerOf g.regs 63).en then (layerOf g.regs 63).area geo j.band else 0
      if dl < t.wtb + 64 * (64 + bandPixels geo j.band + a63) then t.missJob j
      else
        let f := t.frameOf j.fcnt
        let sch := match f.present with
          | some pt => if f.pports.testBit j.port then t.schedule j (t.jobBytes j) (45 * t.wtb + 2880 * t.jobCost j) pt else some (t, false)
          | none => some (t, false)
        match sch with
        | none => t.schedDrop j
        | some r =>
          let ls := (blendOrder g.regs j.zsel).filter fun l => l.covers geo j.band
          let om := omitAll ls times 0 geo j.band t.wtb dl []
          let u := om.foldl (fun v k => ((v.count (COMP_N_OMIT k) 1).setFlag COMP_STAT_OMIT true).raiseFsq 6) r.1
          let u := u.setF COMP_STAT_ENG_BUSY (u.getF COMP_STAT_ENG_BUSY ||| 2 ^ e)
          { u with comp := { u.comp with running := u.comp.running ++ [{ j with eng := e, start := t.wtb, omitted := om, far := r.2 }] } }

/-- The engine of a job is idle again. -/
def State.freeEngine (s : State) (j : Job) : State :=
  State.engRegs { s with comp := { s.comp with running := s.comp.running.erase j } }

/-- BAND_JOB_COMPLETE: engine e has written its job's last pixel, or a DDR5 read it needed was uncorrectable. -/
def evBandJobComplete (e : Nat) (ue : Bool) (s : State) : State :=
  match s.comp.running.find? fun j => j.eng == e with
  | none => s
  | some j =>
    let t := s.freeEngine j
    let f := t.frameOf j.fcnt
    let unsent := f.present.isNone && f.next.isSome
    if ue || decide (t.deadline j < t.wtb) then (t.missJob j).releasePort j.port
    else if unsent then ((t.count (COMP_N_MISSED j.port) 1).damageBands [(j.port, j.pos, j.band)]).jobsCheck
    else
      let g := t.genOf j.gen
      let geo := geoOf g.live j.port j.pos
      let ls := (blendOrder g.regs j.zsel).filter fun l => l.covers geo j.band && !j.omitted.contains l.slot
      let vis := visibleCounts ls geo j.band
      let pkt := t.bandPacket g ls geo j
      let u := t.freed.updFrame j.fcnt fun x =>
        { x with vis := { port := j.port, pos := j.pos, band := j.band, vis := vis, omitted := j.omitted } :: x.vis }
      let u : State := { u with pop := { u.pop with intended := SMap.set (fun _ => []) u.pop.intended (bandKey j.port j.pos j.band) vis },
                                comp := { u.comp with cordq := u.comp.cordq ++ [(j.port, j.pos, pkt, j.fcnt, j.far)] } }
      let u := if j.omitted.isEmpty then u else u.damageBands [(j.port, j.pos, j.band)]
      (u.releasePort j.port).jobsCheck

/-- BAND_DEADLINE (R117): the band deadline of a frame passes; its jobs not started or not complete are discarded and missed. -/
def evBandDeadline (fc : Nat) (s : State) : State :=
  if s.tile then s else
  let due := fun (j : Job) => j.fcnt == fc
  let gone := (s.comp.running ++ s.comp.jobs ++ s.comp.backlog).filter due
  let t := (s.comp.running.filter due).foldl (fun (u : State) j => u.freeEngine j) s
  let t := State.feed { t with comp := { t.comp with jobs := t.comp.jobs.filter fun j => !due j, backlog := t.comp.backlog.filter fun j => !due j } }
  let t := gone.foldl (fun (u : State) j => u.missJob j) t
  t.eachPort 255 fun u p => u.releasePort p

/-- MARK_SENT (Table 2-2). -/
def evMarkSent (s : State) : State := s.raiseFsq 1

/-- PRESENT_TIME_REACHED (R127). -/
def evPresentTimeReached (s : State) : State := s.raiseFsq 2

/-- ACK_WINDOW_CLOSE (R118): the window of the oldest flip that still waits closes. -/
def evAckWindowClose (s : State) : State :=
  if s.tile then s else
  match s.comp.frames.reverse.find? fun f => f.present.isSome && !f.ev3 with
  | some f => s.flipClose f
  | none => s

/-- POP_FRAME_EVAL_TIMEOUT (R351): COMP_ACKWIN after the mark that followed it, a frame without PRESENT is evaluated. -/
def evPopFrameEvalTimeout (s : State) : State :=
  match s.comp.frames.reverse.find? fun f => f.present.isNone && f.next.isSome && !f.popDone with
  | some f => s.popEval f.fcnt
  | none => s

/-! ### The frame tick (R94, R125, R126, R274, R297) -/

/-- The layers of the slots that a change waits on, before or after it. -/
def changedBands (live : SMap Word) (before after : SMap Word) (slots : List Nat) : List (Nat × Nat × Nat) :=
  coveredBands live ((slots.flatMap fun k => [layerOf before k, layerOf after k]).filter fun l => l.en)

/-- The registers of the shadow copies of R126. -/
def shadowRegs : List Nat :=
  [COMP_WALL, COMP_ENC, COMP_BG] ++ (List.range 512).flatMap fun i => [COMP_GEO_XY i, COMP_GEO_WH i]

/-- The shadow copies as they would be in force. -/
def State.shadowLive (s : State) : SMap Word := shadowRegs.foldl (fun m a => SMap.set regReset m a (s.reg a)) s.live

/-- The shadow copies keep R98 and R99. -/
def shadowOk (m : SMap Word) : Bool := wallOk m && portPos.all fun pq => geoEntryOk m pq.1 pq.2

/-- The scheduled shadow copies take effect, or nothing of them does and GEO_ERR is set. -/
def State.applyGeo (s : State) : State :=
  if !s.flag COMP_STAT_GEO_PEND then s
  else
    let t := s.setFlag COMP_STAT_GEO_PEND false
    let m := s.shadowLive
    if !shadowOk m then t.setFlag COMP_STAT_GEO_ERR true
    else
      let encBg := rd m COMP_ENC != rd s.live COMP_ENC || rd m COMP_BG != rd s.live COMP_BG
      let tf := rd m COMP_ENC != rd s.live COMP_ENC
      let t : State := { t with live := m }
      let ch := (allBands m).filter fun b => encBg || geoOf m b.1 b.2.1 != geoOf s.live b.1 b.2.1
      let t := t.damageBands ch
      if tf then t.allTiles.foldl (fun u pq => u.sendLampTf pq.1 pq.2) t else t

/-- Pending descriptor and zlist changes take effect: descriptors and entries become those accepted, and the bands they cover are
damaged. -/
def State.applyLayers (s : State) : State :=
  let before := s.regs
  let t := s.comp.touched.foldl (fun (u : State) k => (List.range 8).foldl (fun v i => v.setReg (COMP_DESC k i) (SMap.get regReset s.comp.acc (COMP_DESC k i))) u) s
  let t := s.comp.ztouched.foldl (fun (u : State) e => (List.range 16).foldl (fun v i => v.setReg (COMP_ZLIST e i) (SMap.get regReset s.comp.acc (COMP_ZLIST e i))) u) t
  let bs := changedBands t.live before t.regs s.comp.touched
  let zp := (List.range 8).filter fun p => s.comp.ztouched.contains (SMap.get (fun _ => 256) s.comp.zsel p)
  let t := t.damageBands (bs ++ zp.flatMap fun p => portBands t.live p)
  let flips := s.comp.touched.filter fun k => s.comp.written.contains k &&
    (layerOf before k).front != (layerOf t.regs k).front
  { t with comp := { t.comp with touched := [], ztouched := [], unloaded := t.comp.unloaded.filter (fun k => !flips.contains k),
                                 held := t.comp.held.map fun h => if s.comp.touched.contains h.slot then { h with applied := true } else h } }

/-- Something waits for a tick. -/
def State.changePending (s : State) : Bool :=
  !s.comp.touched.isEmpty || !s.comp.ztouched.isEmpty || s.flag COMP_STAT_GEO_PEND

/-- DESCRIPTOR_APPLY: all pending changes take effect as a new generation, or wait while jobs of the older one are outstanding (R125). -/
def State.descApply (s : State) : State :=
  if !s.changePending then s
  else if (s.comp.jobs ++ s.comp.backlog ++ s.comp.running).any fun j => j.gen != s.comp.gen then
    (s.count COMP_N_DEFER 1).setFlag COMP_STAT_DEFER true
  else
    let g := s.comp.gen
    let gens := if s.comp.gens.any fun e => e.1 == g then s.comp.gens
                else (g, { regs := compSlice s.regs, live := compSlice s.live }) :: s.comp.gens
    let t := (State.applyGeo { s with comp := { s.comp with gens := gens } }).applyLayers
    State.pruneFrames { t with comp := { t.comp with gen := g + 1 } }

/-- The tick that R297 waits for sets the counter so that the first mark carries F_HB + k, and no tick before it reaches the FSQ; the
flag says whether EV0 is raised. -/
def State.holdStep (s : State) : State × Bool :=
  match s.comp.holdTick with
  | none => (s, true)
  | some h =>
    let n := s.comp.ticks + 1
    let t : State := { s with comp := { s.comp with ticks := n } }
    if s.wtb < h then (t, false)
    else
      let t : State := { t with comp := { t.comp with holdTick := none } }
      match s.clm.hbPart with
      | some x => if x.2.fcnt ≠ 0 ∧ (x.2.state = 3 ∨ x.2.state = 4) then (t.setFcnt ((x.2.fcnt + n - 1) % 2 ^ 40), true) else (t, true)
      | none => (t, true)

/-- Registers whose writes wait for the tick: the frame period and offset, and the intake's handover settings (R274, Table 3-6). -/
def tickRegs : List Nat :=
  [FSQ_FPER, REF_FOFF] ++ (List.range 16).flatMap fun i => [SRC_VCFG i, SRC_VDELAY i, SRC_VCONC i]

/-- The tick's number on the frame grid. -/
def State.tickNo (s : State) : Nat := (s.wtb - (s.liveReg REF_FOFF).toNat % max 1 s.fper) / max 1 s.fper

end Sys2Proof.Machine
end

