-- ==== Sys2Proof/Machine/RegRules.lean ====
section
/-! DEFINITION. Machine/RegRules.lean: which values a register write may carry: the ranges of the register tables and the conditions
that single registers add (R6, R208, R218, R221, R277, R285, R315, R470, R476, R484). A write refused here has no effect and returns an
error response. -/

namespace Sys2Proof.Machine

/-- A field's bits in a word about to be written. -/
def fieldIn (v : Word) (f : Field) : Nat := bitsOf v.toNat f.hi f.lo

/-- Every writable field with a stated refusal holds a value of its range. -/
def rangesOk (d : RegDef) (v : Word) : Bool :=
  d.fields.all fun f =>
    match f.acc, f.range with
    | .rw, some r | .rws, some r | .rwl, some r =>
      decide (r.1 ≤ bitsOf v.toNat f.hi f.lo) && decide (bitsOf v.toNat f.hi f.lo ≤ r.2)
    | _, _ => true

/-- The write would change one of the register's writable fields. -/
def State.changes (s : State) (a : Nat) (v : Word) : Bool :=
  match regDef a with
  | some d => writtenWord d (s.reg a) v != s.reg a
  | none => false

/-- A PIN write (R208, Table 7-9); run says which PSQs run. -/
def State.pinWriteOk (s : State) (run : Nat → Bool) (a : Nat) (v : Word) : Bool :=
  let o := a - 0xC0000
  if o < 0x800 then
    let p := o / 8
    if o % 8 = 0 then
      let d := fieldIn v (PIN_PCFG0_DESKEW p)
      (decide (d ≤ 128) || decide (384 ≤ d)) && !(run (p / 32) && s.changes a v)
    else !(run (p / 32) && decide (fieldIn v (PIN_PCFG1_SLOPE p) ≠ s.getF (PIN_PCFG1_SLOPE p)))
  else if o < 0x880 ∧ o % 16 = 0 then !(run ((o - 0x800) / 16) && s.changes a v)
  else true

/-- A PSQ write: the generator, element and deep-capture registers only while the PSQ is stopped, and never an own-bank trigger output
(R218, R221, Table 7-8). -/
def State.psqWriteOk (s : State) (run : Nat → Bool) (a : Nat) (v : Word) : Bool :=
  let n := (a - 0xB0000) / 0x1000
  let o := (a - 0xB0000) % 0x1000
  if 8 ≤ n then true
  else if o = 0x20 then fieldIn v (PSQ_TRIGIN_SRC n) != 32 + n
  else if (0x60 ≤ o ∧ o < 0x74) ∨ (0x80 ≤ o ∧ o < 0xA0) ∨ o = 0xA0 then !run n
  else if o = 0xA4 then !run n && (fieldIn v (PSQ_DEEP_CFG_EN n) == 0 || (s.tile && s.flag LANE_STAT_DDR_REC))
  else true

/-- The camera's sizes allow a frame: every value in its range and the stride long enough (R470). -/
def camSizeOk (size stride : Word) : Bool :=
  let x := fieldIn size CAM_SIZE_XSIZE
  let y := fieldIn size CAM_SIZE_YSIZE
  decide (32 ≤ x) && decide (x ≤ 8192) && decide (18 ≤ y) && decide (y ≤ 8192) &&
    decide (1 ≤ fieldIn stride CAM_STRIDE_STRIDE) && decide (ceilDiv (2 * x) 64 ≤ fieldIn stride CAM_STRIDE_STRIDE)

/-- A CAM write (R470, R476). -/
def State.camWriteOk (s : State) (run : Nat → Bool) (a : Nat) (v : Word) : Bool :=
  let en := s.flag CAM_CFG_EN
  if a = CAM_CFG then
    fieldIn v CAM_CFG_EN == 0 || en || (!run 0 && camSizeOk (s.reg CAM_SIZE) (s.reg CAM_STRIDE))
  else if a = CAM_SIZE then !en || camSizeOk v (s.reg CAM_STRIDE)
  else if a = CAM_STRIDE then !en || camSizeOk (s.reg CAM_SIZE) v
  else if CAM_PSET 0 ≤ a ∧ a < CAM_PSET 8 then !s.flag CAM_STAT_PPEND
  else true

/-- A TIM source code that Table 10-3 defines. -/
def timSourceOk (c : Nat) : Bool :=
  decide (c < 0x100) || c == 0x100 || c == 0x101 || (decide (0x110 ≤ c) && decide (c ≤ 0x119)) ||
    (decide (0x120 ≤ c) && decide (c ≤ 0x129)) || c == 0x130 || c == 0x131

/-- A TIM channel that the part owns (R277). -/
def State.timOwned (s : State) (c : Nat) : Bool := c == 12 || c == 13 || (s.tile && (c == 14 || c == 15))

/-- A TIM write: no configuration of a part-owned channel, no undefined source (R277, R285). -/
def State.timWriteOk (s : State) (a : Nat) (v : Word) : Bool :=
  let c := (a - 0xD0100) / 0x40
  let o := (a - 0xD0100) % 0x40
  if a < 0xD0100 ∨ 16 ≤ c then true
  else if o < 0x18 ∧ s.timOwned c then false
  else if o = 0 then timSourceOk (fieldIn v (TIM_CFG_START c)) && timSourceOk (fieldIn v (TIM_CFG_STOP c))
  else true

/-- What single registers ask beyond their fields' ranges. -/
def State.specialOk (s : State) (run : Nat → Bool) (a : Nat) (v : Word) : Bool :=
  match a / 0x10000 with
  | 4 => if a = DDR_PANIC then decide (fieldIn v DDR_PANIC_CE_LO < fieldIn v DDR_PANIC_CE_HI) &&
      decide (fieldIn v DDR_PANIC_AUD_LO < 4 * fieldIn v DDR_PANIC_AUD_HI) else true
  | 9 =>
    let member := s.getF CLM_STAT_STATE == 2 || s.getF CLM_STAT_STATE == 3
    if a = CLM_PAIR then !member && fieldIn v CLM_PAIR_POS_A != fieldIn v CLM_PAIR_POS_B
    else if a = CLM_CFG then !(member && fieldIn v CLM_CFG_EXTREF != s.getF CLM_CFG_EXTREF)
    else true
  | 10 => if a = LAMP_DERATE then decide (signed 16 (fieldIn v LAMP_DERATE_TD_START) < signed 16 (fieldIn v LAMP_DERATE_TD_END)) else true
  | 11 => s.psqWriteOk run a v
  | 12 => s.pinWriteOk run a v
  | 13 => s.timWriteOk a v
  | 19 => if a = AGE_AVSLIM then decide (fieldIn v AGE_AVSLIM_AVS_MIN ≤ fieldIn v AGE_AVSLIM_AVS_MAX) else true
  | 20 => s.camWriteOk run a v
  | 21 =>
    let n := (a - 0x150100) / 0x40
    if a < 0x150100 ∨ (a - 0x150100) % 0x40 ≠ 0 then true
    else !s.flag (AUD_CFG_EN n) || (v ||| 3#32) &&& 0xFF1FFF#32 == (s.reg a ||| 3#32) &&& 0xFF1FFF#32
  | 23 => if 0x170100 ≤ a ∧ (a - 0x170100) % 0x40 = 8 then fieldIn v (LANE_ESCAN_CFG_VOFF 0) != 0x80 else true
  | _ => true

/-- The register takes the value; run says which PSQs run. -/
def State.regAccepts (s : State) (run : Nat → Bool) (a : Nat) (v : Word) : Bool :=
  match regDef a with
  | some d => rangesOk d v && s.specialOk run a v
  | none => true

/-- PSQn runs. -/
def State.bankRuns (s : State) (n : Nat) : Bool := s.flag (PSQ_STAT_RUN n)

end Sys2Proof.Machine
end

