-- ==== Sys2Proof/Machine/Dset.lean ====
section
/-! DEFINITION. Machine/Dset.lean: drive program sets (R74, R515) and frame program uploads (R514): their formats, loading, staging and the
switch (R75, R76). -/

namespace Sys2Proof.Machine

/-- A drive program set read from its payload: an image or none for each bank, and its register pairs. -/
structure Dset where
  images : List (Option SeqImage)
  pairs : List (Nat × Word)
  deriving DecidableEq, Repr

/-- The register pairs of a payload, as they stand. -/
def dsetPairsOf (bs : List Byte) : List (Nat × Word) :=
  (List.range (leAt bs 4 4)).map fun i => (leAt bs (72 + 8 * i) 4, BitVec.ofNat 32 (leAt bs (76 + 8 * i) 4))

/-- A register that a pair may name (R515). -/
def pairAllowed (mask a : Nat) : Bool :=
  let o := a % 0x10000
  a % 4 == 0 && match a / 0x10000 with
  | 0x0A => decide (0x200 ≤ o) && decide (o ≤ 0x29C)
  | 0x0B => decide (o < 0x8000) && mask.testBit (o / 0x1000) &&
      (let r := o % 0x1000
       (decide (0x1C ≤ r) && decide (r ≤ 0x24)) || (decide (0x60 ≤ r) && decide (r ≤ 0x9C)))
  | 0x0C =>
    if o < 0x800 then mask.testBit (o / 0x100)
    else decide (o < 0x880) && o % 16 == 0 && mask.testBit ((o - 0x800) / 16)
  | 0x13 => decide (0x20 ≤ o) && decide (o ≤ 0x3C)
  | _ => false

/-- Two directory entries lie apart. -/
def apart (a b : Nat × Nat) : Bool := decide (a.1 + a.2 ≤ b.1) || decide (b.1 + b.2 ≤ a.1)

/-- The directory: offset and length of each bank's image. -/
def dsetDir (bs : List Byte) : List (Nat × Nat) := (List.range 8).map fun n => (leAt bs (8 + 8 * n) 4, leAt bs (12 + 8 * n) 4)

/-- Bank n's image at its directory entry: a PSQ image of that bank (R74, R515). -/
def dsetImage (bs : List Byte) (n : Nat) (e : Nat × Nat) : Option SeqImage :=
  if e.1 + e.2 ≤ bs.length then
    match parseImage ((bs.drop e.1).take e.2) with
    | some i => if i.hdr.profile = 1 ∧ i.hdr.bank = n then some i else none
    | none => none
  else none

/-- Reads a set, or refuses it (R515). -/
def State.dsetParse (s : State) (bs : List Byte) : Option Dset :=
  let mask := leAt bs 2 1
  let dir := dsetDir bs
  let used := (List.range 8).filter fun n => mask.testBit n
  let imgs := (List.range 8).map fun n => if mask.testBit n then dsetImage bs n (dir.getD n (0, 0)) else none
  if decide (72 ≤ bs.length) && leAt bs 0 2 == 1 && leAt bs 3 1 == 0 && decide (72 + 8 * leAt bs 4 4 ≤ bs.length) &&
      (List.range 8).all (fun n => mask.testBit n || dir.getD n (0, 0) == (0, 0)) &&
      used.all (fun n => (imgs.getD n none).isSome) &&
      used.all (fun n => used.all fun m => n == m || apart (dir.getD n (0, 0)) (dir.getD m (0, 0))) then
    let ps := dsetPairsOf bs
    if ps.all fun p => pairAllowed mask p.1 && s.regAccepts (fun _ => false) p.1 p.2 then some { images := imgs, pairs := ps } else none
  else none

/-- The set waits in every bank for its switch (R75). -/
def State.dsetStage (s : State) (d : Dset) : State :=
  let t : State := { s with dsetPairs := d.pairs }
  (List.range 8).foldl (fun u n => u.setSeq n { u.seq n with staged := some (d.images.getD n none) }) t

/-- A staged set is given up for the banks that have not switched (R76, R502). -/
def State.dsetCancel (s : State) : State :=
  (List.range 8).foldl (fun u n => (u.setSeq n { u.seq n with staged := none }).setFlag (switchF n) false) s

/-- A sequencer with a staged image receives EV12: a stopped one switches at once, a running one at its next halt (R76). -/
def State.switchEvent (s : State) (k : Nat) : State :=
  match (s.seq k).staged with
  | none => s
  | some _ =>
    let t := s.raiseEv k 12
    if t.flag (runF k) then t.setFlag (switchF k) true else t.imageSwitch k

/-- The staged set's frame has begun: EV12 in every bank (R76). -/
def State.dsetSwitch (s : State) : State :=
  let t : State := { s with dsetLoaded := s.dsetPairs }
  (List.range 8).foldl State.switchEvent t

/-- No PSQ runs. -/
def State.psqsStopped (s : State) : Bool := (List.range 8).all fun n => !s.bankRuns n

/-- Loads a set at once into stopped banks: the pairs, the images, the start (R515). -/
def State.dsetNow (s : State) (d : Dset) : State :=
  let t : State := { s.dsetStage d with dsetLoaded := d.pairs }
  (List.range 8).foldl State.imageSwitch t

/-! ### Frame program uploads (R514) -/

/-- A frame program upload as read: ADMIT_DL, ADMIT_ENG, the zlist registers it sets and the image. -/
structure Fprog where
  dl : Nat
  eng : Nat
  zl : List (Nat × Word)
  image : SeqImage
  deriving DecidableEq, Repr

/-- The 64 bytes of an upload's zlist entry e. -/
def fprogZ (bs : List Byte) (ilen e : Nat) : List Byte := (bs.drop (16 + ilen + 64 * e)).take 64

/-- Up to its first 0xFF an entry holds slot numbers only (R108). -/
def zlistOk (bs : List Byte) : Bool :=
  (bs.takeWhile fun b => b.toNat != 255).all fun b => decide (b.toNat ≤ 63)

/-- Reads an upload, or refuses it with IMAGE_FORMAT. -/
def parseFprog (bs : List Byte) : Option Fprog :=
  let dl := leAt bs 0 4
  let eng := leAt bs 4 1
  let nzl := leAt bs 6 2
  let il := leAt bs 8 4
  if decide (1 ≤ dl) && decide (dl ≤ 16777215) && decide (1 ≤ eng) && decide (eng ≤ 4) && decide (nzl ≤ 256) && leAt bs 12 4 == 0 &&
      bs.length == 16 + il + 64 * nzl && (List.range nzl).all (fun e => zlistOk (fprogZ bs il e)) then
    match parseImage ((bs.drop 16).take il) with
    | some i =>
      if i.hdr.profile = 0 then
        some { dl := dl, eng := eng, image := i,
               zl := (List.range nzl).flatMap fun e => (List.range 16).map fun j =>
                 (COMP_ZLIST e j, BitVec.ofNat 32 (leAt (fprogZ bs il e) (4 * j) 4)) }
      else none
    | none => none
  else none

end Sys2Proof.Machine
end

