-- ==== Sys2Proof/Machine/Hearth.lean ====
section
/-! DEFINITION. Machine/Hearth.lean: the security log, keys and signed objects, ownership, anti-rollback, debug unlock, attestation and
sessions (Hearth: Identity, Sessions and Protection, R316 to R344). -/

namespace Sys2Proof.Machine

/-! ### Bytes -/

/-- A byte list cut or filled with zeros to n bytes. -/
def padTo (n : Nat) (bs : List Byte) : List Byte := (bs ++ List.replicate n 0).take n

/-- n bytes of a list from offset k. -/
def sub (bs : List Byte) (k n : Nat) : List Byte := (bs.drop k).take n

/-- A key's or certificate's identifier: the first 8 bytes of its SHA-384 (R323). -/
def keyId (k : List Byte) : List Byte := (Config.sha384 k).take 8

/-! ### The security log (R339) -/

/-- An entry's bytes up to its chain digest. -/
def LogEntry.body (e : LogEntry) : List Byte :=
  leBytes 4 e.seq.toNat ++ leBytes 6 e.life ++ leBytes 2 e.code ++ padTo 8 e.detail ++ leBytes 2 e.rep

/-- Adds an entry to the log, or raises the repeat count of an entry of the same code and detail made within 1 s. -/
def State.secLog (s : State) (code : Nat) (detail : List Byte) : State :=
  let d := padTo 8 detail
  let life := s.life % 2 ^ 48
  let same := fun (e : LogEntry) => e.code == code && e.detail == d && decide (life - e.life ≤ 32768)
  if s.hea.log.any same then
    { s with hea := { s.hea with log := s.hea.log.map fun e => if same e then { e with rep := min (e.rep + 1) 0xFFFF } else e } }
  else
    let prev := match s.hea.log with | e :: _ => e.body ++ e.chain | [] => List.replicate 30 0
    let seq : Word := (match s.hea.log with | e :: _ => e.seq | [] => s.reg HEARTH_LOGSEQ) + 1
    let e : LogEntry := { seq := seq, life := life, code := code, detail := d, rep := 0, chain := [] }
    let e := { e with chain := (Config.sha384 (prev ++ e.body)).take 8 }
    let t := s.setReg HEARTH_LOGSEQ seq
    let t := if 1024 ≤ s.hea.log.length then t.setFlag HEARTH_STAT_LOG_WRAP true else t
    { t with hea := { t.hea with log := (e :: t.hea.log).take 1024 } }

/-! ### Owner and keys (R319 to R323) -/

/-- The owner's public key. -/
def State.ownerKey (s : State) : Option (List Byte) := s.hea.owner.map Config.certKey

/-- OWNER_ID, 48 zero bytes while the part is UNOWNED. -/
def State.ownerId (s : State) : List Byte := match s.ownerKey with | some k => Config.sha384 k | none => List.replicate 48 0

/-- The HEARTH registers follow the owner and key records. -/
def State.heaRegs (s : State) : State :=
  let t := s.setFlag HEARTH_STAT_UNOWNED s.hea.owner.isNone
  let t := t.setReg HEARTH_OWNER_GEN s.hea.ownerGen
  let t := t.setF HEARTH_KEYS_NKEYS s.hea.makers.length
  t.setFlag HEARTH_KEYS_REFCRED s.hea.refcred.isSome

/-- The OWNER and KEYS records (Table 14-5). -/
def State.journalOwner (s : State) : State :=
  s.journal 0x09 0 (7 + ceilDiv (match s.hea.owner with | some c => c.length | none => 0) 8)
def State.journalKeys (s : State) : State := s.journal 0x0A 0 (1 + 13 * s.hea.makers.length + (if s.hea.refcred.isSome then 6 else 0))

/-- An owner root takes effect: OWNER_GEN rises, and the change is journalled and logged (R319 to R321). -/
def State.newOwner (s : State) (root : List Byte) (code : Nat) : State :=
  let t : State := { s with hea := { s.hea with owner := some root, ownerGen := s.hea.ownerGen + 1 } }
  let t := t.heaRegs.journalOwner
  t.secLog code (leBytes 4 t.hea.ownerGen.toNat ++ t.ownerId.take 4)

/-- Registers a tile-maker key: the state and a status (R323). -/
def State.keyAdd (s : State) (k : List Byte) : State × Nat :=
  if s.hea.makers.contains k then (s, 0)
  else if 8 ≤ s.hea.makers.length then (s, 0x0405)
  else
    let t : State := { s with hea := { s.hea with makers := s.hea.makers ++ [k] } }
    ((t.heaRegs.journalKeys).secLog 0x0007 (keyId k), 0)

/-- Removes a tile-maker key. -/
def State.keyRemove (s : State) (k : List Byte) : State :=
  if s.hea.makers.contains k then
    let t : State := { s with hea := { s.hea with makers := s.hea.makers.filter fun x => x != k } }
    (t.heaRegs.journalKeys).secLog 0x0007 (keyId k)
  else s

/-- The registered tile-maker key of a KEYID. -/
def State.makerKey (s : State) (id : List Byte) : Option (List Byte) := s.hea.makers.find? fun k => keyId k == id

/-! ### Signed objects (R324, R325) -/

/-- An object's payload. -/
def objPayload (o : List Byte) : List Byte := sub o 32 (leAt o 16 4)

/-- Check 1 of Table 12-3. -/
def objFormat (o : List Byte) (kind : Nat) : Bool :=
  decide (128 ≤ o.length) && leAt o 0 4 == 0x4A424F53 && leAt o 4 2 == 1 && leAt o 6 1 == kind && leAt o 7 1 == 0 && leAt o 20 12 == 0 &&
    decide (32 + leAt o 16 4 + 96 ≤ o.length)

/-- Checks 1 to 3 of Table 12-3 for an object of a kind: the status of the first that fails, or 0. -/
def State.objCheck (s : State) (o : List Byte) (kind : Nat) : Nat :=
  if !objFormat o kind then 0x0401
  else
    let id := sub o 8 8
    let key := if kind = 1 then s.makerKey id else s.ownerKey.filter fun k => keyId k == id
    match key with
    | none => 0x0402
    | some k => if Config.sigOk k (o.take (32 + leAt o 16 4)) (sub o (32 + leAt o 16 4) 96) then 0 else 0x0403

/-- A refused object is logged (R325). -/
def State.sigFail (s : State) (kind status : Nat) : State :=
  (s.count HEARTH_N_SIGFAIL 1).secLog 0x0002 (leBytes 4 kind ++ leBytes 4 status)

/-- OWNER_XFER (R321): the state and a status. -/
def State.ownerXfer (s : State) (o : List Byte) : State × Nat :=
  let st := s.objCheck o 2
  let p := objPayload o
  let st := if st != 0 then st
            else if sub p 0 16 == s.serial && leAt p 16 4 == s.hea.ownerGen.toNat then 0 else 0x0404
  if st != 0 then (s.sigFail 2 st, st) else (s.newOwner (p.drop 20) 0x0005, 0)

/-! ### Anti-rollback (R328 to R330) -/

/-- FUSED: the index of the highest blown bit plus 1. -/
def fusedOf (f : BitVec 64) : Nat := (List.range 64).foldl (fun n i => if f.getLsbD i then i + 1 else n) 0

/-- The floor of security versions. -/
def State.svnFloor (s : State) : Nat := max (fusedOf s.hea.fuses) s.hea.mirror

/-- The HEARTH_SVN register and the status bits follow the fuses and the mirror. -/
def State.svnRegs (s : State) : State :=
  let f := fusedOf s.hea.fuses
  let t := s.setF HEARTH_SVN_FUSED f
  let t := t.setF HEARTH_SVN_MIRROR s.hea.mirror
  let t := t.setFlag HEARTH_STAT_SVN_PEND (decide (f < s.hea.mirror))
  t.setFlag HEARTH_STAT_ROLLBACK_EXH (f == 64)

/-- The next fuse step starts where an increment is under way, unless the supply-sag warning holds it (R329). -/
def State.blowNext (s : State) : State :=
  { s with hea := { s.hea with blowing := s.hea.target.isSome && !s.flag SUP_STAT_VSAG_WARN } }

/-- A commit request for a security version: MIRROR is written and the blowing starts, or nothing happens (R329, R330). -/
def State.svnCommit (s : State) (v : Nat) : State :=
  let f := fusedOf s.hea.fuses
  if f < v ∧ v ≤ 64 then
    let t : State := { s with hea := { s.hea with mirror := v, target := some (v, f) } }
    (t.journal 0x08 0 1).svnRegs.blowNext
  else s

/-- One fuse bit is blown and verified. -/
def State.blowStep (s : State) : State :=
  match s.hea.target with
  | none => s
  | some (v, old) =>
    let f := fusedOf s.hea.fuses
    let fuses := s.hea.fuses ||| BitVec.ofNat 64 (2 ^ f)
    let t : State := { s with hea := { s.hea with fuses := fuses } }
    if f + 1 < v then t.svnRegs
    else
      let t : State := { t with hea := { t.hea with target := none } }
      t.svnRegs.secLog 0x0008 [BitVec.ofNat 8 old, BitVec.ofNat 8 (f + 1)]

/-- FUSE_STEP_DONE (R329): the step that runs is blown and verified. -/
def evFuseStepDone (s : State) : State := if s.hea.blowing then s.blowStep.blowNext else s

/-- Steps that MIRROR still asks for, all blown: at a boot (R329, R488). -/
def State.blowPending (s : State) : State :=
  let f := fusedOf s.hea.fuses
  if f < s.hea.mirror then
    (List.range (s.hea.mirror - f)).foldl (fun (t : State) _ => t.blowStep)
      { s with hea := { s.hea with target := some (s.hea.mirror, f) } }
  else State.svnRegs { s with hea := { s.hea with target := none } }

/-- A firmware image's SVN, and the status of the first check of R327 and R328 that it fails, or 0. -/
def fwSvn (b : List Byte) : Nat := leAt b 6 1
def State.fwCheck (s : State) (b : List Byte) : Nat :=
  let len := leAt b 8 4
  if !(decide (176 ≤ b.length) && leAt b 0 4 == 0x4D495746 && leAt b 4 2 == 1 && decide (leAt b 7 1 < 4) && decide (len ≤ 393216) &&
      b.length == 80 + len + 96) then 0x0501
  else if !Config.sigOk Config.firmwareKey (b.take (80 + len)) (sub b (80 + len) 96) then 0x0502
  else if !Config.decrypts b then 0x0503
  else if !(leAt b 7 1).testBit (if s.tile then 1 else 0) then 0x0504
  else if 64 < fwSvn b then 0x0506
  else if fwSvn b < s.svnFloor then 0x0505
  else 0

/-- A refused image is logged where its version is the reason, or its signature. -/
def State.fwRefused (s : State) (b : List Byte) (st : Nat) : State :=
  if st = 0x0505 ∨ st = 0x0506 then
    s.secLog 0x0009 ([BitVec.ofNat 8 (fwSvn b), BitVec.ofNat 8 s.svnFloor] ++ leBytes 2 st)
  else if st = 0x0502 then s.sigFail 0x10 st
  else s

/-! ### Debug unlock (R342, R343) -/

/-- The nonce registers follow the nonce. -/
def State.nonceRegs (s : State) : State :=
  let bs := match s.hea.nonce with | some n => n.1 | none => []
  let t := (List.range 8).foldl (fun (t : State) k => t.setReg (HEARTH_NONCE k) (BitVec.ofNat 32 (leAt bs (4 * k) 4))) s
  t.setFlag HEARTH_STAT_NONCE_VALID s.hea.nonce.isSome

/-- A new debug nonce of 32 bytes, which the manual does not give. -/
def State.newNonce (s : State) : State :=
  let bs := (List.range 32).map fun i => BitVec.ofNat 8 (s.free i 8)
  (State.nonceRegs { s with hea := { s.hea with nonce := some (bs, s.life) } }).freed

/-- NONCE_REQ (R342): a write of HEARTH_CTRL.NONCE_REQ. -/
def evNonceReq (s : State) : State := s.newNonce.emit (.bus false 0)

/-- NONCE_EXPIRY (R342). -/
def evNonceExpiry (s : State) : State := State.nonceRegs { s with hea := { s.hea with nonce := none } }

/-- A debug token (R343): the state and a status. -/
def State.debugToken (s : State) (o : List Byte) : State × Nat :=
  let st := s.objCheck o 3
  let p := objPayload o
  let st := if st != 0 then st
            else if p.length ≠ 52 ∨ 16 ≤ leAt p 48 4 then 0x0401
            else if sub p 0 16 != s.serial then 0x0407
            else match s.hea.nonce with
              | some n => if sub p 16 32 == n.1 then 0 else 0x0408
              | none => 0x0408
  if st != 0 then (((s.sigFail 3 st).count HEARTH_N_TOKENFAIL 1).secLog 0x000B (leBytes 4 st), st)
  else
    let t := State.nonceRegs { s with hea := { s.hea with nonce := none } }
    let t := t.setF HEARTH_DEBUG_SCOPE (t.getF HEARTH_DEBUG_SCOPE ||| leAt p 48 4)
    let t := t.setFlag HEARTH_STAT_DEBUG_OPEN (t.getF HEARTH_DEBUG_SCOPE != 0)
    (t.secLog 0x000A [BitVec.ofNat 8 (leAt p 48 4)], 0)

/-- A debug scope is open. -/
def State.scope (s : State) (n : Nat) : Bool := (s.getF HEARTH_DEBUG_SCOPE).testBit n

/-! ### Locked registers (R340) -/

/-- A write that a lock refuses: ignored, reported and logged. -/
def State.lockViol (s : State) (a : Nat) (v : Word) : State :=
  let t := (s.setFlag HEARTH_STAT_LOCKVIOL true).count HEARTH_N_LOCKVIOL 1
  let t := t.setReg HEARTH_VIOLADDR (BitVec.ofNat 32 a)
  t.secLog 0x0001 (leBytes 4 a ++ leBytes 4 v.toNat)

/-! ### Attestation (R341) -/

/-- The pairs of a drive program set as they stand in its payload. -/
def pairBytes (ps : List (Nat × Word)) : List Byte := ps.flatMap fun p => leBytes 4 p.1 ++ leBytes 4 p.2.toNat

/-- The board lane table in use (R424). -/
def State.laneTable (s : State) : Option (List Byte) :=
  if s.flag LANE_STAT_TABLE_OK then some (SMap.get (fun _ => []) s.sto.qspi (s.getF LANE_STAT_TABLE_COPY)) else none

/-- The measurements of a digest that does not apply: 48 zero bytes. -/
def digestOr (b : Option (List Byte)) : List Byte := match b with | some x => padTo 48 (Config.sha384 x) | none => List.replicate 48 0

/-- Bytes 0 to 831 of the attestation report (Table 12-8). The sender's H_CONFIG is over a serialisation that the manual does not give. -/
def State.attestBody (s : State) (nonce : List Byte) : List Byte :=
  let straps := (s.reg EMB_STRAPS).toNat % 4096
  let state := (if s.tile then 1 else 0) + 2 * (s.getF CLM_STAT_STATE % 8)
  let flags := s.getF HEARTH_STAT_UNOWNED + 2 * s.getF HEARTH_STAT_DEBUG_OPEN + 4 * s.getF HEARTH_STAT_LOCKVIOL +
    8 * s.getF HEARTH_STAT_SVN_PEND + 16 * s.getF REF_STAT_BASE_COLD
  let claim := if s.tile then s.pair CORD_CLAIM_HI_LO else s.pair CLM_CLAIM_LO
  let seen := if s.tile then 0 else s.pair CLM_SEEN_LO
  let fc := if s.tile then (s.reg CORD_LF).toNat + s.getF CORD_LF_HI_LF_FCNT_HI * 2 ^ 32
            else (s.reg FSQ_FCNT_LO).toNat + s.getF FSQ_FCNT_HI_FCNT * 2 ^ 32
  let hcfg := if s.tile then digestOr (some (pairBytes s.dsetLoaded)) else (List.range 48).map fun i => BitVec.ofNat 8 (s.free i 8)
  leBytes 4 0x54535441 ++ leBytes 2 1 ++ leBytes 1 state ++ leBytes 1 flags ++ padTo 16 s.serial ++ leBytes 8 (s.life % 2 ^ 48) ++
    padTo 32 nonce ++ leBytes 2 straps ++ leBytes 1 (s.getF HEARTH_SVN_FW_SVN) ++ leBytes 1 (s.getF HEARTH_SVN_FUSED) ++
    leBytes 4 s.hea.ownerGen.toNat ++ leBytes 8 claim ++ leBytes 8 seen ++ leBytes 8 fc ++ digestOr (some Config.kindlingRom) ++
    digestOr (some s.fw.image) ++ (if s.tile then List.replicate 48 0 else padTo 48 (s.measure 8)) ++
    ((List.range 8).flatMap fun n => padTo 48 (s.measure n)) ++ digestOr s.lamp.cal ++ padTo 48 s.ownerId ++ padTo 48 hcfg ++
    digestOr s.laneTable ++ padTo 16 Config.grade

/-- The signed report. -/
def State.attest (s : State) (nonce : List Byte) : List Byte :=
  let b := s.attestBody nonce
  b ++ padTo 96 (Config.sign b)

/-! ### Sessions (R331 to R334) -/

/-- The session registers follow the open sessions and handshakes. -/
def State.sessRegs (s : State) : State :=
  let ten := s.sessions.filter fun x => x.tenant != 0xFE
  let t := s.setF HEARTH_SESS_OPEN ten.length
  let t := t.setFlag HEARTH_SESS_REFSESS (s.sessions.any fun x => x.tenant == 0xFE)
  let t := t.setF HEARTH_SESS_HSHAKE s.hea.shakes.length
  if s.tile then t
  else (List.range 16).foldl (fun (u : State) n => u.setF (TEN_STAT_SESS n) (ten.filter fun x => x.tenant == n).length) t

/-- Sessions close: their caches, waiting requests and uploads go with them (R333, R510, R513). -/
def State.closeSess (s : State) (f : Session → Bool) : State :=
  State.sessRegs { s with sessions := s.sessions.filter fun x => !f x }

/-- The part serves DTLS over the path: UDP in SENDER role with an owner and outside recovery, local SPI unless the policy leaves it to
recovery mode (R320, R334, R490). -/
def State.servesDtls (s : State) (spi : Bool) (port : Nat) : Bool :=
  if spi then s.flag HEARTH_POLICY_SPI_WCP || s.fw.recovery
  else s.sender && s.hea.owner.isSome && !s.fw.recovery && port == s.getF SYS_WCP_PORT

/-- DTLS_CLIENT_HELLO (R331, R333): whether it carries a cookie, a secp384r1 share, the suite and the scheme. -/
def evDtlsClientHello (spi : Bool) (port : Nat) (cookie share suite scheme : Bool) (s : State) : State :=
  if !s.servesDtls spi port || decide (4 ≤ s.hea.shakes.length) then s
  else if !suite || !scheme then s.sessOut spi (.dtls spi port .handshakeFailure)
  else if !cookie || !share then s.sessOut spi (.dtls spi port .helloRetry)
  else
    (State.sessRegs { s with hea := { s.hea with shakes := s.hea.shakes ++ [(spi, port)] } }).sessOut spi (.dtls spi port .serverFlight)

/-- What a leaf certificate admits: a tenant, 0xFE for the referee credential, the owner where slot T0 holds no certificate and the leaf
chains to the owner root, or 0xFF on the local SPI port of an UNOWNED part. -/
def State.admits (s : State) (spi : Bool) (leaf : List Byte) : Option Nat :=
  let d := Config.sha384 leaf
  match (List.range 16).find? fun t => match SMap.get (fun _ => none) s.hea.tenants t with
      | some r => Config.sha384 r.cert == d
      | none => false with
  | some t => some t
  | none =>
    if s.hea.refcred == some d then some 0xFE
    else match s.hea.owner with
      | some root =>
        if spi && (SMap.get (fun _ => none) s.hea.tenants 0).isNone && Config.chainsTo leaf root then some 0 else none
      | none => if spi then some 0xFF else none

/-- The leaf's validity period holds, or cannot be checked (R332). -/
def State.leafInTime (s : State) (leaf : List Byte) : Bool :=
  if s.netValid || s.flag REF_STAT_EPOCH_NET then
    let now := ((s.ns : Int) + s.ntoff) / 1000000000
    let v := Config.certValid leaf
    decide ((v.1 : Int) ≤ now) && decide (now ≤ v.2)
  else true

/-- CLIENT_CERTIFICATE (R332, R333): the client's certificate and whether it proves possession of its key. -/
def evClientCertificate (spi : Bool) (port : Nat) (leaf : List Byte) (proof : Bool) (s : State) : State :=
  if !s.hea.shakes.contains (spi, port) then s
  else
    let t : State := { s with hea := { s.hea with shakes := s.hea.shakes.erase (spi, port) } }
    let who := if proof && t.leafInTime leaf then t.admits spi leaf else none
    match who with
    | none =>
      ((t.sessRegs.count HEARTH_N_AUTHFAIL_SESS 1).secLog 0x0003 (leBytes 4 0xFF ++ (Config.sha384 leaf).take 4)).sessOut spi
        (.dtls spi port .refused)
    | some w =>
      let full := if w = 0xFE then t.sessions.any fun x => x.tenant == 0xFE
                  else decide (16 ≤ (t.sessions.filter fun x => x.tenant != 0xFE).length)
      if full then (t.sessRegs.count HEARTH_N_SESSFULL 1).sessOut spi (.dtls spi port .sessionFull)
      else
        let x : Session := { id := t.hea.nextSess, tenant := w, spi := spi, port := port, newest := none, cache := [], waiting := [],
                             eseq := 0, events := [], uploads := [], last := t.life, rxRec := 0, txRec := 0,
                             unverified := !(t.netValid || t.flag REF_STAT_EPOCH_NET) }
        (State.sessRegs { t with sessions := t.sessions ++ [x], hea := { t.hea with nextSess := t.hea.nextSess + 1 } }).sessOut spi
          (.dtls spi port .accepted)

/-- DTLS_KEY_UPDATE (R331). -/
def evDtlsKeyUpdate (id : Nat) (s : State) : State :=
  match s.sessions.find? fun x => x.id == id with
  | some x =>
    State.sessOut { s with sessions := s.sessions.map fun y => if y.id = id then { y with last := s.life, rxRec := y.rxRec + 1 } else y }
      x.spi (.dtls x.spi x.port .keyUpdate)
  | none => s

/-- SESSION_IDLE_TIMEOUT (R333). -/
def evSessionIdleTimeout (id : Nat) (s : State) : State := s.closeSess fun x => x.id == id

end Sys2Proof.Machine
end

