-- ==== Sys2Proof/Machine/LayerMsg.lean ====
section
/-! DEFINITION. Machine/LayerMsg.lean: layer, surface, blend-order, source and tenant messages as the sender applies them (R86, R100 to
R108, R113, R121, R345 to R349, R363), each with its status (Table 21-4) and response bytes. -/

namespace Sys2Proof.Machine

/-- A request applied: the new state, the status, the response payload. -/
abbrev Ans := State × Nat × List Byte

/-- A request refused, or answered with nothing. -/
def State.ans (s : State) (st : Nat) : Ans := (s, st, [])

/-! ### Slots (R100, R101) -/

/-- The tenant a layer slot belongs to. -/
def State.slotTenant (s : State) (k : Nat) : Option Nat :=
  if k = 63 then (if s.flag TEN_GSTAT_PROTECT_VALID then some (s.getF TEN_GSTAT_PROTECT_T) else none)
  else if k < 63 && s.flag (COMP_SLOT_ASSIGNED k) then some (s.getF (COMP_SLOT_TENANT k)) else none

/-- A slot number that a message may not name at all, or that is not the tenant's: the status, or 0. -/
def State.slotCheck (s : State) (t k : Nat) : Nat :=
  if 64 ≤ k ∧ k ≤ 254 then 0x0204 else if s.slotTenant k == some t then 0 else 0x0201

/-- The lowest slot of a class, of those assigned to the tenant, that is not enabled. -/
def State.freeSlot (s : State) (t cls : Nat) : Option Nat :=
  ((List.range 63).filter fun k => decide (k < 16) == (cls == 0)).find? fun k =>
    s.slotTenant k == some t && !(layerOf s.comp.acc k).en

/-- A window in 64-byte units holds a buffer of a layer (R348). -/
def windowHolds (base size : Nat) (l : Layer) (b : Nat) : Bool :=
  decide (base ≤ b) && decide (b + l.stride * l.sh ≤ base + size)

/-- Both buffers of a graphic layer lie in its tenant's window. -/
def State.bufsIn (s : State) (t : Nat) (l : Layer) : Bool :=
  let b := (s.reg (TEN_MEMBASE t)).toNat
  let n := (s.reg (TEN_MEMSIZE t)).toNat
  windowHolds b n l l.baseA && windowHolds b n l l.baseB

/-- The stream that a video layer names is bound and the tenant may reference it (R86). -/
def State.mayRead (s : State) (t i : Nat) : Bool := s.src.any fun b => b.b.index == i && (bindMask b.b).testBit t

/-- The fields of a descriptor keep Table 4-3, R103 and R348. -/
def State.layerRange (s : State) (t : Nat) (l : Layer) : Bool :=
  l.blend != 3 && decide (1 ≤ l.dw) && decide (l.dw ≤ 32767) && decide (1 ≤ l.dh) && decide (l.dh ≤ 32767) &&
    (if l.video then
      l.fmt == 0 && decide (l.dw ≤ 16 * l.sw) && decide (l.sw ≤ 4 * l.dw) && decide (l.dh ≤ 16 * l.sh) && decide (l.sh ≤ 4 * l.dh) &&
        s.src.any fun b => b.b.index == l.stream && decide (l.sx + l.sw ≤ b.b.sdp.width) && decide (l.sy + l.sh ≤ b.b.sdp.height)
    else
      l.fmt != 3 && decide (l.sx + l.dw ≤ l.sw) && decide (l.sy + l.dh ≤ l.sh) && decide (l.sw * fmtBytes l.fmt ≤ 64 * l.stride) &&
        s.bufsIn t l)

/-! ### Accepted descriptors -/

/-- A descriptor's words as they are stored: reserved bits 0, TENANT set. -/
def descWords (t : Nat) (d : List Word) : List Word :=
  (List.range 8).map fun i =>
    let w := d.getD i 0
    if i = 0 then putBits (w &&& 0x3FFFFFFF) 4 1 t else if i = 7 then w &&& 0xFFFF else w

/-- The map with a slot's descriptor replaced. -/
def putDesc (m : SMap Word) (k : Nat) (ws : List Word) : SMap Word :=
  (List.range 8).foldl (fun a i => SMap.set regReset a (COMP_DESC k i) (ws.getD i 0)) m

/-- The map with a slot's EN bit set or cleared. -/
def putEn (m : SMap Word) (k : Nat) (b : Bool) : SMap Word :=
  SMap.set regReset m (COMP_DESC k 0) (putBits (SMap.get regReset m (COMP_DESC k 0)) 0 0 (if b then 1 else 0))

/-- Accepted changes of slots: they wait for the tick (R125). -/
def State.acceptDesc (s : State) (m : SMap Word) (ks : List Nat) : State :=
  State.recordAdmit { s with comp := { s.comp with acc := m, touched := (s.comp.touched ++ ks).dedup } } (layersOf m)

/-- Slots are cleared at the next tick. -/
def State.clearSlots (s : State) (ks : List Nat) : State :=
  if ks.isEmpty then s else s.acceptDesc (ks.foldl (fun m k => putEn m k false) s.comp.acc) ks

/-- A change that reduces a tenant's use is always admitted (R349). -/
def State.reduces (s : State) (t : Nat) (old new : List Layer) : Bool :=
  let d0 := s.tenantDram s.live old t
  let d1 := s.tenantDram s.live new t
  let c0 := Frac.ceil (tenantCyc s.live old t)
  let c1 := Frac.ceil (tenantCyc s.live new t)
  decide (d1 ≤ d0) && decide (c1 ≤ c0) && (decide (d1 < d0) || decide (c1 < c0))

/-! ### Layer messages (R101, R106, R108, R104) -/

/-- LAYER_SET: the response names the slot. -/
def State.layerSet (s : State) (t slot cls : Nat) (d : List Word) : Ans :=
  if (64 ≤ slot ∧ slot ≤ 254) ∨ (slot = 255 ∧ 1 < cls) then s.ans 0x0204
  else
    let k := if slot = 255 then (s.freeSlot t cls).getD 255 else slot
    if k = 255 then s.ans 0x0202
    else if s.slotTenant k != some t then s.ans 0x0201
    else
      let ws := descWords t d
      let l := decodeLayer k fun i => (ws.getD i 0).toNat
      if l.video && !s.mayRead t l.stream then s.ans 0x0203
      else if !s.layerRange t l then s.ans 0x0204
      else
        let m := putDesc s.comp.acc k ws
        let ls := layersOf m
        if s.admitOk ls || s.reduces t s.accLayers ls then (s.acceptDesc m [k], 0, [BitVec.ofNat 8 k])
        else (s.count TEN_N_BUDGET 1).ans 0x0205

/-- LAYER_CLEAR. -/
def State.layerClear (s : State) (t slot : Nat) : Ans :=
  let st := s.slotCheck t slot
  if st != 0 then s.ans st else (s.clearSlots [slot]).ans 0

/-- The byte address in DDR5 at which a surface write to a slot's hidden buffer begins, by a register map's descriptor. -/
def hiddenAt (m : SMap Word) (slot offset : Nat) : Nat :=
  let l := layerOf m slot
  (if l.front = 0 then l.baseB else l.baseA) * 64 + offset

/-- n bytes from an address lie in the tenant's window. -/
def State.inWindow (s : State) (t a n : Nat) : Bool :=
  let b := (s.reg (TEN_MEMBASE t)).toNat * 64
  decide (b ≤ a) && decide (a + n ≤ b + (s.reg (TEN_MEMSIZE t)).toNat * 64)

/-- The bytes reach the hidden buffer; the surface counts as written (R106, R310, R348). -/
def State.surfacePut (s : State) (t slot offset : Nat) (data : List Byte) : Ans :=
  let a := hiddenAt s.regs slot offset
  if s.inWindow t a data.length then
    let u := s.ddrWrite a data
    ({ u with comp := { u.comp with written := (slot :: u.comp.written).dedup } }, 0, [])
  else s.ans 0x0204

/-- SURFACE_WRITE: written, refused, or held (none) until the tick has applied a change that waits (R106). -/
def State.surfaceWrite (s : State) (sess : Nat) (seq : Word) (t slot offset : Nat) (data : List Byte) : State × Option (Nat × List Byte) :=
  let st := s.slotCheck t slot
  if st != 0 then (s, some (st, []))
  else if slot < 16 then (s, some (0x0204, []))
  else if s.comp.touched.contains slot || s.comp.held.any fun h => h.slot == slot then
    let h : HeldSurf := { sess := sess, seq := seq, slot := slot, offset := offset, data := data, gen := s.comp.gen, applied := false }
    ({ s with comp := { s.comp with held := s.comp.held ++ [h] } }, none)
  else
    let r := s.surfacePut t slot offset data
    (r.1, some (r.2.1, r.2.2))

/-- SURFACE_FLIP: FRONT toggles at the next tick. -/
def State.surfaceFlip (s : State) (t slot : Nat) : Ans :=
  let st := s.slotCheck t slot
  if st != 0 then s.ans st
  else if slot < 16 then s.ans 0x0204
  else
    let a := COMP_DESC slot 0
    let w := SMap.get regReset s.comp.acc a
    let m := SMap.set regReset s.comp.acc a (w ^^^ BitVec.ofNat 32 (2 ^ 17))
    State.ans { s with comp := { s.comp with acc := m, touched := (s.comp.touched ++ [slot]).dedup } } 0

/-- The words of a zlist entry. -/
def zlistWords (bs : List Byte) : List Word := (List.range 16).map fun i => BitVec.ofNat 32 (leAt bs (4 * i) 4)

/-- ZLIST_SET. -/
def State.zlistSet (s : State) (entry : Nat) (bs : List Byte) : Ans :=
  if 256 ≤ entry ∨ bs.length ≠ 64 then s.ans 0x0001
  else if !zlistOk bs then s.ans 0x0204
  else if !s.admitOk s.accLayers then (s.count TEN_N_BUDGET 1).ans 0x0205
  else
    let ws := zlistWords bs
    let m := (List.range 16).foldl (fun a i => SMap.set regReset a (COMP_ZLIST entry i) (ws.getD i 0)) s.comp.acc
    State.ans { s with comp := { s.comp with acc := m, ztouched := (s.comp.ztouched ++ [entry]).dedup } } 0

/-- COEF_SET (R104): 64 phases of 8 horizontal or 6 vertical taps. -/
def State.coefSet (s : State) (table axis : Nat) (vals : List (BitVec 16)) : Ans :=
  let taps := if axis = 0 then 8 else 6
  if 16 ≤ table ∨ 2 ≤ axis ∨ vals.length ≠ 64 * taps then s.ans 0x0001
  else
    let c := (List.range (64 * taps)).foldl (fun m i =>
      SMap.set Config.coefDefault m (((table * 2 + axis) * 64 + i / taps) * 8 + i % taps) (vals.getD i 0)) s.comp.coef
    State.ans { s with comp := { s.comp with coef := c } } 0

/-- A band meets a wall rectangle. -/
def bandMeets (g : Geo) (k : Nat) (r : Nat × Nat × Nat × Nat) : Bool :=
  overlap g.x g.w r.1 r.2.2.1 != 0 && overlap ((g.y + 16 * k : Nat) : Int) (bandLines g.h k) r.2.1 r.2.2.2 != 0

/-- DAMAGE: bands that a rectangle meets and one of the tenant's enabled layers covers (Table 4-4). -/
def State.damageHint (s : State) (t : Nat) (rects : List (Nat × Nat × Nat × Nat)) : Ans :=
  if 64 < rects.length then s.ans 0x0001
  else
    let mine := (layersOf s.regs).filter fun l => l.tenant == t
    let bs := (allBands s.live).filter fun b =>
      let g := geoOf s.live b.1 b.2.1
      (rects.any fun r => bandMeets g b.2.2 r) && mine.any fun l => l.covers g b.2.2
    (s.damageBands bs).ans 0

/-! ### Sources (R82 to R87) -/

/-- BIND: the response names the stream index. -/
def State.bind (s : State) (t share : Nat) (d : Sdp) : Ans :=
  if !sdpOk d then s.ans 0x0207
  else if !s.bindFits d then s.ans 0x0208
  else match s.freeStream d.video, s.allocDdr (sdpSpace d) with
    | some i, some a =>
      let u := s.addBinding { index := i, tenant := t, share := share, sdp := d } a
      (litReturn u, 0, [BitVec.ofNat 8 i])
    | none, _ => s.ans 0x0208
    | _, none => s.ans 0x0209

/-- The video slots whose accepted layer reads a stream. -/
def State.readers (s : State) (i : Nat) : List Nat :=
  (List.range 16).filter fun k => (layerOf s.comp.acc k).en && (layerOf s.comp.acc k).stream == i

/-- UNBIND: the layers that read the stream are cleared at the next tick (R86). -/
def State.unbind (s : State) (t i : Nat) : Ans :=
  match s.src.find? fun b => b.b.index == i with
  | none => s.ans 0x0203
  | some b =>
    if t ≠ 0 ∧ b.b.tenant ≠ t then s.ans 0x0003
    else
      let u := if i < 16 then s.clearSlots (s.readers i) else s
      (u.endBinding i).ans 0

/-! ### Tenants (R345 to R349) -/

/-- A tenant slot's registers follow its contents. -/
def State.tenantRegs (s : State) (t : Nat) : State :=
  match SMap.get (fun _ => none) s.hea.tenants t with
  | some r =>
    let u := (s.setFlag (TEN_STAT_VALID t) true).setFlag (TEN_STAT_PROTECT t) r.protect
    let u := (u.setReg (TEN_DRAMB t) (BitVec.ofNat 32 r.dramb)).setReg (TEN_CYCB t) (BitVec.ofNat 32 r.cycb)
    let u := (u.setReg (TEN_MEMBASE t) (BitVec.ofNat 32 r.membase)).setReg (TEN_MEMSIZE t) (BitVec.ofNat 32 r.memsize)
    let u := u.setReg (TEN_CERTID t) (BitVec.ofNat 32 (leAt (Config.sha384 r.cert) 0 4))
    u.setF TEN_GSTAT_INSTALLED (u.getF TEN_GSTAT_INSTALLED ||| 2 ^ t)
  | none =>
    let u := [TEN_DRAMB t, TEN_CYCB t, TEN_MEMBASE t, TEN_MEMSIZE t, TEN_CERTID t].foldl (fun (u : State) a => u.setReg a 0) s
    let u := (u.setFlag (TEN_STAT_VALID t) false).setFlag (TEN_STAT_PROTECT t) false
    u.setF TEN_GSTAT_INSTALLED (u.getF TEN_GSTAT_INSTALLED &&& (0xFFFF - 2 ^ t))

/-- s with a tenant slot's contents. -/
def State.putTenant (s : State) (t : Nat) (r : Option TenantRec) : State :=
  State.tenantRegs { s with hea := { s.hea with tenants := SMap.set (fun _ => none) s.hea.tenants t r } } t

/-- The registers of the tenant that holds PROTECT. -/
def State.protectRegs (s : State) : State :=
  match (List.range 16).find? fun t => match SMap.get (fun _ => none) s.hea.tenants t with | some r => r.protect | none => false with
  | some t => (s.setF TEN_GSTAT_PROTECT_T t).setFlag TEN_GSTAT_PROTECT_VALID true
  | none => (s.setF TEN_GSTAT_PROTECT_T 0).setFlag TEN_GSTAT_PROTECT_VALID false

/-- PROTECT moved or lapsed: slot 63 is cleared at the next tick (R347). -/
def State.protectMoved (s : State) (was : Option Nat) : State :=
  let t := s.protectRegs
  let now := if t.flag TEN_GSTAT_PROTECT_VALID then some (t.getF TEN_GSTAT_PROTECT_T) else none
  if was = now then t else t.clearSlots [63]

/-- The tenant that holds PROTECT now. -/
def State.protectT (s : State) : Option Nat := if s.flag TEN_GSTAT_PROTECT_VALID then some (s.getF TEN_GSTAT_PROTECT_T) else none

/-- A window would overlap another tenant's or a stream buffer (R348). -/
def State.windowTaken (s : State) (t : Nat) (base size : Nat) : Bool :=
  (s.src.any fun b => hits (base * 64) (size * 64) b.base b.size) ||
    (List.range 16).any fun o => o != t && hits base size (s.reg (TEN_MEMBASE o)).toNat (s.reg (TEN_MEMSIZE o)).toNat

/-- TENANT_SET, checked in the order of R349. -/
def State.tenantSet (s : State) (t : Nat) (r : TenantRec) : Ans :=
  if 16 ≤ t then s.ans 0x0001
  else
    let chain := match s.hea.owner with | some root => Config.chainsTo r.cert root | none => false
    let mine := s.accLayers.filter fun l => l.tenant == t && !l.video
    if !chain then (s.count TEN_N_CERT_CHAIN 1).ans 0x020C
    else if s.windowTaken t r.membase r.memsize then (s.count TEN_N_MEM 1).ans 0x020A
    else if mine.any fun l => !(windowHolds r.membase r.memsize l l.baseA && windowHolds r.membase r.memsize l l.baseB) then
      (s.count TEN_N_MEM 1).ans 0x020B
    else if r.dramb < s.tenantDram s.live s.accLayers t ∨ r.cycb < Frac.ceil (tenantCyc s.live s.accLayers t) then
      (s.count TEN_N_BUDGET_INUSE 1).ans 0x0206
    else
      let was := s.protectT
      let old := SMap.get (fun _ => none) s.hea.tenants t
      let u := if r.protect then (List.range 16).foldl (fun (u : State) o =>
          match SMap.get (fun _ => none) u.hea.tenants o with
          | some x => if o ≠ t ∧ x.protect then u.putTenant o (some { x with protect := false }) else u
          | none => u) s else s
      let u := (u.putTenant t (some r)).protectMoved was
      let same := match old with | some x => x.cert == r.cert | none => false
      let u := if same then u else (u.closeSess fun x => x.tenant == t).secLog 0x000D [BitVec.ofNat 8 t, 1]
      u.ans 0

/-- TENANT_REMOVE: sessions close at once; layers, bindings and open records end at the next tick (R346, R347). -/
def State.tenantRemove (s : State) (t : Nat) : Ans :=
  if t = 0 ∨ 16 ≤ t then s.ans 0x0001
  else match SMap.get (fun _ => none) s.hea.tenants t with
    | none => s.ans 0x0001
    | some _ =>
      let was := s.protectT
      let ends := (s.src.filter fun b => b.b.tenant == t).map fun b => b.b.index
      let ks := (s.accLayers.filter fun l => l.tenant == t).map fun l => l.slot
      let rd := (ends.filter fun i => decide (i < 16)).flatMap fun i => s.readers i
      let u := (s.clearSlots (ks ++ rd).dedup).putTenant t none
      let u := u.protectMoved was
      let u := (u.closeSess fun x => x.tenant == t).secLog 0x000D [BitVec.ofNat 8 t, 2]
      State.ans { u with comp := { u.comp with endBind := (u.comp.endBind ++ ends).dedup, endTen := (u.comp.endTen ++ [t]).dedup } } 0

/-- At a tick: bindings and open records of removed tenants end (R346). -/
def State.tenantTick (s : State) : State :=
  let t := s.comp.endBind.foldl (fun (u : State) i => u.endBinding i) s
  let t := if s.comp.endTen.isEmpty then t else t.popTenantEnd fun key => s.comp.endTen.contains (key / 64)
  { t with comp := { t.comp with endBind := [], endTen := [] } }

/-- SLOT_ASSIGN (R100): a slot taken from a tenant closes that tenant's record of it (Table 13-2). -/
def State.slotAssign (s : State) (k t : Nat) : Ans :=
  if 63 ≤ k ∨ (16 ≤ t ∧ t ≠ 255) then s.ans 0x0001
  else
    let old := s.slotTenant k
    let u := if t = 255 then (s.setF (COMP_SLOT_TENANT k) 0).setFlag (COMP_SLOT_ASSIGNED k) false
             else (s.setF (COMP_SLOT_TENANT k) t).setFlag (COMP_SLOT_ASSIGNED k) true
    let u := match old with
      | some o => if o = t then u else u.popTenantEnd fun key => key == o * 64 + k
      | none => u
    u.ans 0

/-! ### Proof of play messages (R358, R363) -/

/-- A record as returned: 128 bytes and its signature (Table 13-4). -/
def State.popBytes (s : State) (r : PopRec) : List Byte :=
  let b := padTo 128 (s.popBody r)
  b ++ padTo 96 (Config.sign b)

/-- POP_COLLECT: up to 16 records of a tenant, then its aggregate, as many as the response may hold. -/
def State.popCollect (s : State) (t maxrsp : Nat) : Ans :=
  if 16 ≤ t then s.ans 0x0001
  else
    let rs := (s.pop.nv.recs.filter fun r => r.tenant == t) ++ s.pop.nv.agg.filter fun r => r.tenant == t
    let n := min 16 ((maxrsp - 20) / 224)
    let out := rs.take n
    let u : State := { s with pop := { s.pop with returned := (s.pop.returned ++ out.map fun r => r.rseq).dedup } }
    (u.freed, 0, leBytes 4 out.length ++ out.flatMap fun r => s.popBytes r)

/-- POP_ACK: the tenant's returned records up to an RSEQ are deleted, journalled first. -/
def State.popAck (s : State) (t rseq : Nat) : Ans :=
  let gone := fun (r : PopRec) => r.tenant == t && decide (r.rseq ≤ rseq) && s.pop.returned.contains r.rseq
  let n := (s.pop.nv.recs.filter gone).length + (s.pop.nv.agg.filter gone).length
  let u : State := { s with pop := { s.pop with
    nv := { s.pop.nv with recs := s.pop.nv.recs.filter (fun r => !gone r), agg := s.pop.nv.agg.filter fun r => !gone r } } }
  let u := (u.popRegs).count POP_N_COLLECTED n
  (if n = 0 then u else u.journalBilling).ans 0

/-- STEP_AUTH (R358). -/
def State.stepAuth (s : State) (o : List Byte) : Ans :=
  let st := s.objCheck o 4
  let p := objPayload o
  let st := if st != 0 then st
            else if p.length ≠ 32 then 0x0401
            else if sub p 0 16 != s.serial then 0x0409
            else if leAt p 16 4 != (s.reg POP_PIDX).toNat then 0x040A
            else match s.pop.boff with
              | none => 0x040B
              | some b => if !s.netValid then 0x040B
                          else if leAt p 24 8 * 1000000 < (s.ntoff - b).natAbs then 0x040C else 0
  if st != 0 then ((s.sigFail 4 st).count POP_N_STEPREF 1).ans st
  else match s.pop.boff with
    | some b =>
      let sig := sub o (32 + leAt o 16 4) 8
      ((s.popStep b).secLog 0x000C sig).ans 0
    | none => s.ans 0

end Sys2Proof.Machine
end

