-- ==== Sys2Proof/Machine/Answer.lean ====
section
/-! DEFINITION. Machine/Answer.lean: answers that leave when a request has been applied: WCP responses (R510) and the control responses of
a tile (R162, R163). -/

namespace Sys2Proof.Machine

/-- The waiting request of a session gets its result; it leaves when its turn comes. -/
def State.answer (s : State) (sess : Nat) (seq : Word) (status : Nat) (data : List Byte) : State :=
  { s with sessions := s.sessions.map fun x =>
      if x.id = sess then
        { x with waiting := x.waiting.map fun w => if w.seq = seq ∧ w.applied then { w with rsp := some { status := status, payload := data } } else w }
      else x }

/-- A control response leaves upstream, or waits for the Stoker (R498, R550). -/
def State.rspUp (s : State) (b : CordBody) : State :=
  if s.paused then { s with fw := { s.fw with rsps := s.fw.rsps ++ [b] } } else s.sendUp b

/-- Control responses that waited for the Stoker leave. -/
def State.rspRelease (s : State) : State :=
  s.fw.rsps.foldl State.sendUp { s with fw := { s.fw with rsps := [] } }

/-- A tile's control response: kept among the last 64 results, SEQ_APPLIED follows, and the packet leaves upstream (R163). -/
def State.ctrlAnswer (s : State) (seq : Word) (op status : Nat) (data : List Byte) : State :=
  let hi := match s.tl.ctlNewest with | some n => if n.toNat < seq.toNat then seq else n | none => seq
  let t : State := { s with tl := { s.tl with ctlCache := ((seq, op, status, data) :: s.tl.ctlCache).take 64, ctlNewest := some hi } }
  (t.setReg CORD_SEQ_APPLIED hi).rspUp (.ctrlRsp seq op status data)

/-- The end of work that a WCP or control request waits for. -/
def State.writeDone (s : State) (w : WriteFor) (status : Nat) (data : List Byte) : State :=
  match w with
  | .none => s
  | .wcp a b => s.answer a b status data
  | .ctrl seq op => s.ctrlAnswer seq op status data

/-- INSTALL_DONE with a kind and a status (Table 21-6). -/
def State.installDone (s : State) (kind status : Nat) : State := s.event 0x0015 ([BitVec.ofNat 8 kind] ++ leBytes 2 status) .owner

end Sys2Proof.Machine
end

