-- ==== Sys2Proof/Machine/Lamp.lean ====
section
/-! DEFINITION. Machine/Lamp.lean: the correction pipeline, the lamp frame and code stores, parameter generations and sweeps, and the
calibration image (Lamp Correction in the Tile Controller, R165 to R191). -/

namespace Sys2Proof.Machine

/-! ### Calibration images (Tables 6-5, 6-6) -/

def calLpp (c : List Byte) : Nat := leAt c 6 1
def calBins (c : List Byte) : Nat := leAt c 7 1
def calW (c : List Byte) : Nat := leAt c 8 2
def calH (c : List Byte) : Nat := leAt c 10 2
def calDbits (c : List Byte) : Nat := leAt c 12 1
def calClkw (c : List Byte) : Nat := leAt c 13 1
/-- The offset of section k: DECODE, MATRIX, BINMAP, GAIN, CLINKER, OCURVE, DITHER. -/
def calOff (c : List Byte) (k : Nat) : Nat := leAt c (32 + 4 * k) 4
def calTotal (c : List Byte) : Nat := leAt c 60 4

/-- The bytes a section must have. -/
def calSize (c : List Byte) (k : Nat) : Nat :=
  let px := calW c * calH c
  match k with
  | 0 => 36864
  | 1 => 5 * calBins c * calLpp c * 3 * 2
  | 2 => px
  | 3 => 2 * px * calLpp c
  | 4 => ceilDiv (px * calLpp c) 4
  | 5 => calLpp c * 4097 * 4
  | _ => 64

/-- Step 1 of R190: the header keeps Table 6-5 and R165, the sections lie in order at multiples of 64 inside TOTAL and are whole, and the
96-byte signature follows. -/
def calFormatOk (c : List Byte) : Bool :=
  decide (64 ≤ c.length) && leAt c 0 4 == 0x4C41434C && leAt c 4 2 == 1 && decide (1 ≤ calLpp c) && decide (calLpp c ≤ 4) &&
    decide (1 ≤ calBins c) && decide (calBins c ≤ 64) && decide (16 ≤ calW c) && decide (calW c ≤ 8192) && decide (1 ≤ calH c) &&
    decide (calH c ≤ 4096) && decide (calDbits c ≤ 8) && leAt c 14 2 == 0 && decide (calW c * calH c ≤ 87381) &&
    decide (calW c * calH c * calLpp c ≤ 262144) && decide (c.length = calTotal c + 96) &&
    (List.range 7).all fun k =>
      calOff c k % 64 == 0 && decide ((if k = 0 then 64 else calOff c (k - 1) + calSize c (k - 1)) ≤ calOff c k) &&
        decide (calOff c k + calSize c k ≤ calTotal c)

/-- Step 3 of R190: bin indexes below NBINS, DECODE and OCURVE entries with bits [31:20] clear, DITHER values up to 63. -/
def calContentOk (c : List Byte) : Bool :=
  ((c.drop (calOff c 2)).take (calSize c 2)).all (fun b => decide (b.toNat < calBins c)) &&
    (List.range (calSize c 0 / 4)).all (fun i => decide (leAt c (calOff c 0 + 4 * i) 4 < 2 ^ 20)) &&
    (List.range (calSize c 5 / 4)).all (fun i => decide (leAt c (calOff c 5 + 4 * i) 4 < 2 ^ 20)) &&
    ((c.drop (calOff c 6)).take 64).all fun b => decide (b.toNat ≤ 63)

/-- An entry of the decode table: set SDR, PQ, HLG; component R, G, B (R172). -/
def calDecode (c : List Byte) (tf comp code : Nat) : Nat := leAt c (calOff c 0 + 4 * ((tf * 3 + comp) * 1024 + code)) 4 % 2 ^ 20

/-- A coefficient of matrix set k (R174). -/
def calMatrix (c : List Byte) (k bin l comp : Nat) : Int :=
  signed 16 (leAt c (calOff c 1 + 2 * (((k * calBins c + bin) * calLpp c + l) * 3 + comp)) 2)

/-- A coefficient interpolated to temperature t, 1/16 °C (R174). -/
def matrixAt (c : List Byte) (t : Int) (bin l comp : Nat) : Int :=
  let tc := clampInt (-320) 1600 t
  let k := min 3 ((tc + 320).toNat / 480)
  let f : Int := tc + 320 - 480 * k
  let m0 := calMatrix c k bin l comp
  let m1 := calMatrix c (k + 1) bin l comp
  m0 + roundDiv ((m1 - m0) * f) 480

/-- The image's clinker state of a lamp. -/
def calClinker (c : List Byte) (i : Nat) : Nat := leAt c (calOff c 4 + i / 4) 1 / 4 ^ (i % 4) % 4

/-! ### The parameters in force -/

/-- TGEN, 1/16 °C. -/
def State.tgen (s : State) : Int := signed 16 (s.getF LAMP_TEMP_TGEN)

/-- TEFF, 1/16 °C. -/
def State.teff (s : State) : Int := signed 16 (s.getF LAMP_TEMP_TEFF)

/-- A lamp's clinker state in the generation in force: the overlay's, or the image's (R176, R191). -/
def State.clinker (s : State) (c : List Byte) (i : Nat) : Nat :=
  match SMap.get (fun _ => none) s.lamp.overlayLive i with
  | some v => v
  | none => calClinker c i

/-! ### The pipeline (R168 to R180) -/

/-- Stage 3: lamp l of a pixel with a code word, at pixel index x of the tile. -/
def State.stage3 (s : State) (c : List Byte) (px : Nat) (code : Word) (l : Nat) : Int :=
  let tf := s.liveF LAMP_TF_TF
  let r : Int := calDecode c tf 0 (bitsOf code.toNat 29 20)
  let g : Int := calDecode c tf 1 (bitsOf code.toNat 19 10)
  let b : Int := calDecode c tf 2 (bitsOf code.toNat 9 0)
  let bin := leAt c (calOff c 2 + px) 1
  let m := fun k => matrixAt c s.tgen bin l k
  clampInt 0 0xFFFFF (roundDiv (m 0 * r + m 1 * g + m 2 * b) 8192)

/-- Stage 4: lamp l of the pixel at column x, line y; `at` gives the code word of a column of that line (R176). -/
def State.stage4 (s : State) (c : List Byte) (line : Nat → Word) (x y l : Nat) : Int :=
  let w := calW c
  let idx := fun xx => (y * w + xx) * calLpp c + l
  if s.clinker c (idx x) != 0 then 0
  else
    let share := fun xx => if s.clinker c (idx xx) == 1 then
        roundDiv (s.stage3 c (y * w + xx) (line xx) l * (s.liveF LAMP_CAL_CLKW : Int)) 256 else 0
    let a := (if 0 < x then share (x - 1) else 0) + (if x + 1 < w then share (x + 1) else 0)
    clampInt 0 0xFFFFF (s.stage3 c (y * w + x) (line x) l + a)

/-- Stages 5 to 8 from the stage-4 value: whether stage 5 clamped, and the lamp value (R177 to R180). -/
def State.stage8 (s : State) (c : List Byte) (v4 : Int) (x y l : Nat) : Bool × Nat :=
  let w := calW c
  let g : Int := leAt c (calOff c 3 + 2 * ((y * w + x) * calLpp c + l)) 2
  let v5 := roundDiv (v4 * g) 32768
  let clip := decide (0x80000 < v5)
  let v5 := clampInt 0 0x80000 v5
  let v6 := (roundDiv (v5 * (s.getF LAMP_K_K : Int)) 32768).toNat
  let oc := fun (i : Nat) => (leAt c (calOff c 5 + 4 * (l * 4097 + i)) 4 % 2 ^ 20 : Int)
  let i := v6 / 128
  let r : Int := v6 % 128
  let yv := clampInt 0 0xFFFFF (if 4096 ≤ i then oc 4096 else oc i + roundDiv ((oc (i + 1) - oc i) * r) 128)
  let db := calDbits c
  let q := db + 4
  let d := leAt c (calOff c 6 + 8 * (y % 8) + x % 8) 1
  let t := d * 2 ^ q / 64
  let out := min ((yv.toNat + t) / 2 ^ q) (0xFFFF / 2 ^ db) * 2 ^ db
  (clip, if v6 = 0 then 0 else out)

/-- The lamps per band line and a whole band corrected: its lamp values in lamp index order and the number of clamped lamps. -/
def State.correct (s : State) (c : List Byte) (k : Nat) (pixels : List Word) : List (BitVec 16) × Nat :=
  let w := calW c
  let r := (List.range (w * bandLines (calH c) k)).flatMap fun i =>
    let x := i % w
    let y := 16 * k + i / w
    let line := fun xx => pixels.getD (i / w * w + xx) 0
    (List.range (calLpp c)).map fun l => s.stage8 c (s.stage4 c line x y l) x y l
  (r.map fun e => BitVec.ofNat 16 e.2, (r.filter fun e => e.1).length)

/-! ### Stores and select bits (R181, R182) -/

/-- A band's select bit: its active half. -/
def State.half (s : State) (k : Nat) : Nat := if (s.reg (LAMP_ACTIVE (k / 32))).getLsbD (k % 32) then 1 else 0

/-- Inverts the select bits of bands. -/
def State.invert (s : State) (ks : List Nat) : State :=
  ks.foldl (fun t k => t.setReg (LAMP_ACTIVE (k / 32)) (t.reg (LAMP_ACTIVE (k / 32)) ^^^ BitVec.ofNat 32 (2 ^ (k % 32)))) s

/-- The tile's bands by the loaded image. -/
def State.tileBands (s : State) : Nat := bandsOf (s.getF LAMP_GEOM_H)

/-- Writes a corrected band into the inactive halves of both stores. -/
def State.storeBand (s : State) (c : List Byte) (k : Nat) (pixels : List Word) : State :=
  let h := 1 - s.half k
  let r := s.correct c k pixels
  let at_ := 16 * k * calW c
  let t := s.count LAMP_N_CLIPPED r.2
  { t with lamp := { t.lamp with
      lamps := SMap.setList (fun _ => 0) t.lamp.lamps (h * 262144 + at_ * calLpp c) r.1,
      codes := SMap.setList (fun _ => 0) t.lamp.codes (h * 131072 + at_) (pixels.map fun p => p &&& 0x3FFFFFFF) } }

/-- The active pixel codes of a band. -/
def State.activeCodes (s : State) (c : List Byte) (k : Nat) : List Word :=
  SMap.getList (fun _ => 0) s.lamp.codes (s.half k * 131072 + 16 * k * calW c) (calW c * bandLines (calH c) k)

/-! ### Generations (R183, R184) -/

/-- A pending change (R183). -/
def State.genPending (s : State) : State :=
  let t := s.setFlag LAMP_STAT_GEN_PEND true
  { t with lamp := { t.lamp with pendAt := some (t.lamp.pendAt.getD t.wtb) } }

/-- K of R178. -/
def scaleK (bright reserve ceil : Nat) : Nat :=
  let ceils := (roundDiv (ceil * 32768 : Nat) 1000).toNat
  (roundDiv ((roundDiv (bright * reserve : Nat) 32768).toNat * ceils : Nat) 32768).toNat

/-- The registers that take effect at a switch (R192). -/
def genRegs : List Nat := [LAMP_TF, LAMP_BRIGHT, LAMP_RESERVE, LAMP_CAL, LAMP_TCFG, LAMP_CEIL]

/-- The generation of a band's active content, and the bands older than the generation in force. -/
def State.staleBands (s : State) : List Nat :=
  (List.range s.tileBands).filter fun k => SMap.get (fun _ => 0) s.lamp.bandGen k != s.getF LAMP_GEN_GEN

/-- The sweep's registers follow. -/
def State.sweepRegs (s : State) : State :=
  (s.setF LAMP_GEN_STALE_BANDS s.staleBands.length).setFlag LAMP_STAT_SWEEP_ACT (!s.staleBands.isEmpty)

/-- The generation switches: every pending change takes effect, TGEN takes TEFF, and a sweep starts (R183 to R185). -/
def State.genSwitch (s : State) : State :=
  if !s.flag LAMP_STAT_GEN_PEND || s.flag LAMP_STAT_LOADING then s
  else
    let t := genRegs.foldl (fun (u : State) a => u.setLive a (u.reg a)) s
    let t := t.setF LAMP_TEMP_TGEN (t.getF LAMP_TEMP_TEFF)
    let t := t.setF LAMP_K_K (scaleK (t.liveF LAMP_BRIGHT_BRIGHT) (t.liveF LAMP_RESERVE_RESERVE) (t.liveF LAMP_CEIL_CEIL))
    let t := t.setF LAMP_GEN_GEN (t.getF LAMP_GEN_GEN + 1)
    let t := t.setFlag LAMP_STAT_GEN_PEND false
    State.sweepRegs { t with lamp := { t.lamp with overlayLive := t.lamp.overlay, swept := [], pendAt := none, switchAt := some t.wtb,
                                                   sweepStart := t.wtb, overdue := false } }

/-- Swept bands that the open frame does not hold become active (R186). -/
def State.commit (s : State) : State :=
  let held := match s.tl.frame with | some f => f.held | none => []
  let ks := s.lamp.swept.filter fun k => !held.contains k
  if ks.isEmpty then s
  else
    let t := s.invert ks
    let t := t.count LAMP_N_COMMITS 1
    State.sweepRegs { t with lamp := { t.lamp with swept := [],
                                                   bandGen := ks.foldl (fun m k => SMap.set (fun _ => 0) m k (t.getF LAMP_GEN_GEN)) t.lamp.bandGen } }

/-- SWEEP_DONE (R185): every older band that the open frame does not hold has been corrected again into the inactive halves. -/
def evSweepDone (s : State) : State :=
  match s.lamp.cal with
  | none => s
  | some c =>
    if !s.tile || s.flag LAMP_STAT_LOADING || s.staleBands.isEmpty then s
    else
      let held := match s.tl.frame with | some f => f.held | none => []
      let ks := s.staleBands.filter fun k => !held.contains k
      let t := ks.foldl (fun (u : State) k => u.storeBand c k (u.activeCodes c k)) s
      let t := (t.count LAMP_N_SWEEPS 1).setF LAMP_SWT_SWEEP_US ((t.wtb - t.lamp.sweepStart) / 64000)
      { t with lamp := { t.lamp with swept := ks } }

/-- SWEEP_COMMIT_TIMEOUT (R186): two frame periods after a switch. -/
def evSweepCommitTimeout (s : State) : State := if s.tile then s.commit else s

/-- LAMP_SWEEP (R183). -/
def evLampSweep (s : State) : State := if s.tile then s.genPending else s

/-! ### Clinker overlay (R191) -/

/-- One edit of the overlay: the new state, or a refusal with CLK_FULL. -/
def State.clinkerEdit (s : State) (lamp st : Nat) : Option State :=
  let has := (SMap.get (fun _ => none) s.lamp.overlay lamp).isSome
  if !has && decide (4096 ≤ s.lamp.overlay.length) then none
  else
    let o := SMap.set (fun _ => none) s.lamp.overlay lamp (some st)
    some ((State.genPending { s with lamp := { s.lamp with overlay := o } }).setF LAMP_CLKN_COUNT o.length)

/-- Edits of a clinker message, and how many were applied. -/
def State.clinkerEdits (s : State) (es : List Word) : State × Nat :=
  es.foldl (fun a e =>
    match a.1.clinkerEdit (bitsOf e.toNat 17 0) (bitsOf e.toNat 21 20) with
    | some t => (t, a.2 + 1)
    | none => (a.1.setFlag LAMP_STAT_CLK_FULL true, a.2)) (s, 0)

end Sys2Proof.Machine
end

