-- ==== Sys2Proof/Machine/Storage.lean ====
section
/-! DEFINITION. Machine/Storage.lean: the calibration store: blocks and their classes, slot writes, the NAND controller, scrub and refresh,
the ash list (R366 to R386). -/

namespace Sys2Proof.Machine

/-! ### Geometry, blocks and copies (R366 to R371) -/

/-- Data bytes of a page, pages of a block, data pages of a block. -/
def State.pageBytes (s : State) : Nat := 2048 * 2 ^ s.getF NAND_GEOM_PAGE
def State.blkPages (s : State) : Nat := 64 * 2 ^ s.getF NAND_GEOM_PPB
def State.dataPages (s : State) : Nat := s.blkPages - 1

/-- A block, and the store with one replaced. -/
def State.blk (s : State) (b : Nat) : NandBlk := SMap.get (fun _ => NandBlk.init) s.sto.blks b
def State.setBlk (s : State) (b : Nat) (k : NandBlk) : State :=
  { s with sto := { s.sto with blks := SMap.set (fun _ => NandBlk.init) s.sto.blks b k } }

/-- A copy of a slot, and the store with one replaced. -/
def State.copy (s : State) (kind c : Nat) : CopySt := SMap.get (fun _ => CopySt.init) s.sto.copies (kind * 2 + c)
def State.putCopy (s : State) (kind c : Nat) (x : CopySt) : State :=
  { s with sto := { s.sto with copies := SMap.set (fun _ => CopySt.init) s.sto.copies (kind * 2 + c) x } }

/-- The active copy of a kind. -/
def State.activeCopy (s : State) (kind : Nat) : Option Nat := SMap.get (fun _ => none) s.sto.active kind
def State.putActive (s : State) (kind : Nat) (c : Option Nat) : State :=
  { s with sto := { s.sto with active := SMap.set (fun _ => none) s.sto.active kind c } }

/-- The inactive copy of a kind. -/
def State.idleCopy (s : State) (kind : Nat) : Nat := match s.activeCopy kind with | some c => 1 - c | none => 0

/-- Blocks named in a live copy descriptor. -/
def State.liveBlocks (s : State) : List Nat := s.sto.copies.flatMap fun e => if e.2.state = 0 then [] else e.2.blocks

/-- Blocks that a write or a refresh is filling. -/
def State.fillBlocks (s : State) : List Nat :=
  (s.sto.writes.flatMap fun w => w.blocks) ++ match s.sto.refresh with | some r => [r.target] | none => []

/-- A block's class (R371, Table 14-2); a block without a header counts as half-erased until it has one. -/
def State.cls (s : State) (b : Nat) : BlkCls :=
  let k := s.blk b
  if s.sto.ash.contains b then .ash
  else if (match s.sto.intent with | some i => i.1 == b | none => false) then .half
  else if s.liveBlocks.contains b then .slot
  else if !k.hdr then .half
  else if k.alloc then .dirty
  else .clean

/-- The blocks of the device. -/
def State.allBlks (s : State) : List Nat := List.range (s.getF NAND_GEOM_NBLK)

/-- Blocks of a class. -/
def State.blksOf (s : State) (c : BlkCls) : List Nat := s.allBlks.filter fun b => s.cls b == c

/-- DIRTY blocks that nothing is filling. -/
def State.staleBlks (s : State) : List Nat := (s.blksOf .dirty).filter fun b => !s.fillBlocks.contains b

/-- The highest erase count of the store outside the ash list. -/
def State.ecMax (s : State) : Nat :=
  s.allBlks.foldl (fun m b => if s.sto.ash.contains b then m else max m (s.blk b).ecnt) 0

/-- The erase count of a block: its header's, or its latest ERASE_BEGIN's, or the highest of the store (Table 14-2). -/
def State.blkEc (s : State) (b : Nat) : Nat :=
  if (s.blk b).hdr then (s.blk b).ecnt
  else match s.sto.lastEc.find? fun e => e.1 == b with | some e => e.2.1 | none => s.ecMax

/-- The CLEAN block with the lowest erase count, and the lowest number among equals (R371). -/
def State.allocBlk (s : State) : Option Nat :=
  (s.blksOf .clean).foldl (fun a b => match a with
    | none => some b
    | some x => if (s.blk b).ecnt < (s.blk x).ecnt then some b else some x) none

/-- The counts of blocks and erase counts (Table 14-7). -/
def State.nandRegs (s : State) : State :=
  let live := s.allBlks.filter fun b => !s.sto.ash.contains b
  let lo := live.foldl (fun m b => min m (s.blk b).ecnt) (match live with | b :: _ => (s.blk b).ecnt | [] => 0)
  let t := s.setReg NAND_ECMIN (BitVec.ofNat 32 lo)
  let t := t.setReg NAND_ECMAX (BitVec.ofNat 32 s.ecMax)
  let t := t.setF NAND_BLKS_CLEAN (s.blksOf .clean).length
  let t := t.setF NAND_BLKS_DIRTY (s.blksOf .dirty).length
  t.setF NAND_ASH_USED s.sto.ash.length

/-! ### SLOT records (R376, R378) -/

/-- Capacity of a kind in bytes (Table 14-1). -/
def slotCap (kind : Nat) : Nat :=
  match kind with
  | 0 => 1048576
  | 1 => 2621440
  | 2 => 32768
  | 3 => 1048576
  | 4 => 393216 + 176
  | _ => 65536

/-- The kind exists in the part's role (Table 14-1). -/
def State.kindHere (s : State) (kind : Nat) : Bool :=
  match kind with
  | 0 | 1 | 2 => s.tile
  | 3 => s.sender
  | _ => decide (kind ≤ 5)

/-- NAND_SLOT of a kind, and FW_SLOT of a firmware slot, follow the copies. -/
def State.slotRegs (s : State) (kind : Nat) : State :=
  let a := s.activeCopy kind
  let t := s.setF (NAND_SLOT_ACTIVE kind) (a.getD 0)
  let t := t.setFlag (NAND_SLOT_NONE kind) a.isNone
  let t := t.setF (NAND_SLOT_STA_A kind) (s.copy kind 0).state
  let t := t.setF (NAND_SLOT_STA_B kind) (s.copy kind 1).state
  let t := t.setFlag (NAND_SLOT_WRITING kind) (s.sto.writes.any fun w => w.kind == kind)
  let t := t.setF (NAND_SLOT_NBLK kind) (match a with | some c => (s.copy kind c).blocks.length | none => 0)
  if kind = 4 then
    [0, 1].foldl (fun (u : State) c =>
      ((u.setF (FW_SLOT_STATE c) (s.copy 4 c).state).setFlag (FW_SLOT_ACTIVE c) (a == some c)).setF (FW_SLOT_SVN c)
        (if (s.copy 4 c).state = 0 then 0 else fwSvn (s.copy 4 c).data)) t
  else t

/-- The SLOT record of a kind is written (Table 14-5). -/
def State.slotRecord (s : State) (kind : Nat) : State :=
  let w := fun (c : Nat) => 2 + ceilDiv (s.copy kind c).blocks.length 4
  ((s.journal 0x03 kind (1 + w 0 + w 1)).slotRegs kind).nandRegs

/-- A copy becomes EMPTY. -/
def State.emptyCopy (s : State) (kind c : Nat) : State := (s.putCopy kind c CopySt.init).slotRecord kind

/-! ### The ash list (R384, R385) -/

/-- The store becomes read-only. -/
def State.ashFull (s : State) : State :=
  if s.flag NAND_STAT_ASH_FULL then s else (s.setFlag NAND_STAT_ASH_FULL true).event 0x000B [] .owner

/-- A block is retired. -/
def State.retire (s : State) (b : Nat) : State :=
  if s.sto.ash.contains b then s
  else if s.getF NAND_ASH_CAP ≤ s.sto.ash.length then s.ashFull
  else
    let t : State := { s with sto := { s.sto with ash := s.sto.ash ++ [b], ashKnown := true } }
    ((t.count NAND_N_RETIRE 1).journal 0x04 0 (1 + ceilDiv t.sto.ash.length 4)).nandRegs

/-! ### The controller (R371 to R373, R377, R383, R386) -/

/-- The store starts no erase and no program: read-only, or the supply-sag warning (R385, R386). -/
def State.nandHold (s : State) : Bool := s.flag NAND_STAT_ASH_FULL || s.flag SUP_STAT_VSAG_WARN

/-- Pages of a write. -/
def State.writePages (s : State) (w : SlotWrite) : Nat := max 1 (ceilDiv w.data.length s.pageBytes)

/-- The block of data page p of a list of blocks, and its page number within the block (R368). -/
def State.pageAt (s : State) (bs : List Nat) (p : Nat) : Nat × Nat := (bs.getD (p / s.dataPages) 0, 1 + p % s.dataPages)

/-- s with a write replaced. -/
def State.putWrite (s : State) (w : SlotWrite) : State :=
  { s with sto := { s.sto with writes := s.sto.writes.map fun x => if x.kind = w.kind then w else x } }

/-- The block that page p of a write goes to, allocated where the write has none for it yet or the one it had is retired. -/
def State.writeBlk (s : State) (w : SlotWrite) (p : Nat) : Option (State × SlotWrite) :=
  let j := p / s.dataPages
  let have_ := decide (j < w.blocks.length) && !s.sto.ash.contains (w.blocks.getD j 0)
  if have_ then some (s, w)
  else match s.allocBlk with
    | none => none
    | some b =>
      let bs := if j < w.blocks.length then w.blocks.set j b else w.blocks ++ [b]
      let w := { w with blocks := bs }
      some ((s.setBlk b { s.blk b with alloc := true, blank := false }).putWrite w, w)

/-- The oldest write that the NAND still serves. -/
def State.nandWrite (s : State) : Option SlotWrite := s.sto.writes.find? fun w => !w.qspi

/-- A read-only store makes no refresh, and counts each one that it cannot make (R385). -/
def State.refreshSkip (s : State) : State :=
  if s.flag NAND_STAT_ASH_FULL && !s.sto.wantRef.isEmpty then
    State.count { s with sto := { s.sto with wantRef := [], refresh := none } } NAND_N_REFRESH_SKIP s.sto.wantRef.length
  else s

/-- A refresh begins where one is wanted and a CLEAN block is there (R382). -/
def State.refreshStart (s : State) : State :=
  if s.sto.refresh.isSome then s
  else match s.sto.wantRef with
    | [] => s
    | b :: bs =>
      if s.cls b != .slot then { s with sto := { s.sto with wantRef := bs } }
      else match s.allocBlk with
        | none => s
        | some x =>
          let t := s.setBlk x { s.blk x with alloc := true, blank := false }
          { t with sto := { t.sto with refresh := some { blk := b, target := x, page := 1, verify := false } } }

/-- An erase begins: ERASE_BEGIN is journalled first (R372). -/
def State.eraseStart (s : State) (b : Nat) (half : Bool) : State :=
  let n := s.blkEc b + 1
  let t := s.journal 0x01 b 1
  let t := t.setBlk b { (t.blk b) with hdr := false, alloc := false, blank := false }
  let t := if half then t.count NAND_N_HALFERASE 1 else t
  { t with sto := { t.sto with intent := some (b, n), lastEc := SMap.insert b (n, t.nvj.total) t.sto.lastEc, op := some (.erase b half) } }

/-- Blocks that a copy of the largest slot of the role needs (R371). -/
def State.largestNeed (s : State) : Nat :=
  ceilDiv (ceilDiv (if s.tile then slotCap 1 else slotCap 3) s.pageBytes) s.dataPages

/-- The write waits for a block to be erased. -/
def State.writeStarved (s : State) : Bool :=
  match s.nandWrite with
  | some w => s.allocBlk.isNone && decide (w.prog < s.writePages w)
  | none => false

/-- The erase or header program that the background calls for: half-erased blocks, blocks without a header, DIRTY blocks (R371, R375). -/
def State.backErase (s : State) : Option NandOp :=
  match s.blksOf .half with
  | b :: _ => if (s.blk b).blank then some (.header b) else some (.erase b true)
  | [] =>
    match s.staleBlks with
    | b :: _ => if (s.blksOf .clean).length < s.largestNeed ∨ s.writeStarved ∨ s.sto.wantRef ≠ [] then some (.erase b false) else none
    | [] => none

/-- The operation a write would start now: its next page to program, or to verify. -/
def State.writeOp (s : State) (w : SlotWrite) : Option (State × NandOp) :=
  match w.redo with
  | p :: _ => (s.writeBlk w p).map fun x => (x.1, .program w.kind p)
  | [] =>
    if w.prog < s.writePages w then (s.writeBlk w w.prog).map fun x => (x.1, .program w.kind w.prog)
    else some (s, .verify w.kind w.ver)

/-- s with an operation started. -/
def State.startOp (s : State) (o : NandOp) : State :=
  match o with
  | .erase b half => (s.eraseStart b half).setFlag NAND_STAT_BUSY true
  | _ => State.setFlag { s with sto := { s.sto with op := some o } } NAND_STAT_BUSY true

/-- Work that a supply-sag warning holds is waiting. -/
def State.sagWork (s : State) : Bool :=
  s.sto.intent.isSome || s.nandWrite.isSome || s.sto.refresh.isSome || !s.sto.wantRef.isEmpty || s.backErase.isSome

/-- SAG_HOLD follows, and a wait is counted as it begins. -/
def State.sagHold (s : State) : State :=
  let h := s.flag SUP_STAT_VSAG_WARN && s.sto.op.isNone && s.sagWork
  let t := if h && !s.flag NAND_STAT_SAG_HOLD then s.count NAND_N_SAGWAIT 1 else s
  t.setFlag NAND_STAT_SAG_HOLD h

/-- Loads come first (R383); the open erase intent comes before any load (R374). -/
def State.nextLoad (s : State) : Option NandOp :=
  match s.sto.intent, s.sto.loads with
  | none, l :: _ => some (.load l.1 l.2.1)
  | _, _ => none

/-- Then scrub reads. -/
def State.nextScrub (s : State) : Option NandOp :=
  if !s.sto.scrubReq then none
  else match s.sto.hot with
    | some h => some (.scrub h.1 h.2)
    | none => match s.sto.scrubPass with
      | some p => some (.scrub p.2 s.sto.scrubPage)
      | none => none

/-- The operation of a refresh: a page read, or its verify read. -/
def refreshOp (r : Refresh) : NandOp := if r.verify then .refRead r.target r.page else .refRead r.blk r.page

/-- The idle controller starts the next operation of its queue (R374, R377, R383, R386). -/
def State.nandPick (s : State) : State :=
  match s.nextLoad with
  | some o => s.startOp o
  | none =>
    if s.nandHold then match s.nextScrub with | some o => s.startOp o | none => s
    else match s.sto.intent with
      | some i => s.startOp (.erase i.1 true)
      | none =>
        let t := s.refreshStart
        match t.sto.refresh with
        | some r => t.startOp (refreshOp r)
        | none =>
          match (if t.sto.paceOk || t.getF NAND_PACE_PACE == 0 then t.nandWrite.bind t.writeOp else none) with
          | some x => State.startOp { x.1 with sto := { x.1.sto with paceOk := false } } x.2
          | none => match t.nextScrub with
            | some o => t.startOp o
            | none => match t.backErase with
              | some o => t.startOp o
              | none => t

/-- The controller runs one operation at a time; NAND operations not yet started wait for the end of an activation pause (Table 20-5). -/
def State.nandKick (s : State) : State :=
  if s.sto.op.isSome || !s.flag NAND_STAT_SCAN_DONE || s.paused then s.sagHold else s.refreshSkip.nandPick.sagHold

/-- The running operation has ended. -/
def State.opEnd (s : State) : State := State.setFlag { s with sto := { s.sto with op := none } } NAND_STAT_BUSY false

/-! ### Slot writes (R376) -/

/-- Blocks that a copy of n bytes needs. -/
def State.blksNeeded (s : State) (n : Nat) : Nat := ceilDiv (ceilDiv n s.pageBytes) s.dataPages

/-- The first refusal of R376 that applies, or 0. -/
def State.writeCheck (s : State) (kind n : Nat) : Nat :=
  if !s.kindHere kind then 0x0601
  else if s.flag NAND_STAT_ASH_FULL then 0x0602
  else if s.sto.writes.any fun w => w.kind == kind then 0x0603
  else if slotCap kind < n then 0x0604
  else if kind ≠ 5 ∧ (s.blksOf .clean).length + s.staleBlks.length < s.blksNeeded n then 0x0605
  else 0

/-- The copy to be written becomes EMPTY; blocks of a BAD copy go to the ash list, and a refresh of its blocks is abandoned (R376, R383). -/
def State.clearCopy (s : State) (kind c : Nat) : State :=
  let x := s.copy kind c
  if x.state = 0 then s
  else
    let t := s.emptyCopy kind c
    let t := if x.state = 2 then x.blocks.foldl State.retire t else t
    match t.sto.refresh with
    | some r => if x.blocks.contains r.blk then { t with sto := { t.sto with refresh := none } } else t
    | none => t

/-- A slot write into a copy: refused with a status, or accepted and begun. -/
def State.slotWrite (s : State) (kind c : Nat) (data : List Byte) (cfg : Option MirrorGen) (now : Bool) (inst : Option Nat) (w : WriteFor) :
    State × Nat :=
  let st := s.writeCheck kind data.length
  if st != 0 then (s, st)
  else
    let t := s.clearCopy kind c
    let x : SlotWrite := { kind := kind, copy := c, data := data, cfg := cfg, now := now, blocks := [], prog := 0, ver := 0, redo := [],
                           qspi := kind == 5, qver := false, inst := inst, fwdone := w }
    let t : State := { t with sto := { t.sto with writes := t.sto.writes ++ [x] } }
    ((t.setFlag (NAND_SLOT_WRITING kind) true).nandKick, 0)

/-- A load of a kind's active copy is queued (R380). -/
def State.loadQueue (s : State) (kind : Nat) : State :=
  State.nandKick { s with sto := { s.sto with loads := s.sto.loads ++ [(kind, 0, true)] } }

/-- The tile's calibration slot has changed: the image loads (R187). -/
def State.calLoadStart (s : State) : State :=
  match s.activeCopy 0 with
  | some c =>
    let t : State := { s with lamp := { s.lamp with loading := some ((s.copy 0 c).data, c) } }
    (t.setFlag LAMP_STAT_LOADING true).loadQueue 0
  | none => s

/-- The clinker overlay as its slot holds it: the entries and the device key's signature (R191, Table 14-1). -/
def State.clkImage (s : State) : List Byte :=
  let b := s.lamp.overlay.flatMap fun e => leBytes 4 (e.1 + 2 ^ 20 * (e.2.getD 0))
  b ++ padTo 96 (Config.sign b)

/-- The overlay is written to its slot; a change made while that runs is written after it. -/
def State.clkWrite (s : State) : State :=
  if s.sto.writes.any fun w => w.kind == 2 then { s with sto := { s.sto with clkAgain := true } }
  else (s.slotWrite 2 (s.idleCopy 2) s.clkImage none true none .none).1

/-- Step 4 of R376: one SLOT record makes the copy VALID, and active for an immediate switch; whoever waits is answered. -/
def State.writeEnd (s : State) (w : SlotWrite) : State :=
  let t : State := { s with sto := { s.sto with writes := s.sto.writes.filter fun x => x.kind != w.kind } }
  let t := t.putCopy w.kind w.copy { state := 1, len := w.data.length, blocks := w.blocks, data := w.data, cfg := w.cfg }
  let t := if w.now then t.putActive w.kind (some w.copy) else t
  let t := (t.slotRecord w.kind).writeDone w.fwdone 0 []
  let t := match w.inst with | some k => t.installDone k 0 | none => t
  let t := if w.kind = 4 then (t.setFlag FW_STAT_INSTALLING false).count FW_N_INSTALLS 1 else t
  let t := if w.kind = 0 && w.now then t.calLoadStart else t
  if w.kind = 2 && t.sto.clkAgain then State.clkWrite { t with sto := { t.sto with clkAgain := false } } else t

/-- A write that can go on no more ends with a status (R385). -/
def State.writeFail (s : State) (w : SlotWrite) (st : Nat) : State :=
  let t : State := { s with sto := { s.sto with writes := s.sto.writes.filter fun x => x.kind != w.kind } }
  let t := ((t.slotRegs w.kind).writeDone w.fwdone st [])
  let t := match w.inst with | some k => t.installDone k st | none => t
  if w.kind = 4 then t.setFlag FW_STAT_INSTALLING false else t

/-- A block of a write goes to the ash list; its pages up to the given one are written again. -/
def State.writeRetire (s : State) (w : SlotWrite) (p upto : Nat) : State :=
  let d := s.dataPages
  let j := p / d
  let t := s.retire (w.blocks.getD j 0)
  if t.flag NAND_STAT_ASH_FULL then t.writeFail w 0x0602
  else t.putWrite { w with prog := max w.prog upto, ver := j * d, redo := (List.range (upto - j * d)).map fun i => j * d + i }

/-- The NAND copy is programmed and verified: the QSPI copy follows for firmware, else step 4. -/
def State.writeAdvance (s : State) (w : SlotWrite) : State :=
  if s.writePages w ≤ w.ver then
    if w.kind = 4 then s.putWrite { w with qspi := true } else s.writeEnd w
  else s.putWrite w

/-- QSPI_WRITE_DONE (R392): the oldest QSPI copy is programmed, then verified; where either fails it is programmed again. -/
def State.qspiDone (s : State) (ok : Bool) : State :=
  match s.sto.writes.find? fun w => w.qspi with
  | none => s
  | some w =>
    if !ok then s.putWrite { w with qver := false }
    else if !w.qver then
      let k := if w.kind = 4 then 2 + w.copy else w.copy
      State.putWrite { s with sto := { s.sto with qspi := SMap.set (fun _ => []) s.sto.qspi k w.data } } { w with qver := true }
    else s.writeEnd w

/-! ### Completions -/

/-- NAND_ERASE_DONE (R372, R375): ERASE_DONE is journalled and the header follows, or the block is retired. -/
def evNandEraseDone (ok blank : Bool) (s : State) : State :=
  match s.sto.op with
  | some (.erase b half) =>
    let n := match s.sto.intent with | some i => i.2 | none => 0
    let t : State := s.opEnd
    let t := State.journalDrop { t with sto := { t.sto with intent := none } } 0x01 b
    if !ok || (half && !blank) then ((t.setBlk b { (t.blk b) with blank := false }).retire b).nandKick
    else
      let t := ((t.count NAND_N_ERASES 1).journal 0x02 b 1).journalDrop 0x02 b
      let t := (t.setBlk b { ecnt := n, hdr := false, alloc := false, blank := true }).nandRegs
      if t.nandHold then t.nandKick else (t.startOp (.header b)).sagHold
  | _ => s

/-- A refresh's pages are all copied and verified: a SLOT record names the new block in place of the old (R382). -/
def State.refreshEnd (s : State) (r : Refresh) : State :=
  let rest := s.sto.wantRef.filter fun b => b != r.blk
  let t : State := { s with sto := { s.sto with refresh := none, wantRef := rest, reads := SMap.erase r.blk s.sto.reads } }
  let t := t.count NAND_N_REFRESH 1
  match t.sto.copies.find? fun e => e.2.state != 0 && e.2.blocks.contains r.blk with
  | some e =>
    let x := { e.2 with blocks := e.2.blocks.map fun b => if b = r.blk then r.target else b }
    (t.putCopy (e.1 / 2) (e.1 % 2) x).slotRecord (e.1 / 2)
  | none => t

/-- A refresh whose target failed is taken up again with another block. -/
def State.refreshRetry (s : State) (r : Refresh) : State :=
  State.retire { s with sto := { s.sto with refresh := none } } r.target

/-- NAND_PROGRAM_DONE (R376, R382): the page stands, or its block is retired. -/
def evNandProgramDone (ok : Bool) (s : State) : State :=
  match s.sto.op with
  | some (.header b) =>
    let t := s.opEnd
    let t := if ok then (t.setBlk b { (t.blk b) with hdr := true }).count NAND_N_PROGRAMS 1 else t.retire b
    t.nandRegs.nandKick
  | some (.program kind p) =>
    let t := s.opEnd
    let t := match t.sto.writes.find? fun w => w.kind == kind with
      | none => t
      | some w =>
        if ok then (t.putWrite { w with prog := max w.prog (p + 1), redo := w.redo.filter fun q => q != p }).count NAND_N_PROGRAMS 1
        else t.writeRetire w p (if w.redo.isEmpty then p + 1 else min (s.writePages w) ((p / s.dataPages + 1) * s.dataPages))
    t.nandRegs.nandKick
  | some (.refProg _ p) =>
    let t := s.opEnd
    let t := match t.sto.refresh with
      | none => t
      | some r =>
        if !ok then t.refreshRetry r
        else
          let r := if p + 1 < t.blkPages then { r with page := p + 1 } else { r with page := 1, verify := true }
          State.count { t with sto := { t.sto with refresh := some r } } NAND_N_PROGRAMS 1
    t.nandRegs.nandKick
  | _ => s

/-- Counts of a page read: sectors with corrected bits and uncorrectable ones, and a read of the block (R367, R381). -/
def State.readCounts (s : State) (b : Nat) (secs : List (Option Nat)) : State :=
  let t := s.count NAND_N_CORRSECT (secs.filter fun x => match x with | some n => decide (0 < n) | none => false).length
  let t := t.count NAND_N_UNCORR (secs.filter fun x => x.isNone).length
  let n := SMap.get (fun _ => 0) t.sto.reads b + 1
  { t with sto := { t.sto with reads := SMap.set (fun _ => 0) t.sto.reads b n } }

/-- A sector at or over a number of corrected bits, or uncorrectable. -/
def secOver (lim : Nat) (secs : List (Option Nat)) : Bool := secs.any fun x => match x with | some n => decide (lim ≤ n) | none => true

/-- A copy is marked BAD with a SLOT record. -/
def State.markBad (s : State) (kind c : Nat) : State := (s.putCopy kind c { s.copy kind c with state := 2 }).slotRecord kind

/-- A verify read of a write: no sector over RETIRE_BITS (R376). -/
def State.verifyDone (s : State) (kind p : Nat) (secs : List (Option Nat)) : State :=
  match s.sto.writes.find? fun w => w.kind == kind with
  | none => s
  | some w =>
    if secOver (s.getF NAND_CFG_RETIRE_BITS + 1) secs then
      s.writeRetire w p (min (s.writePages w) ((p / s.dataPages + 1) * s.dataPages))
    else s.writeAdvance { w with ver := p + 1 }

/-- A read of a refresh: a page to copy, or one copied to verify. -/
def State.refReadDone (s : State) (b p : Nat) (secs : List (Option Nat)) : State :=
  match s.sto.refresh with
  | none => s
  | some r =>
    if r.verify then
      if secOver (s.getF NAND_CFG_RETIRE_BITS + 1) secs then s.refreshRetry r
      else if p + 1 < s.blkPages then { s with sto := { s.sto with refresh := some { r with page := p + 1 } } }
      else s.refreshEnd r
    else if secs.any fun x => x.isNone then
      let t : State := { s with sto := { s.sto with refresh := none, wantRef := s.sto.wantRef.filter fun x => x != b } }
      match t.sto.copies.find? fun e => e.2.state == 1 && e.2.blocks.contains b with
      | some e => (t.markBad (e.1 / 2) (e.1 % 2)).setFlag NAND_STAT_DEGRADED true
      | none => t
    else if s.nandHold then s
    else s.startOp (.refProg r.target p)

/-- The next SLOT block at or after one, for the scrub pass. -/
def State.scrubNext (s : State) (b : Nat) : Option Nat := (s.blksOf .slot).find? fun x => decide (b ≤ x)

/-- The SCRUB record: pass start and next block. -/
def State.journalScrub (s : State) : State := s.journal 0x0B 0 1

/-- A scrub pass begins. -/
def State.scrubOpen (s : State) (now : Bool) : State :=
  match s.scrubNext 0 with
  | some b =>
    let t : State := { s with sto := { s.sto with scrubPass := some (s.life, b), scrubPage := 0, scrubNow := now } }
    (t.setFlag NAND_STAT_SCRUBBING true).journalScrub
  | none => s

/-- The pass goes on with the next block, or ends. -/
def State.scrubMove (s : State) (start b : Nat) : State :=
  match s.scrubNext (b + 1) with
  | some x => State.journalScrub { s with sto := { s.sto with scrubPass := some (start, x), scrubPage := 0 } }
  | none =>
    let t : State := { s with sto := { s.sto with scrubPass := none, scrubPage := 0, scrubNow := false } }
    ((t.setFlag NAND_STAT_SCRUBBING false).count NAND_N_SCRUBPASS 1).journalScrub

/-- A scrub read: a block at its threshold or worn less than the rest is to be refreshed, an uncorrectable sector makes its copy BAD
(R373, R382). -/
def State.scrubDone (s : State) (b p : Nat) (secs : List (Option Nat)) : State :=
  let worn := decide ((s.blk b).ecnt + s.getF NAND_WL_DELTA < s.ecMax)
  let t : State := { s with sto := { s.sto with scrubReq := false } }
  let t := if secs.any fun x => x.isNone then
      match t.sto.copies.find? fun e => e.2.state == 1 && e.2.blocks.contains b with
      | some e => (t.markBad (e.1 / 2) (e.1 % 2)).setFlag NAND_STAT_DEGRADED true
      | none => t
    else if secOver (s.getF NAND_CFG_REFRESH_BITS) secs || worn then
      { t with sto := { t.sto with wantRef := (t.sto.wantRef ++ [b]).dedup } }
    else t
  let last := decide (s.blkPages ≤ p + 1)
  let t : State := if last then { t with sto := { t.sto with reads := SMap.erase b t.sto.reads } } else t
  match t.sto.hot with
  | some h => if h.1 = b then { t with sto := { t.sto with hot := if last then none else some (b, p + 1), scrubReq := !last } } else t
  | none => match t.sto.scrubPass with
    | some pass =>
      if pass.2 ≠ b then t
      else if last then t.scrubMove pass.1 b
      else { t with sto := { t.sto with scrubPage := p + 1 } }
    | none => t

/-- A block read READLIM thousand times since its last scrub is scrubbed out of turn (R381). -/
def State.scrubHot (s : State) : State :=
  if s.sto.hot.isSome then s
  else match s.sto.reads.find? fun e => decide (s.getF NAND_SCRUB_READLIM * 1000 ≤ e.2) && s.cls e.1 == .slot with
    | some e => { s with sto := { s.sto with hot := some (e.1, 0), scrubReq := true } }
    | none => s

/-- SCRUB_TICK (R381): the paced scrub reads its next page; a pass opens where none is. -/
def evScrubTick (s : State) : State :=
  let t := if s.sto.scrubPass.isNone then s.scrubOpen false else s
  State.nandKick { t with sto := { t.sto with scrubReq := true } }

/-- NAND_SCRUB_NOW (R381): a pass starts at once. -/
def evNandScrubNow (s : State) : State :=
  let t := s.scrubOpen true
  (State.nandKick { t with sto := { t.sto with scrubReq := true } }).emit (.bus false 0)

/-- NAND_PACE_TICK (R377): the next paced page operation may start; so may the next page of a pass asked for at once. -/
def evNandPaceTick (s : State) : State :=
  State.nandKick { s with sto := { s.sto with paceOk := true, scrubReq := s.sto.scrubReq || s.sto.scrubNow } }

end Sys2Proof.Machine
end

