-- ==== Sys2Proof/Machine/Claims.lean ====
section
/-! DEFINITION. Machine/Claims.lean: claims, the referee, heartbeats, swap requests, the mirror and the takeover (Claims, Referees and
Fail-Over, R286 to R314). -/

namespace Sys2Proof.Machine

/-! ### Members and HEALTH (R286, Table 11-2) -/

/-- This part is a member of its board's pair (R286). -/
def State.member (s : State) : Bool :=
  s.sender && (s.getF RING_STAT_POS == s.getF CLM_PAIR_POS_A || s.getF RING_STAT_POS == s.getF CLM_PAIR_POS_B)

/-- It acts as the referee (R21). -/
def State.refActs (s : State) : Bool := s.flag RING_STAT_REFEREE

/-- Milliseconds in WTB units. -/
def msU (n : Nat) : Nat := n * 64000000

/-- An instant lies less than n ms back. -/
def State.within (s : State) (at_ n : Nat) : Bool := decide (s.wtb < at_ + msU n)

/-- HEALTH: bit 2 is held in CLM_STAT, the others follow the part (Table 11-2, R396). -/
def State.health (s : State) : Nat :=
  let en := (List.range 8).filter fun p => s.flag (CORD_PCFG_EN p)
  let src := (List.range 4).filter fun p => s.flag (SRC_PCFG_EN p)
  let b := fun (k : Nat) (x : Bool) => if x then 2 ^ k else 0
  let retrains := match s.mc.retrains with
    | _ :: t1 :: _ => decide (s.life < t1 + 10 * 32768)
    | _ => false
  b 0 (s.flag FSQ_STAT_FAULTED) + b 1 (!en.isEmpty && en.all fun p => !s.flag (CORD_PSTAT_LINK p)) +
    b 2 (retrains || s.flag DDR_STAT_TRAIN_FAIL) + b 3 (s.flag THERM_STAT_IMMED) + b 4 (s.flag SUP_STAT_VSAG_WARN) +
    b 5 (!src.isEmpty && src.all fun p => !s.flag (SRC_PSTAT_LINK p))

/-- CLM_STAT.HEALTH follows. -/
def State.healthReg (s : State) : State := if s.sender then s.setF CLM_STAT_HEALTH s.health else s

/-- s with its claim (or CUR) and CLAIM_SEEN (or TOP). -/
def State.setClaim (s : State) (c : BitVec 64) : State := s.setPair CLM_CLAIM_LO c.toNat
def State.setSeen (s : State) (c : BitVec 64) : State := s.setPair CLM_SEEN_LO c.toNat

/-- CLAIM_SEEN, or TOP. -/
def State.seen (s : State) : BitVec 64 := BitVec.ofNat 64 (s.pair CLM_SEEN_LO)

def State.setClmState (s : State) (n : Nat) : State := s.setF CLM_STAT_STATE n
def State.clmState (s : State) : Nat := s.getF CLM_STAT_STATE

/-! ### Mirror items (R304, Table 11-3) -/

/-- The slot descriptors and owner table as accepted, with the FRONT bits that the mirror does not follow set to 0 where asked. -/
def State.mirrorDescs (s : State) (front : Bool) : SMap Word :=
  let descs := (List.range 512).foldl (fun m i =>
    let a := COMP_DESC (i / 8) (i % 8)
    let w := SMap.get regReset s.comp.acc a
    SMap.set regReset m a (if i % 8 = 0 ∧ !front then w &&& ~~~ BitVec.ofNat 32 (2 ^ 17) else w)) []
  (List.range 64).foldl (fun m k => SMap.set regReset m (COMP_SLOT_TENANT k).addr (s.reg (COMP_SLOT_TENANT k).addr)) descs

/-- The item n of the mirror as it stands. -/
def State.mirrorItem (s : State) (n : Nat) (front : Bool) : MirrorItem :=
  match n with
  | 1 => .program (s.seq 8).image ((List.range 4096).foldl (fun m i =>
           SMap.set regReset m (COMP_ZLIST (i / 16) (i % 16)) (SMap.get regReset s.comp.acc (COMP_ZLIST (i / 16) (i % 16)))) [])
           (s.getF COMP_ADMIT_DL_DL) (s.getF COMP_ADMIT_ENG_ENG) (s.reg FSQ_FPER) (s.reg REF_FOFF) s.clm.dmemWords
  | 2 => .layers (s.mirrorDescs front) s.comp.coef (shadowRegs.foldl (fun m a => SMap.set regReset m a (s.liveReg a)) [])
  | 3 => .sources (s.src.map fun b => b.b) ((List.range 16).foldl (fun m i =>
           SMap.set regReset (SMap.set regReset (SMap.set regReset m (SRC_VCFG i) (s.reg (SRC_VCFG i))) (SRC_VDELAY i) (s.reg (SRC_VDELAY i)))
             (SRC_VCONC i) (s.reg (SRC_VCONC i))) [])
  | 4 => .tenants ((List.range 16).filterMap fun t => (SMap.get (fun _ => none) s.hea.tenants t).map fun r => (t, r))
  | _ => .billing s.pop.nv.idx.toNat

/-- A generation with one item replaced. -/
def MirrorGen.put (g : MirrorGen) (n : Nat) (i : MirrorItem) : MirrorGen :=
  match n with
  | 1 => { g with program := some i }
  | 2 => { g with layers := some i }
  | 3 => { g with sources := some i }
  | 4 => { g with tenants := some i }
  | _ => { g with billing := some i }

/-- Every item has been received. -/
def MirrorGen.complete (g : MirrorGen) : Bool :=
  g.program.isSome && g.layers.isSome && g.sources.isSome && g.tenants.isSome && g.billing.isSome

/-- The number of an item (Table 11-3). -/
def itemNo : MirrorItem → Nat
  | .program .. => 1
  | .layers .. => 2
  | .sources .. => 3
  | .tenants .. => 4
  | .billing .. => 5

/-- The generation of this part, items 1 to 4, as the CFG slot serialises them. -/
def State.cfgGen (s : State) : MirrorGen :=
  [1, 2, 3, 4].foldl (fun g n => g.put n (s.mirrorItem n true)) MirrorGen.none

/-! ### Taking mirrored items in (R99, R304, R307) -/

/-- A port's geometry with positions reversed over the cord's tile count, for a ring cord (R99). -/
def State.mirrorGeo (s : State) (m : SMap Word) : SMap Word :=
  (List.range 8).foldl (fun (acc : SMap Word) p =>
    if !s.flag (CORD_PCFG_RING p) then acc
    else
      let en := (List.range 64).filter fun q => (geoOf m p q).en
      let n := if (s.enumPos p).isEmpty then en.length else (s.enumPos p).length
      (List.range n).foldl (fun (a : SMap Word) q =>
        let i := p * 64 + q
        let j := p * 64 + (n - 1 - q)
        SMap.set regReset (SMap.set regReset a (COMP_GEO_XY i) (SMap.get regReset m (COMP_GEO_XY j))) (COMP_GEO_WH i)
          (SMap.get regReset m (COMP_GEO_WH j))) acc) m

/-- Mirrored bindings: those not listed end, new ones are made and their groups joined (R307). -/
def State.mirrorBind (s : State) (bs : List Binding) : State :=
  let gone := (s.src.filter fun x => !bs.contains x.b).map fun x => x.b.index
  let t := gone.foldl State.endBinding s
  bs.foldl (fun (u : State) b =>
    if u.src.any fun x => x.b == b then u
    else match u.allocDdr (sdpSpace b.sdp) with
      | some a => u.addBinding b a
      | none => u) t

/-- The standby writes a mirrored item into its own registers and memories (R304). -/
def State.takeItem (s : State) (i : MirrorItem) : State :=
  match i with
  | .program img zl dl eng fper foff dm =>
    let t := zl.foldl (fun (u : State) e => u.setReg e.1 e.2)
      ((List.range 4096).foldl (fun (u : State) k => u.setReg (COMP_ZLIST (k / 16) (k % 16)) (regReset (COMP_ZLIST (k / 16) (k % 16)))) s)
    let acc := (List.range 4096).foldl (fun m k =>
      let a := COMP_ZLIST (k / 16) (k % 16)
      SMap.set regReset m a (t.reg a)) t.comp.acc
    let t : State := { t with comp := { t.comp with acc := acc } }
    let t := (((t.setF COMP_ADMIT_DL_DL dl).setF COMP_ADMIT_ENG_ENG eng).setReg FSQ_FPER fper).setReg REF_FOFF foff
    let t := match img with | some x => t.loadImage 8 x | none => t.setSeq 8 { t.seq 8 with image := none }
    { t with clm := { t.clm with dmemWords := dm } }
  | .layers ds coef sh =>
    let t := (List.range 512).foldl (fun (u : State) k =>
      let a := COMP_DESC (k / 8) (k % 8)
      u.setReg a (SMap.get regReset ds a)) s
    let t := (List.range 64).foldl (fun (u : State) k =>
      u.setReg (COMP_SLOT_TENANT k).addr (SMap.get regReset ds (COMP_SLOT_TENANT k).addr)) t
    let acc := (List.range 512).foldl (fun m k =>
      let a := COMP_DESC (k / 8) (k % 8)
      SMap.set regReset m a (SMap.get regReset ds a)) t.comp.acc
    let geo := s.mirrorGeo sh
    let t := shadowRegs.foldl (fun (u : State) a => (u.setReg a (SMap.get regReset geo a)).setLive a (SMap.get regReset geo a)) t
    { t with comp := { t.comp with acc := acc, coef := coef } }
  | .sources bs rs => rs.foldl (fun (u : State) e => (u.setReg e.1 e.2).setLive e.1 e.2) (s.mirrorBind bs)
  | .tenants rs =>
    let t := (List.range 16).foldl (fun (u : State) k => u.putTenant k ((rs.find? fun r => r.1 == k).map fun r => r.2)) s
    t.protectRegs
  | .billing _ => s

/-- The items of a generation, taken in in order. -/
def State.takeGen (s : State) (g : MirrorGen) : State :=
  [g.tenants, g.sources, g.program, g.layers].foldl (fun (u : State) i => match i with | some x => u.takeItem x | none => u) s

/-! ### The holder's mirror (R305, R306) -/

/-- A MIRROR packet to the partner. -/
def State.sendItem (s : State) (n : Nat) (bulk : Bool) : State :=
  let g := s.reg CLM_MGEN
  let t := s.ringSend s.partnerPos (.mirror g (s.mirrorItem n true) true bulk)
  { t with clm := { t.clm with toAck := t.clm.toAck ++ [(g, n)] } }

/-- The bulk copy begins: every item, each with LAST set. -/
def State.startBulk (s : State) : State :=
  let t : State := { s with clm := { s.clm with toAck := [], bulk := true } }
  [1, 2, 3, 4, 5].foldl (fun (u : State) n => u.sendItem n true) (t.setFlag CLM_STAT_PMIRRORED false)

/-- The items that a command changed, with FRONT left out (R304). -/
def mirrorChanged (old new : State) : List Nat :=
  [1, 2, 3, 4, 5].filter fun n => old.mirrorItem n false != new.mirrorItem n false

/-- What a command changed reaches the standby: each changed item raises MGEN and is one update; a response waits for the last one's
acknowledgement while there is a standby that holds or is taking the mirror (R305, R306). -/
def State.mirrorSince (new old : State) (rsp : Option (Nat × Word × Rsp)) : State :=
  let out := fun (t : State) => match rsp with | some r => t.answer r.1 r.2.1 r.2.2.status r.2.2.payload | none => t
  if !new.active then out new
  else
    let ch := mirrorChanged old new
    if ch.isEmpty then out new
    else
      let live := new.flag CLM_STAT_PMIRRORED || new.clm.bulk
      let t := ch.foldl (fun (u : State) n =>
        let v := u.setReg CLM_MGEN (u.reg CLM_MGEN + 1)
        if live then v.sendItem n false else v) new
      match rsp with
      | some r => if live then { t with clm := { t.clm with pendRsp := t.clm.pendRsp ++ [(t.reg CLM_MGEN, r.1, r.2.1, r.2.2)] } } else out t
      | none => t

/-- Responses whose updates are all acknowledged leave. -/
def State.mirrorRelease (s : State) : State :=
  let done := fun (e : Word × Nat × Word × Rsp) => s.clm.toAck.all fun a => decide (e.1.toNat < a.1.toNat)
  let t : State := { s with clm := { s.clm with pendRsp := s.clm.pendRsp.filter fun e => !done e } }
  (s.clm.pendRsp.filter done).foldl (fun (u : State) e => u.answer e.2.1 e.2.2.1 e.2.2.2.status e.2.2.2.payload) t

/-- MIRROR_ACK_RX (R305). -/
def evMirrorAckRx (mgen : Word) (item : Nat) (s : State) : State :=
  let left := s.clm.toAck.filter fun a => !(a.1 == mgen && a.2 == item)
  let t : State := { s with clm := { s.clm with toAck := left } }
  let t := if t.clm.bulk && left.isEmpty then
      State.setFlag { t with clm := { t.clm with bulk := false } } CLM_STAT_PMIRRORED true
    else t
  t.mirrorRelease

/-- MIRROR_ACK_TIMEOUT (R306): 5 ms without an acknowledgement. A bulk copy that stays unacknowledged ends, and begins again at the
partner's next heartbeat in SYNC. -/
def evMirrorAckTimeout (s : State) : State :=
  if s.clm.toAck.isEmpty then s
  else
    let lost := !s.clm.bulk || !s.clm.pendRsp.isEmpty
    let t := if lost then ((s.setFlag CLM_STAT_MIRROR_LOST true).count CLM_N_MIRROR_LOST 1).event 0x0011 [] .owner else s
    let wasBulk := t.clm.bulk
    let t := State.mirrorRelease { t with clm := { t.clm with toAck := [], bulk := false } }
    if wasBulk then t else t.startBulk

/-- MIRROR_RX (R305, R306): the standby takes an item in and acknowledges it; a bulk copy that begins clears GEN_OK, and its last item
makes the generation complete. -/
def evMirrorRx (mgen : Word) (item : MirrorItem) (bulk : Bool) (s : State) : State :=
  if !s.member || (s.clmState != 1 && s.clmState != 2) then s
  else
    let n := itemNo item
    let ack := fun (t : State) => (t.setReg CLM_MGEN mgen).ringSend s.partnerPos (.mirrorAck mgen n)
    if bulk then
      let t := if s.flag CLM_STAT_GEN_OK || s.clmState == 2 then
          let u : State := { s with clm := { s.clm with mirror := none, mirrorNew := MirrorGen.none } }
          (u.setFlag CLM_STAT_GEN_OK false).setClmState 1
        else s
      let g := t.clm.mirrorNew.put n item
      let t := ack (State.takeItem { t with clm := { t.clm with mirrorNew := g } } item)
      if g.complete then
        (State.setFlag { t with clm := { t.clm with mirror := some g, mirrorNew := MirrorGen.none } } CLM_STAT_GEN_OK true).setClmState 2
      else t
    else
      let t := s.takeItem item
      ack { t with clm := { t.clm with mirror := t.clm.mirror.map fun g => g.put n item,
                                       mirrorNew := if t.clm.mirror.isSome then t.clm.mirrorNew else t.clm.mirrorNew.put n item } }

/-! ### Leaving ACTIVE (R255, R299, R362, R502) -/

/-- The active run ends with a status; its results wait to be collected. -/
def State.testEnd (s : State) (status : Nat) : State :=
  match s.test.run with
  | none => s
  | some r => State.testDisarm { s with test := { s.test with run := none, past := s.test.past ++ [{ r with status := status }] } }

/-- The end of a staging is reported with the upload kind of its image and a status (R510, R519, Table 21-6). -/
def State.stageReport (s : State) (g : StageSt) (status : Nat) : State :=
  if g.report then s.installDone (if g.kind = 0 then 1 else if g.kind = 1 then 2 else 0) status else s

/-- The open staging of a sender that has lost its claim is cancelled (R502). -/
def State.stageLost (s : State) : State :=
  match s.stage with
  | none => s
  | some g =>
    if 3 ≤ g.phase then { s with stage := none }
    else
      let t : State := { s with stage := none, comp := { s.comp with staged := none } }
      let t := if g.kind = 2 then (t.setSeq 8 { t.seq 8 with staged := none }).setFlag (switchF 8) false else t
      (((t.setF FW_STG_STAT_STATE 4).count FW_N_STG_CANCEL 1).event 0x000E [] .owner).stageReport g 0x0509

/-- Bands of this sender that have not begun to leave are discarded. -/
def State.dropBands (s : State) : State :=
  let mine := fun (e : TxEnt) => e.src.isNone && e.blocks == pktBlocks e.pkt && match e.pkt.body with | .band _ => true | _ => false
  let q := s.cord.txq.map fun e => (e.1, e.2.filter fun x => !mine x)
  State.engRegs { s with comp := { s.comp with jobs := [], backlog := [], running := [], cordq := [] },
                         cord := { s.cord with txq := q.filter fun e => !e.2.isEmpty } }

/-- FENCE (R299): out of ACTIVE, the FSQ stops, the queued bands go. -/
def State.fence (s : State) : State :=
  if s.clmState ≠ 3 then s
  else
    let own := (s.cfgGen).put 5 (s.mirrorItem 5 true)
    let t : State := { s with clm := { s.clm with mirror := if s.flag CLM_STAT_GEN_OK then some own else none } }
    let t := (t.setClmState 4).count CLM_N_FENCES 1
    let t := ((t.setSeq 8 { t.seq 8 with waiting := none }).setFlag FSQ_STAT_RUN false).dropBands
    let t := ((t.testEnd 0x0303).stageLost).popClose 256
    let pend := t.clm.pendRsp
    let t : State := { t with clm := { t.clm with toAck := [], bulk := false, pendRsp := [] }, comp := { t.comp with holdTick := none } }
    let t := pend.foldl (fun (u : State) e => u.answer e.2.1 e.2.2.1 e.2.2.2.status e.2.2.2.payload) t
    (t.setFlag CLM_STAT_PMIRRORED false).litReturn

/-- A verified UP header's claim: CLAIM_SEEN rises, and a claim above the own one fences (R288, R299). -/
def State.sawClaim (s : State) (c : BitVec 64) : State :=
  let t := if s.seen.toNat < c.toNat then s.setSeen c else s
  if t.clmState = 3 ∧ t.claim.toNat < c.toNat then t.fence else t

/-! ### Taking over (R297, R310, R313) -/

/-- The enabled graphic and protected layers. -/
def State.graphicSlots (s : State) : List Nat := ((layersOf s.comp.acc).filter fun l => !l.video).map fun l => l.slot

/-- The FSQ starts, with the mirrored words of its data memory written before its first instruction (R304); it never starts without an
image or with TRAIN_FAIL set (R313, R396). -/
def State.fsqRun (s : State) : State :=
  if (s.seq 8).image.isNone || s.flag DDR_STAT_TRAIN_FAIL then s
  else
    let words := s.clm.dmemWords
    let t := s.progStart 8
    let t := words.foldl (fun (u : State) e => u.setDmem 8 (4 * e.1) e.2) t
    { t with clm := { t.clm with dmemWords := words } }

/-- ENUM to the tile at a position of a port whose first hop is keyed (R130). -/
def State.sendEnum (s : State) (p q : Nat) : State :=
  if s.active && s.linkUp p && decide (q < 64) then s.ctrlSend p q 0x0001 (leBytes 1 q) none else s

/-- Steps 2 and 3 of R297: layers UNLOADED, every band damaged, the FSQ started, and the first tick that it may see. -/
def State.takeStart (s : State) : State :=
  let t : State := { s with comp := { s.comp with unloaded := s.graphicSlots, written := [],
                                                  holdTick := some (match s.clm.grantAt with | some g => g + msU 1 | none => s.wtb) } }
  let t := (t.damageBands (allBands t.live)).fsqRun
  let t := (List.range 8).foldl (fun (u : State) p => if (u.enumPos p).isEmpty then u.sendEnum p 0 else u) t
  t.event 0x0007 (leBytes 8 t.claim.toNat) .all

/-- A member that is not ACTIVE is named by a grant (R297, R313): it takes the claim, enters ACTIVE, and loads the complete mirror
generation it holds, or else its CFG copy. -/
def State.takeOver (s : State) (c : BitVec 64) : State :=
  let held := if s.clmState = 2 ∨ (s.clmState = 1 ∧ s.flag CLM_STAT_GEN_OK) ∨ s.clmState = 4 then s.clm.mirror else none
  let t := ((s.setClaim c).setClmState 3).count CLM_N_TAKEOVERS 1
  let t : State := { t with clm := { t.clm with toAck := [], pendRsp := [], bulk := false, mirrorNew := MirrorGen.none } }
  let idx := match s.clm.mirror with
    | some g => match g.billing with | some (.billing n) => n | _ => 0
    | none => 0
  let t : State := { t with pop := { t.pop with claimStart := true, nv := { t.pop.nv with idx := BitVec.ofNat 32 (max t.pop.nv.idx.toNat idx) } } }
  let t := t.setFlag CLM_STAT_PMIRRORED false
  match held with
  | some g => (t.takeGen g).takeStart
  | none =>
    if (match t.activeCopy 3 with | some c => (t.copy 3 c).state == 1 || (t.copy 3 (1 - c)).state == 1 | none => false) then t.loadQueue 3
    else t.takeStart

/-- A grant, or the referee heartbeat that makes a lost one good, names this member (R293, R313). -/
def State.granted (s : State) (c : BitVec 64) : State :=
  if c.toNat ≤ s.claim.toNat then s
  else if s.clmState = 3 then s.setClaim c
  else s.takeOver c

/-- Another member is named under a claim: an ACTIVE member with a lower one is fenced (R299). -/
def State.otherNamed (s : State) (c : BitVec 64) : State :=
  if s.clmState = 3 ∧ s.claim.toNat < c.toNat then s.fence else s

/-- The holder as last heard. -/
def State.setHolder (s : State) (pos : Nat) : State := (s.setF CLM_HOLDER_POS pos).setFlag CLM_HOLDER_VALID true

/-- A GRANT, from the ring or the external referee. -/
def State.grantHeard (s : State) (c : BitVec 64) (holder : Nat) : State :=
  if !s.member then s
  else
    let t : State := { s with clm := { s.clm with grant := some c, grantAt := some s.wtb } }
    let t := t.setHolder holder
    if holder = t.getF RING_STAT_POS then t.granted c else t.otherNamed c

/-- With EXTREF set, referee messages from the ring are discarded and counted (R289). -/
def State.extDrop (s : State) : Bool := s.member && s.flag CLM_CFG_EXTREF

/-- GRANT_RX (R297). -/
def evGrantRx (c : BitVec 64) (holder : Nat) (s : State) : State :=
  if s.extDrop then s.count CLM_N_EXTDROP 1 else s.grantHeard c holder

/-! ### Swap requests (R300 to R302) -/

/-- The claim of the latest GRANT this member knows. -/
def State.knownClaim (s : State) : BitVec 64 :=
  match s.clm.grant with | some g => if g.toNat < s.clm.curHeard.toNat then s.clm.curHeard else g | none => s.clm.curHeard

/-- SWAP_REQ leaves for the referee: on the ring, or with EXTREF on the referee's session (R512). -/
def State.swapSend (s : State) (r : SwapOut) : State :=
  if s.flag CLM_CFG_EXTREF then
    s.eventAt 0x0017 0xFF 0xFF (leBytes 8 r.claim.toNat ++ leBytes 1 r.kind ++ leBytes 1 r.cause ++ leBytes 2 0 ++ leBytes 4 r.seq.toNat) .referee
  else s.ringSend 0xFF (.swapReq r.claim r.kind r.cause r.seq)

/-- A new request: YIELD (1) from the holder, TAKE (2) otherwise. -/
def State.swapRequest (s : State) (cause : Nat) (wcp : Option (Nat × Word)) : State :=
  let act := s.clmState == 3
  let r : SwapOut := { seq := s.clm.swapSeq + 1, kind := if act then 1 else 2, cause := cause,
                       claim := if act then s.claim else s.knownClaim, tries := 0, wcp := wcp }
  State.swapSend ((State.count { s with clm := { s.clm with swapSeq := r.seq, swapOut := s.clm.swapOut ++ [r] } } CLM_N_SWAPREQ 1)) r

/-- An owner request: refused without a reachable referee, and HOLD does not apply (R302). The flag says whether it was sent. -/
def State.swapOwner (s : State) (wcp : Option (Nat × Word)) : State × Bool :=
  if !s.member || !s.flag CLM_STAT_REF_OK then (s, false) else (s.swapRequest 0x80 wcp, true)

/-- The automatic requests of R302. -/
def State.swapAuto (s : State) : State :=
  let quiet := match s.clm.grantAt with | some g => s.within g (1000 * s.getF CLM_CFG_HOLD) | none => false
  if !s.member || quiet || !s.clm.swapOut.isEmpty || s.paused || !s.flag CLM_STAT_REF_OK then s
  else match s.clm.hbPart with
    | none => s
    | some (_, h) =>
      let mine := s.health
      if s.clmState = 3 then
        let m := s.getF CLM_CFG_YIELD_MASK
        if mine &&& m ≠ 0 ∧ h.state = 2 ∧ h.genOk ∧ h.health &&& m = 0 then s.swapRequest (mine &&& m) none else s
      else if s.clmState = 2 ∧ h.state = 3 then
        let m := s.getF CLM_CFG_TAKE_MASK
        if h.health &&& m ≠ 0 ∧ mine &&& m = 0 ∧ s.flag CLM_STAT_GEN_OK then s.swapRequest (h.health &&& m) none else s
      else s

/-- The answer to this member's request, by SEQ (R301); an owner who asked over WCP gets its fields and the status of R519. -/
def State.swapAnswered (s : State) (cur : BitVec 64) (status : Nat) (seq : Word) : State :=
  match s.clm.swapOut.find? fun r => r.seq == seq with
  | none => s
  | some r =>
    let t : State := { s with clm := { s.clm with swapOut := s.clm.swapOut.filter fun r => r.seq != seq,
                                                  curHeard := if s.clm.curHeard.toNat < cur.toNat then cur else s.clm.curHeard } }
    let t := if status = 1 then (t.setFlag CLM_STAT_STALE_RSP true).count CLM_N_STALE 1
             else if status = 2 then (t.setFlag CLM_STAT_NO_STANDBY true).count CLM_N_NO_STANDBY 1 else t
    match r.wcp with
    | some w => t.answer w.1 w.2 (if status = 0 then 0 else if status = 1 then 0x0701 else if status = 2 then 0x0702 else 0x0703)
      (leBytes 8 cur.toNat ++ leBytes 4 status ++ leBytes 4 seq.toNat)
    | none => t

/-- SWAP_RSP_RX (R301). -/
def evSwapRspRx (cur : BitVec 64) (status : Nat) (seq : Word) (s : State) : State :=
  if !s.member then s else if s.extDrop then s.count CLM_N_EXTDROP 1 else s.swapAnswered cur status seq

/-- SWAP_REQ_RETRY (R301): the same SEQ again, up to 8 times; an owner who waits then hears that no referee answered. -/
def evSwapReqRetry (s : State) : State :=
  match s.clm.swapOut with
  | [] => s
  | r :: q =>
    if r.tries < 8 then
      let r := { r with tries := r.tries + 1 }
      State.swapSend { s with clm := { s.clm with swapOut := q ++ [r] } } r
    else
      let t : State := { s with clm := { s.clm with swapOut := q } }
      match r.wcp with | some w => t.answer w.1 w.2 0x0704 [] | none => t

/-- CLM_SWAP_REQ (R302): an owner's write of CLM_SWAP.REQ. -/
def evClmSwapReq (s : State) : State :=
  let r := s.swapOwner none
  r.1.emit (.bus (!r.2) 0)

/-! ### The referee (R290 to R296, R300) -/

/-- CUR, TOP and the holder, journalled before anything is sent (R290). -/
def State.refSet (s : State) (cur top : BitVec 64) (holder : Option Nat) : State :=
  let t : State := { s with clm := { s.clm with nvCur := cur, nvTop := top, nvHolder := holder } }
  let t := ((t.setClaim cur).setSeen top).journalClaim
  match holder with | some h => t.setHolder h | none => t

/-- A claim heard raises TOP. -/
def State.refHeard (s : State) (c : BitVec 64) : State :=
  if s.clm.nvTop.toNat < c.toNat then s.refSet s.clm.nvCur c s.clm.nvHolder else s

/-- A grant of TOP + 1 to the member at a position. -/
def State.refGrant (s : State) (pos reason : Nat) : State :=
  let c := s.clm.nvTop + 1
  let t := (s.refSet c c (some pos)).count CLM_N_GRANTS 1
  let t : State := { t with clm := { t.clm with lastGrant := some t.wtb, lossCounted := false } }
  t.ringSend 0xFF (.grant c pos reason)

/-- The latest heartbeat of the member at a position. -/
def State.hbOf (s : State) (pos : Nat) : Option (Nat × Heartbeat) :=
  if pos = s.getF CLM_PAIR_POS_A then s.clm.hbA else if pos = s.getF CLM_PAIR_POS_B then s.clm.hbB else none

/-- A member's heartbeat is less than 30 ms old. -/
def State.fresh (s : State) (pos : Nat) : Bool := match s.hbOf pos with | some x => s.within x.1 30 | none => false

/-- The members, in ascending ring position. -/
def State.pairPos (s : State) : List Nat :=
  let a := s.getF CLM_PAIR_POS_A
  let b := s.getF CLM_PAIR_POS_B
  if a ≤ b then [a, b] else [b, a]

/-- A member may be granted: a heartbeat within 30 ms, GEN_OK set. -/
def State.eligibleMember (s : State) (pos : Nat) : Bool :=
  s.fresh pos && match s.hbOf pos with | some x => x.2.genOk | none => false

/-- The end of a startup wait (R292): an ACTIVE member is taken as holder, or a READY one gets the INITIAL grant. -/
def State.refStart (s : State) : State :=
  let hb := fun (p : Nat) => if s.fresh p then (s.hbOf p).map fun x => x.2 else none
  let act := s.pairPos.filterMap fun p => match hb p with | some h => if h.state = 3 then some (p, h.claim) else none | none => none
  let best := act.foldl (fun (a : Option (Nat × BitVec 64)) x => match a with
    | none => some x
    | some y => if y.2.toNat < x.2.toNat then some x else some y) none
  match best with
  | some (p, c) =>
    let t : State := { s with clm := { s.clm with started := true } }
    if t.clm.nvCur.toNat ≤ c.toNat then t.refSet c (if t.clm.nvTop.toNat < c.toNat then c else t.clm.nvTop) (some p)
    else t.refGrant p 0
  | none =>
    match s.pairPos.find? fun p => match hb p with | some h => h.ready | none => false with
    | some p => State.refGrant { s with clm := { s.clm with started := true } } p 0
    | none => s

/-- The answer to a swap request, in the order of R300, and the grant it brings. -/
def State.refSwap (s : State) (r : SwapIn) : State :=
  let put := fun (t : State) (st : Nat) =>
    let x : SwapRes := { pos := r.pos, seq := r.seq, cur := t.clm.nvCur, status := st }
    let mine := ((x :: t.clm.swapCache.filter fun y => y.pos == r.pos).take 64) ++ t.clm.swapCache.filter fun y => y.pos != r.pos
    State.ringSend { t with clm := { t.clm with swapCache := mine } } r.pos (.swapRsp x.cur st r.seq)
  match s.clm.swapCache.find? fun x => x.pos == r.pos && x.seq == r.seq with
  | some x => s.ringSend r.pos (.swapRsp x.cur x.status r.seq)
  | none =>
    if !s.pairPos.contains r.pos then s.ringSend r.pos (.swapRsp s.clm.nvCur 3 r.seq)
    else if r.claim ≠ s.clm.nvCur then put s 1
    else if (r.kind == 1) != (s.clm.nvHolder == some r.pos) then put s 1
    else
      let m := if r.kind = 1 then (s.pairPos.find? fun p => p != r.pos).getD r.pos else r.pos
      if s.eligibleMember m then put (s.refGrant m (if r.kind = 1 then 2 else 3)) 0
      else put (s.setFlag CLM_STAT_NO_STANDBY true) 2

/-- The loss check of R296. -/
def State.refLoss (s : State) : State :=
  match s.clm.nvHolder with
  | none => s
  | some h =>
    if s.fresh h then { s with clm := { s.clm with lossCounted := false } }
    else
      let m := (s.pairPos.find? fun p => p != h).getD h
      if s.eligibleMember m ∧ m ≠ h then s.refGrant m 1
      else if s.clm.lossCounted then s
      else State.setFlag (State.count { s with clm := { s.clm with lossCounted := true } } CLM_N_NO_STANDBY 1) CLM_STAT_NO_STANDBY true

/-- The startup wait begins anew after 30 ms without a heartbeat from either member (R292). -/
def State.refQuiet (s : State) : State :=
  if s.pairPos.any fun p => s.fresh p then s
  else { s with clm := { s.clm with started := false, firstHb := none } }

/-- The requests of an evaluation: ascending position of the requester, in order of arrival (R291). -/
def swapOrder (rs : List SwapIn) : List SwapIn := (List.range 8).flatMap fun p => rs.filter fun r => r.pos == p

/-- Swap requests arrive at the referee, behind those that wait. -/
def State.refInbox (s : State) (rs : List SwapIn) : State := { s with clm := { s.clm with inbox := s.clm.inbox ++ rs } }

/-- REFEREE_EVALUATION (R291): heartbeats have been taken in as they came; then the swap requests, those that have come since the evaluation
before among them, then the loss check. During a startup wait no grant is made, and requests wait. -/
def evRefereeEvaluation (swaps : List SwapIn) (s : State) : State :=
  if !s.refActs then s
  else
    let t := (s.refInbox swaps).refQuiet
    let due := match t.clm.firstHb with | some f => !t.within f 30 | none => false
    let t := if !t.clm.started && due then t.refStart else t
    if !t.clm.started then t
    else
      let rs := swapOrder t.clm.inbox
      (rs.foldl State.refSwap { t with clm := { t.clm with inbox := [] } }).refLoss

/-- REFEREE_STARTUP_WAIT (R292): 30 ms have passed since the first heartbeat. -/
def evRefereeStartupWait (s : State) : State :=
  if s.refActs && !s.clm.started && s.clm.firstHb.isSome then s.refStart else s

/-- A member's heartbeat arrives at the referee (R290, R292). -/
def State.refHb (s : State) (h : Heartbeat) : State :=
  if !s.pairPos.contains h.pos || h.state == 5 then s
  else
    let t := if h.pos = s.getF CLM_PAIR_POS_A then { s with clm := { s.clm with hbA := some (s.wtb, h) } }
             else { s with clm := { s.clm with hbB := some (s.wtb, h) } }
    let t : State := { t with clm := { t.clm with firstHb := some (t.clm.firstHb.getD t.wtb) } }
    (t.refHeard h.claim).refHeard h.seen

/-! ### Heartbeats (R295, R312) -/

/-- The 32 bytes of a HEARTBEAT (Table 11-5). -/
def hbBytes (h : Heartbeat) : List Byte :=
  leBytes 8 h.claim.toNat ++ leBytes 1 h.state ++ leBytes 1 h.health ++ leBytes 1 h.pos ++
    leBytes 1 ((if h.ready then 1 else 0) + (if h.genOk then 2 else 0)) ++ leBytes 4 h.mgen.toNat ++ leBytes 8 h.fcnt ++ leBytes 8 h.seen.toNat

/-- READY: from 400 ms after power-good on, once Kindling has completed (R312). -/
def State.ready (s : State) : Bool := s.fw.kindled.isSome && decide (s.fw.goodAt * 10 + 131072 ≤ s.life * 10)

/-- This member's heartbeat. -/
def State.ownHb (s : State) : Heartbeat :=
  { claim := s.claim, state := s.clmState, health := s.health, pos := s.getF RING_STAT_POS, ready := s.ready, genOk := s.flag CLM_STAT_GEN_OK,
    mgen := s.reg CLM_MGEN, fcnt := match s.comp.frames with | f :: _ => f.fcnt | [] => 0, seen := s.seen }

/-- The referee's heartbeat carries CUR and the holder's position (R293). -/
def State.refHbOut (s : State) : Heartbeat :=
  { claim := s.clm.nvCur, state := 5, health := 0, pos := s.clm.nvHolder.getD 0, ready := false, genOk := false, mgen := 0, fcnt := 0,
    seen := s.clm.nvTop }

/-- HEARTBEAT_TIMER (R295). -/
def evHeartbeatTimer (s : State) : State :=
  let t := if s.member && !s.refActs then
      let h := s.ownHb
      let u := s.healthReg.ringSend 0xFF (.heartbeat h)
      (if u.flag CLM_CFG_EXTREF then u.eventAt 0x0016 0xFF 0xFF (hbBytes h) .referee else u).swapAuto
    else s
  if t.refActs then t.ringSend 0xFF (.heartbeat t.refHbOut) else t

/-- HEARTBEAT_TIMEOUT (R295): no referee heartbeat, or no partner heartbeat, for 30 ms. -/
def evHeartbeatTimeout (referee : Bool) (s : State) : State :=
  if s.member then
    (s.count CLM_N_HB_MISS 1).setFlag (if referee then CLM_STAT_REF_OK else CLM_STAT_PARTNER_OK) false
  else s

/-- The referee's heartbeat at a member: a lost grant is made good, another holder fences or starts SYNC (R293, R299, R312). -/
def State.refHbHeard (s : State) (h : Heartbeat) : State :=
  let t : State := { s with clm := { s.clm with hbRef := some s.wtb, curHeard := if s.clm.curHeard.toNat < h.claim.toNat then h.claim else s.clm.curHeard } }
  let t := t.setFlag CLM_STAT_REF_OK true
  if h.claim = 0 then t
  else
    let t := t.setHolder h.pos
    if h.pos = t.getF RING_STAT_POS then
      if t.claim.toNat < h.claim.toNat then State.granted { t with clm := { t.clm with grantAt := some t.wtb } } h.claim else t
    else
      let t := t.otherNamed h.claim
      if t.clmState = 0 then t.setClmState 1 else t

/-- The partner's heartbeat at a member (R297, R299, R302, R305, R312). -/
def State.partHbHeard (s : State) (h : Heartbeat) : State :=
  let newMark := match s.clm.hbPart with | some x => x.2.fcnt != h.fcnt | none => true
  let t : State := { s with clm := { s.clm with hbPart := some (s.wtb, h) },
                            comp := if newMark then { s.comp with ticks := 0 } else s.comp }
  let t := (t.setFlag CLM_STAT_PARTNER_OK true).setF CLM_STAT_PHEALTH (h.health % 64)
  let t := if t.clmState = 3 ∧ !t.clm.bulk then t.setFlag CLM_STAT_PMIRRORED (h.state == 2) else t
  let t := if h.state = 3 then
      let u := (t.setHolder h.pos).otherNamed h.claim
      if u.clmState = 0 ∨ u.clmState = 4 then u.setClmState 1 else u
    else if h.state = 1 ∧ t.clmState = 3 ∧ !t.clm.bulk then t.startBulk
    else t
  t.swapAuto

/-- HEARTBEAT_RX (R312). -/
def evHeartbeatRx (h : Heartbeat) (s : State) : State :=
  let t := if s.refActs then s.refHb h else s
  if !t.member then t
  else if h.state = 5 then (if t.extDrop then t.count CLM_N_EXTDROP 1 else t.refHbHeard h)
  else if h.pos = t.partnerPos then t.healthReg.partHbHeard h
  else t

end Sys2Proof.Machine
end

