-- ==== Sys2Proof/Machine/Board.lean ====
section
/-! DEFINITION. Machine/Board.lean: the lamp-board services of a tile: temperature readings and derating, supply headroom, the
brightness ramp (Driving the Lamp Board, R228 to R242). -/

namespace Sys2Proof.Machine

/-! ### Temperature (R173, R228 to R232) -/

/-- A sensor's raw 16-bit value as 1/16 °C (R228). -/
def tempOf (fmt raw : Nat) : Int := if fmt = 0 then signed 12 (raw / 16 % 4096) else roundDiv (signed 16 raw) 8

/-- Sensor n counts as failed. -/
def State.sensorBad (s : State) (n : Nat) : Bool := s.brd.bad.testBit n

/-- s with sensor n counting as failed or not. -/
def State.setSensorBad (s : State) (n : Nat) (b : Bool) : State :=
  let m := s.brd.bad % 16
  let m := if m.testBit n then m - 2 ^ n else m
  { s with brd := { s.brd with bad := if b then m + 2 ^ n else m } }

/-- A reading of sensor n fails (R229). -/
def State.readingFails (s : State) (n : Nat) : State :=
  let t := ((s.count (LAMP_N_TSERR n) 1).setFlag (LAMP_TSTAT_FAILED n) true).setFlag (LAMP_TSTAT_VALID n) false
  let t := t.setSensorBad n true
  { t with brd := { t.brd with goodRun := SMap.set (fun _ => 0) t.brd.goodRun n 0 } }

/-- A good reading: a failed sensor needs 10 in a row to be valid again (R229). -/
def State.readingGood (s : State) (n : Nat) (v : Int) : State :=
  let run := SMap.get (fun _ => 0) s.brd.goodRun n + 1
  if s.sensorBad n && decide (run < 10) then
    { s with brd := { s.brd with goodRun := SMap.set (fun _ => 0) s.brd.goodRun n run } }
  else
    let t := (s.setSensorBad n false).setF (LAMP_TSTAT_TEMP n) (unsigned 16 v)
    t.setFlag (LAMP_TSTAT_VALID n) true

/-- One local sensor read: what the transaction brought, or none where it was not acknowledged or took over 2 ms (R228, R229). -/
def State.readSensor (s : State) (n : Nat) (raw : Option Nat) : State :=
  match raw with
  | none => s.readingFails n
  | some r =>
    let v := tempOf (s.getF (LAMP_TSENS_FMT n)) r
    let jump := match SMap.get (fun _ => none) s.brd.lastRaw n with
      | some p => decide (128 < (v - p).natAbs)
      | none => false
    let t : State := { s with brd := { s.brd with lastRaw := SMap.set (fun _ => none) s.brd.lastRaw n (some v) } }
    if decide (v < -880) || decide (2400 < v) || jump then t.readingFails n else t.readingGood n v

/-- The selected sensors that are local or on the ring. -/
def State.tsensors (s : State) : List Nat :=
  (List.range 4).filter fun n => (s.liveF LAMP_TCFG_TSENS).testBit n &&
    (s.getF (LAMP_TSENS_SRC n) == 1 || s.getF (LAMP_TSENS_SRC n) == 2)

/-- CEIL_T at a board temperature (R231). -/
def ceilT (start end_ : Int) (tdMin : Nat) (t : Int) : Nat :=
  if t ≤ start then 1000
  else if end_ ≤ t then tdMin
  else
    let d := end_ - start
    let v := (1000 * d - (1000 - (tdMin : Int)) * (t - start)) / (10 * d)
    max tdMin (10 * v).toNat

/-- CEIL is recomputed: a change makes a pending change and raises EV10 (R232). -/
def State.newCeil (s : State) : State :=
  let a := min (s.getF LAMP_CEILSRC_CEIL_T) (s.getF LAMP_CEILSRC_CEIL_THERM)
  let c := if s.flag LAMP_STAT_TSENS_FAIL then min a (s.getF LAMP_DERATE2_CEIL_FAIL) else a
  if c = s.getF LAMP_CEIL_CEIL then s else (s.setF LAMP_CEIL_CEIL c).genPending.raisePsqs 10

/-- CEIL_THERM changes (R232, R454). -/
def State.setCeilTherm (s : State) (c : Nat) : State :=
  if s.tile then
    if s.getF LAMP_CEILSRC_CEIL_THERM = c then s else (s.setF LAMP_CEILSRC_CEIL_THERM c).newCeil
  else s

/-- TEFF is recomputed over the valid selected sensors; TSENS_FAIL is set where every one of them has failed; CEIL follows, and a
move of at least TSTEP from TGEN makes a pending change (R173, R183, R231, R232). -/
def State.newTeff (s : State) : State :=
  let ns := s.tsensors
  let good := ns.filter fun n => s.flag (LAMP_TSTAT_VALID n)
  let t := s.setFlag LAMP_STAT_TSENS_FAIL (!ns.isEmpty && ns.all fun n => s.sensorBad n)
  let t := if good.isEmpty then t
    else t.setF LAMP_TEMP_TEFF (unsigned 16 (roundDiv (good.foldl (fun a n => a + signed 16 (s.getF (LAMP_TSTAT_TEMP n))) 0) good.length))
  let t := t.setF LAMP_CEILSRC_CEIL_T
    (ceilT (signed 16 (t.getF LAMP_DERATE_TD_START)) (signed 16 (t.getF LAMP_DERATE_TD_END)) (t.getF LAMP_DERATE2_TD_MIN) t.teff)
  let t := t.newCeil
  if t.liveF LAMP_TCFG_TSTEP ≤ (t.teff - t.tgen).natAbs then t.genPending else t

/-- The sensors this controller reads itself, as a mask. -/
def State.localSensors (s : State) : Nat := (List.range 4).foldl (fun m n => if s.getF (LAMP_TSENS_SRC n) = 1 then m + 2 ^ n else m) 0

/-- LAMP_TEMP_CYCLE (R228): what each sensor's transaction brought; the local ones are read, TEFF is recomputed, EV9 is raised in each
PSQ, and a controller with a local sensor broadcasts the readings (R230). -/
def evLampTempCycle (raws : List (Option Nat)) (s : State) : State :=
  if !s.tile then s
  else
    let t := (List.range 4).foldl (fun (u : State) n => if u.getF (LAMP_TSENS_SRC n) = 1 then u.readSensor n (raws.getD n none) else u) s
    let t := t.newTeff.raisePsqs 9
    let t : State := { t with brd := { t.brd with tempSeq := t.brd.tempSeq + 1 } }
    if t.localSensors = 0 then t
    else
      let valid := (List.range 4).foldl (fun m n => if t.flag (LAMP_TSTAT_VALID n) then m + 2 ^ n else m) 0
      t.ringSend 0xFF (.temp ((List.range 4).map fun n => t.getF (LAMP_TSTAT_TEMP n)) t.localSensors valid t.brd.tempSeq)

/-- The ring packet a sensor takes its value from: of those heard within 300 ms that mark it local, the one of the lowest position. -/
def State.ringTemp (s : State) (n : Nat) : Option TempMsg :=
  (s.brd.ring.filter fun m => m.loc.testBit n && decide (s.wtb - m.at_ ≤ 300000000 * 64)).foldl
    (fun a m => match a with
      | none => some m
      | some b => if m.pos < b.pos then some m else a) none

/-- TEMP_READING_RX (R230). -/
def evTempReadingRx (pos : Nat) (temps : List Nat) (loc valid : Nat) (s : State) : State :=
  if !s.tile then s
  else
    let m : TempMsg := { pos := pos, temps := temps, loc := loc, valid := valid, at_ := s.wtb }
    let t : State := { s with brd := { s.brd with ring := m :: s.brd.ring.filter fun x => x.pos != pos } }
    (List.range 4).foldl (fun (u : State) n =>
      if u.getF (LAMP_TSENS_SRC n) = 2 then
        match u.ringTemp n with
        | some x =>
          if x.valid.testBit n then
            ((u.setSensorBad n false).setF (LAMP_TSTAT_TEMP n) (x.temps.getD n 0)).setFlag (LAMP_TSTAT_VALID n) true
          else (u.setSensorBad n true).setFlag (LAMP_TSTAT_VALID n) false
        | none => u
      else u) t

/-- TEMP_RING_TIMEOUT (R230): no packet marking sensor n local has come for 300 ms. -/
def evTempRingTimeout (n : Nat) (s : State) : State :=
  if s.tile && s.getF (LAMP_TSENS_SRC n) == 2 then (s.setSensorBad n true).setFlag (LAMP_TSTAT_VALID n) false else s

/-! ### Supply headroom (R233 to R237) -/

/-- A window's length in WTB units. -/
def State.hrWindow (s : State) : Nat := s.getF LAMP_HRCFG_WIN * 10000000 * 64

/-- The votes that arrived within the last 1.5 windows, on a formed ring. -/
def State.recentVotes (s : State) : List VoteMsg :=
  if s.flag RING_STAT_FORMED then s.brd.votes.filter fun v => decide (2 * (s.wtb - v.at_) ≤ 3 * s.hrWindow) else []

/-- This controller is the supply master (R234). -/
def State.isMaster (s : State) : Bool :=
  s.flag LAMP_PMB_EN && s.recentVotes.all fun v => !v.pmbEn || decide (s.getF RING_STAT_POS < v.pos)

/-- SETPOINT takes a value; a change raises EV11 in each PSQ (R237). -/
def State.newSetpoint (s : State) (v : Nat) : State :=
  if s.getF LAMP_HRSET_SETPOINT = v then s else (s.setF LAMP_HRSET_SETPOINT v).raisePsqs 11

/-- The master may command the supply: its limits are in order (R236). -/
def State.supplyOk (s : State) : Bool :=
  let lo := s.getF LAMP_HRLIM_VMIN
  let hi := s.getF LAMP_HRLIM_VMAX
  let st := s.getF LAMP_HRSET_VSTART
  hi != 0 && decide (lo ≤ hi) && decide (lo ≤ st) && decide (st ≤ hi)

/-- The value of VOUT_COMMAND for a setpoint in mV and a VOUT_MODE (R236). -/
def voutCommand (mv mode : Nat) : Nat :=
  let n := signed 5 (mode % 32)
  if n < 0 then (roundDiv ((mv * 2 ^ n.natAbs : Nat) : Int) 1000).toNat else (roundDiv (mv : Int) (1000 * 2 ^ n.natAbs)).toNat

/-- The master writes SETPOINT to the supply, or not, with what the device answers (R236). -/
def State.pmbWrite (s : State) (ack : Bool) : State :=
  if !s.supplyOk then s.setFlag LAMP_HRSTAT_SUP_ERR true
  else match s.brd.pmbMode with
    | none => s
    | some m =>
      if m / 32 % 8 != 0 then s.setFlag LAMP_HRSTAT_PMB_MODE true
      else
        let t := s.emit (.pmbus (s.getF LAMP_PMB_ADDR) 0x21 (voutCommand (s.getF LAMP_HRSET_SETPOINT) m))
        let t : State := { t with brd := { t.brd with pmbRetry := !ack } }
        if ack then t else (t.count LAMP_N_PMBERR 1).setFlag LAMP_HRSTAT_SUP_ERR true

/-- Becoming master: VOUT_MODE is read and SETPOINT starts from the last one received, or from VSTART (R234, R236). -/
def State.becomeMaster (s : State) (mode : Option Nat) (ack : Bool) : State :=
  let t := s.newSetpoint (s.brd.lastSet.getD (s.getF LAMP_HRSET_VSTART))
  State.pmbWrite { t with brd := { t.brd with pmbMode := mode, down := 0, pmbRetry := mode.isNone } } ack

/-- The master's decision over the votes (R235): the new state and whether SETPOINT changed. -/
def State.masterStep (s : State) (own : Nat) : State × Bool :=
  let vs := s.recentVotes
  let members := (List.range 16).filter fun p => (s.getF RING_STAT_MEMBERS).testBit p && p != s.getF RING_STAT_POS
  let voteOf := fun p => match vs.find? fun v => v.pos == p with | some v => v.vote | none => 0
  let all := if s.flag RING_STAT_FORMED then own :: members.map voteOf else [own]
  let sp := s.getF LAMP_HRSET_SETPOINT
  let still : State := { s with brd := { s.brd with down := 0 } }
  if s.flag SUP_STAT_VSAG_WARN || vs.any fun v => v.vsag then (still, false)
  else if all.any fun v => v == 2 then
    let up := 5 * s.getF LAMP_HRCFG_STEP_UP
    let hi := s.getF LAMP_HRLIM_VMAX
    let new := if sp + up ≤ hi then sp + up else max sp hi
    let t := if hi < sp + up then still.setFlag LAMP_HRSTAT_AT_VMAX true else still
    if sp < new then ((t.newSetpoint new).count LAMP_N_STEPUP 1, true) else (t, false)
  else if all.all fun v => v == 1 then
    let d := s.brd.down + 1
    if d < s.getF LAMP_HRCFG_HOLD then ({ s with brd := { s.brd with down := d } }, false)
    else
      let dn := 5 * s.getF LAMP_HRCFG_STEP_DN
      let lo := s.getF LAMP_HRLIM_VMIN
      let new := if lo + dn ≤ sp then sp - dn else min sp lo
      if new < sp then ((still.newSetpoint new).count LAMP_N_STEPDN 1, true) else (still, false)
  else (still, false)

/-- HEADROOM_WINDOW_END (R233): the vote, the master's part in it, and the vote's packet. `mode` is what a read of VOUT_MODE answers,
`acks` what the supply answers to the writes made here. -/
def evHeadroomWindowEnd (mode : Option Nat) (acks : List Bool) (s : State) : State :=
  if !s.tile then s
  else
    let own := if s.brd.hrFails != 0 then 2 else if s.brd.hrMade then 1 else 0
    let fails := s.brd.hrFails
    let t := s.setF LAMP_HRSTAT_VOTE own
    let t := if own = 2 then t.count LAMP_N_UPWIN 1 else t
    let t : State := { t with brd := { t.brd with hrMade := false, hrFails := 0, win := t.brd.win + 1 } }
    let was := t.flag LAMP_HRSTAT_MASTER
    let now := t.isMaster
    let t := t.setFlag LAMP_HRSTAT_MASTER now
    let t :=
      if now then
        let u := if was then t else t.becomeMaster mode (acks.getD 0 true)
        let u : State := if u.brd.pmbMode.isNone then { u with brd := { u.brd with pmbMode := mode } } else u
        let r := u.masterStep own
        let v := if r.2 || r.1.brd.pmbRetry then r.1.pmbWrite (acks.getD (if was then 0 else 1) true) else r.1
        ({ v with brd := { v.brd with noSet := 0 } } : State)
      else if t.flag RING_STAT_FORMED then
        let n := t.brd.noSet + 1
        let u : State := { t with brd := { t.brd with noSet := n } }
        if 10 ≤ n then u.setFlag LAMP_HRSTAT_SUP_STALE true else u
      else t
    t.ringSend 0xFF (.vote t.brd.win own now (t.flag LAMP_PMB_EN) (t.flag SUP_STAT_VSAG_WARN) (t.getF LAMP_HRSET_SETPOINT)
      (min fails 0xFFFFFFFF))

/-- SUPPLY_VOTE_RX (R235, R237). -/
def evSupplyVoteRx (pos vote : Nat) (masterSet pmbEn vsag : Bool) (setpoint fails : Nat) (s : State) : State :=
  if !s.tile then s
  else
    let m : VoteMsg := { pos := pos, vote := vote, pmbEn := pmbEn, vsag := vsag, fails := fails, at_ := s.wtb }
    let t : State := { s with brd := { s.brd with votes := m :: s.brd.votes.filter fun x => x.pos != pos } }
    if masterSet && !(t.flag LAMP_HRSTAT_MASTER && decide (t.getF RING_STAT_POS < pos)) then
      let t := (t.newSetpoint setpoint).setFlag LAMP_HRSTAT_SUP_STALE false
      { t with brd := { t.brd with lastSet := some setpoint, noSet := 0 } }
    else t

/-! ### First light (R238, R239) -/

/-- BRIGHT is written; a change of its value makes a pending change (R183). -/
def State.putBright (s : State) (v : Nat) : State :=
  if s.getF LAMP_BRIGHT_BRIGHT = v then s else (s.setF LAMP_BRIGHT_BRIGHT v).genPending

/-- A write to LAMP_BRIGHT, or a brightness request: TARGET while a ramp is active, else BRIGHT; values above 0x8000 are ignored (R239). -/
def State.setBright (s : State) (v : Nat) : State :=
  if 0x8000 < v then s else if s.flag LAMP_RAMP_ACTIVE then s.setF LAMP_RAMP_TARGET v else s.putBright v

/-- The brightness ramp falls due (R238). -/
def State.rampDue (s : State) : State :=
  if s.tile then
    let t := (s.putBright 0).setFlag LAMP_RAMP_ACTIVE true
    { t with brd := { t.brd with rampStep := 0, rampOn := false } }
  else s

/-- The ramp starts at the first flip made with UNCAL clear (R238). -/
def State.rampFlip (s : State) : State :=
  if s.flag LAMP_RAMP_ACTIVE && !s.flag LAMP_STAT_UNCAL then { s with brd := { s.brd with rampOn := true } } else s

/-- RAMP_STEP (R238): the next step of a running ramp. -/
def evRampStep (s : State) : State :=
  if s.tile && s.flag LAMP_RAMP_ACTIVE && s.brd.rampOn then
    let n := ceilDiv (s.getF LAMP_RAMP_RAMP_MS) 50
    let i := min n (s.brd.rampStep + 1)
    let t := (s.setF LAMP_BRIGHT_BRIGHT (roundDiv ((s.getF LAMP_RAMP_TARGET * i : Nat) : Int) n).toNat).genPending
    let t : State := { t with brd := { t.brd with rampStep := i } }
    if n ≤ i then State.setFlag { t with brd := { t.brd with rampOn := false } } LAMP_RAMP_ACTIVE false else t
  else s

/-- LAMP_BRIGHT (R239): a write to the register; the answer is an error for a value above 0x8000. -/
def evLampBright (v : Nat) (s : State) : State :=
  if s.tile then (s.setBright (v % 0x10000)).emit (.bus (decide (0x8000 < v % 0x10000)) 0) else s.emit (.bus false 0)

end Sys2Proof.Machine
end

