-- ==== Sys2Proof/Machine/Tile.lean ====
section
/-! DEFINITION. Machine/Tile.lean: a tile on its cord: packet headers and claims (R139, R140, R161), frames and the atomic flip (R145 to
R148), bands (R169 to R171), and generation switches that close a frame (R184). -/

namespace Sys2Proof.Machine

/-- The tile's identity on the cord (R130). -/
def State.tid (s : State) : Nat := leNat ((Config.sha384 s.serial).take 8)

/-! ### Claims (R157, R158, R161) -/

/-- The tile's position follows its claim-facing port. -/
def State.setPos (s : State) : State :=
  s.setF CORD_TSTAT_POS (if s.flag CORD_TSTAT_CFPORT then s.getF CORD_TSTAT_POS_B else s.getF CORD_TSTAT_POS_A)

/-- The claim-facing port of a new claim: the port of its first packet with RELAY clear (R158). -/
def State.takeCf (s : State) (port : Nat) (relay : Bool) : State :=
  if s.tl.cfWait && !relay then
    State.setPos (State.setF { s with tl := { s.tl with cfWait := false } } CORD_TSTAT_CFPORT port)
  else s

/-- The downward copies under older claims that wait on a port end: one that has begun with ABORT. -/
def State.dropStale (s : State) (claim : BitVec 64) (port cls : Nat) : State :=
  let k := port * 2 + cls
  let q := SMap.get (fun _ => []) s.cord.txq k
  let old := fun (e : TxEnt) => e.src.isSome && !e.pkt.hdr.up && decide (e.pkt.hdr.claim.toNat < claim.toNat)
  let t : State := { s with cord := { s.cord with txq := SMap.set (fun _ => []) s.cord.txq k (q.filter fun e => !old e) } }
  (q.filter old).foldl (fun (u : State) e =>
    let u := if e.blocks < pktBlocks e.pkt then u.emit (.cordAbort port) else u
    match e.src with | some p => u.freeBlocks p cls e.blocks | none => u) t

/-- CLAIM_RAISE: a header with a higher claim has verified (R161). -/
def State.claimRaise (s : State) (port : Nat) (relay : Bool) (claim : BitVec 64) : State :=
  let t := (s.setReg CORD_CLAIM_HI_LO (claim.extractLsb' 0 32)).setReg CORD_CLAIM_HI_HI (claim.extractLsb' 32 32)
  let t := t.setFlag CORD_TSTAT_CLAIMED true
  let t := [(0, 0), (0, 1), (1, 0), (1, 1)].foldl (fun (u : State) pc => u.dropStale claim pc.1 pc.2) t
  let t : State := { t with
    tl := { t.tl with frame := none, rx := [], slots := [], exch := [], stats := [], stepped := false, cfWait := true,
                      ctlCache := [], ctlNewest := none },
    pwr := { t.pwr with smoulderAt := none },
    tstage := t.tstage.map fun x => { x with arm := none, asks := [] } }
  let t := t.setFlag CORD_TSTAT_TSYNC_LOCK false
  (t.testDisarm.setReg CORD_SEQ_APPLIED 0).takeCf port relay

/-! ### Received packets (R139 to R141) -/

/-- A packet's header and tags at a tile; own packets are consumed here, and it is here that they count. The flag says whether the tile
acts on the payload. -/
def State.tileHdr (s : State) (r : CordRx) (own : Bool) : State × Bool :=
  let cnt := fun (t : State) (a : Nat) => if own then t.count a 1 else t
  if !s.tile then (s, false)
  else if !r.htag then (cnt s (CORD_N_HTAGERR r.port), false)
  else if r.hdr.claim.toNat < s.claim.toNat then (cnt s (CORD_N_STALE r.port), false)
  else
    let t := if s.claim.toNat < r.hdr.claim.toNat then s.claimRaise r.port r.hdr.relay r.hdr.claim else s.takeCf r.port r.hdr.relay
    if r.abort then (cnt t (CORD_N_ABORTRX r.port), false)
    else if !r.tag then (cnt t (CORD_N_TAGERR r.port), false)
    else (t, true)

/-- The tile's own position is the destination. -/
def State.forMe (s : State) (r : CordRx) : Bool := r.hdr.dest == s.getF CORD_TSTAT_POS

/-- A packet consumed by this tile: its header, and its blocks freed. -/
def State.tileOwn (s : State) (r : CordRx) (b : CordBody) : State × Bool :=
  let x := s.tileHdr r true
  (x.1.freeBlocks r.port (bodyCls b) (pktBlocks { hdr := r.hdr, body := b }), x.2 && x.1.forMe r)

/-- CUT_THROUGH_FORWARD: a packet for another position, for all tiles or UP goes out of the other port, tagged anew; it ends with ABORT
where it came with a bad TAG (R138 to R141, R161). -/
def evCutThroughForward (r : CordRx) (b : CordBody) (s : State) : State :=
  let p : CordPkt := { hdr := r.hdr, body := b }
  let free := fun (t : State) => t.freeBlocks r.port (bodyCls b) (pktBlocks p)
  let x := s.tileHdr { r with tag := true, abort := false } true
  if !s.tile then s
  else if !x.2 then free x.1
  else
    let t := x.1
    match b with
    | .undefinedType _ _ => free (t.count (CORD_N_TAGERR r.port) 1)
    | _ =>
      let other := 1 - r.port
      if r.hdr.dest = 0xFE ∨ (!r.hdr.up && t.forMe r) then free t
      else if r.abort then free ((t.count (CORD_N_ABORTRX r.port) 1).emit (.cordAbort other))
      else if !r.tag then free ((t.count (CORD_N_TAGERR r.port) 1).emit (.cordAbort other))
      else t.sendFrom (some r.port) other p

/-! ### Closing a frame (R146 to R148) -/

/-- Flags of an ACK (Table 5-8). -/
def State.ackFlags (s : State) : Nat :=
  (if s.flag CORD_TSTAT_TSYNC_LOCK then 0 else 1) + (if s.tl.psqFault then 2 else 0) +
    (if s.liveF LAMP_CEIL_CEIL < 1000 then 4 else 0) + (if s.getF THERM_STAT_LEVEL = 0 then 0 else 8)

/-- The frame closes with a result and a number of bands made active, and is acknowledged. -/
def State.frameClose (s : State) (f : TileFrame) (result n : Nat) : State :=
  let fl := s.ackFlags
  let t : State := { s with tl := { s.tl with frame := none, psqFault := false } }
  let t := (t.setReg CORD_LF (BitVec.ofNat 32 f.fcnt)).setReg CORD_LF_HI
    (BitVec.ofNat 32 (f.fcnt / 2 ^ 32 % 256 + result * 256 + fl * 65536))
  let lit := (List.range 8).foldl (fun m k => if t.flag (PIN_BSTAT_SAFE k) then m else m + 2 ^ k) 0
  t.sendUp (.ack { fcnt := f.fcnt, result := result, flags := fl, litmask := lit, bands := n, bright := t.liveF LAMP_BRIGHT_BRIGHT,
                   ceil := t.liveF LAMP_CEIL_CEIL, tid := t.tid })

/-- COUNT of the tile's own position. -/
def State.myCount (s : State) (f : TileFrame) : Nat := f.count.getD (s.getF CORD_TSTAT_POS) 0

/-- The first result that applies to a frame at PTIME, 0 where it flips (R146, R147, R448). -/
def State.flipResult (s : State) (f : TileFrame) : Nat :=
  let n := s.myCount f
  if n = 0 then 1
  else if f.protFail then 3
  else if s.flag SUP_STAT_VSAG_WARN ∨ f.held.length < n then 2
  else if f.late ∨ !f.held.all (fun k => f.corrected.contains k) then 4
  else 0

/-- The select bits of flipped bands invert, and their content is of the generation in force (R182). -/
def State.flipBands (s : State) (ks : List Nat) : State :=
  let t := s.invert ks
  State.sweepRegs { t with lamp := { t.lamp with
    bandGen := ks.foldl (fun m k => SMap.set (fun _ => 0) m k (t.getF LAMP_GEN_GEN)) t.lamp.bandGen } }

/-- SYNC_OUT gives its pulse (R267). -/
def State.syncPulse (s : State) : State :=
  if s.flag REF_OUT_SOUT_EN then s.emit (.syncOut ((s.wtb : Int) + signed 32 (s.reg REF_OUTOFF).toNat) (s.getF REF_OUT_SOUT_W)) else s

/-- PTIME_REACHED: the flip is decided, then swept bands commit, and the frame closes (R146, R182, R186, R238). -/
def evPtimeReached (s : State) : State :=
  match s.tl.frame with
  | none => s
  | some f =>
    if !s.tile || f.ptime.isNone then s
    else
      let res := s.flipResult f
      if res = 0 then
        let t := (s.flipBands f.held).commit.syncPulse.rampFlip
        (t.raisePsqs 2).frameClose f 0 f.held.length
      else s.commit.frameClose f res 0

/-- A generation switch by the second instant: a frame still open closes INCOMPLETE (R184). -/
def State.switchLate (s : State) : State :=
  let t := match s.tl.frame with | some f => s.frameClose f 2 0 | none => s
  t.genSwitch

/-- GEN_SWITCH_TIMEOUT (R184): while the tables load it waits for the load's end. -/
def evGenSwitchTimeout (s : State) : State :=
  if !s.tile || !s.flag LAMP_STAT_GEN_PEND then s
  else if s.flag LAMP_STAT_LOADING then { s with lamp := { s.lamp with overdue := true } }
  else s.switchLate

/-! ### Frame packets (R145) -/

/-- A MARK as the tile accepts it; the flag says whether it was accepted (R145, R147, R184, R186). -/
def State.markAccept (s : State) (r : CordRx) (fcnt fper ntiles : Nat) : State × Bool :=
  let x := s.tileHdr r false
  if !x.2 then (x.1, false)
  else
    let t := x.1
    let old := match t.tl.last with | some l => decide (fcnt ≤ l) | none => false
    if old then (t.count (CORD_N_DUP r.port) 1, false)
    else
      let t := match t.tl.frame with | some f => t.frameClose f 5 0 | none => t
      let t := t.commit.genSwitch
      let f : TileFrame := { fcnt := fcnt, ptime := none, count := [], late := false, held := [], corrected := [], protFail := false }
      let t : State := { t with tl := { t.tl with frame := some f, last := some fcnt, fper := some fper, lastMark := t.wtb,
                                                  ntiles := ntiles, rx := [] } }
      let t := (t.setF CORD_TSTAT_POS_B (ntiles - 1 - t.getF CORD_TSTAT_POS_A)).setPos
      (t.raisePsqs 0, true)

/-- PRESENT_RX: only for the open frame, once; a PTIME that has passed closes the frame at once (R145, R147). -/
def evPresentRx (r : CordRx) (fcnt ptime : Nat) (count : List Nat) (s : State) : State :=
  let x := s.tileHdr r false
  if !x.2 then x.1
  else match x.1.tl.frame with
    | none => x.1
    | some f =>
      if f.fcnt ≠ fcnt then x.1
      else if f.ptime.isSome then x.1.count (CORD_N_DUP r.port) 1
      else
        let late := decide (ptime * 64 < x.1.wtb)
        let g := { f with ptime := some ptime, count := count, late := late }
        let t : State := { x.1 with tl := { x.1.tl with frame := some g } }
        if late then t.frameClose g (t.flipResult g) 0 else t

/-- The band's protected region passes its check (R170). -/
def regionOk (b : BandPkt) : Bool :=
  if !b.preg then true
  else if b.width < b.px + b.pw ∨ b.lines < b.py + b.ph then false
  else
    let px := (List.range b.ph).flatMap fun y => (List.range b.pw).map fun x =>
      b.pixels.getD ((b.py + y) * b.width + b.px + x) 0
    crcPixels px == b.pcrc

/-- BAND_RX: a band for this tile is taken in, or discarded and counted (R143, R145, R169, R170, R185, R187); the operand says whether the
tile could take it in at link rate. -/
def evBandRx (r : CordRx) (b : BandPkt) (fits : Bool) (s : State) : State :=
  let x := s.tileOwn r (.band b)
  if !x.2 then x.1
  else match x.1.tl.frame with
    | none => x.1
    | some f =>
      let t := x.1
      if b.ftag ≠ f.fcnt % 65536 then t
      else if f.held.contains b.band then t.count (CORD_N_DUP r.port) 1
      else if t.flag LAMP_STAT_LOADING ∨ t.flag LAMP_STAT_UNCAL then t.count LAMP_N_CALBUSY 1
      else if !fits then t.count (CORD_N_ACCEPTOVF r.port) 1
      else if t.tileBands ≤ b.band ∨ b.width ≠ t.getF LAMP_GEOM_W ∨ b.lines ≠ bandLines (t.getF LAMP_GEOM_H) b.band then
        t.count LAMP_N_GEOMERR 1
      else
        let t := t.litReturn.count LAMP_N_BANDS 1
        let bad := !regionOk b
        let t := if bad then (t.setFlag LAMP_STAT_PROTECT_FAULT true).count LAMP_N_PFAULT 1 else t
        let g := { f with held := f.held ++ [b.band], protFail := f.protFail || bad }
        { t with tl := { t.tl with frame := some g, rx := t.tl.rx ++ [{ band := b.band, lines := b.lines, pixels := b.pixels, fcnt := f.fcnt }] },
                 lamp := { t.lamp with swept := t.lamp.swept.filter fun k => k != b.band } }

/-- BAND_CORRECTION_DONE: the oldest band in correction lies in the inactive half (R171). -/
def evBandCorrectionDone (s : State) : State :=
  match s.tl.rx, s.lamp.cal with
  | b :: bs, some c =>
    let t := State.storeBand { s with tl := { s.tl with rx := bs } } c b.band b.pixels
    match t.tl.frame with
    | some f => if f.fcnt = b.fcnt then { t with tl := { t.tl with frame := some { f with corrected := f.corrected ++ [b.band] } } } else t
    | none => t
  | _, _ => s

/-- TESTSLOT_RX: an announced slot under the current claim, for the open frame; it replaces one not yet open (R145, R149, R247). -/
def evTestslotRx (r : CordRx) (fcnt tstart len : Nat) (s : State) : State :=
  let x := s.tileHdr r false
  if !x.2 then x.1
  else match x.1.tl.frame with
    | none => x.1
    | some f =>
      if f.fcnt ≠ fcnt then x.1
      else
        let t := if x.1.tl.slots.isEmpty then x.1 else x.1.count TS_N_SLOTREPL 1
        State.testRegs { t with tl := { t.tl with slots := [(fcnt, tstart, len)] } }

/-! ### Control requests at a tile (R162, R163) -/

/-- A control request that this tile consumes: a repeat is answered from the cache, one below a full cache with SEQ_OLD, and a new one is
applied and, where its effect is complete, answered. -/
def State.ctrlTake (s : State) (seq : Word) (op : Nat) (f : State → State × Option (Nat × List Byte)) : State :=
  match s.tl.ctlCache.find? fun e => e.1 == seq with
  | some e => s.rspUp (.ctrlRsp seq e.2.1 e.2.2.1 e.2.2.2)
  | none =>
    if decide (64 ≤ s.tl.ctlCache.length) && s.tl.ctlCache.all fun e => decide (seq.toNat < e.1.toNat) then
      s.rspUp (.ctrlRsp seq op 0x0008 [])
    else
      let a := f s
      match a.2 with
      | some r => a.1.ctrlAnswer seq op r.1 r.2
      | none => a.1

/-- A control request: its header, then the request. -/
def State.ctrlReq (s : State) (r : CordRx) (seq : Word) (op : Nat) (data : List Byte) (f : State → State × Option (Nat × List Byte)) : State :=
  let x := s.tileOwn r (.ctrlReq seq op data)
  if x.2 then x.1.ctrlTake seq op f else x.1

end Sys2Proof.Machine
end

