-- ==== Sys2Proof/Machine/Time.lean ====
section
/-! DEFINITION. Machine/Time.lean: the time base: clock faults, SYNC inputs, reference selection, steering, holdover, the epoch (R261 to
R275), network time (R281, R282) and the TIM channels (R277 to R280). -/

namespace Sys2Proof.Machine

/-- One second in WTB units. -/
def secU : Nat := 64000000000

/-! ### Frequency correction (R262, R265) -/

/-- FCORR held within its limits. -/
def clampFcorr (v : Int) : Int := clampInt (-200000000) 200000000 v

/-- FCORR in force, 10^-12. -/
def State.fcorr (s : State) : Int := signed 32 (s.reg REF_FCORR).toNat

/-- Sets FCORR and keeps what held before for the mean of R271: the last 70 s of it. -/
def State.setFcorr (s : State) (v : Int) : State :=
  let f := clampFcorr v
  if f = s.fcorr then s
  else
    let hist := ((s.wtb, f) :: s.tim.hist)
    let old := hist.filter fun e => decide (e.1 + 70 * secU < s.wtb)
    let keep := (hist.filter fun e => decide (s.wtb ≤ e.1 + 70 * secU)) ++ old.take 1
    State.setReg { s with tim := { s.tim with hist := keep } } REF_FCORR (BitVec.ofNat 32 (unsigned 32 f))

/-- The WTB clock changes between the OCXO and the lane reference: the ratio is carried into FCORR (R265). -/
def State.carryRatio (s : State) (toLane : Bool) : State :=
  let r := s.tim.ocxoRatio
  let f := s.fcorr
  let v := if toLane then f + r + roundDiv (f * r) 1000000000000
           else roundDiv ((1000000000000 + f) * 1000000000000) (1000000000000 + r).toNat - 1000000000000
  s.setFcorr v

/-- The part counts on the OCXO: BASESRC is 0. -/
def State.onOcxo (s : State) : Bool := !s.flag REF_CFG_BASESRC

/-- OCXO_STOP (R264): the WTB clock falls to the lane reference. -/
def evOcxoStop (s : State) : State :=
  if s.onOcxo then
    let t := s.count REF_N_OCXO_STOP 1
    if t.flag REF_STAT_DEGRADED then t else (t.carryRatio true).setFlag REF_STAT_DEGRADED true
  else s

/-- OCXO_GLITCH (R264). -/
def evOcxoGlitch (s : State) : State := if s.onOcxo then s.count REF_N_OCXO_GLITCH 1 else s

/-- OCXO_RATE_CHECK (R264): the gate's ratio to the lane reference, less one, against the mean of the previous ten gates. -/
def evOcxoRateCheck (ratio : Int) (s : State) : State :=
  if s.onOcxo then
    let g := s.tim.gates
    let bad := decide (g.length = 10) && decide (20000000 * 10 < (10 * ratio - g.foldl (fun a b => a + b) 0).natAbs)
    let t : State := { s with tim := { s.tim with gates := (ratio :: g).take 10, ocxoRatio := ratio } }
    if bad then (t.count REF_N_OCXO_RATE 1).setFlag REF_STAT_BASE_UNQUAL true else t
  else s

/-- OCXO_REQUALIFIED (R265). -/
def evOcxoRequalified (s : State) : State :=
  if s.onOcxo then
    let t := if s.flag REF_STAT_DEGRADED then s.carryRatio false else s
    (t.setFlag REF_STAT_DEGRADED false).setFlag REF_STAT_BASE_UNQUAL false
  else s

/-- OCXO_WARM_CHANGE (R263). -/
def evOcxoWarmChange (warm : Bool) (s : State) : State :=
  State.setFlag { s with tim := { s.tim with warm := warm } } REF_STAT_BASE_COLD (s.onOcxo && !warm)

/-! ### References (R266, R268) -/

/-- Reference i's state: 0 A, 1 B, 2 NET; its field, its enable, and its three counts. -/
def staF (i : Nat) : Field := if i = 0 then REF_STAT_STA_A else if i = 1 then REF_STAT_STA_B else REF_STAT_STA_NET
def enF (i : Nat) : Field := if i = 0 then REF_CFG_ENA else if i = 1 then REF_CFG_ENB else REF_CFG_ENNET
def syncCnt (i k : Nat) : Nat := (if i = 0 then REF_N_A_STOP else REF_N_B_STOP) + 4 * k

def State.refIn (s : State) (i : Nat) : RefIn := SMap.get (fun _ => RefIn.init) s.tim.refs i
def State.setRefIn (s : State) (i : Nat) (r : RefIn) : State :=
  { s with tim := { s.tim with refs := SMap.set (fun _ => RefIn.init) s.tim.refs i r } }

/-- The nominal period of SYNC input i, WTB units. -/
def State.syncP (s : State) (i : Nat) : Nat :=
  match s.getF (REF_SYNC_CFG_MODE i) with
  | 0 => secU
  | 1 => s.fper
  | _ => 64 * s.getF (REF_SYNC_CLKPER_CLKPER i)

/-- An error reduced into (-P / 2, P / 2]. -/
def reduceErr (e : Int) (p : Nat) : Int :=
  let r := e % (p : Int)
  if (p : Int) < 2 * r then r - p else r

/-- The phase error of SYNC input i at an edge (R266). -/
def State.syncErr (s : State) (i edge : Nat) : Int :=
  let off := signed 32 (s.reg (REF_SYNC_OFF i)).toNat
  let base : Int := if s.getF (REF_SYNC_CFG_MODE i) = 1 then (s.liveReg REF_FOFF).toNat else 0
  reduceErr (base + off - edge) (s.syncP i)

/-- The reference begins its qualification; it is returning if it has been selected since reset and ranks above the selected one. -/
def State.qualify (s : State) (i : Nat) : State :=
  let r := s.refIn i
  let ret := r.ever && decide (i < s.getF REF_STAT_SEL)
  (s.setRefIn i { r with since := some s.wtb, returning := ret }).setF (staF i) 1

/-- A reference is lost: ABSENT. -/
def State.refLost (s : State) (i : Nat) : State :=
  let t := (s.setRefIn i { s.refIn i with last := none, since := none, returning := false }).setF (staF i) 0
  if s.getF REF_STAT_SEL = i then { t with tim := { t.tim with lostAt := some t.wtb } } else t

/-- The phase error of the selected reference: a SYNC input's at its last edge, or NET's drift since its selection (R270, R272). -/
def State.selErr (s : State) : Int :=
  let k := s.getF REF_STAT_SEL
  if k = 2 then 64 * (s.ntoff - s.tim.ntoffSel)
  else match (s.refIn k).last with
    | some e => s.syncErr k e
    | none => 0

/-- GROUP_LOCK (R275). -/
def State.groupLock (s : State) : State :=
  let k := s.getF REF_STAT_SEL
  s.setFlag REF_STAT_GROUP_LOCK (decide (k < 2) && decide (s.selErr.natAbs ≤ 3200) &&
    (s.flag REF_STAT_EPOCH_NET || s.getF (REF_SYNC_CFG_MODE k) == 1))

/-- The discipline loop (R270): frequency tracking, and beyond 20 ns a phase correction of SLEW. -/
def State.steer (s : State) : State :=
  let k := s.getF REF_STAT_SEL
  if k = 3 then (s.setFlag REF_STAT_SLEWING false).groupLock
  else
    let e := s.selErr
    let t := s.setReg REF_PHERR (BitVec.ofNat 32 (unsigned 32 (clampInt (-2147483648) 2147483647 e)))
    if !t.flag REF_STAT_EPOCH_FIXED || t.flag REF_STAT_BASE_UNQUAL || t.tim.lostAt.isSome then t.groupLock
    else
      let tr := Config.freqTrack (if k = 2 then 600 else 30) e t.tim.track
      let slew := decide (1280 < e.natAbs)
      let ph : Int := if !slew then 0 else if 0 < e then 1000 * t.getF REF_QUAL_SLEW else -(1000 * t.getF REF_QUAL_SLEW : Nat)
      let t : State := { t with tim := { t.tim with track := tr } }
      ((t.setFcorr (tr + ph)).setFlag REF_STAT_SLEWING slew).groupLock

/-- SYNC_EDGE (R264, R266): an edge on SYNC input i, accepted or discarded as a glitch. -/
def evSyncEdge (i : Nat) (s : State) : State :=
  let r := s.refIn i
  let p := s.syncP i
  let glitch := match r.last with
    | some l => decide (10 * (s.wtb - l) < 9 * p) || decide (11 * p < 10 * (s.wtb - l))
    | none => false
  if glitch then s.count (syncCnt i 1) 1
  else
    let e := s.syncErr i s.wtb
    let t := s.setRefIn i { r with last := some s.wtb }
    let t := t.setReg (REF_SYNC_PERR i) (BitVec.ofNat 32 (unsigned 32 (clampInt (-2147483648) 2147483647 e)))
    if t.tile then t
    else
      let t := if t.flag (enF i) && t.getF (staF i) == 0 then t.qualify i else t
      if t.getF REF_STAT_SEL = i then t.steer else t

/-- SYNC_STOP (R264). -/
def evSyncStop (i : Nat) (s : State) : State := (s.count (syncCnt i 0) 1).refLost i

/-- SYNC_RATE_CHECK (R264): the measured deviation, 10^-12. -/
def evSyncRateCheck (i : Nat) (dev : Int) (s : State) : State :=
  if 20000000 < dev.natAbs then (s.count (syncCnt i 2) 1).refLost i else s

/-- REF_QUALIFIED (R268). -/
def evRefQualified (i : Nat) (s : State) : State := if s.getF (staF i) = 1 then s.setF (staF i) 2 else s

/-! ### The epoch (R273) -/

/-- EPOCH_FIX: the epoch is fixed and the frame timer starts (R273, R274). -/
def State.epochFix (s : State) : State :=
  if s.flag REF_STAT_EPOCH_FIXED then s
  else
    let t := (s.setFlag REF_STAT_EPOCH_FIXED true).setFlag REF_STAT_EPOCH_NET s.tim.fromNet
    { t with tim := { t.tim with tickFrom := some (t.wtb + t.fper / 2) } }

/-- The WTB moves before the epoch; remembered edges move with it. -/
def State.moveWtb (s : State) (d : Int) : State :=
  let sh := fun (v : Option Nat) => v.map fun x => ((x : Int) + d).toNat
  let t : State := { s with wtb := ((s.wtb : Int) + d).toNat }
  [0, 1, 2].foldl (fun (u : State) i => u.setRefIn i { u.refIn i with last := sh (u.refIn i).last, since := sh (u.refIn i).since }) t

/-- A selected SYNC reference sets the WTB so that e = 0. -/
def State.epochSync (s : State) : State := if s.getF REF_STAT_SEL < 2 then s.moveWtb s.selErr else s

/-- Network time has synchronised before the epoch: the WTB takes NT, and NTOFF is what is left (R273). -/
def State.epochNetSet (s : State) : State :=
  if s.flag REF_STAT_EPOCH_FIXED then s
  else
    let nt : Int := (s.ns : Int) + s.ntoff
    let t := s.moveWtb (64 * s.ntoff)
    let t := State.epochSync { t with tim := { t.tim with fromNet := true } }
    let left := unsigned 64 (nt - (t.ns : Int))
    let t := t.setPair REF_NTOFF_LO left
    (t.setLive REF_NTOFF_LO (t.reg REF_NTOFF_LO)).setLive REF_NTOFF_HI (t.reg REF_NTOFF_HI)

/-- The first of R273's instants has come. -/
def State.epochCheck (s : State) : State :=
  if s.getF REF_STAT_SEL != 3 && (!s.flag REF_CFG_ENNET || s.netValid) then s.epochFix else s

/-- With no reference enabled the epoch is fixed at once. -/
def State.epochStart (s : State) : State :=
  if !s.flag REF_CFG_ENA && !s.flag REF_CFG_ENB && !s.flag REF_CFG_ENNET then s.epochFix else s

/-- EPOCH_TIMEOUT (R273). -/
def evEpochTimeout (s : State) : State := if s.tile then s else s.epochFix

/-! ### Selection (R269, R271, R272) -/

/-- The mean of FCORR over the 60 s that ended 4 s before an instant, from the instants at which values began to hold, newest first. -/
def meanFcorr (hist : List (Nat × Int)) (now : Nat) : Int :=
  let b := now - 4 * secU
  let a := b - 60 * secU
  let r := hist.foldl (fun (acc : Nat × Int) e =>
    let lo := max e.1 a
    let hi := min acc.1 b
    (e.1, if lo < hi then acc.2 + e.2 * ((hi - lo : Nat) : Int) else acc.2)) (now, 0)
  roundDiv r.2 (60 * secU)

/-- Holdover begins: FCORR is frozen (R271). -/
def State.holdover (s : State) : State :=
  let at_ := s.tim.lostAt.getD s.wtb
  let since := s.tim.selAt.getD s.wtb
  let t := if at_ < since + 64 * secU then s else s.setFcorr (meanFcorr s.tim.hist at_)
  let t := t.setReg REF_HOLD 0
  { t with tim := { t.tim with holdAt := some t.wtb } }

/-- The highest-priority qualified reference, 3 for none. -/
def State.bestRef (s : State) : Nat := ([0, 1, 2].find? fun i => s.flag (enF i) && s.getF (staF i) == 2).getD 3

/-- A changed selection takes effect. -/
def State.select (s : State) (k : Nat) : State :=
  let was := s.getF REF_STAT_SEL
  let t := s.setF REF_STAT_SEL k
  let t := ((t.raiseFsq 9).event 0x0005 [] .owner).count REF_N_SWITCH 1
  if k = 3 then
    let any := t.tim.anySel
    let t := (t.setFlag REF_STAT_HOLDOVER any).setFlag REF_STAT_FREERUN (!any)
    let t := if any then t.holdover else t
    { t with tim := { t.tim with lostAt := none } }
  else
    let first := !t.flag REF_STAT_EPOCH_FIXED && was == 3
    let t := (t.setFlag REF_STAT_HOLDOVER false).setFlag REF_STAT_FREERUN false
    let t := t.setRefIn k { t.refIn k with ever := true, returning := false }
    let t : State := { t with tim := { t.tim with selAt := some t.wtb, holdAt := none, lostAt := none,
                                                  ntoffSel := if k = 2 then t.ntoff else t.tim.ntoffSel } }
    if first then t.epochSync else t

/-- REF_EVALUATION (R269): each ms of the WTB. -/
def evRefEvaluation (s : State) : State :=
  if s.tile then s
  else
    let t := [0, 1, 2].foldl (fun (u : State) i => if u.flag (enF i) || u.getF (staF i) == 0 then u else u.refLost i) s
    let t := if t.flag REF_CFG_ENNET && t.netValid && t.getF (staF 2) == 0 then t.qualify 2 else t
    let k := t.bestRef
    let t := if k = t.getF REF_STAT_SEL then t else t.select k
    let t := t.epochCheck
    let t : State := { t with tim := { t.tim with anySel := t.tim.anySel || (t.flag REF_STAT_EPOCH_FIXED && k != 3) } }
    let t := match t.tim.holdAt with | some h => t.setReg REF_HOLD (BitVec.ofNat 32 ((t.wtb - h) / secU)) | none => t
    t.steer

/-! ### Network time (R281, R282) -/

/-- NET_VALID_WRITE (R273, R281, R356). -/
def State.netValidWrite (s : State) (lost : State → State) (b : Bool) : State :=
  if s.tile then s
  else if b then
    if s.netValid then s
    else
      let t := s.setFlag REF_NET_NET_VALID true
      let t := if t.flag REF_CFG_ENNET then t.qualify 2 else t
      (t.epochNetSet.epochCheck).popTimeSet
  else lost s

/-- NTOFF_WRITE (R282): both words apply together at the write of HI. -/
def evNtoffWrite (hi : Word) (s : State) : State :=
  if s.tile then s
  else
    let t := s.setReg REF_NTOFF_HI hi
    (t.setLive REF_NTOFF_LO (t.reg REF_NTOFF_LO)).setLive REF_NTOFF_HI hi

/-- PPS_OUT_PULSE (R267): the WTB has reached a whole second. -/
def evPpsOutPulse (s : State) : State :=
  if s.flag REF_OUT_PPS_EN then
    s.emit (.ppsOut ((s.wtb : Int) + signed 32 (s.reg REF_OUTOFF).toNat) (1000 * s.getF REF_OUT_PPS_W))
  else s

/-! ### TIM (R277 to R280) -/

def TimRun.start (at_ : Nat) : TimRun :=
  { armedAt := at_, opened := none, vals := [], stamps := [], last := none, lost := false, ovr := false }

def State.timRun (s : State) (c : Nat) : Option TimRun := SMap.get (fun _ => none) s.tim.runs c
def State.setTimRun (s : State) (c : Nat) (r : Option TimRun) : State :=
  { s with tim := { s.tim with runs := SMap.set (fun _ => none) s.tim.runs c r } }

/-- A channel starts its measurement anew (R280). -/
def State.timStart (s : State) (c : Nat) : State :=
  if s.getF (TIM_CFG_MODE c) = 0 then s else (s.setTimRun c (some (TimRun.start s.wtb))).setFlag (TIM_STAT_BUSY c) true

/-- TIM_ARM (R280): a write of TIM_CFG. -/
def State.timArm (s : State) (c : Nat) (v : Word) : State :=
  let t := s.plainWrite (TIM_CFG c) v
  if fieldIn v (TIM_CFG_ARM c) = 1 then t.timStart c else t

/-- TIM_ABORT (R280). -/
def State.timAbort (s : State) (m : Nat) : State :=
  (List.range 16).foldl (fun (t : State) c => if m.testBit c then (t.setTimRun c none).setFlag (TIM_STAT_BUSY c) false else t) s

/-- A result: its six words and flags (R280). -/
def State.timDone (s : State) (c : Nat) (r : TimRun) (tmo : Bool) (ws : List Word) : State :=
  let t := (List.range 6).foldl (fun (u : State) i => u.setReg (TIM_RES c i) (ws.getD i 0)) s
  let t := ((t.setFlag (TIM_STAT_BUSY c) false).setFlag (TIM_STAT_DONE c) true).setTimRun c none
  let t := (t.setFlag (TIM_STAT_BASE_COLD c) (t.flag REF_STAT_BASE_COLD)).setFlag (TIM_STAT_DEGRADED c) (t.flag REF_STAT_DEGRADED)
  ((t.setFlag (TIM_STAT_OVR c) r.ovr).setFlag (TIM_STAT_TIMEOUT c) tmo).setFlag (TIM_STAT_LOST c) r.lost

def w32 (v : Int) : Word := BitVec.ofNat 32 (unsigned 32 v)

/-- Mean, deviation, minimum and maximum of intervals, as result words (Table 10-5). -/
def latencyWords (vs : List Int) : List Word :=
  let n := vs.length
  let sum := vs.foldl (fun a b => a + b) 0
  let sq := vs.foldl (fun a b => a + b * b) 0
  let mean := unsigned 40 (roundDiv (256 * sum) n)
  let dev := Nat.sqrt ((65536 * ((n : Int) * sq - sum * sum)).toNat / (n * n))
  [BitVec.ofNat 32 mean, BitVec.ofNat 32 (mean / 2 ^ 32), BitVec.ofNat 32 dev, w32 (vs.foldl min (vs.headD 0)), w32 (vs.foldl max (vs.headD 0)),
   BitVec.ofNat 32 n]

/-- The end of a LATENCY measurement; with no interval completed the statistics are free values. -/
def State.latencyDone (s : State) (c : Nat) (r : TimRun) (tmo : Bool) : State :=
  if r.vals.isEmpty then
    State.freed (s.timDone c r tmo ((List.range 5).map (fun i => BitVec.ofNat 32 (s.free i 32)) ++ [0]))
  else s.timDone c r tmo (latencyWords r.vals)

/-- An interval saturates beyond ±33.55 ms (R278). -/
def satInterval (v : Int) : Int × Bool := (clampInt (-2147483648) 2147483647 v, decide (v < -2147483648) || decide (2147483647 < v))

/-- TIM_STAMP: an edge of the channel's START source, its STOP source or both (R277 to R279). -/
def evTimStamp (c : Nat) (start stop : Bool) (s : State) : State :=
  match s.timRun c with
  | none => s
  | some r =>
    if (match r.last with | some l => decide (s.wtb < l + 128) | none => false) then s.setTimRun c (some { r with lost := true })
    else
      let r := { r with last := some s.wtb }
      if s.getF (TIM_CFG_MODE c) = 2 then s.setTimRun c (some (if start then { r with stamps := s.wtb :: r.stamps } else r))
      else
        let same := s.getF (TIM_CFG_START c) == s.getF (TIM_CFG_STOP c)
        let r := match r.opened with
          | some o =>
            if stop || (same && start) then
              let v := satInterval ((s.wtb : Int) - o)
              { r with vals := v.1 :: r.vals, ovr := r.ovr || v.2, opened := if same then some s.wtb else none }
            else r
          | none => if start then { r with opened := some s.wtb } else r
        if s.getF (TIM_N_N c) ≤ r.vals.length then s.latencyDone c r false else s.setTimRun c (some r)

/-- TIM_TIMEOUT (R278). -/
def evTimTimeout (c : Nat) (s : State) : State :=
  match s.timRun c with
  | some r => if s.getF (TIM_CFG_MODE c) = 1 && s.getF (TIM_TMO_TMO c) != 0 then s.latencyDone c r true else s
  | none => s

/-- The line fit of stamp time against edge index (R279): offset from NOM in 10^-12, phase, whether it saturates, residual; the stamps
oldest first, the gate's centre, NOM. -/
def lineFit (ts : List Nat) (centre nom : Nat) : Int × Int × Bool × Nat :=
  let n := ts.length
  let is := List.range n
  let t0 : Int := ts.headD 0
  let ys := ts.map fun (t : Nat) => (t : Int) - t0
  let si : Int := n * (n - 1) / 2
  let sii : Int := n * (n - 1) * (2 * n - 1) / 6
  let sy := ys.foldl (fun a b => a + b) 0
  let siy := (is.zip ys).foldl (fun a p => a + (p.1 : Int) * p.2) 0
  let den := ((n : Int) * sii - si * si).toNat
  let num := (n : Int) * siy - si * sy
  let foff := roundDiv (1000000000000 * (num - (nom : Int) * den)) (nom * den)
  let fitN := fun (i : Nat) => (n : Int) * num * i + (sy * den - num * si)
  let fit := fun (i : Nat) => t0 + roundDiv (fitN i) (n * den)
  let best := is.foldl (fun b i => if ((fit i) - centre).natAbs < ((fit b) - centre).natAbs then i else b) 0
  let ph := satInterval (reduceErr (fit best) nom)
  let res2 := (is.zip ys).foldl (fun a p => a + ((n : Int) * den * p.2 - fitN p.1) ^ 2) 0
  let resid := Nat.sqrt ((65536 * res2).toNat / (n * (n * den) ^ 2))
  (foff, ph.1, ph.2, resid)

/-- TIM_GATE_END (R279): fewer than two edges, or no nominal period, fit no line, and the figures are free values. -/
def evTimGateEnd (c : Nat) (s : State) : State :=
  match s.timRun c with
  | none => s
  | some r =>
    if s.getF (TIM_CFG_MODE c) ≠ 2 then s
    else
      let n := r.stamps.length
      let nom := (s.reg (TIM_NOM_LO c)).toNat + s.getF (TIM_NOM_HI_NOM c) * 2 ^ 32
      let tail : List Word := [BitVec.ofNat 32 n, 0, BitVec.ofNat 32 n]
      if n < 2 ∨ nom = 0 then State.freed (s.timDone c r false ((List.range 3).map (fun i => BitVec.ofNat 32 (s.free i 32)) ++ tail))
      else
        let f := lineFit r.stamps.reverse ((r.armedAt + s.wtb) / 2) nom
        s.timDone c { r with ovr := r.ovr || f.2.2.1 } false ([w32 f.1, w32 f.2.1, BitVec.ofNat 32 f.2.2.2] ++ tail)

/-! ### The passage of time (R262, R436) -/

/-- One nominal ns: the WTB advances 1 + FCORR ns, the life counter with its clock. -/
def State.oneNs (s : State) : State :=
  let a : Int := 64 * (1000000000000 + s.fcorr) + s.tim.frac
  let l := s.tim.lifeFrac + 32768
  { s with wtb := s.wtb + (a / 1000000000000).toNat, life := if 1000000000 ≤ l then (s.life + 1) % 2 ^ 48 else s.life,
           tim := { s.tim with frac := (a % 1000000000000).toNat, lifeFrac := if 1000000000 ≤ l then l - 1000000000 else l } }

end Sys2Proof.Machine
end

