-- ==== Sys2Proof/Machine/Cord.lean ====
section
/-! DEFINITION. Machine/Cord.lean: hops and rate steps (R129 to R135, R335, R336), credits (R141), time transfer (R150 to R153), UP packets
at the sender, control sessions (R162, R163), the relay (R160, R309) and board ring formation (R492, R18 to R21). -/

namespace Sys2Proof.Machine

/-! ### Ports and hops -/

/-- Port 0 to 7 is a cord port; 8 and 9 are the ring ports forward and backward. -/
def isRing (p : Nat) : Bool := decide (8 ≤ p)

/-- The port is present and enabled. -/
def State.portOn (s : State) (p : Nat) : Bool :=
  if isRing p then decide (p ≤ 9) else decide (p < (if s.tile then 2 else 8)) && s.flag (CORD_PCFG_EN p)

/-- The hop registers of a port's own link: at a sender hop 0 of the port, at a tile hop 0 (U) or 1 (D) of entry 0 (Table 5-11). -/
def State.ownHop (s : State) (p : Nat) : Nat × Nat := if s.tile then (0, p) else (p, 0)

/-- The rate step in use on a port. -/
def State.portStep (s : State) (p : Nat) : Nat :=
  if isRing p then s.getF (if p = 8 then RING_STAT_FWD_STEP else RING_STAT_BWD_STEP) else s.getF (CORD_PSTAT_STEP p)

/-- s with the rate step of a port's link. -/
def State.setPortStep (s : State) (p k : Nat) : State :=
  if isRing p then s.setF (if p = 8 then RING_STAT_FWD_STEP else RING_STAT_BWD_STEP) k
  else
    let h := s.ownHop p
    (s.setF (CORD_PSTAT_STEP p) k).setF (CORD_HOP_STEP h.1 h.2) k

/-- The highest step a port attempts: MAXSTEP, and step 0 without a lane table (R133, R424). -/
def State.maxStep (s : State) (p : Nat) : Nat :=
  if s.flag LANE_STAT_TABLE_NONE then 0
  else if isRing p then s.getF RING_CFG_MAXSTEP else s.getF (CORD_PCFG_MAXSTEP p)

/-- The hop's state. -/
def State.hopAuth (s : State) (p : Nat) : HopAuth := SMap.get (fun _ => HopAuth.down) s.cord.hops p
def State.setHopAuth (s : State) (p : Nat) (a : HopAuth) : State :=
  { s with cord := { s.cord with hops := SMap.set (fun _ => HopAuth.down) s.cord.hops p a } }

/-- The counts and queues of a port start afresh: the receiver grants its full pool, and what waited is gone (R141). -/
def State.clearPort (s : State) (p : Nat) : State :=
  [0, 1].foldl (fun (u : State) c =>
    let k := p * 2 + c
    let q := SMap.get (fun _ => []) u.cord.txq k
    let v := q.foldl (fun (w : State) e => match e.src, e.pkt.body with
      | some x, _ => w.freeBlocks x c e.blocks
      | none, .testRes _ => w.count TS_N_RESDROP 1
      | none, _ => w) u
    { v with cord := { v.cord with sent := SMap.erase k v.cord.sent, freed := SMap.erase k v.cord.freed,
                                   rxFreed := SMap.erase k v.cord.rxFreed, txq := SMap.erase k v.cord.txq } }) s

/-- HOP_TRAINED (R130, R131): a hop has trained at step 0; a tile whose port U has trained enables port D. -/
def evHopTrained (p : Nat) (width2 : Bool) (s : State) : State :=
  if !s.portOn p || s.hopAuth p == .keyed then s
  else
    let t := (s.setHopAuth p .trained).setPortStep p 0
    if isRing p then t.setFlag (if p = 8 then RING_STAT_FWD_LINK else RING_STAT_BWD_LINK) true
    else
      let h := t.ownHop p
      let t := ((t.setFlag (CORD_PSTAT_LINK p) true).setFlag (CORD_PSTAT_WIDTH2 p) width2).setFlag (CORD_HOP_UP h.1 h.2) true
      let t := (t.setFlag (CORD_HOP_WIDTH2 h.1 h.2) width2).healthReg
      if t.tile && p == 0 then t.setFlag (CORD_PCFG_EN 1) true else t

/-- The outcome of R336: both chains and signatures, and equal owners or an OWNED initiator with an UNOWNED tile. -/
def State.hopAdmits (s : State) (h : HopHello) : Bool :=
  let zero := List.replicate 48 (0 : Byte)
  let mine := s.ownerId
  h.chain && h.sig && (mine == h.ownerId ||
    (if h.initiator then s.hea.owner.isSome && h.tile && h.ownerId == zero
     else s.hea.owner.isNone && s.tile && h.ownerId != zero))

/-- The tile's time source (R151): the claim-facing port, or the other where that has no link and has seen a recent MARK. -/
def State.timePort (s : State) : Nat :=
  let cf := s.getF CORD_TSTAT_CFPORT
  if s.linkUp cf then cf
  else if s.linkUp (1 - cf) && decide (s.wtb ≤ s.tl.lastMark + 2 * s.tl.fper.getD 0) && s.tl.last.isSome then 1 - cf
  else cf

/-- A relink of the time source clears TSYNC_LOCK and allows one more step (R153). -/
def State.resync (s : State) : State :=
  State.setFlag { s with tl := { s.tl with exch := [], stats := [], stepped := false } } CORD_TSTAT_TSYNC_LOCK false

/-- The ring closes when the part's ring ports are authenticated (R492). -/
def State.ringClose (s : State) : State :=
  if s.linkUp 8 && s.linkUp 9 && s.flag RING_STAT_FORMED then s.setFlag RING_STAT_OPEN false else s

/-- A hop is authenticated and keyed: credits are whole, the link returns to the step it held, and an ACTIVE sender enumerates (R130, R135,
R139, R141, R335). -/
def State.hopKeyed (s : State) (h : HopHello) : State :=
  let p := h.port
  let e := if h.initiator then SMap.get (fun _ => 0) s.cord.epoch p + 1 else h.epoch
  let t := (s.clearPort p).setHopAuth p .keyed
  let held := SMap.get (fun _ => 0) t.cord.held p
  let t : State := { t with cord := { t.cord with epoch := SMap.set (fun _ => 0) t.cord.epoch p e, held := SMap.erase p t.cord.held,
                                                  partnerTid := SMap.set (fun _ => 0) t.cord.partnerTid p (h.tid + 1) } }
  let t := if held = 0 then t else t.setPortStep p (held - 1)
  if isRing p then t.ringClose
  else
    let t := t.setFlag (CORD_PSTAT_AUTH p) true
    if t.tile then (if p = t.timePort then t.resync else t)
    else if h.tile then t.sendEnum p 0 else t

/-- A hop fails at step 2 (R336). -/
def State.hopFailed (s : State) (h : HopHello) : State :=
  let zero := List.replicate 48 (0 : Byte)
  let t := s.setHopAuth h.port .failed
  let t := t.count (if isRing h.port then HEARTH_N_AUTHFAIL_RING else HEARTH_N_AUTHFAIL_CORD) 1
  let t := if s.hea.owner.isSome ∧ h.ownerId ≠ zero ∧ h.ownerId ≠ s.ownerId then t.count HEARTH_N_OWNER_MISMATCH 1 else t
  t.secLog 0x0003 (leBytes 4 h.port ++ (Config.sha384 h.leaf).take 4)

/-- HOP_HELLO_RX (R132, R335, R336). -/
def evHopHelloRx (h : HopHello) (s : State) : State :=
  if s.hopAuth h.port != .trained then s
  else if !s.hopAdmits h then s.hopFailed h
  else if s.tile ∧ h.port = 1 ∧ s.getF CORD_TSTAT_POS = 63 ∧ h.tile then s.setFlag (CORD_PSTAT_CORD_FULL 1) true
  else s.hopKeyed h

/-- HOP_AUTH_RETRY (R336). -/
def evHopAuthRetry (p : Nat) (s : State) : State := if s.hopAuth p == .failed then s.setHopAuth p .trained else s

/-- PORT_D_NO_PARTNER (R131, R132): at a tile port D has no partner; at the sender the report completes the cord's enumeration. -/
def evPortDNoPartner (p : Nat) (e : CordEnd) (s : State) : State :=
  if s.tile then (if e = .noPartner then s.setFlag (CORD_PSTAT_END 1) true else s)
  else if s.flag (CORD_PSTAT_ENUM_DONE p) || !s.linkUp p then s
  else
    let n := (s.enumPos p).length
    let t : State := { s with cord := { s.cord with ctrlOut := s.cord.ctrlOut.filter fun o => !(o.port == p && o.op == 0x0001 && o.pos == n) } }
    let t := (t.setFlag (CORD_PSTAT_ENUM_DONE p) true).setF (CORD_PSTAT_TILES p) n
    match e with
    | .noPartner => t.setFlag (CORD_PSTAT_END p) true
    | .full => (t.setFlag (CORD_PSTAT_CORD_FULL p) true).eventAt 0x0013 p 63 [] .owner
    | .ringClosed => t

/-- STEP_UP_EVAL (R133): after the error count at a step, each hop without an error keeps it. At a sender the list gives the hops of the
cord, at a tile or on a ring port the port's own. -/
def evStepUpEval (p k : Nat) (ok : List Bool) (s : State) : State :=
  if 3 < k ∨ s.maxStep p < k then s
  else if isRing p || s.tile then (if ok.headD false && s.linkUp p then s.setPortStep p k else s)
  else
    let t := (List.range ok.length).foldl (fun (u : State) h =>
      if ok.getD h false && u.flag (CORD_HOP_UP p h) && decide (u.getF (CORD_HOP_STEP p h) + 1 = k) then u.setF (CORD_HOP_STEP p h) k else u) s
    t.setF (CORD_PSTAT_STEP p) (t.getF (CORD_HOP_STEP p 0))

/-- LINK_LOST (R135): the loss counts, and the port relinks at step 0. -/
def evLinkLost (p : Nat) (s : State) : State :=
  if s.hopAuth p == .down then s
  else
    let step := s.portStep p
    let t := (s.clearPort p).setHopAuth p .down
    let t : State := { t with cord := { t.cord with held := SMap.set (fun _ => 0) t.cord.held p (step + 1), badSec := SMap.erase p t.cord.badSec } }
    let t := t.setPortStep p 0
    if isRing p then
      let t := (t.setFlag (if p = 8 then RING_STAT_FWD_LINK else RING_STAT_BWD_LINK) false).count
        (if p = 8 then RING_F_N_LINKLOSS else RING_B_N_LINKLOSS) 1
      if t.flag RING_STAT_FORMED then t.setFlag RING_STAT_OPEN true else t
    else
      let h := t.ownHop p
      let t := ((t.setFlag (CORD_PSTAT_LINK p) false).setFlag (CORD_PSTAT_AUTH p) false).setFlag (CORD_PSTAT_LINK_LOST p) true
      let t := ((t.setFlag (CORD_HOP_UP h.1 h.2) false).setFlag (CORD_PSTAT_RING_OK p) false).count (CORD_N_LINKLOSS p) 1
      if t.tile then (if p = t.getF CORD_TSTAT_CFPORT then t.resync else t) else t.healthReg

/-- BER_CHECK (R135): the block errors of a second against CORD_BERLIM; after three bad seconds the hop retrains one step lower. -/
def evBerCheck (p errs : Nat) (s : State) : State :=
  if !s.linkUp p then s
  else
    let t := s.count (if isRing p then (if p = 8 then RING_F_N_BLKERR else RING_B_N_BLKERR) else CORD_N_BLKERR p) errs
    let n := if s.getF CORD_BERLIM_LIM < errs then SMap.get (fun _ => 0) t.cord.badSec p + 1 else 0
    if n < 3 then { t with cord := { t.cord with badSec := SMap.set (fun _ => 0) t.cord.badSec p n } }
    else
      let t : State := { t with cord := { t.cord with badSec := SMap.erase p t.cord.badSec } }
      let t := if isRing p then t else t.count (CORD_N_DOWNSHIFT p) 1
      t.setPortStep p (t.portStep p - 1)

/-! ### Credits (R141) -/

/-- CREDIT_RX: the partner's running count of freed blocks. -/
def evCreditRx (p cls freed : Nat) (s : State) : State :=
  State.pump { s with cord := { s.cord with freed := SMap.set (fun _ => 0) s.cord.freed (p * 2 + cls % 2) (freed % 65536) } } p (cls % 2)

/-- STARVE: data and no credit of a class for 1 ms. -/
def evStarve (p cls : Nat) (s : State) : State :=
  if (SMap.get (fun _ => []) s.cord.txq (p * 2 + cls % 2)).isEmpty || s.credits p (cls % 2) != 0 || isRing p then s
  else (s.count (CORD_N_STARVE p) 1).setFlag (CORD_PSTAT_STARVE p) true

/-! ### Time transfer (R150 to R153) -/

/-- PROBE(k) leaves on a port. -/
def State.probe (s : State) (p : Nat) : State :=
  if s.linkUp p then
    State.emit { s with tl := { s.tl with exch := { port := p, id := s.tl.nextId, t1 := s.wtb, t4 := none } :: s.tl.exch.take 63,
                                          nextId := (s.tl.nextId + 1) % 256 } } (.probe p s.tl.nextId)
  else s

/-- Both directions of a port are awake. -/
def State.awake (s : State) (p : Nat) : Bool :=
  !s.txAsleep p && match s.portLanes p with | l :: _ => decide (s.getF (LANE_LSTAT_RXST l) < 2) | [] => true

/-- PROBE_TIMER (R152, R430): a tile probes its time source while both its directions are awake, and every part its ring ports. -/
def evProbeTimer (s : State) : State :=
  let t := if s.tile && s.awake s.timePort then s.probe s.timePort else s
  (t.probe 8).probe 9

/-- PROBE_RX (R152): ECHO leaves at once, and the stamps follow in a TIME_RSP. -/
def evProbeRx (p id : Nat) (s : State) : State :=
  if !s.linkUp p then s
  else
    let t := s.emit (.echo p id)
    let h : PktHdr := { up := false, enc := false, relay := false, dest := 0xFE, src := 0xFE, claim := s.claim }
    t.send p { hdr := h, body := .timeRsp id (s.wtb % 64) (s.wtb % 64) s.ns s.ns }

/-- ECHO_RX (R152). -/
def evEchoRx (p id : Nat) (s : State) : State :=
  { s with tl := { s.tl with exch := s.tl.exch.map fun e => if e.port = p ∧ e.id = id ∧ e.t4.isNone then { e with t4 := some s.wtb } else e } }

/-- Hop delay and neighbour offset of an exchange, in 1/128 ns (R152). -/
def exchange (t1 t2 t3 t4 asym : Int) : Int × Int := ((t4 - t1) - (t3 - t2) + 2 * asym, (t2 - t1) - (t4 - t3))

/-- ASYM of a port, signed 15.625 ps. -/
def State.asym (s : State) (p : Nat) : Int := signed 16 (s.getF (if p = 0 then CORD_ASYM_ASYM_U else CORD_ASYM_ASYM_D))

/-- n times the squared deviation sum, n Σd² − (Σd)². -/
def devSum (ds : List Int) : Int :=
  let sum := ds.foldl (fun a b => a + b) 0
  (ds.length : Int) * ds.foldl (fun a b => a + b * b) 0 - sum * sum

/-- The bounds of TSYNC_LOCK by a factor k: deviation of d at most k × 100 ps, |mean θ| at most k × 2 ns. -/
def lockBounds (xs : List (Int × Int)) (k : Nat) : Bool :=
  let n := xs.length
  decide (25 * devSum (xs.map fun x => x.1) ≤ ((n * n * 4096 * k * k : Nat) : Int)) &&
    decide ((xs.foldl (fun (a : Int) x => a + x.2) 0).natAbs ≤ 256 * n * k)

/-- The latency statistics of d stand in the port's time-transfer channel (R153, R277). -/
def State.timeChannel (s : State) (p : Nat) : State :=
  let c := 14 + p
  let ws := latencyWords (s.tl.stats.map fun x => roundDiv x.1 2)
  ((List.range 6).foldl (fun (u : State) i => u.setReg (TIM_RES c i) (ws.getD i 0)) s).setFlag (TIM_STAT_DONE c) true

/-- The counter follows the neighbour: one step by the mean offset after the first N exchanges under a claim, and from then on by rate
within 50 ppm; before the first accepted MARK it steps again beyond 1 µs (R153, R493). -/
def State.timeFollow (s : State) : State :=
  let xs := s.tl.stats
  let n := xs.length
  if n < s.getF CORD_PROBE_N then s
  else
    let mean := roundDiv (xs.foldl (fun (a : Int) x => a + x.2) 0) (2 * n)
    let again := s.tl.last.isNone && decide (64000 < mean.natAbs)
    if !s.tl.stepped || again then
      { s.moveWtb mean with tl := { s.tl with stepped := true, stats := [], exch := [] } }
    else
      let t := s.setFcorr (clampInt (-50000000) 50000000 (Config.tileTrack mean s.fcorr))
      if lockBounds xs 1 then t.setFlag CORD_TSTAT_TSYNC_LOCK true
      else if !lockBounds xs 2 then t.setFlag CORD_TSTAT_TSYNC_LOCK false
      else t

/-- TIME_RSP_RX (R152, R153): an exchange is complete. -/
def evTimeRspRx (r : CordRx) (id t2fr t3fr t2ns t3ns : Nat) (s : State) : State :=
  if !s.linkUp r.port || !r.htag || !r.tag || r.abort then
    if r.htag then (if isRing r.port then s else s.count (CORD_N_TAGERR r.port) 1) else if isRing r.port then s else s.count (CORD_N_HTAGERR r.port) 1
  else
    let s := if isRing r.port then s else s.freeBlocks r.port 1 2
    match s.tl.exch.find? fun e => e.port == r.port && e.id == id with
    | none => s
    | some e =>
      match e.t4 with
      | none => s
      | some t4 =>
        let x := exchange e.t1 (t2ns * 64 + t2fr % 64 : Nat) (t3ns * 64 + t3fr % 64 : Nat) t4 (if isRing r.port then 0 else s.asym r.port)
        let t : State := { s with tl := { s.tl with exch := s.tl.exch.filter fun y => !(y.port == r.port && y.id == id) } }
        if isRing r.port then
          let old := SMap.get (fun _ => 0) t.cord.ringLat r.port
          let d := (roundDiv x.1 2).toNat
          { t with cord := { t.cord with ringLat := SMap.set (fun _ => 0) t.cord.ringLat r.port (if old = 0 then d else Config.ringMean old d) } }
        else if r.port ≠ t.timePort then t
        else
          let t : State := { t with tl := { t.tl with stats := (x :: t.tl.stats).take (t.getF CORD_PROBE_N) } }
          let n := t.tl.stats.length
          let t := t.setF (CORD_HOP_LAT 0 r.port) (roundDiv (t.tl.stats.foldl (fun a y => a + y.1) 0) (2 * n)).toNat
          (t.timeChannel r.port).timeFollow

/-! ### UP packets at the sender (R139, R160, R161, R288, R309) -/

/-- An UP packet on a sender's cord port: its tags, its claim, and who acts on it. A sender that is not ACTIVE hands it to the holder where
it relays the cord. The flag says whether this sender acts on the payload. -/
def State.senderUp (s : State) (r : CordRx) (b : CordBody) : State × Bool :=
  let p : CordPkt := { hdr := r.hdr, body := b }
  if s.tile then (s, false)
  else
    let t := s.freeBlocks r.port (bodyCls b) (pktBlocks p)
    if !r.htag then (t.count (CORD_N_HTAGERR r.port) 1, false)
    else
      let t := t.sawClaim r.hdr.claim
      if r.abort then (t.count (CORD_N_ABORTRX r.port) 1, false)
      else if !r.tag then (t.count (CORD_N_TAGERR r.port) 1, false)
      else if !t.active then
        (if t.flag (CORD_PCFG_RELAY r.port) && !t.flag (CORD_PCFG_RING r.port) then t.ringSend t.partnerPos (.relay r.port 1 p) else t, false)
      else if r.hdr.claim.toNat < t.claim.toNat then (t.count (CORD_N_STALE r.port) 1, false)
      else (t, true)

/-- A flip acknowledgement that reports PROTECT_FAULT (result 3): the status bit, the port's count, and the event to the owner and to the
PROTECT tenant (R112). -/
def State.ackFault (s : State) (p q : Nat) (a : AckPkt) : State :=
  if a.result = 3 then
    ((s.setFlag COMP_STAT_PROTECT_FAULT true).count (COMP_N_PFAULT p) 1).eventAt 0x0001 p q []
      (match s.protectT with | some t => .tenants (2 ^ t) | none => .owner)
  else s

/-- An ACK is taken in: the hop's lock, a reported fault, the frame's record, the flip's close (R112, R127, R148, R351). -/
def State.ackTake (s : State) (p q : Nat) (a : AckPkt) : State :=
  let t := (s.setFlag (CORD_HOP_LOCK p q) (!a.flags.testBit 0)).ackFault p q a
  match t.comp.frames.find? fun f => f.fcnt == a.fcnt with
  | none => t
  | some f =>
    if f.acks.any fun x => x.1 == p && x.2.1 == q then t
    else
      let g := { f with acks := f.acks ++ [(p, q, a)] }
      let t := t.updFrame a.fcnt fun _ => g
      let t := if a.result = 0 then t.popFlipped g p q else t
      t.flipCheck a.fcnt

/-- ACK_RX (R148). -/
def evAckRx (r : CordRx) (a : AckPkt) (s : State) : State :=
  let x := s.senderUp r (.ack a)
  if x.2 then x.1.ackTake r.port r.hdr.src a else x.1

/-- A tile's event is forwarded with its port and position; GEOM_CHANGE counts as an enumeration of the position (R188, R518). -/
def State.eventTake (s : State) (p q code : Nat) (data : List Byte) : State :=
  let t := s.eventAt code p q data .owner
  if code = 0x0009 then
    let i := { t.tileAt p q with bands := leAt data 0 2 }
    let t : State := { t with cord := { t.cord with tiles := SMap.set (fun _ => TileInfo.none) t.cord.tiles (p * 64 + q) i } }
    t.damageBands (posBands t.live p q)
  else t

/-! ### Control requests and responses (R130, R162, R163) -/

/-- The digest of a kind's copy, all zero if it is EMPTY (Table 20-6). -/
def State.copyHash (s : State) (kind c : Nat) : List Byte :=
  if (s.copy kind c).state = 0 then List.replicate 48 0 else padTo 48 (Config.sha384 (s.copy kind c).data)

/-- The digest of a kind's active copy. -/
def State.activeHash (s : State) (kind : Nat) : List Byte :=
  match s.activeCopy kind with | some c => s.copyHash kind c | none => List.replicate 48 0

/-- A hop as a tile reports it: step, width, up, latency. -/
def State.hopBytes (s : State) (p : Nat) : List Byte := leBytes 4 (s.reg (CORD_HOP 0 p)).toNat

/-- The data of an ENUM response (R130, R163, R336): TID, band count, geometry, highest SEQ applied, UNOWNED, the hop. -/
def State.enumData (s : State) : List Byte :=
  leBytes 8 s.tid ++ leBytes 2 s.tileBands ++ leBytes 4 (s.reg LAMP_GEOM).toNat ++
    leBytes 4 (match s.tl.ctlNewest with | some n => n.toNat | none => 0) ++ leBytes 1 (if s.hea.owner.isNone then 1 else 0) ++ s.hopBytes 0

/-- The data of a STATUS response (R162, R503): the active hashes of DRV and CAL, the hops, the level of enforcement. -/
def State.statusData (s : State) : List Byte :=
  s.activeHash 1 ++ s.activeHash 0 ++ s.hopBytes 0 ++ s.hopBytes 1 ++ leBytes 1 (s.getF THERM_STAT_LEVEL)

/-- ENUM (R130, R157): the tile takes its position from the enumerating end, whichever position it had. -/
def evEnum (r : CordRx) (seq : Word) (pos : Nat) (s : State) : State :=
  let x := s.tileHdr r true
  let t := x.1.freeBlocks r.port 1 (pktBlocks { hdr := r.hdr, body := .ctrlReq seq 0x0001 (leBytes 1 pos) })
  if !x.2 then (if s.tile then t else s)
  else t.ctrlTake seq 0x0001 fun u =>
    let v := (u.setF CORD_TSTAT_POS_A pos).setPos
    (v, some (0, u.enumData))

/-- RATE_STEP (R135): the tile's hops may step up again; what comes of it is STEP_UP_EVAL. -/
def evRateStep (r : CordRx) (seq : Word) (data : List Byte) (s : State) : State :=
  s.ctrlReq r seq 0x0002 data fun t => ({ t with cord := { t.cord with badSec := [] } }, some (0, []))

/-- STATUS (R162). -/
def evStatus (r : CordRx) (seq : Word) (s : State) : State := s.ctrlReq r seq 0x0003 [] fun t => (t, some (0, t.statusData))

/-- ATTEST (R341). -/
def evCtrlAttest (r : CordRx) (seq : Word) (nonce : List Byte) (s : State) : State :=
  s.ctrlReq r seq 0x0010 nonce fun t => (t.freed, some (if nonce.length = 32 then (0, t.attest nonce) else (0x0001, [])))

/-- OWNER_SET (R320): an UNOWNED tile takes the owner root. -/
def evOwnerSet (r : CordRx) (seq : Word) (root : List Byte) (s : State) : State :=
  s.ctrlReq r seq 0x0011 root fun t => if t.hea.owner.isSome then (t, some (0x0406, [])) else (t.newOwner root 0x0004, some (0, []))

/-- KEY_SET (R323): byte 0 adds (1) or removes (2) the key that follows. -/
def evCtrlKeySet (r : CordRx) (seq : Word) (add : Bool) (key : List Byte) (s : State) : State :=
  s.ctrlReq r seq 0x0012 (leBytes 1 (if add then 1 else 2) ++ key) fun t =>
    if add then (let a := t.keyAdd key; (a.1, some (a.2, []))) else (t.keyRemove key, some (0, []))

/-- OWNER_XFER (R321). -/
def evCtrlOwnerXfer (r : CordRx) (seq : Word) (obj : List Byte) (s : State) : State :=
  s.ctrlReq r seq 0x0013 obj fun t => let a := t.ownerXfer obj; (a.1, some (a.2, []))

/-- DEBUG, a nonce (R342). -/
def evCtrlDebugNonce (r : CordRx) (seq : Word) (s : State) : State :=
  s.ctrlReq r seq 0x0014 [0] fun t =>
    let u := t.newNonce
    (u, some (0, match u.hea.nonce with | some n => n.1 | none => []))

/-- DEBUG, a token (R343). -/
def evCtrlDebugToken (r : CordRx) (seq : Word) (obj : List Byte) (s : State) : State :=
  s.ctrlReq r seq 0x0014 (1 :: obj) fun t => let a := t.debugToken obj; (a.1, some (a.2, []))

/-- A control response closes its request: the request as it was sent. -/
def State.ctrlClose (s : State) (p q : Nat) (seq : Word) (op : Nat) : State × Option CtrlOut :=
  match s.cord.ctrlOut.find? fun o => o.port == p && o.pos == q && o.seq == seq && o.op == op with
  | none => (s, none)
  | some o => ({ s with cord := { s.cord with ctrlOut := s.cord.ctrlOut.filter fun x => x != o } }, some o)

/-- A tile has answered ENUM (R113, R130, R163, R172): its record, its bands damaged, LAMP_TF, later requests again, and the next
position. -/
def State.enumTake (s : State) (p q : Nat) (d : List Byte) : State :=
  let old := s.tileAt p q
  let i : TileInfo := { enumerated := true, tid := leAt d 0 8, bands := leAt d 8 2, geom := leAt d 10 4 }
  let key := p * 64 + q
  let t : State := { s with cord := { s.cord with tiles := SMap.set (fun _ => TileInfo.none) s.cord.tiles key i } }
  let mine := fun (o : CtrlOut) => o.port == p && o.pos == q
  let t := if old.enumerated ∧ old.tid ≠ i.tid then
      { t with cord := { t.cord with ctrlOut := t.cord.ctrlOut.filter (fun o => !mine o), ctrlSeq := SMap.set (fun _ => 0) t.cord.ctrlSeq key 0 } }
    else (t.cord.ctrlOut.filter fun o => mine o && decide (leAt d 14 4 < o.seq.toNat)).foldl State.ctrlResend t
  let t := t.setReg (CORD_HOP p q) (BitVec.ofNat 32 (leAt d 19 4))
  let t := t.damageBands (posBands t.live p q)
  let t := t.sendLampTf p q
  if t.flag (CORD_PSTAT_ENUM_DONE p) then t.setF (CORD_PSTAT_TILES p) (t.enumPos p).length
  else if (t.tileAt p (q + 1)).enumerated then t else t.sendEnum p (q + 1)

/-- A tile's STATUS: the hop that ends at it. -/
def State.statusTake (s : State) (p q : Nat) (d : List Byte) : State :=
  let keep := s.getF (CORD_HOP_LOCK p q)
  (s.setReg (CORD_HOP p q) (BitVec.ofNat 32 (leAt d 96 4))).setF (CORD_HOP_LOCK p q) keep

/-- CTRL_REQ_RETRY (R163): the same SEQ again, up to 8 times, and then TILE_LOST. An ENUM to a position that has no tile yet is repeated
until the cord's end is reported. -/
def evCtrlReqRetry (p q : Nat) (seq : Word) (s : State) : State :=
  match s.cord.ctrlOut.find? fun o => o.port == p && o.pos == q && o.seq == seq with
  | none => s
  | some o =>
    if !s.active then s
    else if o.tries < 8 || (o.op == 0x0001 && !(s.tileAt p q).enumerated) then
      let n := { o with tries := o.tries + 1 }
      State.ctrlResend { s with cord := { s.cord with ctrlOut := s.cord.ctrlOut.map fun x => if x = o then n else x } } n
    else
      let t : State := { s with cord := { s.cord with ctrlOut := s.cord.ctrlOut.filter fun x => x != o } }
      let t := t.eventAt 0x0008 p q [] .owner
      match o.wcp with | some w => t.answer w.1 w.2 0x0305 [] | none => t

/-! ### Ring cords and the relay (R160, R309) -/

/-- The current claim as a standby takes it: the latest GRANT heard, or CUR of the latest referee heartbeat. -/
def State.ringMark (s : State) (r : CordRx) (ntiles : Nat) : State :=
  let p := r.port
  let t := s.freeBlocks p 1 2
  if !r.htag then t.count (CORD_N_HTAGERR p) 1
  else if !r.tag || r.abort then t.count (if r.abort then CORD_N_ABORTRX p else CORD_N_TAGERR p) 1
  else if !t.flag (CORD_PCFG_RING p) || t.active || r.hdr.claim != t.knownClaim then t
  else
    let m := (List.range (min ntiles 64)).foldl (fun m q =>
      SMap.set (fun _ => TileInfo.none) m (p * 64 + q) { SMap.get (fun _ => TileInfo.none) m (p * 64 + q) with enumerated := true }) t.cord.tiles
    let t : State := { t with cord := { t.cord with tiles := m } }
    (t.setFlag (CORD_PSTAT_RING_OK p) true).setF (CORD_PSTAT_TILES p) (min ntiles 64)

/-- RING_OK_TIMEOUT (R160). -/
def evRingOkTimeout (p : Nat) (s : State) : State := s.setFlag (CORD_PSTAT_RING_OK p) false

/-! ### The board ring (R18 to R21, R492) -/

/-- The lowest position of a mask. -/
def lowestPos (m : Nat) : Nat := ((List.range 8).find? fun p => m.testBit p).getD 0

/-- MEMBERS: this part and the positions heard, without those that two parts report (R20). -/
def State.ringMembers (s : State) : State :=
  let heard := s.cord.ringTids.foldl (fun m e => m ||| 2 ^ e.1) (2 ^ s.getF RING_STAT_POS)
  s.setF RING_STAT_MEMBERS ((List.range 8).foldl (fun n p => if heard.testBit p && !s.cord.ringDup.testBit p then n + 2 ^ p else n) 0)

/-- The hello this part sends. -/
def State.ownHello (s : State) : RingHello :=
  { pos := s.getF RING_STAT_POS, tile := s.tile, referee := s.flag EMB_STRAPS_REFEREE, formed := s.flag RING_STAT_FORMED,
    members := s.getF RING_STAT_MEMBERS, tid := s.tid }

/-- RING_HELLO_TIMER (R492): a part that shares its position with another stays out (R20). -/
def evRingHelloTimer (s : State) : State :=
  if s.fw.kindled.isSome && !s.flag RING_STAT_RING_POS_DUP then s.ringSend 0xFF (.hello s.ownHello) else s

/-- RING_HELLO_RX (R20, R21, R492). -/
def evRingHelloRx (h : RingHello) (s : State) : State :=
  let mine := s.getF RING_STAT_POS
  let known := SMap.get (fun _ => 0) s.cord.ringTids h.pos
  let dup := (h.pos == mine && h.tid != s.tid) || (known != 0 && known != h.tid + 1)
  let t : State := { s with cord := { s.cord with ringTids := SMap.set (fun _ => 0) s.cord.ringTids h.pos (h.tid + 1),
                                                  ringDup := if dup then s.cord.ringDup ||| 2 ^ h.pos else s.cord.ringDup } }
  let t := t.ringMembers
  let t := if h.pos = mine ∧ h.tid ≠ s.tid ∧ !t.flag RING_STAT_RING_POS_DUP then
      (t.setFlag RING_STAT_RING_POS_DUP true).event 0x0014 [1] .owner else t
  if h.referee ∧ s.flag EMB_STRAPS_REFEREE ∧ h.pos < mine ∧ !t.flag RING_STAT_REFEREE_DUP then
    (((t.setFlag RING_STAT_REFEREE false).setFlag RING_STAT_REFEREE_DUP true).setF CLM_STAT_STATE 0).event 0x0014 [2] .owner
  else t

/-- The ring is formed: the leader is position 0, or the lowest position present (R19). -/
def State.ringForm (s : State) (isOpen : Bool) : State :=
  if s.flag RING_STAT_FORMED then s
  else
    let t := s.ringMembers
    ((t.setFlag RING_STAT_FORMED true).setFlag RING_STAT_OPEN isOpen).setF RING_STAT_LEADER (lowestPos (t.getF RING_STAT_MEMBERS))

/-- RING_FORM_STABLE (R492). -/
def evRingFormStable (s : State) : State := if s.linkUp 8 && s.linkUp 9 then s.ringForm false else s

/-- RING_FORM_TIMEOUT (R492). -/
def evRingFormTimeout (s : State) : State := if s.fw.kindled.isSome then s.ringForm true else s

/-! ### Source ports (R302, Table 11-2) -/

/-- SOURCE_PORT_LINK_CHANGE. -/
def evSourcePortLinkChange (p : Nat) (link fec : Bool) (s : State) : State :=
  if s.tile || decide (4 ≤ p) then s
  else
    let lost := s.flag (SRC_PSTAT_LINK p) && !link
    let t := (s.setFlag (SRC_PSTAT_LINK p) link).setFlag (SRC_PSTAT_FEC_LOCK p) fec
    let t := if lost then t.setFlag (SRC_PSTAT_LINK_LOST p) true else t
    t.healthReg

end Sys2Proof.Machine
end

