-- ==== Sys2Proof/Machine/Lanes.lean ====
section
/-! DEFINITION. Machine/Lanes.lean: serial lanes: the board lane table, training on its entries, eye scans, sleep and wake (R419 to
R434), and the hop and source port events as they act on the lanes. -/

namespace Sys2Proof.Machine

/-! ### The board lane table (R421, R422) -/

/-- A lane entry's bytes. -/
def laneEntry (b : List Byte) (l r : Nat) : List Byte := sub b (64 + 8 * (4 * l + r)) 8

/-- A signed byte of a list. -/
def sByte (b : List Byte) (k : Nat) : Int := signed 8 (leAt b k 1)

/-- A lane entry keeps Table 16-2 and the swing limit. -/
def laneEntryOk (e : List Byte) (r : Nat) : Bool :=
  let dfe := [5, 6, 7].map fun k => sByte e k
  if leAt e 0 1 % 2 = 0 then e.all fun b => b == 0
  else
    decide (leAt e 0 1 < 8) && decide (-16 ≤ sByte e 1) && decide (sByte e 1 ≤ 0) && decide (leAt e 2 1 ≤ 63) && decide (-24 ≤ sByte e 3) &&
      decide (sByte e 3 ≤ 0) && decide (leAt e 4 1 < 16) && decide ((sByte e 1).natAbs + leAt e 2 1 + (sByte e 3).natAbs ≤ 63) &&
      dfe.all (fun d => decide (-31 ≤ d) && decide (d ≤ 31)) && (decide (2 ≤ r) || dfe.all fun d => d == 0)

/-- The DDR record keeps Table 16-3. -/
def ddrRecordOk (d : List Byte) : Bool :=
  decide (leAt d 0 1 ≤ 1) && decide (leAt d 1 1 ≤ 1) && decide (leAt d 2 1 ≤ 3) && decide (leAt d 3 1 ≤ 1) && decide (leAt d 4 1 ≤ 2) &&
    leAt d 5 3 == 0

/-- The status of a table: LANE_FORMAT, LANE_ROLE or 0 (R422). -/
def State.laneCheck (s : State) (b : List Byte) : Nat :=
  if !(decide (1024 ≤ b.length) && leAt b 0 4 == 0x4C42544C && leAt b 4 2 == 1 && decide (leAt b 6 1 < 4) && leAt b 7 1 == 0 &&
      (sub b 16 48).all (fun x => x == 0) && (sub b 840 180).all (fun x => x == 0) &&
      (List.range 24).all (fun l => (List.range 4).all fun r => laneEntryOk (laneEntry b l r) r) && ddrRecordOk (sub b 832 8) &&
      crc32c ((b.take 1020).map fun x => x.toNat) == BitVec.ofNat 32 (leAt b 1020 4)) then 0x060A
  else if !(leAt b 6 1).testBit (if s.tile then 1 else 0) then 0x060B else 0

/-- The entries of the table in use, lane by lane (LANE_LSTAT.ENTRY); none where no table is in use (R425). -/
def State.laneEntries (s : State) : State :=
  (List.range 24).foldl (fun (t : State) l => t.setF (LANE_LSTAT_ENTRY l) (match s.laneTable with
    | some b => if s.flag LANE_STAT_TABLE_OK then (List.range 4).foldl (fun m r => if leAt (laneEntry b l r) 0 1 % 2 = 1 then m + 2 ^ r else m) 0 else 0
    | none => 0)) s

/-- The lane has a valid entry at a rate index (R425). -/
def State.laneValid (s : State) (l r : Nat) : Bool :=
  if s.flag LANE_STAT_TABLE_NONE then r == 0 else (s.getF (LANE_LSTAT_ENTRY l)).testBit r

/-- LANE_LSTAT.USE by role and strap (Table 1-2). -/
def State.laneUses (s : State) : State :=
  let t := (List.range 24).foldl (fun (u : State) l => u.setF (LANE_LSTAT_USE l) 0) s
  let t := if s.tile then t else [0, 1, 2, 3].foldl (fun (u : State) l => u.setF (LANE_LSTAT_USE l) 1) t
  let t := (List.range (if s.tile then 2 else 8)).foldl (fun (u : State) p => u.setLanes p LANE_LSTAT_USE 2) t
  (t.setLanes 8 LANE_LSTAT_USE 3).setLanes 9 LANE_LSTAT_USE 3

/-! ### Eye scans (R426 to R428) -/

def State.scan (s : State) (l : Nat) : Option Scan := SMap.get (fun _ => none) s.scans l
def State.setScan (s : State) (l : Nat) (x : Option Scan) : State := { s with scans := SMap.set (fun _ => none) s.scans l x }

/-- A scan ends, with DONE. -/
def State.scanEnd (s : State) (l : Nat) : State :=
  (((s.setScan l none).setFlag (LANE_ESCAN_STAT_BUSY l) false).setFlag (LANE_ESCAN_STAT_WAITKILN l) false).setFlag (LANE_ESCAN_STAT_DONE l) true

/-- A lane that retrains ends its scan with NOLINK. -/
def State.scanLost (s : State) (l : Nat) : State :=
  if (s.scan l).isSome then (s.scanEnd l).setFlag (LANE_ESCAN_STAT_NOLINK l) true else s

/-- Kiln needs the lane's offset sampler now: its run stands at the lane's target (R428, Table 18-1 class 3). -/
def State.kilnNeeds (s : State) (l : Nat) : Bool := match s.kiln.run with | some r => r.cls == 3 && r.idx == l | none => false

/-- A point begins: the counts start from 0, or the scan waits for Kiln. -/
def State.scanPoint (s : State) (l : Nat) (x : Scan) : State :=
  let t := ((s.setReg (LANE_ERRCNT l) 0).setReg (LANE_BITCNT_LO l) 0).setF (LANE_BITCNT_HI_B l) 0
  (t.setScan l (some x)).setFlag (LANE_ESCAN_STAT_WAITKILN l) (t.kilnNeeds l)

/-- ESCAN_START (R426, R427): a write of LANE_ESCAN_CFG with START. -/
def evEscanStart (l : Nat) (w : Word) (s : State) : State :=
  if !s.regAccepts s.bankRuns (LANE_ESCAN_CFG l) w then s.emit (.bus true 0)
  else
    let t := s.plainWrite (LANE_ESCAN_CFG l) w
    let t := (t.setFlag (LANE_ESCAN_STAT_NOLINK l) false).setFlag (LANE_ESCAN_STAT_TIMEOUT l) false
    let t := if t.getF (LANE_LSTAT_RXST l) = 0 then
        ((t.setScan l none).scanEnd l).setFlag (LANE_ESCAN_STAT_NOLINK l) true
      else
        (State.scanPoint (t.setReg (LANE_MARGIN l) 0) l
          { margin := t.flag (LANE_ESCAN_CFG_MODE l), dir := 0, step := 1 }).setFlag (LANE_ESCAN_STAT_BUSY l) true
    t.emit (.bus false 0)

/-- ESCAN_ABORT (R427): the scan ends without DONE. -/
def evEscanAbort (l : Nat) (s : State) : State :=
  (((s.setScan l none).setFlag (LANE_ESCAN_STAT_BUSY l) false).setFlag (LANE_ESCAN_STAT_WAITKILN l) false).emit (.bus false 0)

/-- The magnitude field of a direction and its largest step: left, right, top, bottom. -/
def marginF (l d : Nat) : Field :=
  if d = 0 then LANE_MARGIN_LEFT l else if d = 1 then LANE_MARGIN_RIGHT l else if d = 2 then LANE_MARGIN_TOP l else LANE_MARGIN_BOTTOM l
def marginMax (d : Nat) : Nat := if d = 0 then 32 else if d = 1 then 31 else 127

/-- ESCAN_POINT_DONE (R426): a point has its 2^DWELL bits, of which a number disagreed. -/
def evEscanPointDone (l errs : Nat) (s : State) : State :=
  match s.scan l with
  | none => s
  | some x =>
    let n := 2 ^ s.getF (LANE_ESCAN_CFG_DWELL l)
    let t := ((s.setReg (LANE_ERRCNT l) (BitVec.ofNat 32 (min errs 0xFFFFFFFF))).setReg (LANE_BITCNT_LO l) (BitVec.ofNat 32 n)).setF
      (LANE_BITCNT_HI_B l) (n / 2 ^ 32)
    if !x.margin then t.scanEnd l
    else
      let bad := decide (s.getF (LANE_ESCAN_LIM_ERRLIM l) < errs)
      if bad || decide (marginMax x.dir ≤ x.step) then
        let t := t.setF (marginF l x.dir) (if bad then x.step - 1 else x.step)
        if x.dir < 3 then t.scanPoint l { x with dir := x.dir + 1, step := 1 } else t.scanEnd l
      else t.scanPoint l { x with step := x.step + 1 }

/-- ESCAN_TIMEOUT (R427). -/
def evEscanTimeout (l : Nat) (s : State) : State :=
  if (s.scan l).isSome then (s.scanEnd l).setFlag (LANE_ESCAN_STAT_TIMEOUT l) true else s

/-! ### Training on the table (R419, R420, R423) -/

/-- A lane has trained at a rate index: it is awake in both directions, and its presets are the entry's; a scan on it has ended. -/
def State.laneTrain (s : State) (l r : Nat) : State :=
  let t := ((s.scanLost l).setF (LANE_LSTAT_RATE l) r).setF (LANE_LSTAT_TXST l) 1
  let t := t.setF (LANE_LSTAT_RXST l) 1
  let e := match s.laneTable with
    | some b => if s.flag LANE_STAT_TABLE_OK && s.laneValid l r then sub (laneEntry b l r) 1 4 else [0, 63, 0, 0]
    | none => [0, 63, 0, 0]
  let t := ((t.setF (LANE_PRESET_PRE l) (leAt e 0 1)).setF (LANE_PRESET_MAIN l) (leAt e 1 1)).setF (LANE_PRESET_POST l) (leAt e 2 1)
  let t := t.setF (LANE_PRESET_CTLE l) (leAt e 3 1 % 16)
  let t : State := { t with laneDone := t.laneDone ||| 2 ^ l }
  let used := (List.range 24).filter fun k => t.getF (LANE_LSTAT_USE k) != 0 && t.getF (LANE_LSTAT_RXST k) != 0
  if t.flag LANE_STAT_PENDING && used.all fun k => t.laneDone.testBit k then t.setFlag LANE_STAT_PENDING false else t

/-- A lane is without a partner. -/
def State.laneOff (s : State) (l : Nat) : State := ((s.scanLost l).setF (LANE_LSTAT_TXST l) 0).setF (LANE_LSTAT_RXST l) 0

/-- The lanes of a port follow its link and its rate step. -/
def State.laneSync (s : State) (p : Nat) : State :=
  (s.portLanes p).foldl (fun (t : State) l =>
    if s.hopAuth p == .down then t.laneOff l
    else if t.getF (LANE_LSTAT_RXST l) = 0 ∨ t.getF (LANE_LSTAT_RATE l) ≠ s.portStep p then t.laneTrain l (s.portStep p) else t) s

/-- HOP_TRAINED (R130, R420). -/
def evHopTrainedLanes (p : Nat) (width2 : Bool) (s : State) : State := (evHopTrained p width2 s).laneSync p

/-- HOP_HELLO_RX: the link returns to the step it held (R135). -/
def evHopHelloLanes (h : HopHello) (s : State) : State := (evHopHelloRx h s).laneSync h.port

/-- STEP_UP_EVAL (R133, R425, R491): a step without a valid entry is not attempted, and in recovery mode a tile's port U stays at step 0. -/
def evStepUpLanes (p k : Nat) (ok : List Bool) (s : State) : State :=
  if (!(s.fw.recovery && s.tile && p == 0)) && (s.portLanes p).all fun l => s.laneValid l k then (evStepUpEval p k ok s).laneSync p else s

/-- BER_CHECK (R135). -/
def evBerCheckLanes (p errs : Nat) (s : State) : State := (evBerCheck p errs s).laneSync p

/-- LINK_LOST (R135, R442): a dormant port does not retrain. -/
def evLinkLostLanes (p : Nat) (s : State) : State := (evLinkLost p s).laneSync p

/-- SOURCE_PORT_LINK_CHANGE (R302, R425): a port whose lane has no valid entry at its RATE stays without link. -/
def evSourceLinkLanes (p : Nat) (link fec : Bool) (s : State) : State :=
  if s.tile || decide (4 ≤ p) || s.flag DDR_STAT_TRAIN_FAIL then s
  else
    let r := 2 + s.getF (SRC_PCFG_RATE p)
    if link && (s.flag LANE_STAT_TABLE_NONE || !s.laneValid p r) then s.setFlag (LANE_LSTAT_NOENTRY p) true
    else
      let t := evSourcePortLinkChange p link fec s
      if link then t.laneTrain p r else t.laneOff p

/-! ### Sleep and wake (R429 to R432) -/

/-- LANE_TX_SLEEP (R430): a cord or ring port's transmit direction has been idle; it sends the quiet sequence and sleeps. -/
def evLaneTxSleep (p : Nat) (s : State) : State :=
  if decide (p ≤ 9) && s.flag (LANE_SLEEP_EN p) && s.txst p == 1 then (s.emit (.quiet p)).setLanes p LANE_LSTAT_TXST 3 else s

/-- LANE_SCHEDULED_WAKE and LANE_KEEPALIVE_WAKE (R431). -/
def evLaneScheduledWake (p : Nat) (s : State) : State := s.txWake p
def evLaneKeepaliveWake (p : Nat) (s : State) : State := s.txWake p

/-- LANE_WAKE_DONE (R431): data goes on. -/
def evLaneWakeDone (p : Nat) (s : State) : State :=
  if s.txst p = 2 then ((s.setLanes p LANE_LSTAT_TXST 1).pump p 0).pump p 1 else s

/-- The state of a port's receive direction. -/
def State.rxst (s : State) (p : Nat) : Nat := match s.portLanes p with | l :: _ => s.getF (LANE_LSTAT_RXST l) | [] => 0

/-- LANE_RX_SLEEP (R432). -/
def evLaneRxSleep (p : Nat) (s : State) : State := if s.rxst p = 1 then s.setLanes p LANE_LSTAT_RXST 2 else s

/-- LANE_RX_RELOCK (R432). -/
def evLaneRxRelock (p : Nat) (s : State) : State :=
  if 2 ≤ s.rxst p then (s.setLanes p LANE_LSTAT_RXST 1).countLanes p LANE_N_RXRELOCK else s

/-- RELOCKFAIL (R432): the link is lost. -/
def evRelockfail (p : Nat) (s : State) : State :=
  if 2 ≤ s.rxst p then evLinkLostLanes p (s.countLanes p LANE_N_RELOCKFAIL) else s

/-- LANE_SLEEP_TIMEOUT (R432). -/
def evLaneSleepTimeout (p : Nat) (s : State) : State := if 2 ≤ s.rxst p then evLinkLostLanes p s else s

/-! ### The table in use (R423, R424) -/

/-- The part takes a table copy into use, or none. -/
def State.laneSelect (s : State) (c : Option Nat) : State :=
  let t := (s.setFlag LANE_STAT_TABLE_OK c.isSome).setFlag LANE_STAT_TABLE_NONE c.isNone
  (t.setF LANE_STAT_TABLE_COPY (c.getD 0)).laneEntries

/-- An install's SLOT record names a new table: lanes take it at their next training (R423). -/
def State.laneInstalled (s : State) : State :=
  let t := s.laneSelect (s.activeCopy 5)
  State.setFlag { t with laneDone := 0 } LANE_STAT_PENDING true

end Sys2Proof.Machine
end

