-- ==== Sys2Proof/Machine/Staging.lean ====
section
/-! DEFINITION. Machine/Staging.lean: staged images: a tile's part in them (Table 20-6, R75, R76, R378), the sender's (R501 to R503) and
the frame program's (R514). -/

namespace Sys2Proof.Machine

/-! ### Images of the calibration store (R74, R190, R515) -/

/-- The status of the first check of R190 that a calibration image fails, or 0. -/
def State.calCheck (s : State) (c : List Byte) : Nat :=
  if !calFormatOk c then 0x0607
  else match s.makerKey (sub c 24 8) with
    | none => 0x0608
    | some k =>
      if !Config.sigOk k (c.take (calTotal c)) (sub c (calTotal c) 96) then 0x0608
      else if !calContentOk c then 0x0607 else 0

/-- The status of the first check that a drive program object fails, or 0 (R325, R515). -/
def State.drvCheck (s : State) (o : List Byte) : Nat :=
  let st := s.objCheck o 1
  if st != 0 then st else match s.dsetParse (objPayload o) with | some _ => 0 | none => 0x0106

/-- The slot kind of a staging kind: 0 is the drive program set, 1 the calibration image. -/
def stageSlot (kind : Nat) : Nat := if kind = 1 then 0 else 1

/-- The checks of an image staged for a slot. -/
def State.stageCheck (s : State) (kind : Nat) (o : List Byte) : Nat := if kind = 1 then s.calCheck o else s.drvCheck o

/-! ### A tile's staging (Table 20-6) -/

/-- A CONFIRM's answer: the digest of the inactive copy. -/
def State.confirmData (s : State) (kind : Nat) : List Byte := s.copyHash (stageSlot kind) (s.idleCopy (stageSlot kind))

/-- A store that has become read-only ends the writes that it can make no further (R385). -/
def State.ashStop (s : State) : State :=
  if s.flag NAND_STAT_ASH_FULL then (s.sto.writes.filter fun w => !w.qspi).foldl (fun (u : State) w => u.writeFail w 0x0602) s else s

/-- CONFIRM requests are answered once no write of the kind is in progress. -/
def State.confirmPump (s : State) : State :=
  match s.tstage with
  | none => s
  | some g =>
    if g.asks.isEmpty || s.paused || s.sto.writes.any fun w => w.kind == stageSlot g.kind then s
    else
      let t : State := { s with tstage := some { g with asks := [] } }
      g.asks.foldl (fun (u : State) q => u.ctrlAnswer q 0x0042 0 (u.confirmData g.kind)) t

/-- Whoever waits for the store's writes: those a read-only store cannot make end, and CONFIRM requests are answered. -/
def State.stagePump (s : State) : State := s.ashStop.confirmPump

/-- STAGE: a staging is announced. -/
def evStage (r : CordRx) (seq : Word) (kind len : Nat) (digest : List Byte) (s : State) : State :=
  s.ctrlReq r seq 0x0040 (leBytes 1 kind ++ leBytes 4 len ++ digest) fun t =>
    if 2 ≤ kind then (t, some (0x0001, []))
    else
      ({ t with tstage := some { kind := kind, len := len, digest := digest, data := [], arm := none, due := false, asks := [] } },
       some (0, []))

/-- The last chunk of a staged image: it is checked, and its slot write begins, or the request is refused; the answer of an accepted one
waits for the record of step 4 (R378). -/
def State.stageWrite (s : State) (g : TileStage) (seq : Word) : State × Option (Nat × List Byte) :=
  let bs := SMap.getList (fun _ => 0) g.data 0 g.len
  let st := if padTo 48 (Config.sha384 bs) != padTo 48 g.digest then 0x0103 else s.stageCheck g.kind bs
  if st != 0 then (s, some (st, []))
  else
    let k := stageSlot g.kind
    let r := s.slotWrite k (s.idleCopy k) bs none false none (.ctrl seq 0x0041)
    if r.2 != 0 then (s, some (r.2, [])) else (r.1, none)

/-- A slot write that answers this control request is in progress. -/
def State.writeFor (s : State) (seq : Word) : Bool := s.sto.writes.any fun w => w.fwdone == .ctrl seq 0x0041

/-- STAGE_DATA: a chunk; one that names no staging is discarded and counts as applied (R501). -/
def evStageData (r : CordRx) (seq : Word) (offset : Nat) (chunk : List Byte) (s : State) : State :=
  s.ctrlReq r seq 0x0041 (leBytes 4 offset ++ chunk) fun t =>
    match t.tstage with
    | none => (t, some (0, []))
    | some g =>
      if t.writeFor seq then (t, none)
      else if g.len < offset + chunk.length ∨ 3072 < chunk.length then (t, some (0x0105, []))
      else
        let g := { g with data := SMap.setList (fun _ => 0) g.data offset chunk }
        let u : State := { t with tstage := some g }
        if offset + chunk.length = g.len then u.stageWrite g seq else (u, some (0, []))

/-- CONFIRM: answered after step 4 of the slot write with the digest of the inactive copy; a tile that knows no staging answers zeros. -/
def evConfirm (r : CordRx) (seq : Word) (s : State) : State :=
  s.ctrlReq r seq 0x0042 [] fun t =>
    match t.tstage with
    | none => (t, some (0, List.replicate 48 0))
    | some g =>
      if t.sto.writes.any fun w => w.kind == stageSlot g.kind then
        ({ t with tstage := some { g with asks := if g.asks.contains seq then g.asks else g.asks ++ [seq] } }, none)
      else (t, some (0, t.confirmData g.kind))

/-- ARM: at the MARK of frame F the staged copy switches. -/
def evArm (r : CordRx) (seq : Word) (f : Nat) (s : State) : State :=
  s.ctrlReq r seq 0x0043 (leBytes 5 f) fun t =>
    match t.tstage with
    | none => (t, some (0x0102, []))
    | some g => ({ t with tstage := some { g with arm := some f } }, some (0, []))

/-- CANCEL: disarmed; the staged copy stays VALID and inactive. -/
def evCancel (r : CordRx) (seq : Word) (s : State) : State :=
  s.ctrlReq r seq 0x0044 [] fun t => ({ t with tstage := t.tstage.map fun g => { g with arm := none } }, some (0, []))

/-- No bank still waits for its switch. -/
def State.banksSwitched (s : State) : Bool := (List.range 8).all fun n => (s.seq n).staged.isNone

/-- The record of a switch that has succeeded: after an activation pause where one runs (R378, Table 20-7). -/
def State.switchRecord (s : State) : State :=
  match s.tstage with
  | none => s
  | some g =>
    if !g.due || s.paused || (g.kind == 0 && !s.banksSwitched) then s
    else
      let k := stageSlot g.kind
      let t : State := { s with tstage := some { g with due := false, arm := none } }
      if g.kind = 0 then (t.putActive k (some (t.idleCopy k))).slotRecord k else t.slotRecord k

/-- An armed frame has begun: the banks of a drive program set receive EV12, a calibration slot changes and loads (R76, R187, R502). -/
def State.stageSwitch (s : State) (fcnt : Nat) : State :=
  match s.tstage with
  | none => s
  | some g =>
    match g.arm with
    | none => s
    | some f =>
      if fcnt < f ∨ g.due then s
      else
        let k := stageSlot g.kind
        let c := s.idleCopy k
        if (s.copy k c).state ≠ 1 then { s with tstage := some { g with arm := none } }
        else
          let t : State := { s with tstage := some { g with arm := none, due := true } }
          if g.kind = 1 then (((t.putActive 0 (some c)).calLoadStart)).switchRecord
          else match t.dsetParse (objPayload (s.copy 1 c).data) with
            | some d => ((t.dsetStage d).dsetSwitch).switchRecord
            | none => { t with tstage := some { g with arm := none } }

/-! ### The sender's staging (R501 to R503) -/

/-- The chunks of an image: offset and up to 3,072 bytes. -/
def chunksOf (bs : List Byte) : List (Nat × List Byte) :=
  (List.range (max 1 (ceilDiv bs.length 3072))).map fun i => (3072 * i, sub bs (3072 * i) 3072)

/-- STAGE, STAGE_DATA and CONFIRM to one tile, under new SEQ numbers. -/
def State.stageTo (s : State) (p q kind : Nat) (bs : List Byte) : State :=
  let t := s.ctrlSend p q 0x0040 (leBytes 1 kind ++ leBytes 4 bs.length ++ padTo 48 (Config.sha384 bs)) none
  let t := (chunksOf bs).foldl (fun (u : State) c => u.ctrlSend p q 0x0041 (leBytes 4 c.1 ++ c.2) none) t
  t.ctrlSend p q 0x0042 [] none

/-- The registers of Table 20-9 follow the staging. -/
def State.stageRegs (s : State) (state : Nat) : State :=
  match s.stage with
  | none => s.setF FW_STG_STAT_STATE state
  | some g =>
    let t := ((s.setF FW_STG_STAT_STATE state).setF FW_STG_STAT_KIND g.kind).setF FW_STG_STAT_CONFIRMED (g.tiles.filter fun x => x.confirmed).length
    let t := (t.setReg FW_STG_F_LO (BitVec.ofNat 32 g.frame)).setF FW_STG_F_HI_F (g.frame / 2 ^ 32 % 256)
    t.setF FW_STG_N_GROUP g.tiles.length

/-- A staging is open: not yet switched or cancelled. -/
def State.stageOpen (s : State) : Bool := match s.stage with | some g => decide (g.phase ≤ 2) | none => false

/-- A staging begins: every tile of the group is sent the image. -/
def State.stageBegin (s : State) (kind frame : Nat) (bs : List Byte) (tiles : List (Nat × Nat)) : State :=
  let g : StageSt := { kind := kind, data := bs, frame := frame, phase := 0, report := true,
                       tiles := tiles.map fun e => { port := e.1, pos := e.2, confirmed := false, armed := false, tries := 0, ok := false } }
  let t := State.stageRegs { s with stage := some g } 1
  tiles.foldl (fun (u : State) e => u.stageTo e.1 e.2 kind bs) t

/-- s with one tile of the staging changed. -/
def State.updStage (s : State) (p q : Nat) (f : StageTile → StageTile) : State :=
  { s with stage := s.stage.map fun g => { g with tiles := g.tiles.map fun x => if x.port = p ∧ x.pos = q then f x else x } }

/-- The tile of the staging at a position. -/
def State.stageTile (s : State) (p q : Nat) : Option StageTile :=
  match s.stage with | some g => g.tiles.find? fun x => x.port == p && x.pos == q | none => none

/-- The image that the group runs: the staged one after the switch, the one before it after a cancel (R503). -/
def State.groupImage (s : State) (g : StageSt) : List Byte := if g.phase = 4 then SMap.get (fun _ => []) s.stageLast g.kind else g.data

/-- The staging is given up (R502): no tile switches, and values staged with a frame program stay as they were (R514). -/
def State.stageCancel (s : State) : State :=
  match s.stage with
  | none => s
  | some g =>
    let t := g.tiles.foldl (fun (u : State) x => u.ctrlSend x.port x.pos 0x0044 [] none) s
    let t : State := { t with stage := some { g with phase := 4 } }
    let t := if g.kind = 2 then
        State.setFlag (State.setSeq { t with comp := { t.comp with staged := none } } 8 { t.seq 8 with staged := none }) (switchF 8) false
      else t
    ((((t.stageRegs 4).count FW_N_STG_CANCEL 1)).event 0x000E [] .owner).stageReport g 0x0509

/-- STAGE_CONFIRM_DEADLINE (R502): at frame F − LEAD. -/
def evStageConfirmDeadline (s : State) : State :=
  match s.stage with
  | none => s
  | some g =>
    if g.phase ≠ 0 then s
    else if g.tiles.all fun x => x.confirmed then
      let t : State := { s with stage := some { g with phase := if g.kind = 2 then 2 else 1 } }
      (g.tiles.foldl (fun (u : State) x => u.ctrlSend x.port x.pos 0x0043 (leBytes 5 g.frame) none) t).stageRegs (if g.kind = 2 then 2 else 1)
    else s.stageCancel

/-- STAGE_ARM_DEADLINE (R502): at frame F − 2. -/
def evStageArmDeadline (s : State) : State :=
  match s.stage with
  | none => s
  | some g =>
    if g.phase ≠ 1 then s
    else if g.tiles.all fun x => x.armed then State.stageRegs { s with stage := some { g with phase := 2 } } 2
    else s.stageCancel

/-- Frame F has begun: the group has switched. -/
def State.stageMarked (s : State) : State :=
  match s.stage with
  | none => s
  | some g =>
    if g.kind ≠ 2 ∧ (g.phase = 1 ∨ g.phase = 2) ∧ g.frame ≤ s.fcnt then
      let t : State := { s with stage := some { g with phase := 3 }, stageLast := SMap.set (fun _ => []) s.stageLast g.kind g.data }
      t.stageRegs 3
    else s

/-- STAGE_VERIFY (R503): at F + 2 every active hash is read; a frame program that switched is done. -/
def evStageVerify (s : State) : State :=
  match s.stage with
  | none => s
  | some g =>
    if g.phase < 3 then s
    else if g.kind = 2 then
      (if g.phase = 3 then (State.count { s with stage := none } FW_N_STG_DONE 1).stageReport g 0 else { s with stage := none })
    else
      let ts := g.tiles.filter fun x => !x.ok
      ts.foldl (fun (u : State) x => u.ctrlSend x.port x.pos 0x0003 [] none) s

/-- A tile that does not run the group's image is staged to it on its own, where this sender holds that image. -/
def State.catchUp (s : State) (g : StageSt) (p q : Nat) : State :=
  let bs := s.groupImage g
  if bs.isEmpty then s
  else
    let t := s.updStage p q fun x => { x with confirmed := false, armed := false, tries := 0, ok := false }
    (t.count FW_N_CATCHUP 1).stageTo p q g.kind bs

/-- The group is whole again: the staging ends. -/
def State.stageDone (s : State) : State :=
  match s.stage with
  | none => s
  | some g =>
    if 3 ≤ g.phase ∧ g.tiles.all fun x => x.ok then
      let t : State := { s with stage := none }
      if g.phase = 3 then (t.count FW_N_STG_DONE 1).stageReport g 0 else t
    else s

/-- A STATUS of a tile of the group after the switch. -/
def State.stageStatus (s : State) (p q : Nat) (d : List Byte) : State :=
  match s.stage, s.stageTile p q with
  | some g, some x =>
    if g.phase < 3 ∨ g.kind = 2 ∨ x.ok then s
    else
      let hash := sub d (if g.kind = 0 then 0 else 48) 48
      let own := padTo 48 (Config.sha384 g.data)
      if (hash == own) == (g.phase == 3) then (s.updStage p q fun y => { y with ok := true }).stageDone
      else s.catchUp g p q
  | _, _ => s

/-- CONFIRM's answer (R501, R502): a matching hash confirms; otherwise the image is staged again, up to RETRY times. A tile that catches up
is armed for the first frame at least LEAD frames later (R503). -/
def State.stageConfirm (s : State) (p q : Nat) (d : List Byte) : State :=
  match s.stage, s.stageTile p q with
  | some g, some x =>
    let bs := if 3 ≤ g.phase then s.groupImage g else g.data
    if x.confirmed ∨ (g.phase ≠ 0 ∧ g.phase < 3) then s
    else if d.take 48 == padTo 48 (Config.sha384 bs) then
      let t := (s.updStage p q fun y => { y with confirmed := true }).stageRegs (s.getF FW_STG_STAT_STATE)
      if 3 ≤ g.phase then t.ctrlSend p q 0x0043 (leBytes 5 (t.fcnt + t.getF FW_STG_CFG_LEAD)) none else t
    else if x.tries < s.getF FW_STG_CFG_RETRY then
      ((s.updStage p q fun y => { y with tries := y.tries + 1 }).count FW_N_STG_RESEND 1).stageTo p q g.kind bs
    else s
  | _, _ => s

/-- ARM's acknowledgement. -/
def State.stageArmed (s : State) (p q status : Nat) : State := s.updStage p q fun y => { y with armed := y.armed || status == 0 }

/-! ### The frame program's staging (R76, R501, R514) -/

/-- The frame of a staged frame program begins: EV12 in the FSQ. -/
def State.fsqSwitch (s : State) : State :=
  match s.stage with
  | none => s
  | some g =>
    if g.kind = 2 ∧ g.phase ≤ 2 ∧ g.frame ≤ s.fcnt + 1 then
      let t : State := { s with stage := some { g with phase := 2 } }
      if t.flag (switchF 8) || (t.seq 8).staged.isNone then t else t.switchEvent 8
    else s

/-- The FSQ has taken its staged image. -/
def State.fsqSwitched (s : State) : State :=
  match s.stage with
  | none => s
  | some g =>
    if g.kind = 2 ∧ g.phase ≤ 2 ∧ (s.seq 8).staged.isNone then State.stageRegs { s with stage := some { g with phase := 3 } } 3 else s

/-- What a halt that took a staged image brings with it. -/
def State.haltSwitched (s : State) : State := s.switchRecord.fsqSwitched

/-- SWITCH_TIMEOUT (R76): two frame periods after EV12 the sequencers that have not switched keep their programs. -/
def evSwitchTimeout (s : State) : State :=
  let late := (List.range 9).any fun k => s.flag (switchF k)
  if !late then s
  else
    let t := s.dsetCancel
    let t : State := { t with tstage := t.tstage.map fun g => { g with due := g.due && g.kind == 1 } }
    let t := (t.setSeq 8 { t.seq 8 with staged := none }).setFlag (switchF 8) false
    let t : State := if s.flag (switchF 8) then { t with comp := { t.comp with staged := none }, stage := t.stage.map fun g => { g with phase := 4 } } else t
    let t := if s.flag (switchF 8) then t.stageRegs 4 else t
    let t := t.event 0x000F [] .owner
    match s.stage with
    | some g => if s.flag (switchF 8) && g.kind == 2 then t.stageReport g 0x050A else t
    | none => t

/-- A tile of the group reports SWITCH_TIMEOUT: it is caught up (R503). -/
def State.stageEvent (s : State) (p q code : Nat) : State :=
  if code = 0x000F ∧ (s.stageTile p q).isSome then
    (s.updStage p q fun y => { y with ok := false }).ctrlSend p q 0x0003 [] none
  else s

/-- EVENT_RX (R503, R518). -/
def evEventRx (r : CordRx) (eseq : Word) (code : Nat) (data : List Byte) (s : State) : State :=
  let x := s.senderUp r (.event eseq code data)
  if x.2 then (x.1.eventTake r.port r.hdr.src code data).stageEvent r.port r.hdr.src code else x.1

end Sys2Proof.Machine
end

