-- ==== Sys2Proof/Machine/Power.lean ====
section
/-! DEFINITION. Machine/Power.lean: power states, wake, the supply monitors, die temperature, full resets (R2, R435 to R456, R485), and
frame marks as a tile or a standby receives them (R145, R160, R440, R442, R502). -/

namespace Sys2Proof.Machine

/-! ### Full reset (R2, R435, R445, R449, R485) -/

/-- The register outlives a full reset: Ember's blocks unless Ember itself is reset, the serial, and what the NV journal holds. -/
def keptReg (ember : Bool) (a : Nat) : Bool :=
  ((a / 0x10000 == 0x01 || a / 0x10000 == 0x18) && !ember) || (decide (SYS_SERIAL 0 ≤ a) && decide (a ≤ SYS_SERIAL 3)) || a == AGE_OPH

/-- The newest EQH of the ageing history, in 2^-32 s. -/
def histEqh (h : List AgeEntry) : Nat := match h with | e :: _ => e.eqh * 360 * 2 ^ 32 | [] => 0

/-- The trace ring over a reset that leaves VDD_SRAM above its reset threshold (R555). -/
def State.traceKept (t s : State) : State :=
  let u : State := { t with trace := s.trace }
  let u := u.setF TRACE_WPTR_PTR (s.getF TRACE_WPTR_PTR)
  let u := (u.setFlag TRACE_STAT_WRAPPED (s.flag TRACE_STAT_WRAPPED)).setFlag TRACE_STAT_FULL (s.flag TRACE_STAT_FULL)
  (u.setFlag TRACE_STAT_RETAINED true).traceMark 12 (t.reg EMB_RCAUSE)

/-- A full reset: only what is non-volatile is left, and the part is held in reset. Ember is reset too where asked; the trace ring goes
where VDD_SRAM failed. -/
def State.fullReset (s : State) (ember sram : Bool) (cause : Nat) : State :=
  let r := State.reset
  let t : State := { r with
    pending := s.pending, out := s.out, freeCtr := s.freeCtr, life := s.life, nvj := s.nvj, regs := s.regs.filter fun e => keptReg ember e.1,
    hea := { s.hea with target := none, blowing := false, nonce := none, shakes := [] },
    sto := { StoreSt.init with blks := s.sto.blks, copies := s.sto.copies, active := s.sto.active, ash := s.sto.ash, ashKnown := s.sto.ashKnown,
                               intent := s.sto.intent, lastEc := s.sto.lastEc, scrubPass := s.sto.scrubPass, qspi := s.sto.qspi },
    pop := { PopSt.init with nv := s.pop.nv },
    clm := { ClaimSt.init with nvCur := s.clm.nvCur, nvTop := s.clm.nvTop, nvHolder := s.clm.nvHolder },
    tim := { TimeSt.init with warm := s.tim.warm },
    age := { AgeSt.init with hist := s.age.hist, eqh := histEqh s.age.hist },
    pwr := { PwrSt.init with lifeCell := s.pwr.lifeCell, powered := s.pwr.powered },
    fw := { FwSt.init with inReset := true, powerGood := s.fw.powerGood, rstLow := s.fw.rstLow, recNext := s.fw.recNext } }
  let t := (t.setF EMB_PWR_STATE 0).setFlag EMB_STAT_SMOULDER_THERM false
  let t := t.setF (SUP_MEAS_NOM 0) 750
  let t := if cause < 6 then t.setF EMB_RCAUSE_CAUSE (2 ^ cause) else t
  if sram then t else t.traceKept s

/-- The part leaves reset where power is good and the external input is released. -/
def State.leaveReset (s : State) : State :=
  if s.fw.powerGood && !s.fw.rstLow then { s with fw := { s.fw with inReset := false } } else s

/-- POWER_ON (R436, R445): the rails rise from COLD; with VDD_EMB off before, Ember starts anew, and the life counter resumes at the
highest cell plus 32,768. -/
def evPowerOn (embOff : Bool) (s : State) : State :=
  let t := s.fullReset embOff true 0
  let t : State := if embOff then { t with life := (s.pwr.lifeCell + 32768) % 2 ^ 48 } else t
  State.count { t with fw := { t.fw with powerGood := false }, pwr := { t.pwr with powered := true } } EMB_N_POWERONS 1

/-- POWER_GOOD (R485). -/
def evPowerGood (s : State) : State := State.leaveReset { s with fw := { s.fw with powerGood := true, goodAt := s.life } }

/-- RST_N_ASSERT (R485): full reset; Ember is not reset. -/
def evRstNAssert (s : State) : State :=
  let t := s.fullReset false false 1
  { t with fw := { t.fw with rstLow := true } }

/-- RST_N_RELEASE (R485): 10 ms after RST_N rises. -/
def evRstNRelease (s : State) : State := State.leaveReset { s with fw := { s.fw with rstLow := false } }

/-- The nominal and thresholds of the VMON strap (Table 17-3). -/
def vmonPct (v : Nat) : Nat × Nat := if v = 0 then (92, 85) else if v = 1 then (95, 90) else if v = 2 then (88, 80) else (0, 0)

/-- A supply is gone, and the life counter stands at a value. -/
def State.railLost (s : State) (life : Nat) : State := { s with life := life, fw := { s.fw with powerGood := false } }

/-- SUPPLY_RESET (R436, R449): rail r below its reset threshold; Ember's own rail restarts the life counter from its cells. -/
def evSupplyReset (r : Nat) (s : State) : State :=
  if 4 ≤ r ∨ (r = 3 ∧ s.flag SUP_STAT_VMON_OFF) then s
  else ((s.fullReset (r == 2) (r == 1) (2 + r)).count (SUP_N_RESET r) 1).railLost (if r = 2 then (s.pwr.lifeCell + 32768) % 2 ^ 48 else s.life)

/-! ### Supply-sag warning (R447, R448) -/

/-- The Stoker closes its journal records (Table 17-4); a checkpoint that falls due during an activation pause waits for its end. -/
def State.closeRecords (s : State) : State :=
  let t := if s.sender then (if s.paused then { s with pwr := { s.pwr with dueWrites := true } } else s.popCheckpoint) else s
  let t := if t.refActs then t.journalClaim else t
  if t.sto.scrubPass.isSome then t.journalScrub else t

/-- VSAG_WARN_ASSERT (R447, R448): rail r warns. -/
def evVsagWarnAssert (r : Nat) (s : State) : State :=
  if 4 ≤ r ∨ (r = 3 ∧ s.flag SUP_STAT_VMON_OFF) ∨ (s.getF SUP_STAT_WARN).testBit r then s
  else
    let t := (s.setF SUP_STAT_WARN (s.getF SUP_STAT_WARN ||| 2 ^ r)).setF SUP_STAT_WARNED (s.getF SUP_STAT_WARNED ||| 2 ^ r)
    let t := t.count (SUP_N_WARN r) 1
    if s.flag SUP_STAT_VSAG_WARN then t
    else (((((t.setFlag SUP_STAT_VSAG_WARN true).irq 24).raiseFsq 7).raisePsqs 3).healthReg).closeRecords.sagHold

/-- Every rail is well again; what waited for that is left to the caller. -/
def State.vsagClear (s : State) : State :=
  if s.flag SUP_STAT_VSAG_WARN then
    ((((s.setF SUP_STAT_WARN 0).setFlag SUP_STAT_VSAG_WARN false).irq 24).healthReg).nandKick.blowNext
  else s

/-- SUP_THRESHOLD_MOVE (R446): the core thresholds move to the new nominal. -/
def evSupThresholdMove (s : State) : State := s.setF (SUP_MEAS_NOM 0) (s.getF AGE_AVSSET_SETPOINT)

/-! ### Life counter and crystal (R436) -/

/-- LIFE_CELL_WRITE (R436, R465): each second; a second in LIT or BANKED is an operating second. -/
def evLifeCellWrite (s : State) : State :=
  let t : State := { s with pwr := { s.pwr with lifeCell := max s.pwr.lifeCell s.life } }
  if t.getF EMB_PWR_STATE = 2 then t
  else if t.age.secs + 1 < 3600 then { t with age := { t.age with secs := t.age.secs + 1 } }
  else State.setReg { t with age := { t.age with secs := 0 } } AGE_OPH (t.reg AGE_OPH + 1)

/-- XTAL_FAIL and XTAL_RECOVERED. -/
def evXtalFail (s : State) : State := s.setFlag EMB_STAT_XTAL_FAIL true
def evXtalRecovered (s : State) : State := s.setFlag EMB_STAT_XTAL_FAIL false

/-! ### BANKED and SMOULDER (R439 to R445) -/

/-- The idle conditions of R439 that the state shows. -/
def State.idle (s : State) : Bool :=
  s.tile || (s.src.isEmpty && s.comp.jobs.isEmpty && s.comp.running.isEmpty && s.comp.backlog.isEmpty && s.test.run.isNone && !s.flag CAM_CFG_EN)

/-- BANKED_ENTRY (R439): the conditions have held for BANK_FRAMES frame periods. -/
def evBankedEntry (s : State) : State :=
  if s.getF EMB_PWR_STATE = 0 ∧ s.idle then
    let t := s.setF EMB_PWR_STATE 1
    if t.flag TRACE_CTRL_MARKPWR then t.traceMark 9 0 else t
  else s

/-- A port's link layer is gated: the link is gone without a loss to count. -/
def State.linkOff (s : State) (p : Nat) : State :=
  if s.hopAuth p == .down then s
  else
    let step := s.portStep p
    let t := (s.clearPort p).setHopAuth p .down
    let t : State := { t with cord := { t.cord with held := SMap.set (fun _ => 0) t.cord.held p (step + 1), badSec := SMap.erase p t.cord.badSec } }
    let t := t.setPortStep p 0
    let t := if isRing p then t.setFlag (if p = 8 then RING_STAT_FWD_LINK else RING_STAT_BWD_LINK) false
      else
        let h := t.ownHop p
        (((t.setFlag (CORD_PSTAT_LINK p) false).setFlag (CORD_PSTAT_AUTH p) false).setFlag (CORD_HOP_UP h.1 h.2) false).setFlag
          (CORD_PSTAT_RING_OK p) false
    t.laneSync p

/-- Entry to SMOULDER (R441): banks safe, records closed, links gated. -/
def State.smoulder (s : State) (therm : Bool) : State :=
  if s.getF EMB_PWR_STATE = 2 then s
  else
    let t := (List.range 8).foldl State.psqHaltSafe s
    let t := t.closeRecords.traceMark 10 0
    let t := (List.range 10).foldl State.linkOff t
    let t := [0, 1, 2, 3].foldl (fun (u : State) p => if u.sender && u.flag (SRC_PSTAT_LINK p) then evSourceLinkLanes p false false u else u) t
    ((t.setF EMB_PWR_STATE 2).count EMB_N_SMOULDERS 1).setFlag EMB_STAT_SMOULDER_THERM therm

/-- EMB_SMOULDER (R440): an owner's write. -/
def evEmbSmoulder (s : State) : State := (s.smoulder false).emit (.bus false 0)

/-- A PSQ restarts from its retained image, unless its bank cannot drive or belongs to the camera (R207, R444, R470). -/
def State.psqResume (s : State) (n : Nat) : State :=
  if (s.seq n).image.isNone || (n == 0 && s.flag CAM_CFG_EN) then s
  else if (s.bank n).vddpBad then (s.setFlag (PSQ_STAT_VSTOP n) true).setFlag (haltedF n) false
  else s.progStart n

/-! ### Die temperature (R450 to R453) -/

/-- LMAX (Table 17-5). -/
def State.lmax (s : State) : Nat := if s.tile then ceilDiv (1000 - s.getF THERM_TILE_TMIN) (max 1 (s.getF THERM_TILE_TSTEP)) else 2

/-- CEIL_THERM at the present level. -/
def State.ceilTherm (s : State) : State :=
  s.setCeilTherm (max (s.getF THERM_TILE_TMIN) (1000 - s.getF THERM_STAT_LEVEL * s.getF THERM_TILE_TSTEP))

/-- Level L acts (Table 17-5, R452). -/
def State.thermLevel (s : State) (l : Nat) : State :=
  if s.getF THERM_STAT_LEVEL = l then s
  else
    let t := s.setF THERM_STAT_LEVEL l
    let t := if t.tile then t.ceilTherm
      else ((t.setFlag COMP_QUAL_FORCE_LOW (decide (1 ≤ l))).setFlag FSQ_STAT_THROTTLED (decide (2 ≤ l))).raiseFsq 11
    (List.range 8).foldl (fun (u : State) n => u.setDmem n 0xF80 (BitVec.ofNat 32 l)) t

/-- The state becomes ENFORCE at a level. -/
def State.thermEnforce (s : State) (l : Nat) : State :=
  let t := if s.getF THERM_STAT_STATE = 2 then s else (s.setF THERM_STAT_STATE 2).count THERM_N_ENFORCES 1
  t.thermLevel l

/-- The die temperature in force, 1/16 °C. -/
def State.dieT (s : State) : Int := signed 16 (s.getF THERM_TEMP_DIE)

/-- The release threshold, 100 °C less HYS. -/
def State.thermLow (s : State) : Int := 1600 - 16 * (s.getF THERM_CFG_HYS : Int)

/-- Twice the median of a sorted list of readings. -/
def median2 (xs : List Int) : Int :=
  let ys := xs.mergeSort (fun a b => decide (a ≤ b))
  ys.getD ((ys.length - 1) / 2) 0 + ys.getD (ys.length / 2) 0

/-- The readings that count: within −55 to +150 °C and within 15 °C of the median (R450). -/
def validTemps (xs : List Int) : List Bool :=
  let m := median2 xs
  xs.map fun x => decide (-880 ≤ x) && decide (x ≤ 2400) && decide ((2 * x - m).natAbs ≤ 480)

/-- NORMAL reaches 100 °C: REQUEST, reported (R451). -/
def State.thermRequest (s : State) : State :=
  ((s.setF THERM_STAT_STATE 1).count THERM_N_REQUESTS 1).event 0x0006 [] (.tenants 0xFFFF)

/-- The new temperature moves the thermal state; one that comes to 112 °C from NORMAL has reached 100 °C too (R451, R453). -/
def State.thermMove (s : State) (t : Int) : State :=
  if 1792 ≤ t then
    let u := if s.getF THERM_STAT_STATE = 0 then s.thermRequest else s
    let u := if u.flag THERM_STAT_IMMED then u else u.count THERM_N_IMMEDIATES 1
    ((u.setFlag THERM_STAT_IMMED true).thermEnforce u.lmax).healthReg
  else
    let u := (s.setFlag THERM_STAT_IMMED false).healthReg
    if u.getF THERM_STAT_STATE = 0 ∧ 1600 ≤ t then u.thermRequest
    else if u.getF THERM_STAT_STATE = 1 ∧ t < u.thermLow then u.setF THERM_STAT_STATE 0
    else u

/-- DIE_TEMP_READ (R450): the twelve sensors' readings, 1/16 °C. -/
def evDieTempRead (xs : List Int) (s : State) : State :=
  let ok := validTemps xs
  let t := (List.range 12).foldl (fun (u : State) k => u.setF (THERM_SENS_TEMP k) (unsigned 16 (xs.getD k 0))) s
  let t := t.setF THERM_SVALID_VALID ((List.range 12).foldl (fun m k => if ok.getD k false then m + 2 ^ k else m) 0)
  let good := ((xs.zip ok).filter fun e => e.2).map fun e => e.1
  let t := t.count THERM_N_SENSOR_EXCLUSIONS (12 - good.length)
  let bad := decide (good.length < 3)
  let die := if bad then 1792 else good.foldl max (good.headD 0)
  let t := (t.setFlag THERM_STAT_SENS_FAIL bad).setF THERM_TEMP_DIE (unsigned 16 die)
  let t := if signed 16 (t.getF THERM_TEMP_PEAK) < die then t.setF THERM_TEMP_PEAK (unsigned 16 die) else t
  let t := (t.setFlag THERM_STAT_FAST (decide (1440 ≤ die))).thermMove die
  let n := if 1920 ≤ die then t.pwr.t120 + 1 else 0
  let t : State := { t with pwr := { t.pwr with t120 := n } }
  if 2 ≤ n ∧ t.getF EMB_PWR_STATE ≠ 2 then (t.count THERM_N_THERM_SMOULDERS 1).smoulder true else t

/-- THERM_GRACE_EXPIRY (R451). -/
def evThermGraceExpiry (s : State) : State := if s.getF THERM_STAT_STATE = 1 then s.thermEnforce 1 else s

/-- THERM_STEP_EXPIRY (R451). -/
def evThermStepExpiry (s : State) : State :=
  if s.getF THERM_STAT_STATE = 2 ∧ 1600 ≤ s.dieT then s.thermLevel (min s.lmax (s.getF THERM_STAT_LEVEL + 1)) else s

/-- THERM_RELEASE_EXPIRY (R451). -/
def evThermReleaseExpiry (s : State) : State :=
  if s.getF THERM_STAT_STATE = 2 ∧ s.dieT < s.thermLow then
    let t := s.thermLevel (s.getF THERM_STAT_LEVEL - 1)
    if t.getF THERM_STAT_LEVEL = 0 then t.setF THERM_STAT_STATE 0 else t
  else s

/-! ### Wake (R443, R444) -/

/-- A wake source becomes active. -/
def State.wake (s : State) (src : Nat) : State :=
  let hot := s.flag EMB_STAT_SMOULDER_THERM
  if s.getF EMB_PWR_STATE ≠ 2 ∨ !(s.getF EMB_WAKE_EN).testBit src ∨ (hot ∧ src ≠ 0 ∧ src ≠ 5) ∨ (!hot ∧ src = 5) then s
  else
    let t := ((s.setF EMB_WCAUSE_CAUSE (2 ^ src)).setF EMB_PWR_STATE 0).count EMB_N_WAKES 1
    let t := (t.setFlag EMB_STAT_SMOULDER_THERM false).traceMark 11 (t.reg EMB_WCAUSE)
    let t : State := { t with pwr := { t.pwr with t120 := 0 } }
    let t := if hot then t.thermEnforce t.lmax else t
    let t := (List.range 8).foldl State.psqResume t
    if t.tile then (t.rampDue).event 0x000A [] .owner else t

/-- WAKE_N. -/
def evWakeN (s : State) : State := s.wake 0
/-- WAKE_SIGNAL (Table 17-2): on SL00, or on SL02 in a tile. -/
def evWakeSignal (sl02 : Bool) (s : State) : State := if sl02 && s.sender then s else s.wake (if sl02 then 2 else 1)
/-- WAKE_SPI. -/
def evWakeSpi (s : State) : State := s.wake 3
/-- WAKE_ALARM: an alarm of 0 disables the source. -/
def evWakeAlarm (s : State) : State :=
  if s.liveReg EMB_ALARM_LO = 0 ∧ s.liveReg EMB_ALARM_HI = 0 then s else s.wake 4
/-- WAKE_THERM (R453): sensor 0 reads below THERM_RESUME. -/
def evWakeTherm (s : State) : State := s.wake 5

/-! ### Dormant ports (R442) -/

/-- Ports become dormant. -/
def State.goDormant (s : State) (m : Nat) : State := s.setF EMB_DORM_PORTS (s.getF EMB_DORM_PORTS ||| m)

/-- The port is dormant. -/
def State.dormant (s : State) (p : Nat) : Bool := decide (p < 8) && (s.getF EMB_DORM_PORTS).testBit p

/-- DORMANT_PORT_SIGNAL (R442). -/
def evDormantPortSignal (p : Nat) (s : State) : State := s.setF EMB_DORM_PORTS (s.getF EMB_DORM_PORTS &&& (255 - 2 ^ (p % 8)))

/-- HOP_TRAINED on a port (R130, R442): a dormant port does not train. -/
def evHopTrainedRow (p : Nat) (width2 : Bool) (s : State) : State := if s.dormant p then s else evHopTrainedLanes p width2 s

/-- POWER (R440): the request is held until its frame. -/
def evCtrlPower (r : CordRx) (seq : Word) (state fcnt : Nat) (s : State) : State :=
  s.ctrlReq r seq 0x0020 (leBytes 1 state ++ leBytes 5 fcnt) fun t =>
    if state = 2 then ({ t with pwr := { t.pwr with smoulderAt := some fcnt } }, some (0, [])) else (t, some (0x0001, []))

/-- The mark of a cord power message has come: this sender's ports are dormant. -/
def State.dormMark (s : State) (ports fcnt : Nat) : State :=
  match s.cord.dormAt with
  | some (m, f) =>
    if f ≤ fcnt ∧ m &&& ports ≠ 0 then
      let rest := m &&& (255 - ports % 256)
      State.goDormant { s with cord := { s.cord with dormAt := if rest = 0 then none else some (rest, f) } } (m &&& ports)
    else s
  | none => s

/-! ### Marks received (R145, R160, R440, R442, R502) -/

/-- A held POWER request whose frame has come. -/
def State.powerMark (s : State) (fcnt : Nat) : State :=
  match s.pwr.smoulderAt with
  | some f =>
    if f ≤ fcnt then
      (State.goDormant { s with pwr := { s.pwr with smoulderAt := none } } 3).smoulder false
    else s
  | none => s

/-- MARK_RX: at a tile the frame opens, an armed staging switches and a held POWER request acts; at a standby's port the ring cord is
heard. -/
def evMarkRx (r : CordRx) (fcnt fper ntiles : Nat) (s : State) : State :=
  if s.tile then
    let x := s.markAccept r fcnt fper ntiles
    if x.2 then (x.1.stageSwitch fcnt).powerMark fcnt else x.1
  else
    let t := s.ringMark r ntiles
    if r.htag && r.tag && !r.abort && !t.active && r.hdr.claim == t.knownClaim then t.dormMark (2 ^ r.port) fcnt else t

end Sys2Proof.Machine
end

