-- ==== Sys2Proof/Machine/Kiln.lean ====
section
/-! DEFINITION. Machine/Kiln.lean: Kiln's trims and the temperature sets, the ageing monitors, the estimators and the margin plan
(chapter 18). -/

namespace Sys2Proof.Machine

/-! ### Targets (Table 18-1) -/

/-- The count of a class's targets, and its agreement tolerance. -/
def kilnCount (c : Nat) : Nat :=
  if c = 0 then 12 else if c = 1 then 80 else if c = 2 then 2 else if c = 3 then 24 else if c = 4 then 512 else if c = 5 then 256 else 0
def kilnTol (c : Nat) : Nat := if c = 2 ∨ c = 5 then 2 else 1

/-- Keys of a target, and of a target's value in a set. -/
def kilnKey (c i : Nat) : Nat := c * 1024 + i
def setKey (k t : Nat) : Nat := k * 8192 + t

/-- Every target. -/
def kilnTargets : List Nat := (List.range 6).flatMap fun c => (List.range (kilnCount c)).map fun i => kilnKey c i

/-- The temperature of a set, °C (R461). -/
def setTemp (k : Nat) : Int := 30 * (k : Int) - 20

/-- The set nearest a temperature in 1/16 °C, the lower of two equally near (R461). -/
def nearSet (t : Int) (ks : List Nat) : Option Nat :=
  ks.foldl (fun b k =>
    match b with
    | none => some k
    | some j => if (16 * setTemp k - t).natAbs < (16 * setTemp j - t).natAbs then some k else some j) none

/-- The sets marked MEASURED. -/
def State.measuredSets (s : State) : List Nat := (List.range 5).filter fun k => (s.getF KILN_STAT_MEASURED).testBit k

/-- The measured value of a target in a set. -/
def State.setMeas (s : State) (k t : Nat) : Option Int := SMap.get (fun _ => none) s.kiln.sets (setKey k t)

/-- A target's value in a set: measured, or from the nearest MEASURED set or the factory, with the class coefficient (R461). -/
def State.setVal (s : State) (k t : Nat) : Int :=
  match s.setMeas k t with
  | some v => v
  | none =>
    match nearSet (16 * setTemp k) s.measuredSets with
    | some j =>
      match s.setMeas j t with
      | some v => v + Config.kilnShift (t / 1024) (setTemp j) (setTemp k)
      | none => Config.kilnFactory t + Config.kilnShift (t / 1024) 40 (setTemp k)
    | none => Config.kilnFactory t + Config.kilnShift (t / 1024) 40 (setTemp k)

/-- The applied trim of a target: its factory value until a step moves it. -/
def State.kilnApplied (s : State) (t : Nat) : Int := (SMap.get (fun _ => none) s.kiln.applied t).getD (Config.kilnFactory t)

/-- The target value of the last update (R462); the applied value before the first. -/
def State.kilnTarget (s : State) (t : Nat) : Int := (SMap.get (fun _ => none) s.kiln.targets t).getD (s.kilnApplied t)

/-- KILN_TDATA of the target that KILN_TSEL selects (Table 18-4). -/
def State.kilnData (s : State) : Word :=
  let c := s.getF KILN_TSEL_CLASS
  let i := s.getF KILN_TSEL_INDEX
  let t := kilnKey c i
  if i < kilnCount c then
    BitVec.ofNat 32 (unsigned 8 (s.kilnApplied t) + unsigned 8 (s.kilnTarget t) * 256 +
      (if c = 5 then unsigned 8 (SMap.get (fun _ => 0) s.kiln.drift i) else 0) * 65536)
  else 0

/-! ### Runs (R458 to R461) -/

/-- A lane that Kiln has left: its scan goes on. -/
def State.kilnLeave (s : State) (c i : Nat) : State :=
  if c = 3 then s.setFlag (LANE_ESCAN_STAT_WAITKILN i) false else s

/-- A run begins with the present temperature. -/
def State.kilnBegin (s : State) : State :=
  let t := ((s.setFlag KILN_STAT_BUSY true).count KILN_N_RUNS 1).setF KILN_LAST_TEMP (unsigned 16 s.dieT)
  { t with kiln := { t.kiln with run := some { t := t.dieT, at_ := t.life, cls := 0, idx := 0 } } }

/-- A trigger of R458. -/
def State.kilnTrigger (s : State) : State := if s.kiln.run.isSome then s.setFlag KILN_STAT_PENDING true else s.kilnBegin

/-- The run's set takes a value for every target: what the run measured, and the value it had for the rest. -/
def State.kilnFill (s : State) (k : Nat) : State :=
  let m := kilnTargets.foldl (fun m t => SMap.set (fun _ => none) m (setKey k t) (some (s.setVal k t))) s.kiln.sets
  { s with kiln := { s.kiln with sets := m } }

/-- The run ends; a pending one starts (R458, R461). -/
def State.kilnEnd (s : State) : State :=
  match s.kiln.run with
  | none => s
  | some r =>
    let k := (nearSet r.t (List.range 5)).getD 0
    let t := (s.kilnLeave r.cls r.idx).kilnFill k
    let t := (t.setF KILN_STAT_MEASURED (t.getF KILN_STAT_MEASURED ||| 2 ^ k)).setFlag KILN_STAT_BUSY false
    let t := t.setF KILN_LAST_DUR (min 65535 ((t.life - r.at_) * 1000 / 32768))
    let t : State := { t with kiln := { t.kiln with run := none } }
    if t.flag KILN_STAT_PENDING then (t.setFlag KILN_STAT_PENDING false).kilnBegin else t

/-- KILN_RUN_START (R458): the completion of Kindling, a temperature change or a request. -/
def evKilnRunStart (s : State) : State := s.kilnTrigger

/-- KILN_RUN (R458): an owner's write of KILN_CTRL.RUN. -/
def evKilnRun (s : State) : State := s.kilnTrigger.emit (.bus false 0)

/-- The temperature has moved by more than TDELTA from that of the last run's start (R458). -/
def State.kilnTemp (s : State) : State :=
  if s.getF KILN_CFG_TDELTA * 16 < (s.dieT - signed 16 (s.getF KILN_LAST_TEMP)).natAbs ∧ s.fw.kindled.isSome then s.kilnTrigger else s

/-- The target can be measured now (R460). -/
def State.kilnCan (s : State) (c i : Nat) : Bool :=
  if c = 2 then s.getF DDR_CFG_CAP != 0
  else if c = 3 then s.getF (LANE_LSTAT_RXST i) == 1
  else if c = 4 then s.bankRuns (i / 64)
  else if c = 5 then s.bankRuns (i / 32)
  else true

/-- The target after one, or none at the end (R459). -/
def kilnNext (c i : Nat) : Option (Nat × Nat) :=
  if i + 1 < kilnCount c then some (c, i + 1) else if c + 1 < 6 then some (c + 1, 0) else none

/-- The run goes on to its next target, or ends. -/
def State.kilnGo (s : State) (r : KilnRun) : State :=
  match kilnNext r.cls r.idx with
  | some (c, i) => State.kilnLeave { s with kiln := { s.kiln with run := some { r with cls := c, idx := i } } } r.cls r.idx
  | none => s.kilnEnd

/-- The outcome of a pair of measurements (R459). -/
def State.kilnResult (s : State) (r : KilnRun) (a b : Int) : State :=
  if b - a ≤ (kilnTol r.cls : Int) ∧ a - b ≤ (kilnTol r.cls : Int) then
    let v := (a + b).tdiv 2
    if v < -128 ∨ 127 < v then (s.count KILN_N_TRIM_LIMIT 1).setFlag KILN_STAT_TRIM_LIMIT true
    else
      let k := (nearSet r.t (List.range 5)).getD 0
      { s with kiln := { s.kiln with sets := SMap.set (fun _ => none) s.kiln.sets (setKey k (kilnKey r.cls r.idx)) (some v) } }
  else (s.count KILN_N_DISAGREE 1).setFlag KILN_STAT_DISAGREE true

/-- KILN_MEASUREMENT_DONE (R459, R460). -/
def evKilnMeasurementDone (m : KilnPair) (s : State) : State :=
  match s.kiln.run with
  | none => s
  | some r =>
    match m with
    | .skipped => (s.count KILN_N_SKIPPED 1).kilnGo r
    | .pair a b moved =>
      if !s.kilnCan r.cls r.idx then (s.count KILN_N_SKIPPED 1).kilnGo r
      else if moved then s
      else (s.kilnResult r a b).kilnGo r

/-- Targets a run has not reached. -/
def kilnLeft (c i : Nat) : Nat := (List.range 6).foldl (fun n k => if c < k then n + kilnCount k else n) (kilnCount c - i)

/-- KILN_RUN_TIMEOUT (R460): TMO seconds after the run's start. -/
def evKilnRunTimeout (s : State) : State :=
  match s.kiln.run with
  | none => s
  | some r => (s.count KILN_N_SKIPPED (kilnLeft r.cls r.idx)).kilnEnd

/-- KILN_TARGET_UPDATE (R462, R174): once a second. -/
def evKilnTargetUpdate (s : State) : State :=
  let tc := clampInt (-320) 1600 s.dieT
  let k := min 3 ((tc + 320).toNat / 480)
  let f : Int := tc + 320 - 480 * k
  let m := kilnTargets.foldl (fun m t =>
    let a := s.setVal k t
    SMap.set (fun _ => none) m t (some (a + roundDiv ((s.setVal (k + 1) t - a) * f) 480))) s.kiln.targets
  { s with kiln := { s.kiln with targets := m } }

/-- One code toward a target value. -/
def oneCode (a b : Int) : Int := if a < b then a + 1 else if b < a then a - 1 else a

/-- KILN_TRIM_STEP (R462): each millisecond. -/
def evKilnTrimStep (s : State) : State :=
  let m := kilnTargets.foldl (fun m t => SMap.set (fun _ => none) m t (some (oneCode (s.kilnApplied t) (s.kilnTarget t)))) s.kiln.applied
  { s with kiln := { s.kiln with applied := m } }

/-- DIE_TEMP_READ (R450, R458): the temperature moves the thermal state and may start a run; it enters the mean of the next plan. -/
def evDieTempReadRow (xs : List Int) (s : State) : State :=
  let t := evDieTempRead xs s
  State.kilnTemp { t with age := { t.age with tempSum := t.age.tempSum + t.dieT, tempN := t.age.tempN + 1 } }

/-! ### Ageing monitors and estimators (R463, R464) -/

/-- AGEING_MEASURE (R463): DEG of the 16 pairs in 0.001 %, none where the reference did not oscillate. -/
def evAgeingMeasure (degs : List (Option Int)) (s : State) : State :=
  (List.range 16).foldl (fun (t : State) m =>
    match degs.getD m none with
    | some d =>
      if d.natAbs ≤ 20000 then (t.setF (AGE_MON_DEG m) (unsigned 16 d)).setFlag (AGE_MON_VALID m) true
      else ((t.setFlag (AGE_MON_VALID m) false).count AGE_N_MONFAIL 1).setFlag AGE_STAT_MON_FAIL true
    | none => ((t.setFlag (AGE_MON_VALID m) false).count AGE_N_MONFAIL 1).setFlag AGE_STAT_MON_FAIL true) s

/-- LANE_MARGIN_SCAN (R464): one MARGIN scan of a lane in use; the lowest margins since the last plan are kept. -/
def evLaneMarginScan (lane left right top bottom : Nat) (s : State) : State :=
  let h := min left right
  let v := min top bottom
  let e := match SMap.get (fun _ => none) s.age.lanes lane with
    | some x => (min x.1 h, min x.2 v)
    | none => (h, v)
  { s with age := { s.age with lanes := SMap.set (fun _ => none) s.age.lanes lane (some e) } }

/-- PIN_DRIFT_MEASURE (R464): the drift of the pins measured, 15.625 ps. -/
def evPinDriftMeasure (ds : List (Nat × Int)) (s : State) : State :=
  { s with age := { s.age with drift := ds.foldl (fun m d => SMap.set (fun _ => (0 : Int)) m (d.1 % 256) d.2) s.age.drift } }

/-- EQH_UPDATE (R464): each second in which a bank is out of the safe state. -/
def evEqhUpdate (s : State) : State :=
  if s.tile && (List.range 8).any fun n => !s.flag (PIN_BSTAT_SAFE n) then
    let e := s.age.eqh + s.getF LAMP_K_K * Config.exp2 (s.teff - 640) / 32768
    State.setReg { s with age := { s.age with eqh := e } } AGE_EQH (BitVec.ofNat 32 (min 0xFFFFFFFF (e / (360 * 2 ^ 32))))
  else s

/-- HEADROOM_WINDOW_END (R233, R464): the share of windows with an UP vote at VMAX is kept for the plan. -/
def evHeadroomWindowEndRow (mode : Option Nat) (acks : List Bool) (s : State) : State :=
  let t := evHeadroomWindowEnd mode acks s
  if s.tile then
    let up := t.flag LAMP_HRSTAT_AT_VMAX && (t.getF LAMP_HRSTAT_VOTE == 2 || t.recentVotes.any fun v => v.vote == 2)
    { t with age := { t.age with hrWins := t.age.hrWins + 1, hrUps := t.age.hrUps + (if up then 1 else 0) } }
  else t

/-! ### The margin plan (R465 to R467) -/

/-- The valid degradations. -/
def State.degs (s : State) : List Int :=
  ((List.range 16).filter fun m => s.flag (AGE_MON_VALID m)).map fun m => signed 16 (s.getF (AGE_MON_DEG m))

/-- DEGMAX and DEGMEAN. -/
def State.degMax (s : State) : Int := match s.degs with | [] => signed 16 (s.free 1 16) | d :: ds => ds.foldl max d
def State.degMean (s : State) : Int := match s.degs with | [] => signed 16 (s.free 2 16) | ds => roundDiv (ds.foldl (· + ·) 0) ds.length

/-- The AVSBus write of a setpoint: the rail moves when it is acknowledged, and the thresholds with it (R446, R465). -/
def State.avsWrite (s : State) (mv : Nat) (ack : Bool) : State :=
  let t := if mv < s.getF AGE_AVSSET_SETPOINT then s.setF (SUP_MEAS_NOM 0) mv else s
  let t := (t.emit (.avs (t.getF AGE_AVSCFG_RAIL) mv)).count AGE_N_AVSWRITES 1
  if ack then
    let u := t.setF AGE_AVSSET_SETPOINT mv
    { u with age := { u.age with avs := none } }
  else
    let u := (t.setFlag AGE_STAT_AVS_ERR true).count AGE_N_AVSERR 1
    { u with age := { u.age with avs := some mv } }

/-- The new setpoint (R465 step 1). -/
def State.avsTarget (s : State) : Nat :=
  let up : Int := -((-((s.getF AGE_AVSCFG_KMV : Int) * s.degMax)) / 1000)
  let v := clampInt (s.getF AGE_AVSLIM_AVS_MIN) (s.getF AGE_AVSLIM_AVS_MAX) (s.getF AGE_AVSSET_BASE + up)
  let cur : Int := s.getF AGE_AVSSET_SETPOINT
  let st : Int := s.getF AGE_AVSCFG_STEP
  (clampInt (cur - st) (cur + st) v).toNat

/-- Step 1: AVS. -/
def State.planAvs (s : State) (ack : Bool) : State := if s.flag AGE_AVSCFG_EN then s.avsWrite s.avsTarget ack else s

/-- Step 2: pin timing. -/
def State.planPins (s : State) : State :=
  s.age.drift.foldl (fun (t : State) e =>
    if 2 < e.2.natAbs then
      let v := SMap.get (fun _ => 0) t.kiln.drift e.1 - e.2
      let u : State := { t with kiln := { t.kiln with drift := SMap.set (fun _ => 0) t.kiln.drift e.1 (clampInt (-32) 32 v) } }
      if 32 < v.natAbs then u.setFlag KILN_STAT_TRIM_LIMIT true else u
    else t) s

/-- The port of a lane, if it is a cord or ring lane. -/
def State.lanePort (s : State) (l : Nat) : Option Nat := (List.range 10).find? fun p => (s.portLanes p).contains l

/-- A hop retrains one step lower and counts it (R135, R465). -/
def State.downshift (s : State) (p : Nat) : State :=
  let t := if isRing p then s else s.count (CORD_N_DOWNSHIFT p) 1
  (t.setPortStep p (t.portStep p - 1)).laneSync p

/-- Step 3: lanes. -/
def State.planLanes (s : State) : State :=
  s.age.lanes.foldl (fun (t : State) e =>
    match e.2 with
    | some m =>
      if m.1 < t.getF AGE_LANE_HMIN ∨ m.2 < t.getF AGE_LANE_VMIN then
        let u := (t.setFlag AGE_STAT_LOW_MARGIN true).event 0x0010 [] .owner
        match u.lanePort e.1 with
        | some p => if u.flag AGE_LANE_DOWN && u.linkUp p then u.downshift p else u
        | none => u
      else t
    | none => t) s

/-- The used points of AGE_LDEP, in 0.1 h and U1.15: those before the first point after point 0 with LUM 0. -/
def State.ldepPoints (s : State) : List (Int × Int) :=
  let ps := (List.range 8).map fun i => ((s.getF (AGE_LDEP_HOURS i) * 1000 : Nat), s.getF (AGE_LDEP_LUM i))
  let used := ps.take 1 ++ (ps.drop 1).takeWhile fun p => p.2 != 0
  used.map fun p => ((p.1 : Int), (p.2 : Int))

/-- Linear interpolation, holding the last value; nothing is stated before the first point. -/
def interpolate (x : Int) : List (Int × Int) → Option Int
  | [] => none
  | [a] => if x < a.1 then none else some a.2
  | a :: b :: rest =>
    if x < a.1 then none
    else if x < b.1 then some (a.2 + roundDiv ((b.2 - a.2) * (x - a.1)) (b.1 - a.1).toNat)
    else interpolate x (b :: rest)

/-- LUM (R466): from the measured loss, or from the table at EQH. -/
def State.planLum (s : State) : Nat :=
  if s.flag AGE_LMEAS_VALID then 32768 - s.getF AGE_LMEAS_LOSS
  else if (List.range 8).all fun i => s.reg (AGE_LDEP i) == 0 then 32768
  else match interpolate (s.reg AGE_EQH).toNat s.ldepPoints with
    | some v => v.toNat
    | none => s.free 3 16

/-- The reserve factor of a LUM (R466). -/
def State.reserveOf (s : State) (lum : Nat) : Nat :=
  if lum = 0 then min 0x8000 (s.free 4 16) else min 0x8000 (roundDiv (0x6666 * 32768 : Nat) lum).toNat

/-- Step 4: the lamp reserve of a tile (R466). -/
def State.planReserve (s : State) : State :=
  if !s.tile then s
  else
    let lum := s.planLum
    let r := s.reserveOf lum
    let now := s.getF LAMP_RESERVE_RESERVE
    let t := (s.setF AGE_LUM_LUM lum).setFlag AGE_LMEAS_VALID false
    let t :=
      if now < r ∧ s.age.hrWins < s.age.hrUps * 100 then t.setFlag AGE_STAT_HR_LIMIT true
      else if r = now then t
      else (t.setF LAMP_RESERVE_RESERVE r).genPending
    t.setFlag AGE_STAT_RESERVE_EXH (t.getF LAMP_RESERVE_RESERVE == 0x8000)

/-- The lowest kept margin of all lanes; a value given where none is kept. -/
def lowest (d : Nat) (xs : List Nat) : Nat := match xs with | [] => d | x :: r => r.foldl min x

/-- Step 5: the history entry (Table 18-3), with free values where nothing was kept since the last plan; `was` is the state before it. -/
def State.ageEntry (s was : State) : AgeEntry :=
  let ms := s.age.lanes.filterMap fun e => e.2
  let since := fun (k a : Nat) => (s.reg a).toNat - s.age.base.getD k 0
  let f := fun (k : Nat) (b : Bool) => if b then 2 ^ k else 0
  { life := s.life, oph := (s.reg AGE_OPH).toNat, eqh := if s.tile then (s.reg AGE_EQH).toNat else 0,
    degmax := unsigned 16 was.degMax, degmean := was.degMean, avs := s.getF AGE_AVSSET_SETPOINT,
    reserve := s.getF LAMP_RESERVE_RESERVE, lum := s.getF AGE_LUM_LUM, laneH := lowest (s.free 5 8) (ms.map fun m => m.1),
    laneV := lowest (s.free 6 8) (ms.map fun m => m.2), pindrift := (s.age.drift.map fun e => e.2.natAbs).foldl max 0,
    tempmean := if s.age.tempN = 0 then signed 16 (s.free 7 16) else roundDiv s.age.tempSum s.age.tempN,
    runs := since 0 KILN_N_RUNS, disagree := since 1 KILN_N_DISAGREE, trimlim := since 2 KILN_N_TRIM_LIMIT,
    flags := f 0 s.age.avs.isSome + f 1 (s.flag AGE_STAT_LOW_MARGIN) + f 2 (s.flag AGE_STAT_HR_LIMIT) + f 3 (s.flag AGE_STAT_RESERVE_EXH) +
      f 4 (s.flag KILN_STAT_TRIM_LIMIT) + f 5 (was.tile && was.flag AGE_LMEAS_VALID) }

/-- Step 5: the entry and the AGEPTR record; what was kept since the last plan starts anew. -/
def State.planHistory (s was : State) : State :=
  let base := [KILN_N_RUNS, KILN_N_DISAGREE, KILN_N_TRIM_LIMIT].map fun a => (s.reg a).toNat
  let a := { s.age with hist := (s.ageEntry was :: s.age.hist).take 256, lanes := [], drift := [], hrWins := 0, hrUps := 0 }
  let a := { a with tempSum := 0, tempN := 0, base := base, wait := false }
  let t : State := { s with age := a }
  (t.journal 0x0C 0 1).count AGE_N_PLANS 1

/-- A plan's five steps in order; `ack` answers the AVSBus write. -/
def State.plan (s : State) (ack : Bool) : State := ((((s.planAvs ack).planPins).planLanes).planReserve.planHistory s).freed

/-- A plan that falls due: under the supply warning it waits (R465). -/
def State.planDue (s : State) (ack : Bool) : State :=
  if s.flag SUP_STAT_VSAG_WARN then { s with age := { s.age with wait := true } } else s.plan ack

/-- MARGIN_PLAN (R465): at each multiple of 1,000 operating hours. -/
def evMarginPlan (ack : Bool) (s : State) : State := s.planDue ack

/-- PLAN_NOW (R465): an owner's write. -/
def evPlanNow (ack : Bool) (s : State) : State := (s.planDue ack).emit (.bus false 0)

/-- AVS_RETRY (R465): an unacknowledged write is repeated. -/
def evAvsRetry (ack : Bool) (s : State) : State := match s.age.avs with | some mv => s.avsWrite mv ack | none => s

end Sys2Proof.Machine
end

