-- ==== Sys2Proof/Machine/Pin.lean ====
section
/-! DEFINITION. Machine/Pin.lean: the pin engine (The Pin Engine, R196 to R222): the stream formatter, the generator, capture, one
vector, and the pin-class instructions. -/

namespace Sys2Proof.Machine

/-! ### Stream formatter (R212 to R215) -/

/-- The lamp value that a bank's formatter reads: 0 beyond the loaded tile and in SENDER role; else from the half that the select
bits latched at the last map name (R182, R213). -/
def State.lampValue (s : State) (n i : Nat) : Nat :=
  let w := s.getF LAMP_GEOM_W
  let h := s.getF LAMP_GEOM_H
  let l := s.getF LAMP_GEOM_LPP
  if s.sender || decide (w * h * l ≤ i) then 0
  else
    let half := if (s.bank n).sel.getLsbD (i / l / w / 16) then 1 else 0
    (SMap.get (fun _ => 0) s.lamp.lamps (half * 262144 + i)).toNat

/-- A chain-map word, none at or beyond word 4,096. -/
def State.cmapWord (s : State) (n i : Nat) : Option Nat :=
  if i < 4096 then some (SMap.get cmapFill (s.seq n).cmap i).toNat else none

/-- The bits that a segment emits: COUNT × (DEPTH + 1) in WORD and FILL, COUNT in PLANE (R213). -/
def segBits (w : Nat) : Nat :=
  if bitsOf w 59 58 = 1 then bitsOf w 35 18 else bitsOf w 35 18 * (bitsOf w 57 54 + 1)

/-- The segment word is usable: its MODE is not 3 and its COUNT is not 0 (R215). -/
def segOk (w : Nat) : Bool := bitsOf w 59 58 != 3 && bitsOf w 35 18 != 0

/-- Bit k of a segment whose first lamp is `start` (R213). -/
def State.segBit (s : State) (n w start k : Nat) : Bool :=
  let d := bitsOf w 57 54
  let mode := bitsOf w 59 58
  let order := bitsOf w 60 60
  let j := if mode = 1 then k else k / (d + 1)
  let r := k % (d + 1)
  let lamp := unsigned 18 ((start : Int) + (j : Int) * signed 18 (bitsOf w 53 36))
  if mode = 2 then order == 1
  else
    let v := s.lampValue n lamp
    if mode = 1 then v.testBit d
    else if order = 0 then v.testBit (15 - r) else v.testBit (15 - d + r)

/-- Takes a pin's next stream bit: the state, the bit where the pin has a valid stream, and whether a segment with TRG starts
(R214, R215, R220). A segment is entered when its first bit is taken, with the LINE of that moment. -/
def State.takeBit (s : State) (n p : Nat) : State × Option Bool × Bool :=
  let b := s.bank n
  let st := SMap.get (fun _ => Stream.none) b.streams p
  let empty (t : State) : State × Option Bool × Bool :=
    ((t.count (PSQ_N_EMPTYBITS n) 1).setFlag (PSQ_STAT_STREAM_EMPTY n) true, none, false)
  let put (t : State) (x : Stream) : State :=
    t.setBank n { t.bank n with streams := SMap.set (fun _ => Stream.none) (t.bank n).streams p x }
  if !st.ok then empty s
  else match s.cmapWord n st.seg with
    | none => empty (put (s.setFlag (PSQ_STAT_CMAP_ERR n) true) Stream.none)
    | some w =>
      if st.bit = 0 && !segOk w then empty (put (s.setFlag (PSQ_STAT_CMAP_ERR n) true) Stream.none)
      else
        let header := (s.cmapWord n (s.getF (PSQ_POS_MAP n))).getD 0
        let rel := if bitsOf w 61 61 = 1 then (s.getF (PSQ_POS_LINE n) : Int) * signed 18 (bitsOf header 49 32) else 0
        let start := if st.bit = 0 then unsigned 18 ((bitsOf w 17 0 : Int) + rel) else st.start
        let bit := s.segBit n w start st.bit
        let nxt : Stream :=
          if st.bit + 1 < segBits w then { st with bit := st.bit + 1, start := start }
          else { st with bit := 0, start := start, seg := if bitsOf w 63 63 = 1 then st.first else st.seg + 1 }
        (put s nxt, some bit, st.bit == 0 && bitsOf w 62 62 == 1)

/-- map takes effect: every pin of PINMASK at the first segment of the map, the select bits latched (R182, R212, R214). A pin whose
pointer word lies at or beyond word 4,096 has no stream, and CMAP_ERR is set (R215). -/
def State.mapSelect (s : State) (n entry : Nat) : State :=
  let hd := (s.cmapWord n entry).getD 0
  let mask := bitsOf hd 31 0
  let r := (List.range 32).foldl (fun (a : SMap Stream × Nat × Bool) p =>
      if mask.testBit p then
        match s.cmapWord n (entry + 1 + a.2.1) with
        | some w =>
          let f := bitsOf w 11 0
          (SMap.set (fun _ => Stream.none) a.1 p { first := f, seg := f, bit := 0, start := 0, ok := true }, a.2.1 + 1, a.2.2)
        | none => (a.1, a.2.1 + 1, true)
      else a) (([] : SMap Stream), 0, false)
  let sel : BitVec 256 := BitVec.ofNat 256 ((List.range 8).foldl (fun v j => v + (s.reg (LAMP_ACTIVE j)).toNat * 2 ^ (32 * j)) 0)
  let t := s.setBank n { s.bank n with streams := r.1, sel := sel }
  let t := (t.setF (PSQ_POS_MAP n) entry).setFlag (PSQ_POS_MAPSEL n) true
  if r.2.2 then t.setFlag (PSQ_STAT_CMAP_ERR n) true else t

/-! ### Generator (R217, R218) -/

/-- n bits of PRBS-31, x^31 + x^28 + 1: the bits, the first in bit 0, and the register after them. -/
def prbsBits : Nat → BitVec 31 → Nat → Nat → Nat × BitVec 31
  | 0, r, acc, _ => (acc, r)
  | n + 1, r, acc, k =>
    let b := r.getLsbD 30 != r.getLsbD 27
    prbsBits n ((r <<< 1) ||| (if b then 1 else 0)) (acc + if b then 2 ^ k else 0) (k + 1)

/-- The generator's DATA of the current step, and the PRBS register after it (R218). -/
def State.genData (s : State) (n : Nat) : BitVec 32 × BitVec 31 :=
  let addr := s.getF (GEN_STAT_ADDR n)
  let e := s.getF (GEN_STAT_ELEM n)
  let inv := (s.getF (GEN_ELEM_INV n e)).testBit (s.getF (GEN_STAT_OP n))
  let dp := s.reg (GEN_DPAT n)
  let pr := prbsBits 32 (s.bank n).prbs 0 0
  let mode := s.getF (GEN_CFG_DMODE n)
  let d : BitVec 32 := if mode = 0 then dp else if mode = 1 then (if addr % 2 = 1 then ~~~ dp else dp)
    else if mode = 2 then BitVec.ofNat 32 addr else BitVec.ofNat 32 pr.1
  (if inv then ~~~ d else d, if mode = 3 then pr.2 else (s.bank n).prbs)

/-- One step of the march (R217): the operations of one address, then the next address, then the next element; after the last step
GEN_DONE is set and the march begins again with the seed reloaded. -/
def State.genStep (s : State) (n : Nat) : State :=
  let t := s.setBank n { s.bank n with prbs := (s.genData n).2 }
  let addr := s.getF (GEN_STAT_ADDR n)
  let e := s.getF (GEN_STAT_ELEM n)
  let op := s.getF (GEN_STAT_OP n)
  let a0 := s.getF (GEN_ASTART_A n)
  let a1 := if s.getF (GEN_AEND_A n) < a0 then a0 else s.getF (GEN_AEND_A n)
  let down := s.flag (GEN_ELEM_DIR n e)
  let put (u : State) (a e op : Nat) : State :=
    ((u.setF (GEN_STAT_ADDR n) a).setF (GEN_STAT_ELEM n) e).setF (GEN_STAT_OP n) op
  if op < s.getF (GEN_ELEM_NOPS n e) then put t addr e (op + 1)
  else if (if down then addr ≤ a0 else a1 ≤ addr) then
    if e < s.getF (GEN_CFG_NELEM n) then put t (if s.flag (GEN_ELEM_DIR n (e + 1)) then a1 else a0) (e + 1) 0
    else (t.setFlag (PSQ_STAT_GEN_DONE n) true).genRestart n
  else put t (if down then addr - 1 else addr + 1) e 0

/-! ### Capture (R209 to R211) -/

/-- Capture ends: EV5, CAPT_FULL, and in mode 1 storage stops. -/
def State.capFull (s : State) (n : Nat) : State := (s.raiseEv n 5).setFlag (PSQ_STAT_CAPT_FULL n) true

/-- Stores one word at PTR, in the buffer or, with deep capture, in the DDR5 ring (R210, R211). -/
def State.capWord (s : State) (n : Nat) (w : Word) (fabric : Bool) : State :=
  let p := s.getF (PSQ_CAPT_PTR n)
  let mode := s.getF (PSQ_CAPT_MODE n)
  if !(s.bank n).capOn then s
  else if s.flag (PSQ_DEEP_CFG_EN n) && s.tile then
    if !fabric then s.count (PSQ_N_CAPLOST n) 1
    else
      let size := s.getF (PSQ_DEEP_CFG_SIZE n) * 16384
      let d := (s.bank n).deep
      let t := s.ddrWrite ((s.reg (PSQ_DEEP_BASE n)).toNat * 64 + d * 4) (leBytes 4 w.toNat)
      let t := t.setF (PSQ_CAPT_PTR n) (p + 1)
      if d + 1 < size then t.setBank n { t.bank n with deep := d + 1 }
      else
        let t := (t.setBank n { t.bank n with deep := 0, capOn := mode == 2 }).capFull n
        if mode = 2 then t.setFlag (PSQ_CAPT_WRAPPED n) true else t
  else
    let t := s.setBank n { s.bank n with capBuf := SMap.set (fun _ => 0) (s.bank n).capBuf p w }
    let t := t.setF (PSQ_CAPT_PTR n) (p + 1)
    if p < 16383 then t
    else
      let t := (t.setBank n { t.bank n with capOn := mode == 2 }).capFull n
      if mode = 2 then t.setFlag (PSQ_CAPT_WRAPPED n) true else t

/-- Stores a two-word entry; in mode 1 one that does not fit is not stored, and capture acts as when full (R210). -/
def State.capPair (s : State) (n : Nat) (a b : Word) (fabric : Bool) : State :=
  if (s.bank n).capOn && !(s.flag (PSQ_DEEP_CFG_EN n) && s.tile) && s.getF (PSQ_CAPT_MODE n) == 1 && s.getF (PSQ_CAPT_PTR n) == 16383 then
    (s.setBank n { s.bank n with capOn := false }).capFull n
  else (s.capWord n a fabric).capWord n b fabric

/-! ### Settings (R60) -/

/-- One pending setting takes effect. -/
def State.applySetting (s : State) (n : Nat) : PinSetting → State
  | .tset set edge v =>
    if edge = 0 then s.setReg (PSQ_TDRIVE n set) (BitVec.ofNat 32 v)
    else if edge = 1 then s.setReg (PSQ_TRETURN n set) (BitVec.ofNat 32 v)
    else s.setReg (PSQ_TSTROBE n set) (BitVec.ofNat 32 v)
  | .period u => s.setReg (PSQ_PERIOD n) (BitVec.ofNat 32 u)
  | .map e => s.mapSelect n e
  | .capt mode start =>
    let t := (s.setF (PSQ_CAPT_MODE n) mode).setFlag (PSQ_STAT_CAPT_ARMED n) (mode != 0)
    let t := t.setBank n { t.bank n with capOn := mode != 0, capSrc := s.getF (PSQ_CAPT_CAPSRC n), deep := 0 }
    if mode = 0 then t else t.setF (PSQ_CAPT_PTR n) start
  | .trig mode outs =>
    s.setBank n { s.bank n with trigMode := (List.range 4).foldl (fun m k =>
      if outs.testBit k then SMap.set (fun _ => 0) m k mode else m) (s.bank n).trigMode }
  | .line l => s.setF (PSQ_POS_LINE n) l

/-- Every pending setting takes effect, oldest first, so the last one made of a setting applies. -/
def State.applyPend (s : State) (n : Nat) : State :=
  let p := (s.bank n).pend
  p.foldl (fun t x => t.applySetting n x) (s.setBank n { s.bank n with pend := [] })

/-! ### One vector (R199, R202 to R204, R220) -/

/-- What a vector has done so far, pin by pin. -/
structure VecAcc where
  s : State
  level : BitVec 32      -- level after the return edge
  drive : BitVec 32      -- level from the drive edge
  on : BitVec 32
  fails : BitVec 32
  capWord : BitVec 32
  hasCap : Bool
  compared : BitVec 32
  trg : Bool             -- a segment with TRG started

/-- One pin's drive: the level from the drive edge, the level after it, driver on. -/
def VecAcc.drivePin (a : VecAcc) (p : Nat) (d r on : Bool) : VecAcc :=
  let m : BitVec 32 := BitVec.ofNat 32 (2 ^ p)
  let put (w : BitVec 32) (b : Bool) := if b then w ||| m else w &&& ~~~ m
  { a with drive := put a.drive d, level := put a.level r, on := put a.on on }

/-- The driver of a pin goes off; its last level stays. -/
def VecAcc.off (a : VecAcc) (p : Nat) : VecAcc := { a with on := a.on &&& ~~~ BitVec.ofNat 32 (2 ^ p) }

/-- A compare on a pin. -/
def VecAcc.cmp (a : VecAcc) (p : Nat) (pass : Bool) : VecAcc :=
  let m : BitVec 32 := BitVec.ofNat 32 (2 ^ p)
  { a with compared := a.compared ||| m, fails := if pass then a.fails else a.fails ||| m }

/-- The kinds of vector instruction: whether SD and SDN are fed, and whether the generator is (Table 2-7). -/
structure VecKind where
  stream : Bool
  gen : Bool
  deriving DecidableEq, Repr

/-- One pin in one vector: symbol `sym` under timing set ts, the generator's data, and the inputs (Table 7-1, R199, R203). -/
def VecAcc.pin (a : VecAcc) (n ts p sym : Nat) (kd : VecKind) (data : BitVec 32) (smp : PinSample) : VecAcc :=
  let s := a.s
  let g := 32 * n + p
  let per := s.getF (PSQ_PERIOD_UNITS n)
  let dOk := decide (s.getF (PSQ_TDRIVE_V n ts) < per)
  let sOk := decide (s.getF (PSQ_TSTROBE_V n ts) < per)
  let pulse (t : Nat) := decide (s.getF (PSQ_TDRIVE_V n t) < s.getF (PSQ_TRETURN_V n t))
  let last := a.level.getLsbD p
  -- the stream bit is consumed whatever the pin then does
  let tk := if kd.stream && (sym == 8 || sym == 9) then some (s.takeBit n p) else none
  let a := match tk with | some r => { a with s := r.1, trg := a.trg || r.2.2 } | none => a
  let gsel := s.getF (PIN_PCFG0_GSEL g)
  let hi := smp.hi.getLsbD p
  let lo := smp.lo.getLsbD p && !hi
  if s.getF (PIN_PCFG0_TRGSEL g) != 0 then a
  else if sym = 15 then
    let t := s.getF (PIN_BCFG_PRESET n)
    if s.getF (PSQ_TDRIVE_V n t) < per then
      let r := s.flag (PIN_PCFG0_PRELVL g)
      a.drivePin p (if pulse t then !r else r) r true
    else a
  else if !dOk then a
  else match sym with
    | 0 => a.drivePin p false false true
    | 1 => a.drivePin p true true true
    | 2 => a.drivePin p last last true
    | 3 => a.off p
    | 4 =>
      let a := a.off p
      if sOk then a.cmp p (if kd.gen && s.flag (PIN_PCFG0_GCMP g) then (if data.getLsbD gsel then lo else hi) else lo) else a
    | 5 =>
      let a := a.off p
      if sOk then a.cmp p (if kd.gen && s.flag (PIN_PCFG0_GCMP g) then (if data.getLsbD gsel then hi else lo) else hi) else a
    | 6 =>
      let a := a.off p
      if sOk then a.cmp p (!hi && !lo) else a
    | 7 => a
    | 8 =>
      match tk with
      | some r => let b := r.2.1.getD false; a.drivePin p b b true
      | none => a.drivePin p last last true
    | 9 =>
      match tk with
      | some r => let b := !(r.2.1.getD false); a.drivePin p b b true
      | none => a.drivePin p last last true
    | 10 => a.drivePin p (pulse ts) false true
    | 11 => a.drivePin p (!pulse ts) true true
    | 12 => if kd.gen then let b := data.getLsbD gsel; a.drivePin p b b true else a.drivePin p last last true
    | 13 =>
      if kd.gen then let b := decide (gsel ≤ 23) && (s.getF (GEN_STAT_ADDR n)).testBit gsel; a.drivePin p b b true
      else a.drivePin p last last true
    | 14 =>
      let a := a.off p
      if sOk then { a with hasCap := true, capWord := if hi then a.capWord ||| BitVec.ofNat 32 (2 ^ p) else a.capWord } else a
    | _ => a

/-- Failing compares count, and the first failing vector is recorded (R204). -/
def State.recordFails (s : State) (n : Nat) (fails : BitVec 32) : State :=
  if fails = 0 then s
  else
    let t := (List.range 32).foldl (fun u p => if fails.getLsbD p then u.count16 (PSQ_N_PFAIL n p) 1 else u) s
    let t := t.count (PSQ_N_FAILVEC n) 1
    if t.flag (PSQ_FFAIL_HI_VALID n) then t
    else ((t.setReg (PSQ_FFAIL_LO n) (t.reg (PSQ_VCNT_LO n))).setReg (PSQ_FFAIL_HI n)
      (BitVec.ofNat 32 (t.getF (PSQ_VCNT_HI_V n) + 0x10000))).setReg (PSQ_FFAIL_MASK n) fails

/-- The vector count rises by 1, 48 bits (R204). -/
def State.countVector (s : State) (n : Nat) : State :=
  let v := (s.reg (PSQ_VCNT_LO n)).toNat + s.getF (PSQ_VCNT_HI_V n) * 2 ^ 32 + 1
  (s.setReg (PSQ_VCNT_LO n) (BitVec.ofNat 32 v)).setReg (PSQ_VCNT_HI n) (BitVec.ofNat 32 (v / 2 ^ 32 % 2 ^ 16))

/-- Headroom compares of a vector, in TILE role: those on pins of LAMP_HRMASK (R233). -/
def State.headroom (s : State) (n : Nat) (compared fails : BitVec 32) : State :=
  let m := s.reg (LAMP_HRMASK n)
  if s.tile && compared &&& m != 0 then
    let f := (List.range 32).foldl (fun c p => if (fails &&& m).getLsbD p then c + 1 else c) 0
    { s with brd := { s.brd with hrMade := true, hrFails := min (s.brd.hrFails + f) 0xFFFFFFFF } }
  else s

/-- One vector: every pin in turn, compares, capture, triggers and the generator's step. Answers whether a compare failed. -/
def State.vector (s : State) (n ts lit : Nat) (kd : VecKind) (smp : PinSample) : State × Bool :=
  let l := SMap.get litFill (s.seq n).lits lit
  let b := s.bank n
  let data := (s.genData n).1
  let a0 : VecAcc := { s := s, level := b.level, drive := b.level, on := b.drv, fails := 0, capWord := 0, hasCap := false,
                       compared := 0, trg := false }
  let a := (List.range 32).foldl (fun a p => a.pin n ts p (bitsOf l.toNat (4 * p + 3) (4 * p)) kd data smp) a0
  let t := a.s
  let b := t.bank n
  -- trigger outputs
  let mode (k : Nat) := SMap.get (fun _ => 0) b.trigMode k
  let trig : BitVec 4 := BitVec.ofNat 4 ((List.range 4).foldl (fun m k =>
    if mode k = 1 || (mode k = 2 && a.trg) then m + 2 ^ k else m) 0)
  let tm := (List.range 4).foldl (fun m k => if mode k = 1 then SMap.set (fun _ => 0) m k 0 else m) b.trigMode
  -- pins that drive trigger outputs
  let a := (List.range 32).foldl (fun (x : VecAcc) p =>
    let sel := t.getF (PIN_PCFG0_TRGSEL (32 * n + p))
    if sel = 0 then x else x.drivePin p (trig.getLsbD (sel - 1)) false true) a
  let t := t.setBank n { b with level := a.level, drv := a.on, trigMode := tm, hi := smp.hi, lo := smp.lo }
  let t := if s.getF (PSQ_TSTROBE_V n ts) < s.getF (PSQ_PERIOD_UNITS n) then t else t.count (PSQ_N_SKIPSTB n) 1
  let t := (t.recordFails n a.fails).headroom n a.compared a.fails
  let t := if b.capSrc = 0 then (if a.hasCap then t.capWord n a.capWord smp.fabric else t)
    else if a.fails = 0 then t else t.capPair n (t.reg (PSQ_VCNT_LO n)) a.fails smp.fabric
  let t := if kd.gen then t.genStep n else t
  ((t.countVector n).emit (.vector n a.drive a.on a.level trig), a.fails != 0)

/-- REP vectors; a vector beyond the samples given sees the inputs as they stand. -/
def State.vectors (n ts lit : Nat) (kd : VecKind) : Nat → List PinSample → State × Bool → State × Bool
  | 0, _, r => r
  | k + 1, [], (s, f) =>
    let r := s.vector n ts lit kd { hi := (s.bank n).hi, lo := (s.bank n).lo, fabric := true }
    State.vectors n ts lit kd k [] (r.1, f || r.2)
  | k + 1, x :: xs, (s, f) =>
    let r := s.vector n ts lit kd x
    State.vectors n ts lit kd k xs (r.1, f || r.2)

/-- More than four non-vector instructions since the last vector delay the next one: a vector stall (R64, R65, R67). -/
def State.stall (s : State) (n : Nat) : State :=
  let b := s.bank n
  if b.fresh || decide (b.nonvec ≤ 4) then s
  else (((s.count (PSQ_N_STALLEV n) 1).count (PSQ_N_STALLPER n) (b.nonvec - 4)).raiseEv n 7).traceSeq n 6
    (BitVec.ofNat 32 (s.seq n).pc.toNat)

/-- vec, vstr and vgen (R58, R59): a stall where due, the pending settings, then the vectors; EV8 at the end if any compare failed. A
register count of 0 produces no vector, and the instruction counts as a non-vector one. -/
def State.vecInstr (s : State) (k : Nat) (w : BitVec 64) (kd : VecKind) (smps : List PinSample) : State :=
  let q := s.seq k
  let cnt := op24 q w
  if cnt = 0 then s.goNext k q
  else
    let t := (s.stall k).applyPend k
    let t := (t.setFlag (PSQ_STAT_SAFE k) false).setFlag (PIN_BSTAT_SAFE k) false
    let t := t.setBank k { t.bank k with fresh := false, nonvec := 0 }
    let r := State.vectors k (wTS w) (wLit w) kd cnt smps (t, false)
    let t := if r.2 then r.1.raiseEv k 8 else r.1
    t.setSeq k { t.seq k with pc := q.pc + 1 }

/-- vec. -/
def doVec (smps : List PinSample) (s : State) (k : Nat) (w : BitVec 64) : State := s.vecInstr k w ⟨false, false⟩ smps
/-- vstr. -/
def doVstr (smps : List PinSample) (s : State) (k : Nat) (w : BitVec 64) : State := s.vecInstr k w ⟨true, false⟩ smps
/-- vgen. -/
def doVgen (smps : List PinSample) (s : State) (k : Nat) (w : BitVec 64) : State := s.vecInstr k w ⟨true, true⟩ smps

/-! ### Non-vector pin instructions (Table 2-8) -/

/-- Queues a setting for the next vector (R60) and goes on. -/
def State.queueSetting (s : State) (k : Nat) (x : PinSetting) : State :=
  let t := s.setBank k { s.bank k with pend := (s.bank k).pend ++ [x] }
  t.goNext k (t.seq k)

/-- tset. -/
def doTset (s : State) (k : Nat) (w : BitVec 64) : State := s.queueSetting k (.tset (wTS w) (wEdge w) (op24 (s.seq k) w))
/-- period. -/
def doPeriod (s : State) (k : Nat) (w : BitVec 64) : State := s.queueSetting k (.period (op24 (s.seq k) w))
/-- map: ENTRY or GA[11:0]. -/
def doMap (s : State) (k : Nat) (w : BitVec 64) : State := s.queueSetting k (.map (op24 (s.seq k) w % 4096))
/-- capt. -/
def doCapt (s : State) (k : Nat) (w : BitVec 64) : State := s.queueSetting k (.capt (wMode w) (fld w 13 0))
/-- trig. -/
def doTrig (s : State) (k : Nat) (w : BitVec 64) : State := s.queueSetting k (.trig (wMode w) (fld w 3 0))
/-- line: LINE or GA[7:0]. -/
def doLine (s : State) (k : Nat) (w : BitVec 64) : State := s.queueSetting k (.line (op24 (s.seq k) w % 256))

end Sys2Proof.Machine
end

