-- ==== Sys2Proof/Machine/TestSites.lean ====
section
/-! DEFINITION. Machine/TestSites.lean: test runs at the sites and at the sender (chapter 9, R243 to R259). -/

namespace Sys2Proof.Machine

/-! ### The TEST payload (Table 9-2) -/

def testRunid (d : List Byte) : Nat := leAt d 0 4
def testBanks (d : List Byte) : Nat := leAt d 7 1
def testSites (d : List Byte) : Nat := leAt d 8 8
def testCapWords (d : List Byte) : Nat := leAt d 16 2
def testSlots (d : List Byte) : Nat := leAt d 18 1
def testApply (d : List Byte) : Bool := (leAt d 19 1).testBit 0
def testLchk (d : List Byte) : Bool := (leAt d 20 1).testBit 0
def testPol (d : List Byte) : Bool := (leAt d 20 1).testBit 1
def testFind (d : List Byte) : Nat := bitsOf (leAt d 20 1) 3 2
def testRbBank (d : List Byte) : Nat := bitsOf (leAt d 20 1) 6 4
def testRbPin (d : List Byte) : Nat := leAt d 21 1 % 32
def testRbMap (d : List Byte) : Nat := leAt d 22 2
def testRbLines (d : List Byte) : Nat := leAt d 24 2

/-- The payload with an operation and a position mask. -/
def testBytes (d : List Byte) (op sites : Nat) : List Byte := sub d 0 6 ++ [BitVec.ofNat 8 op] ++ sub d 7 1 ++ leBytes 8 sites ++ sub d 16 64

/-- A run's fields keep the ranges of Table 9-2. -/
def testOk (full : Bool) (d : List Byte) : Bool :=
  d.length == 80 && decide (testCapWords d ≤ 16384) && (if full then testSlots d == 0 && leAt d 26 2 != 0 else testSlots d != 0) &&
    (!testLchk d || ((testFind d == 1 || testFind d == 2) && decide (leAt d 21 1 < 32) && testRbLines d != 0 && decide (testRbLines d ≤ 4096)))

/-! ### Windows (R247, R248) -/

/-- The banks of a run on this part; the camera port keeps B0 (R257). -/
def State.runBanks (s : State) (d : List Byte) : List Nat :=
  (List.range 8).filter fun n => (testBanks d).testBit n && !(s.sender && n == 0 && s.flag CAM_CFG_EN)

/-- A bank's counters. -/
def State.bankSnap (s : State) (n : Nat) : BankSnap :=
  { bank := n, vcnt := (s.reg (PSQ_VCNT_LO n)).toNat + s.getF (PSQ_VCNT_HI_V n) * 2 ^ 32, failvec := (s.reg (PSQ_N_FAILVEC n)).toNat,
    stall := (s.reg (PSQ_N_STALLPER n)).toNat, pfail := (List.range 32).map fun p => (s.reg (PSQ_N_PFAIL n p)).toNat,
    ffail := s.flag (PSQ_FFAIL_HI_VALID n), ptr := s.getF (PSQ_CAPT_PTR n), full := s.flag (PSQ_STAT_CAPT_FULL n), deep := (s.bank n).deep }

/-- A window opens for a run, or for none. -/
def State.winOpen (s : State) (fcnt : Nat) (run : Option ArmedRun) : State :=
  let snaps := match run with | some a => (s.runBanks a.payload).map s.bankSnap | none => []
  State.testRegs { s with test := { s.test with win := some { fcnt := fcnt, snaps := snaps, run := run, faults := [], openLife := s.life } } }

/-! ### Captured words (R209 to R211, R252) -/

/-- The captured words of a window: how many, and word j after the recorded pointer. -/
def State.capCount (s : State) (b : BankSnap) : Nat :=
  if s.flag (PSQ_DEEP_CFG_EN b.bank) && s.tile then
    let size := s.getF (PSQ_DEEP_CFG_SIZE b.bank) * 16384
    let n := ((s.bank b.bank).deep + size - b.deep) % max 1 size
    if n = 0 ∧ s.flag (PSQ_STAT_CAPT_FULL b.bank) ∧ !b.full then size else n
  else
    let n := (s.getF (PSQ_CAPT_PTR b.bank) + 16384 - b.ptr) % 16384
    if n = 0 ∧ s.flag (PSQ_STAT_CAPT_FULL b.bank) ∧ !b.full then 16384 else n
def State.capRead (s : State) (b : BankSnap) (j : Nat) : Word :=
  if s.flag (PSQ_DEEP_CFG_EN b.bank) && s.tile then
    let size := s.getF (PSQ_DEEP_CFG_SIZE b.bank) * 16384
    let a := (s.reg (PSQ_DEEP_BASE b.bank)).toNat * 64 + (b.deep + j) % max 1 size * 4
    BitVec.ofNat 32 (leNat ((List.range 4).map fun k => s.ddrByte (a + k)))
  else SMap.get (fun _ => 0) (s.bank b.bank).capBuf ((b.ptr + j) % 16384)

/-! ### The lamp check (R252) -/

/-- The segment words of a pin's list from chain-map word i on, up to LAST; the flag says that the list ends well. -/
def State.segList (s : State) (n : Nat) : Nat → Nat → List Nat × Bool
  | 0, _ => ([], false)
  | k + 1, i =>
    match s.cmapWord n i with
    | none => ([], false)
    | some w => if bitsOf w 63 63 = 1 then ([w], true) else
      let r := s.segList n k (i + 1)
      (w :: r.1, r.2)

/-- A pin's list under a chain map; empty where the pin has none. -/
def State.pinList (s : State) (n entry p : Nat) : List Nat :=
  let hd := (s.cmapWord n entry).getD 0
  if (bitsOf hd 31 0).testBit p then
    let before := ((List.range p).filter fun x => (bitsOf hd 31 0).testBit x).length
    match s.cmapWord n (entry + 1 + before) with
    | some w => (s.segList n 4096 (bitsOf w 11 0)).1
    | none => []
  else []

/-- The lamps that a segment's captured bits judge. -/
def segLamps (w : Nat) : Nat := if bitsOf w 59 58 ≤ 1 then bitsOf w 35 18 else 0

/-- A walk: bits taken, lamps judged with their bit (newest first), lamps without a bit, and whether the walk has stopped. -/
structure Walk where
  bit : Nat
  seen : List (Nat × Bool)
  untested : Nat
  stop : Bool
  deriving DecidableEq, Repr

/-- One segment of the walk on a line. -/
def walkSeg (bitAt : Nat → Bool) (total line lstride : Nat) (a : Walk) (w : Nat) : Walk :=
  if a.stop || !segOk w then { a with stop := true, untested := a.untested + segLamps w }
  else if bitsOf w 59 58 = 2 then { a with bit := a.bit + bitsOf w 35 18 }
  else
    let n := bitsOf w 35 18
    let rel : Int := if bitsOf w 61 61 = 1 then (line : Int) * signed 18 lstride else 0
    let have_ := min n (total - a.bit)
    let seen := (List.range have_).foldl (fun (l : List (Nat × Bool)) (j : Nat) =>
      (unsigned 18 ((bitsOf w 17 0 : Int) + rel + (j : Int) * signed 18 (bitsOf w 53 36)), bitAt (a.bit + j)) :: l) a.seen
    { bit := a.bit + n, seen := seen, untested := a.untested + (n - have_), stop := false }

/-- The readback walk of a run over a window's captured words: the lamps judged, in order, and UNTESTED. -/
def State.lampWalk (s : State) (d : List Byte) (b : BankSnap) : List (Nat × Bool) × Nat :=
  let n := testRbBank d
  let lstride := bitsOf ((s.cmapWord n (testRbMap d)).getD 0) 49 32
  let segs := s.pinList n (testRbMap d) (testRbPin d)
  let bitAt := fun j => (s.capRead b j).getLsbD (testRbPin d)
  let r := (List.range (testRbLines d)).foldl (fun a line => segs.foldl (walkSeg bitAt (s.capCount b) line lstride) a)
    { bit := 0, seen := [], untested := 0, stop := false }
  (r.seen.reverse, r.untested)

/-- The findings of a walk: lamp and proposed state, 1 DARK for OPEN, 2 MASKED for SHORT. -/
def findings (d : List Byte) (seen : List (Nat × Bool)) : List (Nat × Nat) :=
  (seen.filter fun x => x.2 == testPol d).map fun x => (x.1, testFind d)

/-! ### Clinker candidates (R253) -/

/-- A lamp's clinker state with the edits made so far. -/
def State.lampState (s : State) (i : Nat) : Nat :=
  match SMap.get (fun _ => none) s.lamp.overlay i, s.lamp.cal with
  | some v, _ => v
  | none, some c => calClinker c i
  | none, none => 0

/-- The candidate that makes room in a full table: the lowest count, the oldest among equals. -/
def victim (cs : List Cand) : Option Cand := cs.foldl (fun b c => match b with | none => some c | some x => if c.n < x.n then some c else b) none

/-- A finding enters the table or raises its entry's count; at CONFIRM the tile makes the edit. -/
def State.candidate (s : State) (lamp st : Nat) : State :=
  let cs := s.test.cand
  let cs := match cs.find? fun c => c.lamp == lamp && c.st == st with
    | some _ => cs.map fun c => if c.lamp = lamp then { c with n := c.n + 1 } else c
    | none =>
      let cs := cs.filter fun c => c.lamp != lamp
      let cs := if cs.length < 256 then cs else match victim cs with | some v => cs.filter (· != v) | none => cs
      cs ++ [{ lamp := lamp, st := st, n := 1 }]
  let t : State := { s with test := { s.test with cand := cs } }
  match cs.find? fun c => c.lamp == lamp with
  | some c =>
    let may := t.lampState lamp == 0 || (t.lampState lamp == 1 && st == 2)
    if c.n < t.getF TS_CFG_CONFIRM ∨ !may then t
    else match t.clinkerEdit lamp st with
      | some u => State.clkWrite (State.count { u with test := { u.test with cand := u.test.cand.filter (· != c) } } TS_N_EDITS 1)
      | none => t.setFlag LAMP_STAT_CLK_FULL true
  | none => t

/-- A walk's outcome enters the table. -/
def State.candidates (s : State) (seen : List (Nat × Bool)) (fs : List (Nat × Nat)) : State :=
  let clean := (seen.map fun x => x.1).filter fun l => !fs.any fun f => f.1 == l
  let t : State := { s with test := { s.test with cand := s.test.cand.filter fun c => !clean.contains c.lamp } }
  fs.foldl (fun (u : State) f => u.candidate f.1 f.2) t

/-! ### Results (R250, R251) -/

/-- A count's difference over a window; across a saturated count it is all ones (R248). -/
def countDiff (w a b : Nat) : Nat := if b = 2 ^ w - 1 then 2 ^ w - 1 else (b + 2 ^ w - a) % 2 ^ w

/-- The mailbox STATE of a bank. -/
def State.mailState (s : State) (n : Nat) : Nat := bitsOf (s.dmem n 0xF04).toNat 23 16

/-- Vectors produced in a window. -/
def vecDiff (a b : BankSnap) : Nat := (b.vcnt + 2 ^ 48 - a.vcnt) % 2 ^ 48

/-- The result of a bank: 0 PASS, 1 FAIL, 2 NOT_RUN, 3 FAULT. -/
def bankResult (w : TestWin) (a b : BankSnap) : Nat :=
  if w.faults.any fun f => f.1 == a.bank then 3
  else if countDiff 32 a.failvec b.failvec ≠ 0 then 1
  else if vecDiff a b = 0 then 2 else 0

/-- The worst of results, in the order FAULT, FAIL, NOT_RUN, PASS. -/
def worst (rs : List Nat) : Nat := if rs.contains 3 then 3 else if rs.contains 1 then 1 else if rs.contains 2 then 2 else 0

/-- The SUMMARY section of a bank (Table 9-4). -/
def State.summary (s : State) (w : TestWin) (a b : BankSnap) : List Byte :=
  let n := a.bank
  let fresh := !a.ffail && b.ffail
  let code := match w.faults.find? fun f => f.1 == n with | some f => f.2 | none => 0
  [BitVec.ofNat 8 (bankResult w a b), BitVec.ofNat 8 (s.mailState n), BitVec.ofNat 8 code, 0] ++
    leBytes 4 (min (vecDiff a b) 0xFFFFFFFF) ++ leBytes 4 (countDiff 32 a.failvec b.failvec) ++ leBytes 4 (countDiff 32 a.stall b.stall) ++
    leBytes 6 (if fresh then (s.reg (PSQ_FFAIL_LO n)).toNat + s.getF (PSQ_FFAIL_HI_V n) * 2 ^ 32 else 0) ++ [0, 0] ++
    leBytes 4 (s.reg (PSQ_FFAIL_MASK n)).toNat ++ [0, 0, 0, 0] ++
    ((List.range 32).flatMap fun p => leBytes 2 (countDiff 16 (a.pfail.getD p 0) (b.pfail.getD p 0)))

/-- A section with its header. -/
def section_ (typ bank : Nat) (d : List Byte) : List Byte := [BitVec.ofNat 8 typ, BitVec.ofNat 8 bank] ++ leBytes 2 d.length ++ d

/-- The fragments' section bytes, newest first: a section that does not fit begins the next fragment; 32 bytes are the fixed fields. -/
def packSection (fs : List (List Byte)) (x : List Byte) : List (List Byte) :=
  match fs with
  | [] => [x]
  | f :: r => if 32 + f.length + x.length ≤ 4096 then (f ++ x) :: r else x :: f :: r

/-- CAPTURE sections: the words from index j on, in as many sections as the fragments' room asks for. -/
def packCapture (bank : Nat) : Nat → Nat → List Word → List (List Byte) → List (List Byte)
  | 0, _, _, fs => fs
  | _, _, [], fs => fs
  | k + 1, j, ws, fs =>
    let used := match fs with | [] => 32 | f :: _ => 32 + f.length
    let room := (4096 - used - 8) / 4
    if used + 12 ≤ 4096 then
      let x := ws.take room
      packCapture bank k (j + x.length) (ws.drop room) (packSection fs (section_ 4 bank (leBytes 4 j ++ x.flatMap fun w => leBytes 4 w.toNat)))
    else packCapture bank k j ws ([] :: fs)

/-- The result of a window: its fragments in order, the findings, and the walk's lamps but for those whose findings were dropped. -/
def State.results (s : State) (w : TestWin) (a : ArmedRun) (aborted : Bool) : List TestResPkt × List (Nat × Bool) × List (Nat × Nat) :=
  let d := a.payload
  let pairs := w.snaps.map fun x => (x, s.bankSnap x.bank)
  let rb := if testLchk d && s.tile then w.snaps.find? fun x => x.bank == testRbBank d else none
  let walk := match rb with | some b => s.lampWalk d b | none => ([], 0)
  let found := findings d walk.1
  let fs := found.take 1015
  let caps := pairs.map fun p =>
    (p.1.bank, (List.range (min (testCapWords d) (s.capCount p.1))).map fun j => s.capRead p.1 j)
  let short := pairs.any fun p => decide (s.capCount p.1 < testCapWords d)
  let secs := (pairs.map fun p => section_ 1 p.1.bank (s.summary w p.1 p.2)) ++
    ((pairs.filter fun p => s.mailState p.1.bank == 2).map fun p =>
      section_ 2 p.1.bank ((List.range 16).flatMap fun k => leBytes 4 (s.dmem p.1.bank (0xF40 + 4 * k)).toNat)) ++
    (if fs.isEmpty then [] else [section_ 3 (testRbBank d) (fs.flatMap fun f => leBytes 4 (f.1 + f.2 * 2 ^ 20))])
  let frs := (caps.foldl (fun f c => packCapture c.1 20 0 c.2 f) (secs.foldl packSection [[]])).reverse
  let st := if aborted || pairs.any fun p => s.mailState p.1.bank == 3 then 4 else worst (pairs.map fun p => bankResult w p.1 p.2)
  let base := (if 1015 < found.length then 2 else 0) + (if short then 4 else 0) + (if s.tile && !s.flag CORD_TSTAT_TSYNC_LOCK then 8 else 0)
  let pkts := (List.range frs.length).map fun k =>
    ({ runid := BitVec.ofNat 32 (testRunid d), testid := leAt d 4 2, frag := k, flags := base + (if k + 1 = frs.length then 1 else 0),
       tid := s.tid, fcnt := if a.full then 0 else w.fcnt, status := st, banks := testBanks d,
       pos := if s.tile then s.getF CORD_TSTAT_POS else 0xFE, slotno := a.slotno, untested := walk.2, data := frs.getD k [] } : TestResPkt)
  (pkts, walk.1.filter fun x => x.2 != testPol d || fs.any fun f => f.1 == x.1, fs)

/-! ### Collection at the sender (R254) -/

/-- Fragments 0 to LAST of a slot have all come. -/
def SiteRec.complete (x : SiteRec) (slot : Nat) : Bool :=
  x.frags.any fun f => f.slotno == slot && f.flags.testBit 0 && (List.range f.frag).all fun k => x.frags.any fun g => g.slotno == slot && g.frag == k

/-- The slot is settled at the site: complete or NO_RESP. -/
def SiteRec.settled (x : SiteRec) (slot : Nat) : Bool := x.complete slot || x.noresp.contains slot

/-- EV8 for every announced slot that all sites have completed. -/
def State.testEv8 (s : State) : State :=
  match s.test.run with
  | none => s
  | some r =>
    let done := (List.range r.slot).filter fun k => !r.evd.contains k && r.sites.all fun x => x.settled k
    done.foldl (fun (t : State) _ => t.raiseFsq 8) { s with test := { s.test with run := some { r with evd := r.evd ++ done } } }

/-- The frame a full test's staging is scheduled for: the manual leaves it open, at least LEAD frames ahead (R258, R502). -/
def State.fullFrame (s : State) : Nat := s.fcnt + s.getF FW_STG_CFG_LEAD + 1 + s.free 0 16

/-- A staging of the site tests itself has no upload to answer: no INSTALL_DONE reports its end (Table 21-6). -/
def State.stageQuiet (s : State) : State :=
  { s with stage := s.stage.map fun g => { g with report := false } }

/-- The sites' previous drive program is staged back (R258). -/
def State.stageBack (s : State) (r : TestRun) : State :=
  let sites := (r.sites.filter fun x => x.port != 8).map fun x => (x.port, x.pos)
  let t : State := { s with test := { s.test with run := some { r with phase := 2 } } }
  ((t.stageBegin 0 s.fullFrame r.prev sites).stageQuiet).freed

/-- A run whose slots are all settled ends; a full test goes on to the return of the drive program. -/
def State.testCheck (s : State) : State :=
  match s.test.run with
  | none => s
  | some r =>
    if r.full then (if r.phase = 1 ∧ r.sites.all fun x => x.settled 0 then s.stageBack r else s)
    else
      let n := testSlots r.payload
      if r.slot = n ∧ (List.range n).all fun k => r.sites.all fun x => x.settled k then s.testEnd r.status else s

/-- A fragment is entered in a site's record unless its slot is NO_RESP. -/
def SiteRec.take (x : SiteRec) (f : TestResPkt) : SiteRec :=
  if x.frags.any fun g => g.slotno == f.slotno && g.frag == f.frag then x else { x with frags := f :: x.frags }

/-- A result fragment reaches the sender (R254). -/
def State.testTake (s : State) (p q : Nat) (f : TestResPkt) : State :=
  let hit := fun (x : SiteRec) => x.port == p && x.pos == q
  let upd := fun (xs : List SiteRec) => xs.map fun x => if hit x && !x.noresp.contains f.slotno then x.take f else x
  let late := fun (xs : List SiteRec) => xs.any fun x => hit x && x.noresp.contains f.slotno
  match s.test.run with
  | some r =>
    if r.runid == f.runid then
      if late r.sites then s.count TS_N_LATERES 1
      else
        let was := r.sites.any fun x => hit x && x.complete f.slotno
        let xs := upd r.sites
        let now := xs.any fun x => hit x && x.complete f.slotno
        let xs := if now && !was then xs.map fun x => if hit x then { x with tries := 0 } else x else xs
        let t : State := { s with test := { s.test with run := some { r with sites := xs } } }
        let t := if now && !was then t.count (if f.status = 0 then TS_N_SITEPASS else TS_N_SITEFAIL) 1 else t
        t.testEv8.testCheck.testRegs
    else s
  | none =>
    match s.test.past.find? fun r => r.runid == f.runid with
    | some r =>
      if late r.sites then s.count TS_N_LATERES 1
      else { s with test := { s.test with past := s.test.past.map fun x => if x.runid = r.runid then { x with sites := upd x.sites } else x } }
    | none => s

/-! ### At the site -/

/-- The window closes: results, findings, candidates; the fragments leave (R250 to R253). -/
def State.winClose (s : State) (aborted : Bool) : State :=
  match s.test.win with
  | none => s
  | some w =>
    let t : State := { s with test := { s.test with win := none } }
    match w.run with
    | none => t.testRegs
    | some a =>
      let r := s.results w a aborted
      let t : State := { t with test := { t.test with held := r.1 } }
      let t := if r.1.any fun f => f.flags.testBit 1 then t.setFlag TS_STAT_FIND_OVF true else t
      let t := if testApply a.payload && testLchk a.payload && t.tile && !aborted then t.candidates r.2.1 r.2.2 else t
      let last := match t.test.armed with | some x => x.payload == a.payload && (a.full || aborted || x.left == 0) | none => false
      let t : State := if last then { t with test := { t.test with armed := none } } else t
      let t := t.testRegs
      r.1.foldl (fun (u : State) f =>
        if u.tile then
          let v := u.count TS_N_RESFRAG 1
          if v.linkUp v.upPort then v.sendUp (.testRes f) else v.count TS_N_RESDROP 1
        else u.testTake 8 0xFE f) t

/-- The mailboxes of an ARM (R245). -/
def State.mailbox (s : State) (n : Nat) (d : List Byte) : State :=
  let t := (s.setDmem n 0xF00 (BitVec.ofNat 32 (testRunid d))).setDmem n 0xF04 (BitVec.ofNat 32 (leAt d 4 2 + 0x10000))
  let t := (List.range 12).foldl (fun (u : State) k => u.setDmem n (0xF08 + 4 * k) (BitVec.ofNat 32 (leAt d (32 + 4 * k) 4))) t
  (List.range 16).foldl (fun (u : State) k => u.setDmem n (0xF40 + 4 * k) 0) t

/-- A run is armed on this part's banks; a full test's window opens at once (R245, R258). -/
def State.armRun (s : State) (d : List Byte) : State :=
  let full := testSlots d == 0
  let a : ArmedRun := { payload := d, left := testSlots d, slotno := 0, full := full }
  let t := (s.runBanks d).foldl (fun (u : State) n => u.mailbox n d) s
  let t := (State.testRegs { t with test := { t.test with armed := some a } }).raiseSw 31
  if full then t.winOpen 0 (some a) else t

/-- A TEST packet at a tile: whether it acts on it (R244). -/
def State.testHdr (s : State) (r : CordRx) (d : List Byte) : State × Bool :=
  if s.forMe r then s.tileOwn r (.test d)
  else
    let x := s.tileHdr r false
    (x.1, x.2 && r.hdr.dest == 0xFF && (testSites d).testBit (x.1.getF CORD_TSTAT_POS))

/-- A TEST packet whose OP is none of Table 9-2 is discarded. -/
def State.testPacket (s : State) (r : CordRx) (d : List Byte) (op : Nat) (f : State → State) : State :=
  let x := s.testHdr r d
  let o := leAt d 6 1
  if !x.2 then x.1 else if o = op then f x.1 else if o = 1 ∨ o = 2 ∨ o = 3 then x.1 else x.1.count TS_N_TESTERR 1

/-- TEST_OP_ARM (R245). -/
def evTestOpArm (r : CordRx) (d : List Byte) (s : State) : State := s.testPacket r d 1 fun t => t.armRun d

/-- Unsent fragments of this tile are discarded (R251). -/
def State.dropFragments (s : State) : State :=
  let own := fun (e : TxEnt) => e.src.isNone && e.blocks == pktBlocks e.pkt && match e.pkt.body with | .testRes _ => true | _ => false
  { s with cord := { s.cord with txq := s.cord.txq.map fun e => (e.1, e.2.filter fun x => !own x) } }

/-- TEST_OP_ABORT (R256): an open window of the run reports ABORTED, and the site disarms. -/
def State.abortRun (s : State) (runid : Nat) : State :=
  let t := s.dropFragments
  let t := match t.test.win with
    | some w => (match w.run with | some a => if testRunid a.payload = runid then t.winClose true else t | none => t)
    | none => t
  match t.test.armed with
  | some a => if testRunid a.payload = runid then State.testRegs { t with test := { t.test with armed := none } } else t
  | none => t
def evTestOpAbort (r : CordRx) (d : List Byte) (s : State) : State := s.testPacket r d 2 fun t => t.abortRun (testRunid d)

/-- TEST_OP_RESEND (R254): the results still held leave again. -/
def evTestOpResend (r : CordRx) (d : List Byte) (s : State) : State :=
  s.testPacket r d 3 fun t =>
    (t.test.held.filter fun f => f.runid.toNat == testRunid d).foldl (fun (u : State) f => (u.count TS_N_RESFRAG 1).sendUp (.testRes f)) t

/-- TEST_WINDOW_OPEN (R247, R248): at TSTART. -/
def evTestWindowOpen (s : State) : State :=
  match s.tl.slots with
  | [] => s
  | sl :: _ =>
    let isFull := match s.test.win with | some w => (match w.run with | some a => a.full | none => false) | none => false
    let t : State := { s with tl := { s.tl with slots := [] } }
    let t := if t.tile then t.count TS_N_SLOTS 1 else t
    let t := (if t.tile || t.test.armed.isSome then t.raisePsqs 4 else t).testRegs
    if isFull then t
    else
      let t := t.winClose false
      match t.test.armed with
      | some a =>
        if a.full ∨ a.left = 0 then t.winOpen sl.1 none
        else
          let u := t.winOpen sl.1 (some a)
          State.testRegs { u with test := { u.test with armed := some { a with left := a.left - 1, slotno := a.slotno + 1 } } }
      | none => t.winOpen sl.1 none

/-- The open window belongs to a full test. -/
def State.fullWin (s : State) : Option ArmedRun :=
  match s.test.win with
  | some w => (match w.run with | some a => if a.full then some a else none | none => none)
  | none => none

/-- TEST_WINDOW_CLOSE (R247, R251): LEN plus SETTLE after TSTART. -/
def evTestWindowClose (s : State) : State := if s.fullWin.isSome then s else s.winClose false

/-- FULL_TEST_POLL (R258). -/
def evFullTestPoll (s : State) : State :=
  match s.fullWin with
  | some a => if (s.runBanks a.payload).all fun n => s.mailState n == 2 || s.mailState n == 3 then s.winClose false else s
  | none => s

/-- FULL_TEST_LIMIT (R258). -/
def evFullTestLimit (s : State) : State := if s.fullWin.isSome then s.winClose false else s

/-! ### At the sender -/

/-- The run's sites by port, as a position mask. -/
def sitesMask (xs : List SiteRec) (p : Nat) : Nat := xs.foldl (fun m x => if x.port = p then m ||| 2 ^ x.pos else m) 0

/-- One TEST packet with an operation for each port of the run (R244). -/
def State.testSend (s : State) (r : TestRun) (op : Nat) : State :=
  (List.range 8).foldl (fun (t : State) p =>
    let m := sitesMask r.sites p
    if m = 0 then t else t.frameSend p (.test (testBytes r.payload op m))) s

/-- The sites are armed: the tiles over their ports, and the sender itself where the run says LOCAL (R244, R257). -/
def State.testArm (s : State) (r : TestRun) : State :=
  let t := s.testSend r 1
  if !r.full && r.sites.any fun x => x.port == 8 then t.armRun (testBytes r.payload 1 0) else t

/-- TEST_RUN (R243): the status that it is answered with. -/
def State.testRun (s : State) (runid : Word) (full : Bool) (ports : Nat) (sites : List (BitVec 64)) (d image : List Byte) (loc : Bool) :
    State × Nat :=
  let hits := (List.range 8).flatMap fun p =>
    ((List.range 64).filter fun q => ports.testBit p && (sites.getD p 0).getLsbD q && (s.tileAt p q).enumerated).map fun q => (p, q)
  let d := leBytes 4 runid.toNat ++ sub d 4 76
  if !testOk full d then (s, 0x0001)
  else if hits.isEmpty then (s, 0x0301)
  else if s.test.run.isSome ∨ 4 ≤ s.test.past.length ∨ s.test.past.any fun r => r.runid == runid then (s, 0x0302)
  else if full && s.stageOpen then (s, 0x0507)
  else
    let rec_ := fun (e : Nat × Nat) => ({ port := e.1, pos := e.2, frags := [], noresp := [], tries := 0 } : SiteRec)
    let r : TestRun := { payload := d, runid := runid, full := full, sites := (hits ++ if loc && !full then [(8, 0xFE)] else []).map rec_,
                         slot := 0, evd := [], start := s.life, phase := 0, image := image, prev := SMap.get (fun _ => []) s.stageLast 0,
                         status := 0 }
    let t := State.testRegs { s with test := { s.test with run := some r } }
    if full then (((t.stageBegin 0 s.fullFrame image hits).stageQuiet).freed, 0) else (t.testArm r, 0)

/-- TEST_ABORT (R256). -/
def State.testAbort (s : State) (runid : Word) : State × Nat :=
  match s.test.run with
  | none => (s, 0x0001)
  | some r =>
    if r.runid ≠ runid then (s, 0x0001)
    else if r.full && r.phase == 2 then (s, 0)
    else if r.full && r.phase == 0 then (s.stageCancel.testEnd 0x0306, 0)
    else
      let t := s.testSend r 2
      let t := if t.sender then t.abortRun runid.toNat else t
      if r.full then ({ t with test := { t.test with run := t.test.run.map fun x => { x with status := 0x0306 } } }, 0)
      else (t.testEnd 0x0306, 0)

/-- A fragment as the bytes of Table 9-3. -/
def resBytes (f : TestResPkt) : List Byte :=
  leBytes 4 f.runid.toNat ++ leBytes 2 f.testid ++ [BitVec.ofNat 8 f.frag, BitVec.ofNat 8 f.flags] ++ leBytes 8 f.tid ++ leBytes 8 f.fcnt ++
    [BitVec.ofNat 8 f.status, BitVec.ofNat 8 f.banks, BitVec.ofNat 8 f.pos, BitVec.ofNat 8 f.slotno] ++ leBytes 4 f.untested ++ f.data

/-- A site's record: its fragments by slot and index, and one without sections and STATUS 5 for each slot without a response. -/
def State.siteBytes (s : State) (r : TestRun) (x : SiteRec) : List Byte :=
  (List.range 256).flatMap fun k =>
    if x.noresp.contains k then
      resBytes { runid := r.runid, testid := leAt r.payload 4 2, frag := 0, flags := 1, tid := (s.tileAt x.port x.pos).tid, fcnt := 0, status := 5,
                 banks := testBanks r.payload, pos := x.pos, slotno := k, untested := 0, data := [] }
    else
      let fs := x.frags.filter fun f => f.slotno == k
      (List.range fs.length).flatMap fun j => match fs.find? fun f => f.frag == j with | some f => resBytes f | none => []

/-- TEST_RESULT (R519): records of whole sites from the first asked for, as many as the response holds. -/
def State.testResult (s : State) (runid : Word) (first maxrsp : Nat) : Nat × List Byte :=
  match s.test.past.find? fun r => r.runid == runid with
  | some r =>
    (r.status, ((r.sites.drop first).foldl (fun (a : List Byte × Bool) x =>
      let b := s.siteBytes r x
      if a.2 && decide (a.1.length + b.length ≤ maxrsp) then (a.1 ++ b, true) else (a.1, false)) ([], true)).1)
  | none => (if s.test.run.any fun r => r.runid == runid then 0x0302 else 0x0001, [])

/-- TEST_ACK (R243): the results of a completed run are released. -/
def State.testAck (s : State) (runid : Word) : State × Nat :=
  if s.test.past.any fun r => r.runid == runid then
    ({ s with test := { s.test with past := s.test.past.filter fun r => r.runid != runid } }, 0)
  else (s, 0x0001)

/-- TESTSLOT, the instruction (R52, R57, R257): the slot is one of the run's where it goes to the run's ports. -/
def doTestslotRow (s : State) (k : Nat) (w : BitVec 64) : State :=
  let eff := s.effPorts (wPorts w)
  let t := doTestslot s k w
  if eff = 0 ∨ !s.comp.started ∨ s.flag SUP_STAT_VSAG_WARN then t
  else match t.test.run with
    | some r =>
      if !r.full && decide (r.slot < testSlots r.payload) && r.sites.any fun x => eff.testBit x.port || x.port == 8 then
        State.testRegs { t with test := { t.test with run := some { r with slot := r.slot + 1 } } }
      else t
    | none => t

/-- TEST_RES_RX (R254). -/
def evTestResRx (r : CordRx) (f : TestResPkt) (s : State) : State :=
  let x := s.senderUp r (.testRes f)
  if x.2 then x.1.testTake r.port r.hdr.src f else x.1

/-- A site's results are asked for again (R254). -/
def State.testAsk (s : State) (r : TestRun) (x : SiteRec) : State :=
  let t : State := { s with test := { s.test with run := s.test.run.map fun y =>
    { y with sites := y.sites.map fun z => if z.port = x.port ∧ z.pos = x.pos then { z with tries := z.tries + 1 } else z } } }
  if x.port = 8 then t else t.sendTo x.port x.pos (.test (testBytes r.payload 3 0))

/-- The slots that results are due for. -/
def TestRun.due (r : TestRun) : List Nat := if r.full then (if r.phase = 1 then [0] else []) else List.range r.slot

/-- TEST_COLLECT_TIMEOUT (R254): EV8, and RESEND to every site that is not complete. -/
def evTestCollectTimeout (s : State) : State :=
  match s.test.run with
  | none => s
  | some r =>
    let open_ := r.due.filter fun k => !r.evd.contains k
    if open_.isEmpty then s
    else
      let t := State.raiseFsq { s with test := { s.test with run := some { r with evd := r.evd ++ open_ } } } 8
      (r.sites.filter fun x => r.due.any fun k => !x.settled k).foldl (fun (u : State) x => u.testAsk r x) t

/-- The retry of a RESEND (R163, R254): after eight, the site's open slots are recorded NO_RESP. -/
def State.testRetry (s : State) (p q : Nat) : State :=
  match s.test.run with
  | none => s
  | some r =>
    match r.sites.find? fun x => x.port == p && x.pos == q with
    | none => s
    | some x =>
      let miss := r.due.filter fun k => !x.settled k
      if miss.isEmpty || x.tries == 0 then s
      else if x.tries < 8 then s.testAsk r x
      else
        let y := { x with noresp := x.noresp ++ miss, tries := 0 }
        let t : State := { s with test := { s.test with run := some { r with sites := r.sites.map fun z => if z = x then y else z } } }
        (t.count TS_N_NORESP miss.length).testEv8.testCheck.testRegs

/-- CTRL_REQ_RETRY (R163, R254): a control request, or a RESEND where seq is none. -/
def evCtrlReqRetryRow (p q : Nat) (seq : Option Word) (s : State) : State :=
  match seq with
  | some n => evCtrlReqRetry p q n s
  | none => if s.active then s.testRetry p q else s

/-- RUN_TIMEOUT (R256): TS_RUNTO seconds after the ARM a SLOT run has not used its slots. -/
def evRunTimeout (s : State) : State :=
  match s.test.run with
  | some r => if !r.full && decide (r.slot < testSlots r.payload) then s.testEnd 0x0304 else s
  | none => s

/-- A staging of a full test has moved on: cancelled or switched (R258). -/
def State.testStaged (s : State) : State :=
  match s.test.run with
  | none => s
  | some r =>
    if !r.full then s
    else match s.stage with
      | some g =>
        if r.phase = 0 then
          if g.phase = 4 then s.testEnd 0x0509
          else if g.phase = 3 then
            let t : State := { s with test := { s.test with run := some { r with phase := 1, slot := 1 } } }
            t.testSend r 1
          else s
        else if r.phase = 2 ∧ g.phase = 4 then s.stageBack r
        else s
      | none => if r.phase = 2 then s.testEnd r.status else if r.phase = 0 then s.testEnd 0x0509 else s

end Sys2Proof.Machine
end

