-- ==== Sys2Proof/Machine/SeqEvents.lean ====
section
/-! DEFINITION. Machine/SeqEvents.lean: what reaches a sequencer or a bank from outside its program: the end of a wait, starts and
stops, software events, data memory, the line timer, trigger edges, supplies (R32, R36, R44, R51, R69, R195, R206 to R208, R211, R221,
R222), and the held surface writes of R106. -/

namespace Sys2Proof.Machine

/-! ### Waits (R44) -/

/-- A sequencer that waits goes on with the given Z. -/
def State.resume (s : State) (k : Nat) (q : Seq) (z : Bool) : State := s.goNext k { q with waiting := none, z := z }

/-- WAIT_RESUME: the event has occurred; the wait consumes it. -/
def evWaitResume (id : SeqId) (s : State) : State :=
  let k := seqIdx id
  let q := s.seq k
  match q.waiting with
  | some (e, _) =>
    if s.flag (runF k) && q.ev.getLsbD e && !(id == .fsq && (s.tile || s.flag TRACE_HALT_FSQ_HALT)) then
      (s.resume k { q with ev := q.ev &&& ~~~ BitVec.ofNat 32 (2 ^ e) } false).traceSeq k 7 (BitVec.ofNat 32 (q.pc.toNat + 1))
    else s
  | none => s

/-- WAIT_TIMEOUT: nothing is consumed. -/
def evWaitTimeout (id : SeqId) (s : State) : State :=
  let k := seqIdx id
  let q := s.seq k
  match q.waiting with
  | some (_, t) =>
    if s.flag (runF k) && t != 0 && !(id == .fsq && (s.tile || s.flag TRACE_HALT_FSQ_HALT)) then s.resume k q true else s
  | none => s

/-! ### Starts and stops (R32, R69, R195, R207, R222, R548) -/

/-- The FSQ starts; refused unless this sender is ACTIVE. -/
def State.fsqStart (s : State) : State × Nat := if s.active then (s.fsqRun, 0) else (s, 0x0004)

/-- EXTEST or CLAMP is selected. -/
def State.boundary (s : State) : Bool := s.jtag == 3 || s.jtag == 4

/-- The nominal VDDP of a VSEL in mV (Table 7-2). -/
def nominalMv (vsel : Nat) : Nat := if vsel = 0 then 1200 else if vsel = 1 then 1500 else if vsel = 2 then 1800 else if vsel = 3 then 2500 else 3300

/-- A supply within ±10 % of its nominal. -/
def vddpIn (vsel mv : Nat) : Bool := decide (9 * nominalMv vsel ≤ 10 * mv) && decide (10 * mv ≤ 11 * nominalMv vsel)

/-- The measurement of VDDPn (Table 7-9). -/
def State.vddpRead (s : State) (n mv : Nat) : State :=
  let t := s.setF (PIN_BSTAT_VDDP_MV n) mv
  t.setBank n { t.bank n with vddpBad := !vddpIn (t.getF (PIN_BCFG_VSEL n)) mv }

/-- PSQn starts again: refused for the camera, for a boundary scan or for its supply; a bank without an image has no program to start. -/
def State.psqStart (s : State) (n mv : Nat) : State × Nat :=
  let t := s.vddpRead n mv
  if s.boundary || (n == 0 && s.sender && s.flag CAM_CFG_EN) then (t, 0x0107)
  else if (t.bank n).vddpBad then (t.setFlag (PIN_BSTAT_VDDP_FAIL n) true, 0x0108)
  else if (t.seq n).image.isNone then (t, 0)
  else (t.progStart n, 0)

/-- PSQn stops, its bank safe. -/
def State.psqStop (s : State) (n : Nat) : State := if s.flag (PSQ_STAT_RUN n) then s.psqHaltSafe n else s.bankSafe n

/-- FSQ_START, PSQ_START, PSQ_STOP: owner writes. A refused start is an error response (R558). -/
def evFsqStart (s : State) : State :=
  if s.tile then s.emit (.bus false 0)
  else
    let r := s.fsqStart
    r.1.emit (.bus (r.2 != 0) 0)
def evPsqStart (n mv : Nat) (s : State) : State :=
  let r := s.psqStart n mv
  r.1.emit (.bus (r.2 != 0) 0)
def evPsqStop (n : Nat) (s : State) : State := (s.psqStop n).emit (.bus false 0)

/-- VDDP_FAIL (R207): the bank's supply has left its window for 10 µs. -/
def evVddpFail (n mv : Nat) (s : State) : State :=
  let t := s.vddpRead n mv
  if t.flag (PSQ_STAT_RUN n) && (t.bank n).vddpBad then
    let u := ((t.psqHaltSafe n).setFlag (PSQ_STAT_VSTOP n) true).setFlag (PIN_BSTAT_VDDP_FAIL n) true
    let u := (u.event 0x0004 [BitVec.ofNat 8 n] .owner).testFault n 0xFF
    if u.tile then { u with tl := { u.tl with psqFault := true } } else u
  else t

/-! ### Software events (R36) -/

/-- A write of FSQ_SWEV or PSQ_SWEV: PEND clears the Stoker's bits, then RAISE acts. -/
def State.swevWrite (s : State) (v : Word) : State :=
  let t := s.setReg PSQ_SWEV (s.reg PSQ_SWEV &&& ~~~ (v &&& 0xFF#32))
  t.raiseSwMask (fieldIn v PSQ_SWEV_RAISE)

/-- SWEV_RAISE and SWEV_PEND_CLEAR: the two halves of such a write. -/
def evSwevRaise (mask : Nat) (s : State) : State := (s.swevWrite (BitVec.ofNat 32 (mask % 256 * 256))).emit (.bus false 0)
def evSwevPendClear (mask : Nat) (s : State) : State := (s.swevWrite (BitVec.ofNat 32 (mask % 256))).emit (.bus false 0)

/-! ### Data memory and capture through the registers (R51, R211) -/

/-- The word of PSQ_DDATA, and the address after an access. -/
def State.ddataAddr (s : State) (n : Nat) : Nat := s.getF (PSQ_DADDR_ADDR n)
def State.ddataNext (s : State) (n : Nat) : State := s.setF (PSQ_DADDR_ADDR n) (s.ddataAddr n + 4)

/-- DMEM_ACCESS: a read, or a write of a value. -/
def State.ddataRead (s : State) (n : Nat) : State × Word := (s.ddataNext n, s.dmem n (s.ddataAddr n / 4 * 4))
def State.ddataWrite (s : State) (n : Nat) (v : Word) : State := (s.setDmem n (s.ddataAddr n / 4 * 4) v).ddataNext n
def evDmemAccess (n : Nat) (w : Option Word) (s : State) : State :=
  match w with
  | none =>
    let r := s.ddataRead n
    r.1.emit (.bus false r.2.toNat)
  | some v => (s.ddataWrite n v).emit (.bus false 0)

/-- CAPTURE_READ (R211). -/
def State.cdataRead (s : State) (n : Nat) : State × Word :=
  let a := s.getF (PSQ_CADDR_ADDR n)
  (s.setF (PSQ_CADDR_ADDR n) (a + 1), SMap.get (fun _ => 0) (s.bank n).capBuf a)
def evCaptureRead (n : Nat) (s : State) : State :=
  let r := s.cdataRead n
  r.1.emit (.bus false r.2.toNat)

/-! ### Line timer and trigger input (R35, R221) -/

/-- LINE_TIMER_WRITE. -/
def evLineTimerWrite (n : Nat) (v : Word) (s : State) : State := (s.plainWrite (PSQ_LTIM n) v).emit (.bus false 0)

/-- LINE_TICK: a timer whose interval is 0 does not expire. -/
def evLineTick (n : Nat) (s : State) : State := if s.getF (PSQ_LTIM_INTERVAL n) = 0 then s else s.raiseEv n 1

/-- TRIG_IN_EDGE: SRC 63 disconnects the input. -/
def evTrigInEdge (n : Nat) (s : State) : State := if s.getF (PSQ_TRIGIN_SRC n) = 63 then s else s.raiseEv n 6

/-- PIN_EDGE (R206): a crossing that SLOPE selects goes to the TIM channels and the trigger input that name the pin. -/
def evPinEdge (p : Nat) (rising : Bool) (s : State) : State :=
  let sl := s.getF (PIN_PCFG1_SLOPE p)
  if sl = 3 ∨ (rising ∧ sl = 1) ∨ (!rising ∧ sl = 2) then
    let t := (List.range 16).foldl (fun (u : State) c =>
      let a := u.getF (TIM_CFG_START c) == p
      let b := u.getF (TIM_CFG_STOP c) == p
      if a || b then evTimStamp c a b u else u) s
    if s.getF (PSQ_TRIGIN_SRC (p / 32)) = p % 32 then t.raiseEv (p / 32) 6 else t
  else s

/-- PIN_CONFIG_WRITE (R208): while the bank is stopped a change of SAFE acts at once. -/
def State.pinWrite (s : State) (a : Nat) (v : Word) : State × Bool :=
  if !s.regAccepts s.bankRuns a v then (s, true)
  else
    let t := s.plainWrite a v
    let n := if a % 0x10000 < 0x800 then a % 0x10000 / 256 else (a % 0x10000 - 0x800) / 16
    if n < 8 && !s.flag (PSQ_STAT_RUN n) && s.flag (PSQ_STAT_SAFE n) then (t.bankSafe n, false) else (t, false)
def evPinConfigWrite (o : Nat) (v : Word) (s : State) : State :=
  let r := s.pinWrite (0xC0000 + o / 4 * 4 % 0x10000) v
  r.1.emit (.bus r.2 0)

/-! ### Geometry and damage by register (R113, R114, R126) -/

/-- COMP_GCOMMIT. -/
def evCompGcommit (s : State) : State := (if s.tile then s else s.setFlag COMP_STAT_GEO_PEND true).emit (.bus false 0)

/-- COMP_FULLDMG: every band of every enabled entry. -/
def State.fullDamage (s : State) : State := s.damageBands (allBands s.live)
def evCompFulldmg (s : State) : State := (if s.tile then s else s.fullDamage).emit (.bus false 0)

/-- DAMAGE_MAP_WRITE (R114): bits of a source that set in the same cycle end set. -/
def State.dmgWrite (s : State) (a : Nat) (v sources : Word) : State :=
  let t := s.setReg a (v ||| sources)
  if (v ||| sources) &&& ~~~ s.reg a ≠ 0 ∧ !t.comp.dmgSeen then State.raiseFsq { t with comp := { t.comp with dmgSeen := true } } 4 else t
def evDamageMapWrite (p q j : Nat) (v sources : Word) (s : State) : State :=
  (if s.tile then s else s.dmgWrite (COMP_DMG p q j) v sources).emit (.bus false 0)

/-! ### Held surface writes (R106) -/

/-- SURFACE_WRITE_RELEASE: the oldest held write whose change has been applied and whose older jobs are done goes to the hidden buffer,
and is answered. -/
def evSurfaceWriteRelease (s : State) : State :=
  let busy := fun (g : Nat) => (s.comp.jobs ++ s.comp.backlog ++ s.comp.running).any fun j => decide (j.gen ≤ g)
  match s.comp.held.find? fun h => h.applied && !busy h.gen with
  | none => s
  | some h =>
    let t : State := { s with comp := { s.comp with held := s.comp.held.filter fun x => x != h } }
    match t.sessions.find? fun x => x.id == h.sess with
    | some x =>
      let r := t.surfacePut x.tenant h.slot h.offset h.data
      r.1.answer h.sess h.seq r.2.1 r.2.2
    | none => t

end Sys2Proof.Machine
end

