-- ==== Sys2Proof/Machine/CamAudio.lean ====
section
/-! DEFINITION. Machine/CamAudio.lean: the inspection camera port (R470 to R477), the audio ports (R478 to R484), and the panic of the
DDR5 feeders (R407). -/

namespace Sys2Proof.Machine

/-! ### Panic and decode errors (R407, R416) -/

/-- The panic of cord-queue feeder e with n lines in its prefetch buffer: it falls when its job ends. -/
def State.panicCe (s : State) (e n : Nat) : State :=
  if !s.comp.running.any fun j => j.eng == e then s.panicSet (4 + e) false
  else if n < s.getF DDR_PANIC_CE_LO then s.panicSet (4 + e) true
  else if s.getF DDR_PANIC_CE_HI ≤ n then s.panicSet (4 + e) false
  else s

/-- The panic of audio feeder n, from the frames its playout buffer holds. -/
def State.panicAud (s : State) (n : Nat) : State :=
  let f := s.getF (AUD_STAT_FILL n) * 1000
  if !s.flag (AUD_STAT_RUN n) then s.panicSet (16 + n) false
  else if f < 48 * s.getF DDR_PANIC_AUD_LO then s.panicSet (16 + n) true
  else if 48 * (4 * s.getF DDR_PANIC_AUD_HI) ≤ f then s.panicSet (16 + n) false
  else s

/-- Read data has come to a feeder: its panic rises or falls with the lines that an engine's prefetch buffer holds then (0 to 64, a free
value: the manual does not say how fast the engine takes them), or with the samples of an audio port (R407). -/
def State.panicRead (s : State) (r : BusReq) : State :=
  if 4 ≤ r.req ∧ r.req ≤ 7 then (s.panicCe (r.req - 4) (s.free 0 7 % 65)).freed
  else if r.req = 10 then (List.range 4).foldl (fun (u : State) n => u.panicAud n) s
  else s

/-- BAND_JOB_START: the job starts with an empty prefetch buffer (R407). -/
def evBandJobStartRow (e : Nat) (times : List Nat) (s : State) : State :=
  let t := evBandJobStart e times s
  if t.comp.running.any (fun j => j.eng == e) && !s.comp.running.any (fun j => j.eng == e) then (t.panicSet (4 + e) false).panicCe e 0 else t

/-- A decode error is recorded (R416). -/
def State.decErr (s : State) (addr req : Nat) (write : Bool) : State :=
  let t := s.setReg FAB_DECADDR_LO (BitVec.ofNat 32 addr)
  let t := t.setReg FAB_DECADDR_HI (BitVec.ofNat 32 (addr / 2 ^ 32 % 256 + req * 256 + (if write then 4096 else 0)))
  (t.count FAB_N_DECERR 1).setFlag FAB_STAT_DECERR true

/-! ### Camera (R470 to R476) -/

/-- A write of CAM_CFG (R470): setting EN takes bank B0, clearing it returns B0 to the bank safe state. -/
def State.camCfgWrite (s : State) (v : Word) : State × Bool :=
  if s.tile then (s, true)
  else if !s.regAccepts s.bankRuns CAM_CFG v then (s, false)
  else
    let was := s.flag CAM_CFG_EN
    let t := s.plainWrite CAM_CFG v
    if fieldIn v CAM_CFG_EN == 1 then
      if was then (t, true)
      else
        let b := t.bank 0
        let hold := BitVec.ofNat 32 0x7FFFF
        ((t.setFlag (PSQ_STAT_CAM 0) true).setBank 0 { b with drv := b.drv &&& ~~~ hold, level := b.level &&& ~~~ hold }, true)
    else if was then (((t.setFlag (PSQ_STAT_CAM 0) false).setFlag CAM_STAT_ACTIVE false).bankSafe 0, true)
    else (t, true)

/-- CAM_ENABLE (R470). -/
def evCamEnable (v : Word) (s : State) : State :=
  let r := s.camCfgWrite v
  r.1.emit (.bus (!r.2) 0)

/-- A write of CAM_CTRL.PCOMMIT stages the first NP entries; the set staged before, of which nothing has been written, is replaced
(R476). -/
def State.camCommit (s : State) : State :=
  if s.tile then s
  else
    let n := s.getF CAM_SENS_NP + 1
    let e := (List.range (min n 8)).map fun k => (s.getF (CAM_PSET_REG k), s.getF (CAM_PSET_DATA k))
    State.setFlag { s with cam := { s.cam with staged := e, np := n } } CAM_STAT_PPEND true

/-- PCOMMIT (R476). -/
def evPcommit (s : State) : State := s.camCommit.emit (.bus false 0)

/-- The sensor writes of a frame start: nack is the first entry that the sensor does not acknowledge (R476). -/
def State.camParams (s : State) (nack : Option Nat) : State :=
  if !s.flag CAM_STAT_PPEND then s
  else
    let n := match nack with | some k => min (k + 1) s.cam.staged.length | none => s.cam.staged.length
    let rm := if s.flag CAM_SENS_A16 then 65536 else 256
    let dm := if s.flag CAM_SENS_D16 then 65536 else 256
    let t := (s.cam.staged.take n).foldl (fun (u : State) e => u.emit (.sensor (u.getF CAM_SENS_ADDR) (e.1 % rm) (e.2 % dm))) s
    let t := t.setFlag CAM_STAT_PPEND false
    if (match nack with | some k => decide (k < s.cam.staged.length) | none => false) then
      (t.count CAM_N_PARAMERR 1).setFlag CAM_STAT_PARAM_ERR true
    else { t with cam := { t.cam with gens := t.cam.gens ++ [t.getF CAM_SENS_DELAY] } }

/-- CAM_FRAME_START (R470, R472, R476). -/
def evCamFrameStart (nack : Option Nat) (s : State) : State :=
  if s.tile || !s.flag CAM_CFG_EN then s
  else
    let t : State := { s with cam := { s.cam with size := s.reg CAM_SIZE, stride := s.reg CAM_STRIDE, base := s.reg CAM_BASE,
                                                  gens := s.cam.gens.map fun d => d - 1 } }
    let t := (t.setFlag CAM_STAT_ACTIVE true).camParams nack
    { t with cam := { t.cam with pgen := (t.cam.pgen + (t.cam.gens.filter fun d => d == 0).length) % 256,
                                 gens := t.cam.gens.filter fun d => d != 0 } }

/-- The channel of the pixel in column x and line y (R474). -/
def State.camChan (s : State) (x y : Nat) : Nat :=
  if s.flag CAM_CFG_FMT then
    let p := s.getF CAM_CFG_PATTERN
    2 * ((y + p / 2) % 2) + (x + p) % 2
  else 0

/-- The 16-bit words of one stored line (R472, R473). -/
def camLine (x w : Nat) (l : List Nat) : List Byte :=
  let px := l.take x
  (px ++ List.replicate (x - px.length) 0).flatMap fun p => leBytes 2 (p % 2 ^ w * 2 ^ (16 - w))

/-- One line goes to DDR5 at a byte offset; what lies beyond the fitted capacity meets the default target (R416, R472). -/
def State.camStore (s : State) (a : Nat) (bs : List Byte) : State :=
  if a + bs.length ≤ s.ddrSize then s.ddrWrite a bs
  else (s.ddrWrite a (bs.take (s.ddrSize - a))).decErr (0x1000000000 + max a s.ddrSize) 15 true

/-- The statistics of a frame replace the readable ones (R474). -/
def State.camStats (s : State) (lines : List (List Nat)) : State :=
  let x := fieldIn s.cam.size CAM_SIZE_XSIZE
  let y := fieldIn s.cam.size CAM_SIZE_YSIZE
  let w := s.getF CAM_CFG_WIDTH
  let pts := ((lines.take y).zipIdx.flatMap fun l => (l.1.take x).zipIdx.map fun p => (p.2, l.2, p.1 % 2 ^ w))
  let t := (List.range 4).foldl (fun (u : State) c =>
    let u := (List.range 256).foldl (fun (v : State) b => v.setReg (CAM_HIST c b) 0) u
    (List.range 576).foldl (fun (v : State) z => v.setReg (CAM_ZONE c z) 0x10000) u) s
  let t := pts.foldl (fun (u : State) p => u.count (CAM_HIST (u.camChan p.1 p.2.1) (p.2.2 / 2 ^ (w - 8))) 1) t
  let z := fun (p : Nat × Nat × Nat) => 32 * (18 * p.2.1 / max 1 y) + 32 * p.1 / max 1 x
  let sums : SMap (Nat × Nat) := pts.foldl (fun m p =>
    let k := (s.camChan p.1 p.2.1) * 576 + z p
    let o := SMap.get (fun _ => (0, 0)) m k
    SMap.set (fun _ => (0, 0)) m k (o.1 + p.2.2 * 2 ^ (16 - w), o.2 + 1)) []
  sums.foldl (fun (u : State) e => u.setReg (CAM_ZONE (e.1 / 576) (e.1 % 576)) (BitVec.ofNat 32 (e.2.1 / max 1 e.2.2))) t

/-- A shaping event: its flag is set and it counts. -/
def State.camShape (s : State) (f : Field) (a n : Nat) : State := if n = 0 then s else (s.count a n).setFlag f true

/-- CAM_FRAME_END (R472 to R475): the lines sampled, and whether the fabric took them in time. -/
def evCamFrameEnd (lines : List (List Nat)) (took : Bool) (s : State) : State :=
  if s.tile || !s.flag CAM_CFG_EN || !s.flag CAM_STAT_ACTIVE then s
  else
    let x := fieldIn s.cam.size CAM_SIZE_XSIZE
    let y := fieldIn s.cam.size CAM_SIZE_YSIZE
    let st := 64 * fieldIn s.cam.stride CAM_STRIDE_STRIDE
    let at0 := s.cam.base.toNat * 64 + s.cam.buf * (st * y)
    let put := fun (u : State) (ls : List (List Nat)) =>
      ls.zipIdx.foldl (fun (v : State) l => v.camStore (at0 + st * l.2) (camLine x (s.getF CAM_CFG_WIDTH) l.1)) u
    let t := s.setFlag CAM_STAT_ACTIVE false
    if !took then ((put t (lines.take y)).count CAM_N_OVF 1).setFlag CAM_STAT_OVF true
    else
      let kept := lines.take y
      let t := put t (kept ++ List.replicate (y - kept.length) [])
      let t := t.camShape CAM_STAT_SHORTLINE CAM_N_SHORTLINE (kept.filter fun l => decide (l.length < x)).length
      let t := t.camShape CAM_STAT_LONGLINE CAM_N_LONGLINE (kept.filter fun l => decide (x < l.length)).length
      let t := t.camShape CAM_STAT_SHORTFRAME CAM_N_SHORTFRAME (if lines.length < y then 1 else 0)
      let t := t.camShape CAM_STAT_LONGFRAME CAM_N_LONGFRAME (if y < lines.length then 1 else 0)
      let t := ((t.count CAM_N_FRAMES 1).setFlag CAM_STAT_FRAME_DONE true).setF CAM_STAT_BUF s.cam.buf
      let t : State := { t with cam := { t.cam with buf := 1 - s.cam.buf } }
      let t := if t.flag CAM_CTRL_HOLD then t.count CAM_N_STATSKIP 1
        else ((t.camStats lines).setF CAM_STAT_SGEN (t.getF CAM_STAT_SGEN + 1)).setF CAM_STAT_PGEN t.cam.pgen
      t.irq 20

/-! ### Audio (R478 to R484) -/

/-- Frame boundary i, 1/64 ns (R479). -/
def audBoundary (i : Nat) : Nat := i * 4000000 / 3

/-- The last frame boundary at or before an instant in 1/64 ns. -/
def audIndex (u : Nat) : Nat := (3 * u + 2) / 4000000

/-- The nearest frame boundary, the earlier one on a tie (R482). -/
def audNearest (u : Nat) : Nat :=
  let i := audIndex u
  if u - audBoundary i ≤ audBoundary (i + 1) - u then i else i + 1

/-- An audio port's state. -/
def State.audPort (s : State) (n : Nat) : AudPort := SMap.get (fun _ => AudPort.init) s.aud n

/-- s with an audio port's state replaced, and FILL and RAMPING following it. -/
def State.setAud (s : State) (n : Nat) (p : AudPort) : State :=
  let t : State := { s with aud := SMap.set (fun _ => AudPort.init) s.aud n p }
  let up := t.flag (AUD_CFG_EN n) && !t.flag (AUD_CFG_MUTE n)
  let full := t.getF (AUD_CFG_RAMP n) * 48
  (t.setF (AUD_STAT_FILL n) p.buf.length).setFlag (AUD_STAT_RAMPING n) (if up then decide (p.gain < full) else decide (0 < p.gain))

/-- A frame goes to its place by boundary; one already buffered stays. -/
def audInsert (f : AudFrame) : List AudFrame → List AudFrame
  | [] => [f]
  | g :: gs => if f.at_ < g.at_ then f :: g :: gs else if f.at_ = g.at_ then g :: gs else g :: audInsert f gs

/-- A block arrives at a port: its frames in order, room for lim frames (R480 to R482). -/
def State.audBlock (s : State) (n lim chans : Nat) (fs : List AudFrame) : State :=
  let p := s.audPort n
  let r := fs.foldl (fun (x : List AudFrame × Nat) f =>
    if x.1.any fun g => g.at_ == f.at_ then x
    else if x.1.length < lim then (audInsert f x.1, x.2)
    else (x.1, x.2 + 1)) (p.buf, 0)
  let t := (s.setAud n { p with buf := r.1, chans := chans }).count (AUD_N_BLOCKS n) 1
  let t := if r.2 = 0 then t else (t.count (AUD_N_OVERRUN n) r.2).setFlag (AUD_STAT_OVERRUN n) true
  t.panicAud n

/-- The 32-bit words of n little-endian samples. -/
def audWords : Nat → List Byte → List Word
  | 0, _ => []
  | k + 1, bs => BitVec.ofNat 32 (leAt bs 0 4) :: audWords k (bs.drop 4)

/-- AUDIO (R481): a block for port TPORT; the data are the operands from byte 8. -/
def evAudio (r : CordRx) (data : List Byte) (s : State) : State :=
  let x := s.tileHdr r false
  if !x.2 then x.1
  else
    let t := x.1
    let n := leAt data 0 1
    let ch := leAt data 1 1
    let k := leAt data 3 1
    if 4 ≤ n ∨ ch = 0 then t
    else
      let first := audNearest (64 * (leAt data 8 8 + 1000 * t.getF (AUD_DELAY_DELAY n)))
      t.audBlock n (8192 / ch) ch ((List.range k).map fun j =>
        { at_ := first + j, ts := 0, samples := audWords ch (data.drop (16 + j * ch * 4)) })

/-- The playout time of the sample at an RTP timestamp of a bound stream, 1/64 ns, with a delay in µs (R480). -/
def State.audTime (s : State) (b : Bound) (ts delay : Nat) : Int :=
  64 * (sourceTime b.b.sdp (ts % 2 ^ 32) s.netNs - s.ntoff + 1000 * (delay : Int))

/-- The samples of a packet that has gone to the ring are in reach of the sender's own ports (R480): before is the stream before it. -/
def State.audFeed (s : State) (before : Bound) (ts bytes : Nat) : State :=
  let d := before.b.sdp
  let x := extendSeen 32 before.rx.tsHigh ts
  let hi := x + bytes / max 1 (d.channels * (d.depth / 8))
  let lo := max (hi - 3072) (before.rx.tsHigh.getD x)
  (List.range 4).foldl (fun (t : State) n =>
    if 16 + t.getF (AUD_CFG_STREAM n) ≠ before.b.index ∨ !t.flag (AUD_CFG_EN n) then t
    else
      let first := (audNearest (t.audTime before ts (t.getF (AUD_DELAY_DELAY n))).toNat : Int)
      let p := t.audPort n
      let t := t.setAud n { p with buf := p.buf.filter fun f => decide (hi ≤ f.ts + 3072) }
      t.audBlock n 3072 d.channels ((List.range (hi - lo)).filterMap fun j =>
        let i : Int := first + ((lo + j : Nat) : Int) - (x : Int)
        if i < 0 then none else some { at_ := i.toNat, ts := lo + j, samples := [] })) s

/-- SOURCE_FRAME_RX (R81, R480). -/
def evSourceFrameRxRow (f : SrcFrame) (s : State) : State :=
  let t := evSourceFrameRx f s
  match f.body with
  | .media dst dport src _ ts _ _ audio =>
    match s.matchLeg f.port dst dport src with
    | some bl =>
      let old := bl.1
      if old.b.sdp.video then t
      else match t.src.find? fun b => b.b.index == old.b.index with
        | some b => if b.rx.got.head? == old.rx.got.head? then t else t.audFeed old ts audio.length
        | none => t
    | none => t
  | _ => t

/-- One sample of the ring, left-justified. -/
def State.ringSample (s : State) (b : Bound) (ts c : Nat) : Word :=
  let w := b.b.sdp.depth / 8
  let bs := (List.range w).map fun k => s.ddrByte (b.audioAt ts + c * w + k)
  BitVec.ofNat 32 (leNat bs.reverse * 2 ^ (32 - 8 * w))

/-- AUDIO_BLOCK_DUE (R480, R481): the block of 48 frames whose first sample has this extended RTP timestamp leaves on each port. -/
def evAudioBlockDue (ts : Nat) (s : State) : State :=
  if !s.active || !s.flag AUD_TXCFG_EN then s
  else match s.src.find? fun b => b.b.index == 16 + s.getF AUD_TXCFG_TXSTREAM with
  | none => s
  | some b =>
    let d := b.b.sdp
    let pt := (s.audTime b ts (s.getF AUD_TXDELAY_TXDELAY) / 64).toNat
    let smp := (List.range 48).flatMap fun k => (List.range d.channels).flatMap fun c => leBytes 4 (s.ringSample b (ts + k) c).toNat
    let data := [BitVec.ofNat 8 (s.getF AUD_TXCFG_TPORT), BitVec.ofNat 8 d.channels, if d.depth = 24 then 1 else 0, 48, 0, 0, 0, 0] ++
      leBytes 8 pt ++ smp
    s.eachPort (s.getF AUD_TXCFG_PORTS) fun u p => u.frameSend p (.ctrlReq 0 0x0030 data)

/-- The sample of a channel of a buffered frame; a channel that the frame does not have is free. -/
def State.audSample (s : State) (n : Nat) (f : AudFrame) (c : Nat) : Word :=
  if s.tile then f.samples.getD c (BitVec.ofNat 32 (s.free c 32))
  else match s.src.find? fun b => b.b.index == 16 + s.getF (AUD_CFG_STREAM n) with
    | some b => if c < b.b.sdp.channels then s.ringSample b f.ts c else BitVec.ofNat 32 (s.free c 32)
    | none => BitVec.ofNat 32 (s.free c 32)

/-- The channel of a slot (CHMAP). -/
def State.audChan (s : State) (n k : Nat) : Nat :=
  (s.reg (if k < 8 then AUD_CHMAP_LO n else AUD_CHMAP_HI n)).toNat / 2 ^ (4 * (k % 8)) % 16

/-- The slots of one frame; none: a zero frame (R478, R482). -/
def State.audSlots (s : State) (n : Nat) (f : Option AudFrame) : List Word :=
  let w := 16 + 8 * s.getF (AUD_CFG_SW n)
  (List.range (s.getF (AUD_CFG_SLOTS n) + 1)).map fun k =>
    match f with
    | some g => if (s.getF (AUD_SMASK_SMASK n)).testBit k then
        s.audSample n g (s.audChan n k) &&& BitVec.ofNat 32 ((2 ^ w - 1) * 2 ^ (32 - w)) else 0
    | none => 0

/-- The gain's next step (R483). -/
def State.audStep (s : State) (n g : Nat) : Nat :=
  if s.flag (AUD_CFG_EN n) && !s.flag (AUD_CFG_MUTE n) then min (s.getF (AUD_CFG_RAMP n) * 48) (g + 1) else g - 1

/-- After a fall that clearing EN caused, the clocks stop. -/
def State.audStop (s : State) (n : Nat) : State :=
  if !s.flag (AUD_CFG_EN n) && (s.audPort n).gain == 0 then (s.setFlag (AUD_STAT_RUN n) false).panicSet (16 + n) false else s

/-- One zero frame is inserted at a boundary (R482). -/
def State.audGap (s : State) (n : Nat) (p : AudPort) (buf : List AudFrame) (den : Nat) : State :=
  let u := (s.emit (.audio n (s.audSlots n none) 0 den)).count (AUD_N_INSERTED n) 1
  let u := if p.under then u else (u.count (AUD_N_UNDERRUN n) 1).setFlag (AUD_STAT_UNDERRUN n) true
  u.setAud n { p with buf := buf, gain := 0, under := true }

/-- AUDIO_FRAME_BOUNDARY (R479, R482, R483): port n at the boundary of the present time; ue: the DDR5 read of its samples was
uncorrectable, and zero samples play (R404). -/
def evAudioFrameBoundary (n : Nat) (ue : Bool) (s : State) : State :=
  if !s.flag (AUD_STAT_RUN n) || decide (4 ≤ n) then s
  else
    let i := audIndex s.wtb
    let p := s.audPort n
    let old := p.buf.filter fun f => decide (f.at_ < i)
    let t := if old.isEmpty then s else (s.count (AUD_N_DROPPED n) old.length).setFlag (AUD_STAT_LATE n) true
    let buf := p.buf.filter fun f => decide (i ≤ f.at_)
    let den := t.getF (AUD_CFG_RAMP n) * 48
    let t := match buf with
      | f :: fs =>
        if f.at_ = i then
          let sl := t.audSlots n (some f)
          let t := t.emit (.audio n (if ue then sl.map fun _ => 0 else sl) (min p.gain den) den)
          t.setAud n { p with buf := fs, gain := t.audStep n p.gain, under := false }
        else t.audGap n p buf den
      | [] => t.audGap n p buf den
    (t.freed.panicAud n).audStop n

/-- A write of AUD_CFG (R483, R484). -/
def State.audCfgWrite (s : State) (n : Nat) (v : Word) : State × Bool :=
  if !s.regAccepts s.bankRuns (AUD_CFG n) v then (s, false)
  else
    let was := s.flag (AUD_CFG_EN n)
    let keep := if s.tile then s.getF (AUD_CFG_STREAM n) else fieldIn v (AUD_CFG_STREAM n)
    let t := (s.plainWrite (AUD_CFG n) v).setF (AUD_CFG_STREAM n) keep
    let t := if !was && t.flag (AUD_CFG_EN n) then t.setFlag (AUD_STAT_RUN n) true else t
    (((t.setAud n (t.audPort n)).panicAud n).audStop n, true)

/-- AUD_CFG_WRITE. -/
def evAudCfgWrite (n : Nat) (v : Word) (s : State) : State :=
  if 4 ≤ n then s.emit (.bus true 0)
  else
    let r := s.audCfgWrite n v
    r.1.emit (.bus (!r.2) 0)

end Sys2Proof.Machine
end

