-- ==== Sys2Proof/Machine/Startup.lean ====
section
/-! DEFINITION. Machine/Startup.lean: straps, Kindling, DDR5 training at start-up, recovery mode, firmware slots, activation and trial
(chapter 20, R396, R414, R522). -/

namespace Sys2Proof.Machine

/-! ### Straps (R1, R486, R487) -/

/-- STRAP_SAMPLE: the balls in EMB_STRAPS order, 10 µs after the part leaves reset. -/
def evStrapSample (balls : Nat) (s : State) : State :=
  if s.fw.inReset then s
  else
    let t := s.setReg EMB_STRAPS (BitVec.ofNat 32 (balls % 4096))
    let rs := t.getF EMB_STRAPS_REFSEL
    let t := (t.setFlag REF_CFG_ENA (t.sender && decide (2 ≤ rs))).setFlag REF_CFG_ENB (t.sender && decide (2 ≤ rs))
    let t := (t.setFlag REF_CFG_ENNET (t.sender && rs % 2 == 1)).setFlag REF_CFG_BASESRC t.tile
    let t := (List.range 8).foldl (fun (u : State) p => u.setFlag (CORD_PCFG_EN p) (u.tile && decide (p < 2))) t
    let t := t.setF RING_STAT_POS (t.getF EMB_STRAPS_RINGPOS)
    let v := t.getF EMB_STRAPS_VMON
    let t := (t.setFlag SUP_STAT_VMON_OFF (v == 3)).setReg SUP_VMON (BitVec.ofNat 32 ((vmonPct v).1 + 256 * (vmonPct v).2))
    t.laneUses.setFlag REF_STAT_BASE_COLD (t.onOcxo && !t.tim.warm)

/-! ### Recovery mode (R490) -/

/-- The part enters recovery mode: banks safe, no Stoker. -/
def State.recoveryEnter (s : State) : State :=
  let t := (List.range 8).foldl (fun (u : State) n => u.bankSafe n) s
  State.count { t with fw := { t.fw with recovery := true, recNext := false } } FW_N_RECOVERIES 1

/-- Recovery mode ends with a full reset (R490, R491). -/
def State.recoveryExit (s : State) : State := (s.fullReset false false 6).leaveReset

/-! ### Kindling (R488 to R490) -/

/-- The image that a firmware slot boots, and whether it comes from NAND (R392, R489). -/
def State.fwTry (s : State) (c : Nat) : Option (Bool × List Byte) :=
  let q := SMap.get (fun _ => []) s.sto.qspi (2 + c)
  let n := (s.copy 4 c).data
  if s.fwCheck q == 0 then some (false, q)
  else if (s.copy 4 c).state == 1 && s.fwCheck n == 0 then some (true, n)
  else none

/-- The slot, its BOOT_SRC and the image (R489); with no SLOT record slot 0 counts as active. -/
def State.fwBoot (s : State) : Option (Nat × Nat × Bool × List Byte) :=
  let a := (s.activeCopy 4).getD 0
  match s.fwTry a with
  | some r => some (a, if r.1 then 1 else 0, r.1, r.2)
  | none => if (s.copy 4 (1 - a)).state = 1 then (s.fwTry (1 - a)).map fun r => (1 - a, 2, r.1, r.2) else none

/-- Step 5: the firmware slot; none is left where nothing boots. -/
def State.fwSelect (s : State) : Option State :=
  s.fwBoot.map fun b =>
    let t : State := if b.2.2.1 then { s with sto := { s.sto with qspi := SMap.set (fun _ => []) s.sto.qspi (2 + b.1) b.2.2.2 } } else s
    let t := (t.setF FW_STAT_RUN_SLOT b.1).setF FW_STAT_BOOT_SRC b.2.1
    let t : State := { t with fw := { t.fw with image := b.2.2.2 } }
    if b.2.1 = 2 then (((t.putActive 4 (some b.1)).slotRecord 4).setFlag FW_STAT_FALLBACK true).event 0x000C [] .owner else t

/-- Step 2: what the journal holds goes to its registers (R391); crc: a page's walk ended at a failed CRC away from the write position. -/
def State.replay (s : State) (crc : Bool) : State :=
  let t := (s.setFlag NVJ_STAT_REPLAYED true).setFlag NVJ_STAT_FIRSTUSE (s.nvj.total == 0)
  let t := if crc then (t.setFlag NVJ_STAT_CRCERR true).count NVJ_N_CRCERR 1 else t
  let t := t.nvjRegs.heaRegs.svnRegs
  let t := match t.hea.log with
    | e :: _ => (t.setReg HEARTH_LOGSEQ e.seq).setFlag HEARTH_STAT_LOG_WRAP (decide (1024 < e.seq.toNat))
    | [] => t
  let t := if t.sender then ((List.range 16).foldl State.tenantRegs t).protectRegs.popRegs else t
  let t := if t.tile then t.setReg AGE_EQH (BitVec.ofNat 32 (min 0xFFFFFFFF (t.age.eqh / (360 * 2 ^ 32)))) else t
  if t.flag EMB_STRAPS_REFEREE then
    let u := (((t.setFlag RING_STAT_REFEREE true).setClmState 5).setClaim t.clm.nvCur).setSeen t.clm.nvTop
    match u.clm.nvHolder with | some h => u.setHolder h | none => u
  else t

/-- Data capacity of a DDR record in GB (Table 15-1). -/
def ddrCap (d : List Byte) : Nat := 2 * (if leAt d 1 1 = 0 then 4 else 2) * (leAt d 2 1 + 1) * (leAt d 3 1 + 1)

/-- Step 4: the board lane table, and the DDR record (R396, R424). -/
def State.laneBoot (s : State) : State :=
  let ok := fun (c : Nat) => s.laneCheck (SMap.get (fun _ => []) s.sto.qspi c) == 0
  let c := match s.activeCopy 5 with
    | some a => if ok a then some a else if (s.copy 5 (1 - a)).state == 1 && ok (1 - a) then some (1 - a) else none
    | none => none
  let t := s.laneSelect c
  let d := match t.laneTable with | some b => sub b 832 8 | none => []
  if leAt d 0 1 = 1 ∧ ddrCap d ≤ 32 then
    let t := (t.setFlag LANE_STAT_DDR_REC true).setF DDR_CFG_DEVW (leAt d 1 1)
    let t := (t.setF DDR_CFG_DENS (leAt d 2 1)).setF DDR_CFG_RANKS (leAt d 3 1)
    (t.setF DDR_CFG_RATE (leAt d 4 1)).setF DDR_CFG_CAP (ddrCap d)
  else if t.sender then (t.setFlag DDR_STAT_TRAIN_FAIL true).healthReg else t

/-- The NAND as start-up finds it: its geometry, the factory bad blocks at the first start-up, the scan (R366, R374, R384, R385). -/
def State.nandStart (s : State) (d : NandDev) : State :=
  if !d.good then s.setFlag NAND_STAT_GEOERR true
  else
    let t := s.setFlag NAND_STAT_PRESENT true
    let t := ((t.setF NAND_GEOM_PAGE d.page).setF NAND_GEOM_PPB d.ppb).setF NAND_GEOM_MODE (if t.flag NAND_CFG_DDR_EN then d.mode else 0)
    let t := (t.setF NAND_GEOM_TMODE d.tmode).setF NAND_GEOM_NBLK d.nblk
    let cap := d.nblk * 2 / 100
    let t := t.setF NAND_ASH_CAP cap
    let t := if t.sto.ashKnown then t
      else
        let bad := d.bad.dedup
        let u : State := { t with sto := { t.sto with ash := bad.take cap, ashKnown := true } }
        let u := u.journal 0x04 0 (1 + ceilDiv (min bad.length cap) 4)
        if cap < bad.length then u.ashFull else u
    let t := (List.range 6).foldl State.slotRegs t.nandRegs
    let t := t.setFlag NAND_STAT_SCRUBBING t.sto.scrubPass.isSome
    (t.setFlag NAND_STAT_SCAN_DONE true).nandKick

/-- A load of a kind's usable copy begins: the active one, or the other where only that is VALID (R380). -/
def State.loadStart (s : State) (kind : Nat) : State :=
  let go := fun (t : State) => if kind = 0 then t.calLoadStart else t.loadQueue kind
  match s.activeCopy kind with
  | none => s
  | some c =>
    if (s.copy kind c).state = 1 then go s
    else if (s.copy kind (1 - c)).state = 1 then go (((s.putActive kind (some (1 - c))).slotRecord kind).setFlag NAND_STAT_FALLBACK true)
    else s

/-- What runs once the Stoker is released: the store, the loads of a tile, the epoch of a sender with no reference, Kiln. -/
def State.stokerStart (s : State) (d : NandDev) : State :=
  let t := s.nandStart d
  let t := t.rampDue
  let t := if t.tile then (if d.good then ((t.loadStart 0).loadStart 1).loadStart 2 else t) else t.popRestart.epochStart.healthReg
  t.kilnTrigger

/-- KINDLING (R488 to R490): the store starts in recovery mode too, for installs need it (R392). Hearth's self-test, a failed CRC met by the replay, the NAND found, and the duration in ms. -/
def evKindling (selftest crc : Bool) (d : NandDev) (ms : Nat) (s : State) : State :=
  if s.fw.inReset || s.fw.kindled.isSome || s.fw.recovery then s
  else if !selftest then (s.setFlag HEARTH_STAT_SELFTEST_OK false).recoveryEnter
  else
    let t := ((s.setFlag HEARTH_STAT_SELFTEST_OK true).replay crc).blowPending.laneBoot
    let boot := t.getF EMB_STRAPS_BOOT
    let t := t.setFlag FW_STAT_BOOT_RSVD (boot == 3)
    if boot = 1 ∨ boot = 2 ∨ t.fw.recNext then (t.nandStart d).recoveryEnter
    else match t.fwSelect with
      | none => (t.nandStart d).recoveryEnter
      | some t =>
        let t := ((t.setFlag SYS_CTRL_REMAP true).setFlag SYS_CTRL_REMAP_LOCK true).setF FW_BOOT_KTIME ms
        State.stokerStart { t with fw := { t.fw with kindled := some t.wtb } } d

/-- DDR_TRAINING (R396): the training of Table 15-2 has succeeded, its memory zeroed, or failed twice at a step. -/
def evDdrTraining (ok : Bool) (s : State) : State :=
  if s.getF DDR_CFG_CAP = 0 || s.flag DDR_STAT_TRAIN_FAIL then s
  else if ok then State.setFlag { s with ddr := [] } DDR_STAT_TRAINED true
  else ((s.setFlag DDR_STAT_TRAINED false).setFlag DDR_STAT_TRAIN_FAIL true).healthReg

/-- A write of SYS_CTRL (R7, R340, R522): REMAP, its lock, RECOVERY (R490). The flag is false for a lock violation. -/
def State.sysCtrlWrite (s : State) (v : Word) : State × Bool :=
  let lock := s.flag SYS_CTRL_REMAP_LOCK
  let m := fieldIn v SYS_CTRL_REMAP
  let l := fieldIn v SYS_CTRL_REMAP_LOCK
  if lock && (m != s.getF SYS_CTRL_REMAP || l == 0) then (s.lockViol SYS_CTRL v, false)
  else
    let t := (s.setF SYS_CTRL_REMAP m).setFlag SYS_CTRL_REMAP_LOCK (lock || l == 1)
    let t : State := if fieldIn v SYS_CTRL_RECOVERY = 1 then { t with fw := { t.fw with recNext := true } } else t
    let t := if fieldIn v SYS_CTRL_CLRCNT = 1 then
        [SYS_N_REQUESTS, SYS_N_CACHED, SYS_N_SEQ_OLD, SYS_N_QUEUE_FULL, SYS_N_FORMAT, SYS_N_EVENTS_DROPPED].foldl
          (fun (u : State) a => u.setReg a 0) t else t
    (t, true)

/-- REMAP (R414): a write of SYS_CTRL with a value of REMAP, the lock bit as it stands. -/
def evRemap (v : Bool) (s : State) : State :=
  let r := s.sysCtrlWrite (BitVec.ofNat 32 ((if v then 1 else 0) + 2 * s.getF SYS_CTRL_REMAP_LOCK))
  r.1.emit (.bus (!r.2) 0)

/-- REMAP_LOCK (R522): a write of 1 to REMAP_LOCK, REMAP as it stands. -/
def evRemapLock (s : State) : State :=
  let r := s.sysCtrlWrite (BitVec.ofNat 32 (s.getF SYS_CTRL_REMAP + 2))
  r.1.emit (.bus (!r.2) 0)

/-- RECOVERY (R490): an owner write of SYS_CTRL.RECOVERY. -/
def evRecovery (s : State) : State :=
  let r := s.sysCtrlWrite (BitVec.ofNat 32 (s.getF SYS_CTRL_REMAP + 2 * s.getF SYS_CTRL_REMAP_LOCK + 4))
  r.1.emit (.bus (!r.2) 0)

/-! ### Firmware install (R392, R497) -/

/-- An install or a trial is in progress. -/
def State.fwBusy (s : State) : Bool := (s.sto.writes.any fun w => w.kind == 4) || s.flag FW_STAT_TRIAL

/-- The slot that is not running; in recovery mode, where none runs, the one that is not active. -/
def State.fwTarget (s : State) : Nat := if s.fw.recovery then s.idleCopy 4 else 1 - s.getF FW_STAT_RUN_SLOT

/-- A firmware install: refused with a status, or begun. -/
def State.fwInstall (s : State) (img : List Byte) (inst : Option Nat) (w : WriteFor) : State × Nat :=
  if s.fwBusy then (s, 0x0507)
  else
    let st := s.fwCheck img
    if st != 0 then (s.fwRefused img st, st)
    else
      let r := s.slotWrite 4 s.fwTarget img none false inst w
      if r.2 != 0 then r else (r.1.setFlag FW_STAT_INSTALLING true, 0)

/-- FW_DATA (R491, R497): a chunk of an image; after LAST the install's status answers. -/
def evFwData (r : CordRx) (seq : Word) (offset : Nat) (chunk : List Byte) (last : Bool) (s : State) : State :=
  s.ctrlReq r seq 0x0050 (leBytes 4 offset ++ [if last then 1 else 0] ++ chunk) fun t =>
    if t.sto.writes.any fun w => w.fwdone == .ctrl seq 0x0050 then (t, none)
    else if 3072 < chunk.length ∨ 393392 < offset + chunk.length then (t, some (0x0105, []))
    else
      let was := if offset = 0 then [] else t.fw.fwData
      let d := SMap.setList (fun _ => (0 : Byte)) was offset chunk
      if last then
        let img := SMap.getList (fun _ => (0 : Byte)) d 0 (offset + chunk.length)
        let x := State.fwInstall { t with fw := { t.fw with fwData := [] } } img none (.ctrl seq 0x0050)
        (x.1, if x.2 = 0 then none else some (x.2, []))
      else ({ t with fw := { t.fw with fwData := d } }, some (0, []))

/-! ### Activation and trial (R498 to R500) -/

/-- The Stoker restarts: an activation pause begins. -/
def State.pauseBegin (s : State) (slot : Nat) (img : List Byte) : State :=
  State.setF { s with fw := { s.fw with pause := true, image := img } } FW_STAT_RUN_SLOT slot

/-- An activation takes place: the slot is on trial. -/
def State.activateNow (s : State) (slot : Nat) : State :=
  let t : State := { s with fw := { s.fw with prev := s.getF FW_STAT_RUN_SLOT, trialAt := s.life, actWait := none } }
  ((t.pauseBegin slot ((t.fwTry slot).map (·.2) |>.getD [])).setFlag FW_STAT_TRIAL true).count FW_N_ACTIVATES 1

/-- FW_ACTIVATE: refused with a status (Table 20-7, R328), or taken; under VSAG_WARN it waits. -/
def State.fwActivate (s : State) (slot : Nat) : State × Nat :=
  if s.fwBusy || s.stageOpen || s.fw.actWait.isSome then (s, 0x0507)
  else if 2 ≤ slot ∨ slot = s.getF FW_STAT_RUN_SLOT ∨ (s.copy 4 slot).state ≠ 1 then (s, 0x0508)
  else if (s.fwTry slot).isNone then
    let img := SMap.get (fun _ => []) s.sto.qspi (2 + slot)
    (s.fwRefused img (s.fwCheck img), s.fwCheck img)
  else if s.flag SUP_STAT_VSAG_WARN then ({ s with fw := { s.fw with actWait := some (2 + slot) } }, 0)
  else (s.activateNow slot, 0)

/-- The commit takes place: the SLOT record makes the slot active, then the counter rises (R329, R499). -/
def State.commitNow (s : State) : State :=
  let t : State := { s with fw := { s.fw with actWait := none } }
  let slot := t.getF FW_STAT_RUN_SLOT
  let t := ((t.putActive 4 (some slot)).slotRecord 4).setFlag FW_STAT_TRIAL false
  (t.count FW_N_COMMITS 1).svnCommit (fwSvn t.fw.image)

/-- A write of FW_CTRL.COMMIT; under VSAG_WARN it waits. -/
def State.fwCommit (s : State) : State :=
  if !s.flag FW_STAT_TRIAL then s
  else if s.flag SUP_STAT_VSAG_WARN then { s with fw := { s.fw with actWait := some 1 } }
  else s.commitNow

/-- FW_COMMIT (R499). -/
def evFwCommit (s : State) : State := s.fwCommit.emit (.bus false 0)

/-- The trial ends in a revert. -/
def State.fwRevert (s : State) : State :=
  if !s.flag FW_STAT_TRIAL then s
  else
    let p := s.fw.prev
    let t : State := { s with fw := { s.fw with actWait := none } }
    let t := (t.pauseBegin p (SMap.get (fun _ => []) t.sto.qspi (2 + p))).setFlag FW_STAT_TRIAL false
    ((t.setFlag FW_STAT_REVERTED true).count FW_N_REVERTS 1).event 0x000D [] .owner

/-- FW_TRIAL_TIMEOUT (R499): COMMIT_TMO seconds without a commit; one that waits for the warning to clear has come in time. -/
def evFwTrialTimeout (s : State) : State := if s.fw.actWait = some 1 then s else s.fwRevert

/-- FW_CTRL_ABANDON (R499): an owner write of FW_CTRL.ABANDON. -/
def evFwCtrlAbandon (s : State) : State := s.fwRevert.emit (.bus false 0)

/-- FIRMWARE_FAULT (R499): the new firmware faults before it commits. -/
def evFirmwareFault (s : State) : State := s.fwRevert

/-- What waited for the supply-sag warning to clear (R448, R500). -/
def State.fwResume (s : State) : State :=
  match s.fw.actWait with
  | some 1 => s.commitNow
  | some n => if 2 ≤ n then s.activateNow (n - 2) else s
  | none => s

/-- VSAG_WARN_CLEAR (R386, R448): every rail is well again; ack is the bus's acknowledgement of an AVS write that a waiting plan makes. -/
def evVsagWarnClear (ack : Bool) (s : State) : State :=
  if !s.flag SUP_STAT_VSAG_WARN then s
  else
    let t := s.vsagClear.fwResume
    if t.age.wait then State.plan { t with age := { t.age with wait := false } } ack else t

end Sys2Proof.Machine
end

