-- ==== Sys2Proof/Machine/StoreEv.lean ====
section
/-! DEFINITION. Machine/StoreEv.lean: the store's page reads and loads (R380 to R382), the end of a calibration load (R187, R188), the boot
flash (R392) and the sender's configuration slot (R369). -/

namespace Sys2Proof.Machine

/-! ### Loads (R380) -/

/-- The overlay that a CLK copy holds: its entries, lamp by lamp (R191). -/
def clkEntries (d : List Byte) : SMap (Option Nat) :=
  (List.range ((d.length - 96) / 4)).foldl (fun m i =>
    let w := leAt d (4 * i) 4
    SMap.set (fun _ => none) m (bitsOf w 17 0) (some (bitsOf w 21 20))) []

/-- The checks of a loaded image (R74, R190, R191). -/
def State.loadCheck (s : State) (kind : Nat) (x : CopySt) : Bool :=
  x.state == 1 &&
  match kind with
  | 0 => s.calCheck x.data == 0
  | 1 => s.drvCheck x.data == 0
  | 2 => x.data.drop (x.data.length - 96) == padTo 96 (Config.sign (x.data.take (x.data.length - 96)))
  | _ => true

/-- A loaded image goes to its use; the calibration tables take theirs at CAL_LOAD_DONE. -/
def State.loaded (s : State) (kind : Nat) (x : CopySt) : State :=
  match kind with
  | 1 =>
    match s.dsetParse (objPayload x.data) with
    | some d => if s.psqsStopped then s.dsetNow d else s
    | none => s
  | 2 =>
    let o := clkEntries x.data
    State.genPending (State.setF { s with lamp := { s.lamp with overlay := o } } LAMP_CLKN_COUNT o.length)
  | 3 =>
    if s.clmState ≠ 3 then s
    else match x.cfg with
      | some g => (s.takeGen g).takeStart
      | none => s.takeStart
  | _ => s

/-- The kind has no usable copy: a member that took over is ACTIVE with its FSQ stopped (R313). -/
def State.loadNone (s : State) (kind : Nat) : State :=
  match kind with
  | 0 =>
    let t := State.setFlag { s with lamp := { s.lamp with loading := none } } LAMP_STAT_LOADING false
    if t.lamp.overdue then t.switchLate else t
  | 3 => if s.clmState = 3 then s.takeStart.setFlag FSQ_STAT_RUN false else s
  | _ => s

/-- A page of a load has been read. -/
def State.loadDone (s : State) (kind : Nat) (secs : List (Option Nat)) : State :=
  match s.sto.loads, s.activeCopy kind with
  | l :: rest, some c =>
    let x := s.copy kind c
    let good := l.2.2 && secs.all fun e => e.isSome
    if l.1 ≠ kind then s
    else if good ∧ x.state = 1 ∧ l.2.1 + 1 < max 1 (ceilDiv x.len s.pageBytes) then
      { s with sto := { s.sto with loads := (kind, l.2.1 + 1, good) :: rest } }
    else
      let t : State := { s with sto := { s.sto with loads := rest } }
      if good && t.loadCheck kind x then t.loaded kind x
      else
        let t := if good then t else t.setFlag NAND_STAT_DEGRADED true
        let o := (t.copy kind (1 - c)).state == 1
        let t := if x.state = 1 then t.putCopy kind c { x with state := 2 } else t
        let t := if o then t.putActive kind (some (1 - c)) else t
        let t := (t.slotRecord kind).setFlag NAND_STAT_FALLBACK true
        if o then
          let t : State := { t with sto := { t.sto with loads := (kind, 0, true) :: t.sto.loads } }
          if kind = 0 then { t with lamp := { t.lamp with loading := some ((t.copy 0 (1 - c)).data, 1 - c) } } else t
        else t.loadNone kind
  | l :: rest, none => if l.1 ≠ kind then s else State.loadNone { s with sto := { s.sto with loads := rest } } kind
  | [], _ => s

/-- The block and page that a NAND read addresses. -/
def State.readAt (s : State) (o : NandOp) : Option (Nat × Nat) :=
  match o with
  | .verify kind p => (s.sto.writes.find? fun w => w.kind == kind).map fun w => s.pageAt w.blocks p
  | .load kind p => (s.activeCopy kind).map fun c => s.pageAt (s.copy kind c).blocks p
  | .scrub b p | .refRead b p => some (b, p)
  | _ => none

/-- NAND_READ_DONE (R367, R380 to R382): the corrected bits of each sector of the page, none where it is uncorrectable. -/
def evNandReadDone (secs : List (Option Nat)) (s : State) : State :=
  match s.sto.op with
  | none => s
  | some o =>
    match s.readAt o with
    | none => s
    | some a =>
      let t := s.opEnd.readCounts a.1 secs
      let t := match o with
        | .verify kind p => t.verifyDone kind p secs
        | .load kind _ => t.loadDone kind secs
        | .scrub b p => t.scrubDone b p secs
        | .refRead b p => t.refReadDone b p secs
        | _ => t
      (t.nandRegs.scrubHot.nandKick).stagePump

/-- The other completions, and the requests that wait for a write's end. -/
def evNandEraseDoneRow (ok blank : Bool) (s : State) : State := (evNandEraseDone ok blank s).stagePump
def evNandProgramDoneRow (ok : Bool) (s : State) : State := (evNandProgramDone ok s).stagePump
def evNandPaceTickRow (s : State) : State := (evNandPaceTick s).stagePump
def evScrubTickRow (s : State) : State := (evScrubTick s).stagePump
def evNandScrubNowRow (s : State) : State := (evNandScrubNow s).stagePump

/-! ### Calibration loads (R187, R188) -/

/-- CAL_LOAD_DONE (R187, R188, R191): the tables hold the image; a change of the geometry clears both stores and is reported. -/
def evCalLoadDone (s : State) : State :=
  match s.lamp.loading with
  | none => s
  | some x =>
    if !s.tile || !s.flag LAMP_STAT_LOADING || s.sto.loads.any fun l => l.1 == 0 then s
    else
      let c := x.1
      let moved := s.getF LAMP_GEOM_W != calW c || s.getF LAMP_GEOM_H != calH c || s.getF LAMP_GEOM_LPP != calLpp c
      let board := fun (b : List Byte) => sub b 16 8
      let other := match s.lamp.cal with | some b => board b != board c | none => false
      let t : State := { s with lamp := { s.lamp with cal := some c, loading := none,
                                                      lamps := if moved then [] else s.lamp.lamps,
                                                      codes := if moved then [] else s.lamp.codes,
                                                      overlay := if other then [] else s.lamp.overlay } }
      let t := ((t.setF LAMP_GEOM_W (calW c)).setF LAMP_GEOM_H (calH c)).setF LAMP_GEOM_LPP (calLpp c)
      let t := (t.setF LAMP_CAL_NBINS (leAt c 7 1)).setF LAMP_CAL_DBITS (calDbits c)
      let t := (t.setF LAMP_CAL_CLKW (leAt c 13 1)).setF LAMP_STAT_CAL_SLOT x.2
      let t := (t.setFlag LAMP_STAT_UNCAL false).setFlag LAMP_STAT_LOADING false
      let t := t.setF LAMP_CLKN_COUNT t.lamp.overlay.length
      let t := if other then t.clkWrite else t
      let t := t.genPending.sweepRegs
      let t := if moved then t.event 0x0009 (leBytes 2 t.tileBands) .owner else t
      if t.lamp.overdue then t.switchLate else t

/-! ### Boot flash and configuration slot -/

/-- QSPI_WRITE_DONE (R392, R423, R491): a new lane table comes into use with its SLOT record; a tile that has taken firmware over its
cord leaves recovery mode. -/
def evQspiWriteDone (ok : Bool) (s : State) : State :=
  let t := (s.qspiDone ok).nandKick
  match s.sto.writes.find? fun w => w.qspi with
  | none => t
  | some w =>
    if t.sto.writes.any fun x => x.kind == w.kind then t
    else if w.kind = 5 then t.laneInstalled
    else match w.fwdone with
      | .ctrl _ _ => if t.fw.recovery && t.tile then t.recoveryExit else t
      | _ => t

/-- CFG_SLOT_WRITE (R369): the mirror generation has changed, and 60 s have passed since the last CFG write. -/
def evCfgSlotWrite (s : State) : State :=
  if s.tile then s
  else
    let g := if s.active then some s.cfgGen else s.clm.mirror
    match g with
    | some g => (s.slotWrite 3 (s.idleCopy 3) [] (some g) true none .none).1
    | none => s

end Sys2Proof.Machine
end

