-- ==== Sys2Proof/Machine/Relay.lean ====
section
/-! DEFINITION. Machine/Relay.lean: control responses at the sender (R130, R162, R163), the relay over the board ring (R159, R309), and the
control requests that set a tile's lamps (R172, R191, R239). -/

namespace Sys2Proof.Machine

/-! ### Control responses -/

/-- A control response is taken in: its request is closed, and what it answers goes on. -/
def State.rspTake (s : State) (p q : Nat) (seq : Word) (op status : Nat) (data : List Byte) : State :=
  let x := s.ctrlClose p q seq op
  match x.2 with
  | none => x.1
  | some o =>
    let t := x.1
    let t := if op = 0x0001 then (if status = 0 then t.enumTake p q data else t)
      else if op = 0x0003 then (if status = 0 then (t.statusTake p q data).stageStatus p q data else t)
      else if op = 0x0042 then t.stageConfirm p q data
      else if op = 0x0043 then t.stageArmed p q status
      else t
    let t := match o.wcp with | some w => t.answer w.1 w.2 status data | none => t
    t.testStaged

/-- CTRL_RSP_RX. -/
def evCtrlRspRx (r : CordRx) (seq : Word) (op status : Nat) (data : List Byte) (s : State) : State :=
  let x := s.senderUp r (.ctrlRsp seq op status data)
  if x.2 then x.1.rspTake r.port r.hdr.src seq op status data else x.1

/-! ### The relay -/

/-- RELAY_RX (R159, R309): towards the cord, the link layer sends the packet on its own port; from the cord, the holder takes it in as if
the port were its own. -/
def evRelayRx (port dir : Nat) (pkt : CordPkt) (s : State) : State :=
  if s.tile || decide (8 ≤ port) then s
  else if dir = 0 then
    if s.flag (CORD_PCFG_RELAY port) && s.linkUp port then s.send port pkt else s
  else
    let t := s.sawClaim pkt.hdr.claim
    if !t.active || !t.relayOn port then t
    else if pkt.hdr.claim.toNat < t.claim.toNat then t.count (CORD_N_STALE port) 1
    else
      let q := pkt.hdr.src
      match pkt.body with
      | .ack a => t.ackTake port q a
      | .event _ code data => (t.eventTake port q code data).stageEvent port q code
      | .ctrlRsp seq op status data => t.rspTake port q seq op status data
      | .testRes f => t.testTake port q f
      | _ => t

/-! ### Lamp requests at a tile -/

/-- LAMP_TF_REQUEST (R172): the sender sets LAMP_TF. -/
def evLampTfRequest (r : CordRx) (seq : Word) (tf : Nat) (s : State) : State :=
  s.ctrlReq r seq Config.opLampTf (leBytes 1 tf) fun t =>
    if 3 ≤ tf then (t, some (0x0001, []))
    else
      let u := t.setF LAMP_TF_TF tf
      (if t.getF LAMP_TF_TF = tf then u else u.genPending, some (0, []))

/-- BRIGHTNESS_REQUEST (R239). -/
def evBrightnessRequest (r : CordRx) (seq : Word) (bright : Nat) (s : State) : State :=
  s.ctrlReq r seq Config.opBright (leBytes 2 bright) fun t =>
    if 0x8000 < bright then (t, some (0x0001, [])) else (t.setBright bright, some (0, []))

/-- CLINKER_MAP_REQUEST (R191): the response counts the entries applied. -/
def evClinkerMapRequest (r : CordRx) (seq : Word) (es : List Word) (s : State) : State :=
  s.ctrlReq r seq Config.opClinker (es.flatMap fun e => leBytes 4 e.toNat) fun t =>
    if t.flag NAND_STAT_ASH_FULL then (t, some (0x0602, leBytes 4 0))
    else
      let x := t.clinkerEdits es
      let u := if x.2 = 0 then x.1 else x.1.clkWrite
      (u, some (if x.2 = es.length then 0 else 0x0609, leBytes 4 x.2))

/-- A write of LAMP_CLKE (R191, R385): the edit, or an error response. -/
def State.clkeWrite (s : State) (v : Word) : State × Bool :=
  if s.tile then
    if s.flag NAND_STAT_ASH_FULL then (s, false)
    else match s.clinkerEdit (bitsOf v.toNat 17 0) (bitsOf v.toNat 21 20) with
      | some t => (t.clkWrite, true)
      | none => (s.setFlag LAMP_STAT_CLK_FULL true, false)
  else (s, true)

/-- LAMP_CLKE. -/
def evLampClkeRow (v : Word) (s : State) : State :=
  let x := s.clkeWrite v
  x.1.emit (.bus (!x.2) 0)

/-- LAMP_SWEEP (R183): a write of LAMP_CTRL.SWEEP. -/
def evLampSweepRow (s : State) : State := (evLampSweep s).emit (.bus false 0)

end Sys2Proof.Machine
end

