-- ==== Sys2Proof/Machine/Debug.lean ====
section
/-! DEFINITION. Machine/Debug.lean: JTAG, debug halts and trace (R547 to R557); the frame instructions with what hangs on them, as the FSQ
executes them in their turn and in a debug step. -/

namespace Sys2Proof.Machine

/-! ### Instructions with what hangs on them -/

/-- mark, and the stagings and dormant ports whose frame has begun (R442, R502). -/
def effMark (s : State) (k : Nat) (w : BitVec 64) : State :=
  let t := doMark s k w
  match t.comp.frames with
  | f :: _ => if t.fcnt = s.fcnt then t else ((t.stageMarked).dormMark f.ports f.fcnt).testStaged
  | [] => t

/-- halt, and the record of a switch that it completes (R378). -/
def effHalt (s : State) (k : Nat) (w : BitVec 64) : State :=
  let t := doHalt s k w
  if s.flag (switchF k) then t.haltSwitched.testStaged else t

/-- The effect of a control or scalar instruction, by opcode. -/
def effScalar (op : Nat) : State → Nat → BitVec 64 → State :=
  match op with
  | 0x01 => doJmp | 0x02 => doJz | 0x03 => doJnz | 0x04 => doCall | 0x05 => doRet | 0x06 => doLoop | 0x07 => doEndl
  | 0x08 => doWait | 0x09 => doSig | 0x0A => effHalt
  | 0x10 => doMov | 0x11 => doAddi | 0x12 => doAdd | 0x13 => doSub | 0x14 => doAnd | 0x15 => doOr | 0x16 => doXor
  | 0x17 => doShl | 0x18 => doShr | 0x19 => doCmp | 0x1A => doLd | 0x1B => doSt
  | _ => doNop

/-- The effect of an instruction of the FSQ, by opcode. -/
def effFsq (op : Nat) : State → Nat → BitVec 64 → State :=
  match op with
  | 0x20 => effMark | 0x21 => doDamage | 0x22 => doBand | 0x23 => doZlist | 0x24 => doBudget | 0x25 => doFlip
  | 0x26 => doTestslotRow
  | _ => effScalar op

/-! ### Debug halts (R550, R551, R557) -/

/-- The Stoker goes on after a pause or a halt: what waited for it leaves (Table 20-5). -/
def State.stokerBack (s : State) : State :=
  if s.paused then s
  else
    let t := (s.rspRelease.stagePump).switchRecord
    let t : State := if t.pwr.dueWrites then State.popCheckpoint { t with pwr := { t.pwr with dueWrites := false } } else t
    t.nandKick.swapAuto

/-- One FSQ instruction under a debug halt, from program memory; ue: its word has an uncorrectable error. -/
def State.fsqStep (s : State) (ue : Bool) : State :=
  if s.seqRuns .fsq && s.flag TRACE_HALT_FSQ_HALT && s.comp.backlog.isEmpty then
    let w := SMap.get progFill (s.seq 8).prog (s.seq 8).pc.toNat
    s.issueWord .fsq w ue (effFsq (wOp w))
  else s

/-- A write of TRACE_HALT: refused as a lock violation where a scope it needs is closed (R549, R557). -/
def State.haltWrite (s : State) (v : Word) (ue : Bool) : State × Bool :=
  let stk := fieldIn v TRACE_HALT_STK_HALT != s.getF TRACE_HALT_STK_HALT || fieldIn v TRACE_HALT_STK_STEP == 1
  let seq := fieldIn v TRACE_HALT_FSQ_HALT != s.getF TRACE_HALT_FSQ_HALT || fieldIn v TRACE_HALT_FSQ_STEP == 1 ||
    fieldIn v TRACE_HALT_PSQ_HALT != 0
  if (stk && !s.scope 1) || (seq && !s.scope 2) then (s.lockViol TRACE_HALT v, false)
  else
    let was := s.flag TRACE_HALT_STK_HALT
    let t := s.setF TRACE_HALT_STK_HALT (fieldIn v TRACE_HALT_STK_HALT)
    let t := t.setF TRACE_HALT_FSQ_HALT (fieldIn v TRACE_HALT_FSQ_HALT)
    let t := if was && !t.flag TRACE_HALT_STK_HALT then t.stokerBack else t
    let t := (List.range 8).foldl (fun (u : State) n => if (fieldIn v TRACE_HALT_PSQ_HALT).testBit n then u.psqStop n else u) t
    (if fieldIn v TRACE_HALT_FSQ_STEP = 1 then t.fsqStep ue else t, true)

/-- The word of TRACE_HALT with its halts as they stand. -/
def State.haltNow (s : State) : Word := BitVec.ofNat 32 (s.getF TRACE_HALT_STK_HALT + 4 * s.getF TRACE_HALT_FSQ_HALT)

/-- A write of TRACE_HALT and its response. -/
def State.haltRow (s : State) (v : Word) (ue : Bool) : State :=
  let x := s.haltWrite v ue
  x.1.emit (.bus (!x.2) 0)

/-- STK_HALT, STK_STEP, FSQ_HALT, FSQ_STEP, PSQ_HALT: writes of one field, the halts beside it as they stand. A Stoker step has no effect
on anything of the part but the Stoker's own program. -/
def evStkHalt (on : Bool) (s : State) : State := s.haltRow (BitVec.ofNat 32 ((if on then 1 else 0) + 4 * s.getF TRACE_HALT_FSQ_HALT)) false
def evStkStep (s : State) : State := s.haltRow (s.haltNow ||| 2) false
def evFsqHalt (on : Bool) (s : State) : State := s.haltRow (BitVec.ofNat 32 (s.getF TRACE_HALT_STK_HALT + (if on then 4 else 0))) false
def evFsqStep (ue : Bool) (s : State) : State := s.haltRow (s.haltNow ||| 8) ue
def evPsqHalt (mask : Nat) (s : State) : State := s.haltRow (s.haltNow ||| BitVec.ofNat 32 (mask % 256 * 16)) false

/-! ### Trace registers (R552, R553, R556) -/

/-- TRACE_SWMSG: a software message entry of the Stoker, where it is traced. -/
def State.swMsg (s : State) (v : Word) : State := if s.flag TRACE_CTRL_STK_EN then s.trace64 0 3 v else s

/-- TRACE_SWMSG. -/
def evTraceSwmsg (v : Word) (s : State) : State := (s.swMsg v).emit (.bus false 0)

/-- The trace counts cleared. -/
def State.traceClrcnt (s : State) : State := (s.setReg TRACE_N_DROPPED 0).setReg TRACE_N_EXTEST_REFUSED 0

/-- The ring emptied (R556). -/
def State.traceEmpty (s : State) : State :=
  let t : State := { s with trace := [] }
  (((t.setF TRACE_WPTR_PTR 0).setFlag TRACE_STAT_WRAPPED false).setFlag TRACE_STAT_FULL false).setFlag TRACE_STAT_RETAINED false

/-- A write of TRACE_CTRL: CLEAR only while scope 3 is open, and each enable that rises writes an ENABLE marker. -/
def State.traceCtrlWrite (s : State) (v : Word) : State × Bool :=
  if fieldIn v TRACE_CTRL_CLEAR = 1 ∧ !s.scope 3 then (s, false)
  else
    let t := s.plainWrite TRACE_CTRL v
    let t := if fieldIn v TRACE_CTRL_CLEAR = 1 then t.traceEmpty else t
    let t := if fieldIn v TRACE_CTRL_CLRCNT = 1 then t.traceClrcnt else t
    let up := fun (f : Field) => !s.flag f && t.flag f
    let n := (if up TRACE_CTRL_STK_EN then 1 else 0) + (if up TRACE_CTRL_SEQ_EN then 1 else 0)
    ((List.range n).foldl (fun (u : State) _ => u.traceMark 13 0) t, true)

/-- A write of TRACE_CTRL and its response. -/
def State.traceCtrlRow (s : State) (v : Word) : State :=
  let x := s.traceCtrlWrite v
  x.1.emit (.bus (!x.2) 0)

/-- TRACE_ENABLE: STK_EN and SEQ_EN are written, the rest of TRACE_CTRL as it stands. -/
def evTraceEnable (stk seq : Bool) (s : State) : State :=
  s.traceCtrlRow (putBits (putBits (s.reg TRACE_CTRL) 1 1 (if stk then 1 else 0)) 2 2 (if seq then 1 else 0))

/-- TRACE_CLEAR: a write of 1 to CLEAR. -/
def evTraceClear (s : State) : State := s.traceCtrlRow (putBits (s.reg TRACE_CTRL) 5 5 1)

/-- A read of TRACE_RDATA_LO (high false) or TRACE_RDATA_HI: the low read latches the high word, the high read moves on. -/
def State.traceRead (s : State) (high : Bool) : State × Bool × Word :=
  if !s.scope 3 then (s, false, 0)
  else if high then
    let a := s.getF TRACE_RADDR_ADDR
    (s.setF TRACE_RADDR_ADDR (a + 1), true, SMap.get (fun _ => (0 : Word)) s.latch TRACE_RDATA_HI)
  else
    let e := SMap.get (fun _ => (0 : BitVec 64)) s.trace (s.getF TRACE_RADDR_ADDR)
    ({ s with latch := SMap.set (fun _ => (0 : Word)) s.latch TRACE_RDATA_HI (e.extractLsb' 32 32) }, true, e.extractLsb' 0 32)

/-- TRACE_RDATA_READ. -/
def evTraceRdataRead (high : Bool) (s : State) : State :=
  let x := s.traceRead high
  x.1.emit (.bus (!x.2.1) x.2.2.toNat)

/-! ### JTAG (R547, R548) -/

/-- A JTAG instruction is selected: under a closed scope it acts as BYPASS. -/
def State.jtagSelect (s : State) (code : Nat) (ok : Bool) : State := { s with jtag := if ok then code else 0xFF }

/-- Every PSQ is stopped and every bank is in the bank safe state. -/
def State.allSafe (s : State) : Bool := s.psqsStopped && (List.range 8).all fun n => s.flag (PSQ_STAT_SAFE n)

/-- EXTEST or CLAMP: in effect where scope 0 is open and every bank is safe; otherwise BYPASS. -/
def State.jtagDrive (s : State) (code : Nat) : State :=
  if !s.scope 0 then s.jtagSelect code false
  else if s.allSafe then s.jtagSelect code true
  else (s.count TRACE_N_EXTEST_REFUSED 1).jtagSelect code false

/-- What the selected instruction shifts out: IDCODE its code, SAMPLE/PRELOAD the balls observed, BYPASS its one bit. -/
def State.shiftOut (s : State) (balls : Nat) : State :=
  if s.jtag = 1 then s.emit (.jtag 0x172969AB) else if s.jtag = 2 ∨ s.jtag = 3 then s.emit (.jtag balls) else s.emit (.jtag 0)

/-- TAP_RESET: IDCODE is selected. -/
def evTapReset (s : State) : State := s.jtagSelect 1 true
/-- IDCODE. -/
def evIdcode (s : State) : State := (s.jtagSelect 1 true).shiftOut 0
/-- SAMPLE_PRELOAD: the balls as they stand. -/
def evSamplePreload (balls : Nat) (s : State) : State := (s.jtagSelect 2 (s.scope 0)).shiftOut balls
/-- EXTEST, with the balls observed. -/
def evExtest (balls : Nat) (s : State) : State := (s.jtagDrive 3).shiftOut balls
/-- CLAMP. -/
def evClamp (s : State) : State := (s.jtagDrive 4).shiftOut 0
/-- HIGHZ: every output is tri-state while it is selected. -/
def evHighz (s : State) : State := (s.jtagSelect 5 (s.scope 0)).shiftOut 0
/-- BYPASS. -/
def evBypass (s : State) : State := (s.jtagSelect 0xFF true).shiftOut 0

/-- The drivers of a bank that are on at the balls: HIGHZ turns every output off. -/
def State.driversOn (s : State) (n : Nat) : BitVec 32 := if s.jtag = 5 then 0 else (s.bank n).drv

end Sys2Proof.Machine
end

