-- ==== Sys2Proof/Machine/Ddr.lean ====
section
/-! DEFINITION. Machine/Ddr.lean: the DDR5 controller (R395 to R405): address mapping, page policy, the retry buffer and replay, retraining,
data errors and the patrol scrub. -/

namespace Sys2Proof.Machine

/-- The first DDR5 address. -/
def ddrBase : Nat := 0x1000000000

/-- One subchannel. -/
def State.ddrSub (s : State) (k : Nat) : DdrSub := SMap.get (fun _ => DdrSub.init) s.mc.sub k

/-- s with one subchannel set; DDR_STAT.REPLAYING follows. -/
def State.setDdrSub (s : State) (k : Nat) (d : DdrSub) : State :=
  let t : State := { s with mc := { s.mc with sub := SMap.set (fun _ => DdrSub.init) s.mc.sub k d } }
  t.setFlag DDR_STAT_REPLAYING ((t.ddrSub 0).replay || (t.ddrSub 0).retrain || (t.ddrSub 1).replay || (t.ddrSub 1).retrain)

/-- The controller serves requests: trained and not failed (R396). -/
def State.ddrServes (s : State) : Bool := s.ddrHere && s.flag DDR_STAT_TRAINED && !s.flag DDR_STAT_TRAIN_FAIL

/-- The address lies in the fitted capacity (R416, R520). -/
def State.inDdr (s : State) (a : Nat) : Bool := s.ddrHere && decide (ddrBase ≤ a) && decide (a < ddrBase + s.ddrSize)

/-- The subchannel of an address: a[6] (R397). -/
def ddrSubOf (a : Nat) : Nat := (a - ddrBase) / 64 % 2

/-- The bank of an address, with its rank, and its row (R397); six column bits above the burst, as DDR5 devices of x8 and x16 width have. -/
def State.ddrBank (s : State) (a : Nat) : Nat × Nat :=
  let x := a - ddrBase
  let up := if s.flag DDR_CFG_DEVW then 11 else 12
  let ranks := if s.flag DDR_CFG_RANKS then 2 else 1
  (x / 2 ^ (up + 6) % ranks * 64 + x / 128 % 2 ^ (up - 7), x / 2 ^ (up + 6) / ranks)

/-- The row that stands open in a bank: until DDR_PAGE.IDLE ns pass without an access (R399). -/
def State.openRow (s : State) (k bank : Nat) : Option Nat :=
  match SMap.get (fun _ => none) (s.ddrSub k).rows bank with
  | some x => if s.wtb < x.2 + 64 * s.getF DDR_PAGE_IDLE then some x.1 else none
  | none => none

/-- The bank after an access: closed by a CLOSE request, else the row of the access left open (R399). -/
def State.touchRow (s : State) (rows : SMap (Option (Nat × Nat))) (r : BusReq) : SMap (Option (Nat × Nat)) :=
  let b := s.ddrBank r.addr
  SMap.set (fun _ => none) rows b.1 (if r.close then none else some (b.2, s.wtb))

/-- A write that needs a read-modify-write: narrower than the 8 aligned bytes of an ECC word (R400). -/
def narrow (r : BusReq) : Bool := r.write && (r.bytes % 8 != 0 || r.addr % 8 != 0)

/-- The subchannel issues no command (R401 to R403). -/
def DdrSub.blocked (d : DdrSub) : Bool := d.alert || d.recov || d.replay || d.retrain || decide (32 ≤ d.buf.length)

/-- The bytes of a request that writes. -/
def reqData (r : BusReq) : List Byte := (r.data ++ List.replicate r.bytes 0).take r.bytes

/-- A command is issued: it enters the retry buffer and its row opens or closes. A whole write is made; a narrow one waits for the word it
reads (R399 to R401). -/
def State.ddrIssue (s : State) (r : BusReq) : State :=
  let k := ddrSubOf r.addr
  let d := s.ddrSub k
  let t := s.setDdrSub k { d with buf := d.buf ++ [r], rows := s.touchRow d.rows r }
  if narrow r then t.count DDR_N_RMW 1
  else if r.write then (t.ddrWrite (r.addr - ddrBase) (reqData r)).emit (.bus false 0)
  else t

/-- Waiting requests are issued while the subchannel takes commands. -/
def State.ddrDrain (s : State) (k : Nat) : State :=
  (s.ddrSub k).wait.foldl (fun (u : State) r =>
    let d := u.ddrSub k
    if d.blocked then u else (u.setDdrSub k { d with wait := d.wait.drop 1 }).ddrIssue r) s

/-! ### Uncorrectable errors (Table 15-4) -/

/-- A slot write under way stops with STORE_MEM; no journal record is written. -/
def State.storeMem (s : State) : State :=
  match s.sto.writes with
  | w :: _ => (s.writeFail w 0x0606).nandKick
  | [] => s

/-- What an uncorrectable access does at its requester. -/
def State.ueOutcome (s : State) (r : BusReq) : State :=
  if r.req ≤ 1 then s.emit (.stoker 1)
  else if 4 ≤ r.req ∧ r.req ≤ 7 then evBandJobComplete (r.req - 4) true s
  else if r.req = 10 then s.emit (.bus false 0)
  else if r.req = 13 then s.storeMem
  else if r.req = 14 then evMirrorAckTimeout s
  else s.emit (.bus true 0)

/-- A request reaches the controller: served, made to wait, or answered with an error response while the controller is down (R401 to R403). -/
def State.ddrRequest (s : State) (r : BusReq) : State :=
  let k := ddrSubOf r.addr
  let d := s.ddrSub k
  if s.flag DDR_STAT_DOWN then s.ueOutcome r
  else if !s.ddrServes || d.blocked || !d.wait.isEmpty then s.setDdrSub k { d with wait := d.wait ++ [r] }
  else s.ddrIssue r

/-- Where an error is recorded: DDR_CEADDR or DDR_UEADDR with its requester (R404). -/
def State.ceAt (s : State) (a : Nat) : State :=
  let t := ((s.count DDR_N_CE 1).setFlag DDR_STAT_CE true).setReg DDR_CEADDR_LO (BitVec.ofNat 32 a)
  t.setReg DDR_CEADDR_HI (BitVec.ofNat 32 (a / 2 ^ 32 % 256))
def State.ueAt (s : State) (a req : Nat) : State :=
  let t := ((s.count DDR_N_UE 1).setFlag DDR_STAT_UE true).setReg DDR_UEADDR_LO (BitVec.ofNat 32 a)
  t.setReg DDR_UEADDR_HI (BitVec.ofNat 32 (a / 2 ^ 32 % 256 + req % 16 * 256))

/-- The access completes: the data of a read, or the merged word of a narrow write. -/
def State.ddrDeliver (s : State) (r : BusReq) : State :=
  if r.write then (s.ddrWrite (r.addr - ddrBase) (reqData r)).emit (.bus false 0)
  else s.emit (.bus false (leNat ((List.range r.bytes).map fun i => s.ddrByte (r.addr - ddrBase + i))))

/-- DDR_REQUEST (R399, R400): a request of a master at the controller. -/
def evDdrRequest (r : BusReq) (s : State) : State := if s.inDdr r.addr then s.ddrRequest r else s.decErr r.addr r.req r.write

/-- DDR_READ_DATA (R404): read data returns, with the bits in error in its worst ECC word. A corrected word is written back as it was read,
which changes nothing that a later read returns. -/
def evDdrReadData (r : BusReq) (bits : Nat) (s : State) : State :=
  if !s.ddrServes || !s.inDdr r.addr || s.flag DDR_STAT_DOWN then s
  else
    let t := if bits = 0 then s.ddrDeliver r
      else if bits = 1 then (s.ceAt r.addr).ddrDeliver r
      else (s.ueAt r.addr r.req).ueOutcome r
    t.panicRead r

/-! ### Refresh and tracking (R398): neither holds state of its own -/

/-- DDR_REFRESH: refresh goes ahead of every request and changes no data. -/
def evDdrRefresh (s : State) : State := s

/-- DDR_MR4_POLL: whether a rank reports a doubled refresh rate. -/
def evDdrMr4Poll (x2 : Bool) (s : State) : State := if s.ddrServes then s.setFlag DDR_STAT_REFX2 x2 else s

/-- DQS_ADJUST: delays are adjusted under traffic. -/
def evDqsAdjust (s : State) : State := s

/-! ### Parity, replay and retraining (R401 to R403) -/

/-- The subchannels retrain: one retraining, counted and raised once. -/
def State.ddrRetrain (s : State) (ks : List Nat) : State :=
  let t := ks.foldl (fun (u : State) k =>
    u.setDdrSub k { u.ddrSub k with alert := false, recov := false, replay := false, fails := 0, retrain := true }) s
  let t := ((t.setFlag DDR_STAT_RETRAIN true).count DDR_N_RETRAINS 1).irq 4
  let t : State := { t with mc := { t.mc with retrains := (t.life :: t.mc.retrains).take 2 } }
  t.healthReg.event 0x0012 [] .owner

/-- DDR_RETRY_ACK: the window of the oldest entry has closed without an alert; the last one of a replay completes it. -/
def evDdrRetryAck (k : Nat) (s : State) : State :=
  let d := s.ddrSub k
  if !s.ddrServes || d.alert || d.recov || d.retrain then s
  else
    let done := d.replay && decide (d.buf.length ≤ 1)
    let t := s.setDdrSub k { d with buf := d.buf.drop 1, replay := d.replay && !done, fails := if done then 0 else d.fails }
    (if done then t.count DDR_N_REPLAYS 1 else t).ddrDrain k

/-- DDR_ALERT: the subchannel stops; an alert during a replay fails it, and the fourth failure in a row retrains. -/
def evDdrAlert (k : Nat) (s : State) : State :=
  let d := s.ddrSub k
  if !s.ddrServes || d.retrain then s
  else
    let t := s.count DDR_N_PARERR 1
    if d.replay then
      let t := t.count DDR_N_REPLAYFAIL 1
      if 4 ≤ d.fails + 1 then t.ddrRetrain [k]
      else t.setDdrSub k { d with alert := true, replay := false, fails := d.fails + 1 }
    else t.setDdrSub k { d with alert := true }

/-- DDR_ALERT_DEASSERT: the RECOV wait begins. -/
def evDdrAlertDeassert (k : Nat) (s : State) : State :=
  let d := s.ddrSub k
  if d.alert then s.setDdrSub k { d with alert := false, recov := true } else s

/-- Every row is precharged, and the unacknowledged commands are issued again, oldest first. -/
def State.ddrReplay (s : State) (k : Nat) : State :=
  let d := s.ddrSub k
  let rows := d.buf.foldl (fun m r => s.touchRow m r) []
  let t := s.setDdrSub k { d with recov := false, retrain := false, rows := rows, replay := !d.buf.isEmpty,
                                  fails := if d.buf.isEmpty then 0 else d.fails }
  t.ddrDrain k

/-- DDR_RECOV_EXPIRY. -/
def evDdrRecovExpiry (k : Nat) (s : State) : State := if (s.ddrSub k).recov then s.ddrReplay k else s

/-- DDR_RETRAIN_DONE: the buffer is replayed, or the controller is down and every request that waits is answered with an error. -/
def evDdrRetrainDone (k : Nat) (ok : Bool) (s : State) : State :=
  let d := s.ddrSub k
  if !d.retrain then s
  else if ok then s.ddrReplay k
  else
    let w := [0, 1].flatMap fun i => (s.ddrSub i).wait
    let t := s.setDdrSub 0 { s.ddrSub 0 with wait := [], retrain := decide (k ≠ 0) && (s.ddrSub 0).retrain }
    let t := t.setDdrSub 1 { t.ddrSub 1 with wait := [], retrain := decide (k ≠ 1) && (t.ddrSub 1).retrain }
    w.foldl State.ueOutcome (t.setFlag DDR_STAT_DOWN true)

/-- A write of DDR_CTRL.RETRAIN: both subchannels. -/
def State.ddrRetrainWrite (s : State) : State := if s.ddrServes && !s.flag DDR_STAT_DOWN then s.ddrRetrain [0, 1] else s

/-- DDR_RETRAIN and DDR_SCRUB_NOW: owner writes of DDR_CTRL. -/
def evDdrRetrain (s : State) : State := s.ddrRetrainWrite.emit (.bus false 0)
def State.ddrScrubWrite (s : State) : State := if s.ddrHere then { s with mc := { s.mc with scrubOn := true, scrubAt := 0 } } else s
def evDdrScrubNow (s : State) : State := s.ddrScrubWrite.emit (.bus false 0)

/-- PATROL_SCRUB (R405): the next 64 bytes are read, with the bits in error found. The scrub has no requester ID of Table 15-5, so
UE_REQ after its error is free. -/
def evPatrolScrub (bits : Nat) (s : State) : State :=
  if !s.ddrServes || s.flag DDR_STAT_DOWN || (s.ddrSub (ddrSubOf (ddrBase + s.mc.scrubAt))).retrain then s
  else
    let a := ddrBase + s.mc.scrubAt
    let t := if bits = 0 then s else if bits = 1 then s.ceAt a else (s.ueAt a (s.free 0 4)).freed
    let next := s.mc.scrubAt + 64
    if s.ddrSize ≤ next then State.count { t with mc := { t.mc with scrubAt := 0, scrubOn := false } } DDR_N_SCRUBPASS 1
    else { t with mc := { t.mc with scrubAt := next } }

end Sys2Proof.Machine
end

