-- ==== Sys2Proof/Machine/Arb.lean ====
section
/-! DEFINITION. Machine/Arb.lean: the arbiters of the fabric (R408 to R411): 0 DDR5, 1 to 8 the SRAM banks, 9 register space, 10 boot ROM. -/

namespace Sys2Proof.Machine

/-- One arbiter. -/
def State.arb (s : State) (a : Nat) : Arb := SMap.get (fun _ => Arb.init) s.arbs a

/-- s with one arbiter set; its status register follows. -/
def State.setArb (s : State) (a : Nat) (x : Arb) : State :=
  let t : State := { s with arbs := SMap.set (fun _ => Arb.init) s.arbs a x }
  let t := (t.setFlag (FAB_ARB_STAT_BUSY a) x.owner.isSome).setFlag (FAB_ARB_STAT_DRAINED a) x.owner.isNone
  let t := match x.owner with | some q => t.setF (FAB_ARB_STAT_OWNER a) q.r.req | none => t
  t.setF (FAB_ARB_STAT_QUEUED a) x.queue.length

/-- The requester panics (R407). -/
def State.reqPanics (s : State) (r : Nat) : Bool :=
  if r = 10 then decide (65536 ≤ s.mc.panics) else decide (4 ≤ r) && decide (r ≤ 7) && s.mc.panics.testBit r

/-- The rank of a request at an arbiter: panic, then priority, which AGE lost decisions raise to 7 (R410). -/
def State.arbRank (s : State) (a : Nat) (q : ArbReq) : Nat :=
  let age := s.getF (FAB_ARB_CFG_AGE a)
  (if s.reqPanics q.r.req then 8 else 0) + (if age ≠ 0 ∧ age ≤ q.lost then 7 else s.getF (FAB_PRIO_PRIO q.r.req))

/-- New requests in round-robin order from the requester granted last (R410). -/
def rrOrder (last : Nat) (ps : List ArbReq) : List ArbReq :=
  (List.range 16).flatMap fun i => ps.filter fun q => q.r.req % 16 == (last + 1 + i) % 16

/-- The request that a decision takes: the highest rank, the earlier of two equal ones: parked before new, the older parked one first. -/
def State.arbBest (s : State) (a : Nat) : List ArbReq → Option ArbReq
  | [] => none
  | q :: qs => match s.arbBest a qs with
    | some b => if s.arbRank a q < s.arbRank a b then some b else some q
    | none => some q

/-- Losing requests at the ports are parked while the queue has room; each that first stalls counts QFULL (R409). -/
def State.arbPark (s : State) (a : Nat) (lost : Nat) : State :=
  let x := s.arb a
  let room := 8 - x.queue.length
  let ps := x.ports.map fun q => { q with lost := q.lost + lost }
  let stay := ps.drop room
  let fresh := (x.ports.drop room).filter fun q => q.lost == 0
  (s.setArb a { x with queue := x.queue ++ ps.take room, ports := stay.map fun q => { q with lost := max 1 q.lost } }).count
    (FAB_ARB_N_QFULL a) fresh.length

/-- A decision (R408 to R411): the best request is granted and the others lose; under FREEZE none is granted. -/
def State.arbDecide (s : State) (a : Nat) : State :=
  let x := s.arb a
  if s.flag (FAB_ARB_CFG_FREEZE a) then (s.setArb a { x with owner := none }).arbPark a 0
  else
    match s.arbBest a (x.queue ++ rrOrder x.last x.ports) with
    | none => s.setArb a { x with owner := none }
    | some w =>
      let inQ := x.queue.contains w
      let y : Arb := { x with owner := some w, last := w.r.req,
                              queue := (if inQ then x.queue.erase w else x.queue).map (fun q => { q with lost := q.lost + 1 }),
                              ports := if inQ then x.ports else x.ports.erase w }
      ((s.setArb a y).count (FAB_ARB_N_GRANTS a) 1).arbPark a 1

/-- A request arrives: an idle arbiter grants, a busy one keeps it at its port until the next decision. -/
def State.arbArrive (s : State) (a : Nat) (r : BusReq) : State :=
  let x := s.arb a
  let t := s.setArb a { x with ports := x.ports ++ [{ r := r, left := max 1 r.beats, lost := 0 }] }
  if x.owner.isNone then t.arbDecide a else t

/-- The beats that a grant lasts: BURSTLIM, and at most the 16 of a transfer at the matrix (R408, R413). -/
def State.arbLimit (s : State) (a : Nat) : Nat := min 16 (s.getF (FAB_ARB_CFG_BURSTLIM a))

/-- FREEZE has been cleared on an idle arbiter: arbitration goes on (R411). -/
def State.arbResume (s : State) (a : Nat) : State :=
  if (s.arb a).owner.isNone && !s.flag (FAB_ARB_CFG_FREEZE a) then s.arbDecide a else s

end Sys2Proof.Machine
end

