-- ==== Sys2Proof/Machine/Bus.lean ====
section
/-! DEFINITION. Machine/Bus.lean: register accesses by address, as every bus master makes them (R3, R5 to R8, R280, R340, R516, R521,
R558): which registers the role has, what a write does beyond storing its value, what a read latches or moves on. -/

namespace Sys2Proof.Machine

/-! ### Role (R3, R521) -/

/-- The register block exists in the part's role. -/
def State.blockHere (s : State) (b : Nat) : Bool :=
  if b = 4 then s.ddrHere
  else if b = 10 then s.tile
  else if b = 5 ∨ b = 6 ∨ b = 7 ∨ b = 20 ∨ b = 25 ∨ b = 26 then s.sender
  else true

/-- The bits of a register that are marked for the other role: they read 0 and ignore writes. -/
def State.absentBits (s : State) (a : Nat) : Nat :=
  if s.tile then
    if 0x80100 ≤ a ∧ a < 0x80500 ∧ a % 0x80 = 0 then 0xE
    else if a = HEARTH_POLICY then 1
    else if a = REF_CFG then 7
    else if a = TS_CFG then 0xFFFF0000
    else if a = TS_STAT then 0x10
    else if a = REF_FOFF ∨ a = TS_RUNTO ∨ a = AUD_TXCFG ∨ a = AUD_TXDELAY then 0xFFFFFFFF
    else if 0x1B0020 ≤ a ∧ a ≤ 0x1B0030 then 0xFFFFFFFF
    else if LANE_SLEEP 2 ≤ a ∧ a ≤ LANE_SLEEP 7 then 0xFFFFFFFF
    else if 0x150100 ≤ a ∧ a < 0x150200 ∧ a % 0x40 = 0 then 0x1C00
    else 0
  else
    if a = THERM_TILE ∨ a = AGE_EQH ∨ a = AGE_LUM ∨ a = AGE_LMEAS then 0xFFFFFFFF
    else if AGE_LDEP 0 ≤ a ∧ a ≤ AGE_LDEP 7 then 0xFFFFFFFF
    else if a = AGE_STAT then 0x18
    else if a = TS_STAT then 0x1FF0027
    else 0

/-! ### Counts (CLRCNT) -/

/-- The register is a count. -/
def isCount (a : Nat) : Bool := match regDef a with | some d => d.count | none => false

/-- The counts of the addresses from lo up to hi return to 0. -/
def State.clearCounts (s : State) (lo hi : Nat) : State :=
  { s with regs := s.regs.filter fun e => !(decide (lo ≤ e.1) && decide (e.1 < hi) && isCount e.1) }

/-- The counts of a whole block. -/
def State.clearBlock (s : State) (b : Nat) : State := s.clearCounts (b * 0x10000) ((b + 1) * 0x10000)

/-- PSQ_CTRL.CLRCNT: the bank's counts, PFAIL and FFAIL. -/
def State.clearBank (s : State) (n : Nat) : State :=
  (((s.clearCounts (0xB0000 + 0x1000 * n) (0xB1000 + 0x1000 * n)).setReg (PSQ_FFAIL_LO n) 0).setReg (PSQ_FFAIL_HI n) 0).setReg
    (PSQ_FFAIL_MASK n) 0

/-- The effect of an operation that answers with a bus response, and whether it succeeded. -/
def State.unbus (s : State) : State × Bool :=
  match s.out with
  | .bus e _ :: os => ({ s with out := os }, !e)
  | _ => (s, true)

/-! ### Writes that do more than store -/

/-- FAB_CTRL.COMMIT (R412): every shadow priority at once. -/
def State.fabCommit (s : State) : State := (List.range 16).foldl (fun (u : State) r => u.setF (FAB_PRIO_PRIO r) (u.getF (FAB_PRIO_SH_PRIO r))) s

/-- FAB_COMMIT. -/
def evFabCommit (s : State) : State := s.fabCommit.emit (.bus false 0)

/-- HEARTH_POLICY (R340, R344): RWL fields under its LOCK. -/
def State.policyWrite (s : State) (v : Word) : State × Bool :=
  if s.flag HEARTH_POLICY_LOCK && (v &&& 0x80000007#32 != s.reg HEARTH_POLICY) then (s.lockViol HEARTH_POLICY v, false)
  else
    let t := s.plainWrite HEARTH_POLICY v
    (if fieldIn v HEARTH_POLICY_LOCK = 1 then t.setFlag HEARTH_POLICY_LOCK true else t, true)

/-- REF_CFG (R262, R268): a reference that is disabled is absent; a change of BASESRC carries the ratio of the two clocks. -/
def State.refCfgWrite (s : State) (v : Word) : State :=
  let t := s.plainWrite REF_CFG v
  let t := [0, 1, 2].foldl (fun (u : State) i => if s.flag (enF i) && !u.flag (enF i) then u.refLost i else u) t
  if s.flag REF_CFG_BASESRC = t.flag REF_CFG_BASESRC then t
  else
    let t := if s.flag REF_STAT_DEGRADED then t else t.carryRatio (t.flag REF_CFG_BASESRC)
    let t := (t.setFlag REF_STAT_DEGRADED false).setFlag REF_STAT_BASE_UNQUAL false
    t.setFlag REF_STAT_BASE_COLD (t.onOcxo && !t.tim.warm)

/-- CORD_PCFG: a port that is disabled drops its link. -/
def State.pcfgWrite (s : State) (p : Nat) (v : Word) : State :=
  let t := s.plainWrite (CORD_PCFG p) v
  if s.flag (CORD_PCFG_EN p) && !t.flag (CORD_PCFG_EN p) then ((t.linkOff p).laneSync p).healthReg else t.healthReg

/-- A LAMP register of the generation: a change of it makes a generation change pending (R183, R192). -/
def State.lampWrite (s : State) (a : Nat) (v : Word) : State :=
  let t := s.plainWrite a v
  if t.reg a = s.reg a then t else t.genPending

/-- EMB_PWR: BANK_FRAMES, then SMOULDER (R440). -/
def State.embPwrWrite (s : State) (v : Word) : State :=
  let t := s.plainWrite EMB_PWR v
  if fieldIn v EMB_PWR_SMOULDER = 1 then t.smoulder false else t

/-- PSQ_CTRL: STOP, then START, then CLRCNT; a refused START makes the whole write void (R8, R558). -/
def State.psqCtrlWrite (s : State) (n : Nat) (v : Word) (c : RegCtx) : State × Bool :=
  let t := if fieldIn v (PSQ_CTRL_STOP n) = 1 then s.psqStop n else s
  let r := if fieldIn v (PSQ_CTRL_START n) = 1 then t.psqStart n (c.vddp.getD n (s.getF (PIN_BSTAT_VDDP_MV n))) else (t, 0)
  if r.2 != 0 then ((State.vddpRead s n (r.1.getF (PIN_BSTAT_VDDP_MV n))).setFlag (PIN_BSTAT_VDDP_FAIL n) (r.1.flag (PIN_BSTAT_VDDP_FAIL n)), false)
  else (if fieldIn v (PSQ_CTRL_CLRCNT n) = 1 then r.1.clearBank n else r.1, true)

/-- LANE_ESCAN_CFG: ABORT, then START. -/
def State.escanWrite (s : State) (l : Nat) (v : Word) : State × Bool :=
  if !s.regAccepts s.bankRuns (LANE_ESCAN_CFG l) v then (s, false)
  else
    let t := s.plainWrite (LANE_ESCAN_CFG l) v
    let t := if fieldIn v (LANE_ESCAN_CFG_ABORT l) = 1 then (evEscanAbort l t).unbus.1 else t
    if fieldIn v (LANE_ESCAN_CFG_START l) = 1 then (evEscanStart l v t).unbus else (t, true)

/-- The blocks' control words: what their write-only bits do besides CLRCNT. -/
def State.ctrlWrite (s : State) (b : Nat) (v : Word) (c : RegCtx) : State × Bool :=
  let one := fun (f : Field) => fieldIn v f == 1
  match b with
  | 2 => (if one HEARTH_CTRL_NONCE_REQ then s.newNonce else s, true)
  | 3 => (if one FAB_CTRL_COMMIT then s.fabCommit else s, true)
  | 4 =>
    let t := if one DDR_CTRL_RETRAIN then s.ddrRetrainWrite else s
    (if one DDR_CTRL_SCRUB_NOW then t.ddrScrubWrite else t, true)
  | 5 =>
    if one FSQ_CTRL_START then
      let r := s.fsqStart
      (r.1, r.2 == 0)
    else (s, true)
  | 6 =>
    let t := if one COMP_CTRL_FULLDMG then s.fullDamage else s
    (if one COMP_CTRL_GCOMMIT then t.setFlag COMP_STAT_GEO_PEND true else t, true)
  | 10 => (if one LAMP_CTRL_SWEEP then s.genPending else s, true)
  | 15 => (if one NAND_CTRL_SCRUB_NOW then (evNandScrubNowRow s).unbus.1 else s, true)
  | 17 => (if one KILN_CTRL_RUN then s.kilnTrigger else s, true)
  | 18 => (if one THERM_CTRL_CLRCNT then s.setF THERM_TEMP_PEAK 0 else s, true)
  | 19 => (if one AGE_CTRL_PLAN_NOW then s.planDue c.ack else s, true)
  | 20 =>
    let t := s.plainWrite CAM_CTRL v
    (if one CAM_CTRL_PCOMMIT then t.camCommit else t, true)
  | 26 => (if one POP_CTRL_CKPT then s.popCheckpoint else s, true)
  | 27 =>
    let t := if one FW_CTRL_COMMIT then s.fwCommit else s
    (if one FW_CTRL_ABANDON then t.fwRevert else t, true)
  | _ => (s, true)

/-- The bit of CLRCNT in a block's control word. -/
def clrcntBit (b : Nat) : Nat := if b = 5 then 1 else 0

/-- A write of a block's control word at offset 0. -/
def State.blockCtrl (s : State) (b : Nat) (v : Word) (c : RegCtx) : State × Bool :=
  let r := s.ctrlWrite b v c
  if r.2 && v.getLsbD (clrcntBit b) then (r.1.clearBlock b, true) else r

/-- The blocks whose word at offset 0 is a control word with CLRCNT and nothing of its own kind of write. -/
def ctrlBlocks : List Nat := [1, 2, 3, 4, 5, 6, 8, 9, 10, 14, 15, 16, 17, 18, 19, 20, 21, 23, 24, 25, 26, 27]

/-- SRC_CTRL stands at its own offset. -/
def isCtrl (a : Nat) : Bool := (a % 0x10000 == 0 && ctrlBlocks.contains (a / 0x10000)) || a == SRC_CTRL

/-- A write to a register that stores and does something more, by block; v has the absent bits as they stand. -/
def State.specialWrite (s : State) (a : Nat) (v : Word) (c : RegCtx) : Option (State × Bool) :=
  let o := a % 0x10000
  let ok := s.regAccepts s.bankRuns a v
  let guard := fun (t : State) => if ok then some (t, true) else some (s, false)
  if isCtrl a then some (if a = SRC_CTRL then (if v.getLsbD 0 then (s.clearBlock 7, true) else (s, true)) else s.blockCtrl (a / 0x10000) v c)
  else match a / 0x10000 with
  | 0 => if a = SYS_CTRL then some (s.sysCtrlWrite v) else none
  | 1 =>
    if a = EMB_PWR then guard (s.embPwrWrite v)
    else if a = EMB_ALARM_HI then
      let t := s.plainWrite a v
      guard ((t.setLive EMB_ALARM_LO (t.reg EMB_ALARM_LO)).setLive EMB_ALARM_HI (t.reg EMB_ALARM_HI))
    else none
  | 2 => if a = HEARTH_POLICY then some (s.policyWrite v) else none
  | 3 =>
    if 0x100 ≤ o ∧ o < 0x260 ∧ o % 0x20 = 0 then guard ((s.plainWrite a v).arbResume ((o - 0x100) / 0x20)) else none
  | 5 => if a = FSQ_SWEV then some (s.swevWrite v, true) else none
  | 6 => if COMP_DMG 0 0 0 ≤ a ∧ a ≤ COMP_DMG 7 63 7 then some (s.dmgWrite a v c.sources, true) else none
  | 8 => if 0x100 ≤ o ∧ o < 0x500 ∧ o % 0x80 = 0 then guard (s.pcfgWrite ((o - 0x100) / 0x80) v) else none
  | 9 =>
    if a = CLM_SWAP then
      some (if fieldIn v CLM_SWAP_REQ = 1 then s.swapOwner none else (s, true))
    else none
  | 10 =>
    if a = LAMP_CLKE then some (s.clkeWrite v)
    else if a = LAMP_BRIGHT then guard (s.setBright (fieldIn v LAMP_BRIGHT_BRIGHT))
    else if a = LAMP_TF ∨ a = LAMP_RESERVE ∨ a = LAMP_CAL ∨ a = LAMP_TCFG then guard (s.lampWrite a v)
    else none
  | 11 =>
    let n := o / 0x1000
    if o = 0x8100 then some (if v.getLsbD 0 then s.clearCounts 0xB8100 0xC0000 else s, true)
    else if a = PSQ_SWEV then some (s.swevWrite v, true)
    else if 8 ≤ n then none
    else if a = PSQ_CTRL n then some (s.psqCtrlWrite n v c)
    else if a = PSQ_DDATA n then some (s.ddataWrite n v, true)
    else none
  | 12 =>
    let r := s.pinWrite a v
    some (r.1, !r.2)
  | 13 =>
    if a = TIM_CTRL then some (s.timAbort (v.toNat % 65536), true)
    else if 0x100 ≤ o ∧ o < 0x500 ∧ o % 0x40 = 0 then guard (s.timArm ((o - 0x100) / 0x40) v)
    else none
  | 14 =>
    if a = REF_CFG then guard (s.refCfgWrite v)
    else if a = REF_NTOFF_HI then
      some (if s.tile then (s.setReg a v).setLive a v else evNtoffWrite v s, true)
    else if a = REF_NET then some (if s.tile then s.plainWrite a v else s.netValidWrite State.netLost (v.getLsbD 0), true)
    else none
  | 18 => if a = THERM_TILE then guard (s.plainWrite a v).ceilTherm else none
  | 20 => if a = CAM_CFG then some (s.camCfgWrite v) else none
  | 21 => if 0x100 ≤ o ∧ o < 0x200 ∧ o % 0x40 = 0 then some (s.audCfgWrite ((o - 0x100) / 0x40) v) else none
  | 22 =>
    if a = TRACE_CTRL then some (s.traceCtrlWrite v)
    else if a = TRACE_HALT then some (s.haltWrite v c.ue)
    else if a = TRACE_SWMSG then some (s.swMsg v, true)
    else none
  | 23 =>
    if 0x100 ≤ o ∧ o < 0x700 ∧ o % 0x40 = 8 then some (s.escanWrite ((o - 0x100) / 0x40) v) else none
  | _ => none

/-- One aligned 32-bit write at an offset of register space (R5 to R8): whether it succeeds. FSQ offsets 0x1000 to 0x1FFF are the FSQ's data
memory, and a word written there is mirrored (R516). -/
def State.regWrite (s : State) (a : Nat) (v : Word) (c : RegCtx) : State × Bool :=
  if a % 4 ≠ 0 then (s, false)
  else if !s.blockHere (a / 0x10000) then (s, true)
  else if 0x51000 ≤ a ∧ a < 0x52000 then
    let t := s.setDmem 8 (a - 0x51000) v
    ({ t with clm := { t.clm with dmemWords := SMap.insert ((a - 0x51000) / 4) v t.clm.dmemWords } }, true)
  else
    let m := BitVec.ofNat 32 (s.absentBits a)
    let v := (v &&& ~~~ m) ||| (s.reg a &&& m)
    match s.specialWrite a v c with
    | some r => r
    | none => if s.regAccepts s.bankRuns a v then (s.plainWrite a v, true) else (s, false)

/-! ### Reads -/

/-- The groups of Table 17-1 in domain order: the first domain after the group, what it is in LIT and in BANKED (0 gated, 1 on demand, 2
running), and the roles that use it (1 SENDER, 2 TILE, 3 both). -/
def domGroups : List (Nat × Nat × Nat × Nat) :=
  [(1, 2, 2, 3), (3, 1, 1, 3), (5, 1, 1, 3), (17, 1, 1, 3), (23, 1, 1, 3), (24, 2, 2, 1), (32, 1, 0, 1), (40, 2, 2, 1), (60, 2, 2, 3),
   (108, 1, 1, 3), (116, 2, 2, 3), (180, 2, 2, 3), (184, 1, 1, 2), (200, 2, 2, 3), (202, 1, 0, 1), (210, 1, 1, 3), (213, 1, 1, 3),
   (215, 1, 1, 3), (231, 2, 2, 3), (236, 1, 1, 3)]

/-- Domain d runs: 0 no, 2 yes, 1 open: on demand, or a lane or link domain whose use the manual does not place. -/
def State.domRuns (s : State) (d : Nat) : Nat :=
  match domGroups.find? fun g => decide (d < g.1) with
  | none => 0
  | some g =>
    let here := (if s.tile then g.2.2.2 / 2 else g.2.2.2 % 2) == 1 && !(17 ≤ d && d < 23 && !s.ddrHere)
    if !here then 0
    else if d = 0 then 2
    else if s.getF EMB_PWR_STATE = 2 then 0
    else if s.tile ∧ 40 ≤ d ∧ d < 60 then 1
    else if s.getF EMB_PWR_STATE = 1 then g.2.2.1
    else g.2.1

/-- A word of EMB_DOM; an open domain's bit is free. -/
def State.domWord (s : State) (k : Nat) : Nat :=
  (List.range 32).foldl (fun n j =>
    let r := s.domRuns (32 * k + j)
    if r = 2 then n + 2 ^ j else if r = 1 then n + s.free j 1 * 2 ^ j else n) 0

/-- A register that shows what the part meets, and that no command carries: the running domains, and the measured rails. -/
def openReg (a : Nat) : Bool := (decide (EMB_DOM 0 ≤ a) && decide (a ≤ EMB_DOM 7)) || (decide (SUP_MEAS 0 ≤ a) && decide (a ≤ SUP_MEAS 3))

/-- A register's word as it stands: what the part computes when it is read, and else what it holds. -/
def State.regValue (s : State) (a : Nat) : Word :=
  if a = REF_WTB_LO then BitVec.ofNat 32 s.ns
  else if a = REF_WTB_HI then BitVec.ofNat 32 (s.ns / 2 ^ 32)
  else if a = REF_WTB_FRAC then BitVec.ofNat 32 (s.wtb % 64)
  else if a = REF_TSC32 then BitVec.ofNat 32 s.ns
  else if a = EMB_LIFE_LO then BitVec.ofNat 32 s.life
  else if a = EMB_LIFE_HI then BitVec.ofNat 32 (s.life / 2 ^ 32 % 65536)
  else if EMB_DOM 0 ≤ a ∧ a ≤ EMB_DOM 7 then BitVec.ofNat 32 (s.domWord ((a - EMB_DOM 0) / 4))
  else if SUP_MEAS 0 ≤ a ∧ a ≤ SUP_MEAS 3 then putBits (s.reg a) 11 0 (s.free a 12)
  else if a = FSQ_SWEV then s.reg PSQ_SWEV
  else if a = KILN_TDATA then s.kilnData
  else if a = POP_BOFF_LO ∨ a = POP_BOFF_HI then
    let b := unsigned 64 (s.pop.boff.getD 0)
    BitVec.ofNat 32 (if a = POP_BOFF_LO then b else b / 2 ^ 32)
  else if a = POP_BT_LO then BitVec.ofNat 32 s.btMs
  else if a = POP_BT_HI then BitVec.ofNat 32 (s.btMs / 2 ^ 32)
  else if a = TRACE_STAT then putBits (s.reg a) 3 3 (if s.scope 3 then 1 else 0)
  else s.reg a

/-- The words that a read of a low word latches (R280 and the register tables). -/
def latchedBy (a : Nat) : List Nat :=
  if a = REF_WTB_LO then [REF_WTB_HI, REF_WTB_FRAC]
  else if a = FSQ_FLIP_FCNT_LO then [FSQ_FLIP_FCNT_HI, FSQ_FLIP_T_LO, FSQ_FLIP_T_HI, FSQ_FLIP_ACK]
  else if [EMB_LIFE_LO, DDR_CEADDR_LO, DDR_UEADDR_LO, FSQ_FCNT_LO, CORD_CLAIM_HI_LO, CLM_CLAIM_LO, CLM_SEEN_LO, POP_BOFF_LO, POP_BT_LO,
      POP_RSEQ_LO, FW_STG_F_LO].contains a then [a + 4]
  else if a / 0x10000 = 11 ∧ a % 0x1000 = 0x28 ∧ a < 0xB8000 then [a + 4]
  else if a / 0x10000 = 13 ∧ 0xD0100 ≤ a ∧ a % 0x40 = 0x1C then (List.range 5).map fun i => a + 4 * (i + 1)
  else if a / 0x10000 = 23 ∧ 0x170100 ≤ a ∧ a % 0x40 = 0x18 then [a + 4]
  else []

/-- The word latched for an address, if one is. -/
def State.latched (s : State) (a : Nat) : Option Word := (s.latch.find? fun e => e.1 == a).map (·.2)

/-- What a read of a latched word releases: itself, but the words of a TIM result (R280) and of the flip record (R127, Table 4-6) only with
the last of them. -/
def releasedBy (a : Nat) : List Nat :=
  if FSQ_FLIP_FCNT_HI ≤ a ∧ a ≤ FSQ_FLIP_T_HI then []
  else if a = FSQ_FLIP_ACK then [FSQ_FLIP_FCNT_HI, FSQ_FLIP_T_LO, FSQ_FLIP_T_HI, FSQ_FLIP_ACK]
  else
  if a / 0x10000 = 13 ∧ 0xD0100 ≤ a then (if a % 0x40 = 0x30 then (List.range 5).map fun i => a - 4 * i else []) else [a]

/-- A read of a word that is held as state: latching, latched or plain. -/
def State.plainRead (s : State) (a : Nat) : State × Word :=
  let v := s.regValue a &&& ~~~ BitVec.ofNat 32 (s.absentBits a)
  match s.latched a with
  | some w => ({ s with latch := (releasedBy a).foldl (fun m k => SMap.erase k m) s.latch }, w)
  | none =>
    let t : State := { s with latch := (latchedBy a).foldl (fun m k => SMap.insert k (s.regValue k) m) s.latch }
    (if openReg a then t.freed else t, v)

/-- One aligned 32-bit read at an offset of register space: whether it succeeds, and the data. -/
def State.regRead (s : State) (a : Nat) : State × Bool × Word :=
  let n := a % 0x10000 / 0x1000
  if a % 4 ≠ 0 then (s, false, 0)
  else if !s.blockHere (a / 0x10000) then (s, true, 0)
  else if 0x51000 ≤ a ∧ a < 0x52000 then (s, true, s.dmem 8 (a - 0x51000))
  else if a = TRACE_RDATA_LO ∨ a = TRACE_RDATA_HI then s.traceRead (a == TRACE_RDATA_HI)
  else if a / 0x10000 = 11 ∧ n < 8 ∧ a = PSQ_CDATA n then
    let r := s.cdataRead n
    (r.1, true, r.2)
  else if a / 0x10000 = 11 ∧ n < 8 ∧ a = PSQ_DDATA n then
    let r := s.ddataRead n
    (r.1, true, r.2)
  else
    let r := s.plainRead a
    (r.1, true, r.2)

/-! ### Rows -/

/-- REGISTER_WRITE (R6): a write of a register by its offset in register space. -/
def evRegisterWrite (a : Nat) (v : Word) (c : RegCtx) (s : State) : State :=
  let r := s.regWrite (a % 0x1C0000) v c
  r.1.emit (.bus (!r.2) 0)

/-- A read by its offset, with its response. -/
def State.readRow (s : State) (a : Nat) : State :=
  let r := s.regRead a
  r.1.emit (.bus (!r.2.1) r.2.2.toNat)

/-- LATCHING_READ_LO (R280): a read of the low word of a multi-word register. -/
def evLatchingReadLo (a : Nat) (s : State) : State := s.readRow (a % 0x1C0000)

/-- TIM_RES_READ (R280): a read of one of a channel's result words. -/
def evTimResRead (c k : Nat) (s : State) : State := s.readRow (TIM_RES (c % 16) (k % 6))

/-- CLRCNT: a write of 1 to a CLRCNT bit, every other bit of the register written as it stands or 0. -/
def evClrcnt (x : ClrTarget) (s : State) : State :=
  match x with
  | .bank n => (s.clearBank (n % 8)).emit (.bus false 0)
  | .test => (s.clearCounts 0xB8100 0xC0000).emit (.bus false 0)
  | .block b =>
    if !s.blockHere b || !(b == 0 || b == 7 || b == 22 || ctrlBlocks.contains b) then s.emit (.bus false 0)
    else
      let t := s.clearBlock b
      (if b = 18 then t.setF THERM_TEMP_PEAK 0 else t).emit (.bus false 0)

/-- NET_VALID_WRITE (R281). -/
def evNetValidWrite (v : Bool) (s : State) : State :=
  (if s.tile then s.setFlag REF_NET_NET_VALID v else s.netValidWrite State.netLost v).emit (.bus false 0)

/-- TIM_ARM (R280): a write of TIM_CFG with ARM. -/
def evTimArm (c : Nat) (v : Word) (s : State) : State :=
  let r := s.regWrite (TIM_CFG (c % 16)) (v ||| 4#32) { vddp := [], ue := false, sources := 0, ack := false }
  r.1.emit (.bus (!r.2) 0)

/-- TIM_ABORT (R280). -/
def evTimAbort (m : Nat) (s : State) : State := (s.timAbort m).emit (.bus false 0)

/-- BOFF_EVAL (R356, R357): each ms the billing offset is compared with network time. -/
def evBoffEval (s : State) : State := if s.tile then s else s.popBoff

/-- POP_CHECKPOINT (R359): the timer of POP_CKPT; under an activation pause or a halt it waits (Table 20-5). -/
def evPopCheckpoint (s : State) : State :=
  if s.tile then s
  else if s.paused then { s with pwr := { s.pwr with dueWrites := true } }
  else s.popCheckpoint

/-- POP_CKPT: an owner write of POP_CTRL.CKPT. -/
def evPopCkpt (s : State) : State := (if s.tile then s else s.popCheckpoint).emit (.bus false 0)

end Sys2Proof.Machine
end

