-- ==== Sys2Proof/Machine/Fabric.lean ====
section
/-! DEFINITION. Machine/Fabric.lean: the bus matrix (R413 to R416): where an address leads, a request's way through its arbiter, the access
at its end; and the debug access port (R549). -/

namespace Sys2Proof.Machine

/-- The SRAM's size in bytes. -/
def sramSize : Nat := 0x600000

/-- Where an address leads: the arbiter and the address at the target; none for the default target (R414, R416, R520). -/
def State.busDecode (s : State) (a : Nat) : Option (Nat × Nat) :=
  let sram := fun (o : Nat) => some (1 + Config.sramBank o % 8, o)
  if a < 0x10000000 then
    if s.flag SYS_CTRL_REMAP then (if a < sramSize then sram a else none)
    else if a < 0x20000 then some (10, a) else none
  else if a < 0x10000000 + sramSize then sram (a - 0x10000000)
  else if 0xF0000000 ≤ a ∧ a < 0xF01C0000 then some (9, a - 0xF0000000)
  else if s.inDdr a then some (0, a)
  else none

/-- SRAM bytes; a byte that nothing has written reads 0. -/
def sramFill : Nat → Byte := fun _ => 0

/-- What a register write carries when a master makes it through the fabric: nothing measured, nothing coinciding. -/
def noCtx : RegCtx := { vddp := [], ue := false, sources := 0, ack := true }

/-- The access of a request at its target, and its response (R5, R404, R414). -/
def State.busAccess (s : State) (arb : Nat) (r : BusReq) : State :=
  if arb = 0 then s.ddrRequest r
  else if arb = 9 then
    if r.bytes ≠ 4 then s.emit (.bus true 0)
    else if r.write then
      let x := s.regWrite r.addr (BitVec.ofNat 32 (leNat (reqData r))) noCtx
      x.1.emit (.bus (!x.2) 0)
    else s.readRow r.addr
  else if arb = 10 then
    if r.write then s.emit (.bus false 0)
    else s.emit (.bus false (leNat ((List.range r.bytes).map fun i => Config.bootByte (r.addr + i))))
  else if r.write then State.emit { s with sram := SMap.setList sramFill s.sram r.addr (reqData r) } (.bus false 0)
  else s.emit (.bus false (leNat (SMap.getList sramFill s.sram r.addr r.bytes)))

/-- The default target answers: recorded, and the Stoker takes its bus-error exception (R416). -/
def State.busDefault (s : State) (r : BusReq) : State :=
  let t := (s.decErr r.addr r.req r.write).emit (.bus true 0)
  if r.req ≤ 1 then t.emit (.stoker 0) else t

/-- BUS_REQUEST (R416): a master's request is decoded and reaches its arbiter. -/
def evBusRequest (r : BusReq) (s : State) : State :=
  match s.busDecode r.addr with
  | some d => s.arbArrive d.1 { r with addr := d.2 }
  | none => s.busDefault r

/-- TRANSFER_LAST_BEAT (R408): the owner's transfer ends, or BURSTLIM cuts it off and the rest competes; the next grant is decided. -/
def evTransferLastBeat (a : Nat) (s : State) : State :=
  let x := s.arb a
  match x.owner with
  | none => s
  | some q =>
    let n := s.arbLimit a
    if q.left ≤ n then (State.busAccess (s.setArb a { x with owner := none }) a q.r).arbDecide a
    else (s.setArb a { x with owner := none, ports := x.ports ++ [{ q with left := q.left - n, lost := 0 }] }).arbDecide a

/-- REQUEST_WITHDRAW (R409): the owner withdraws its granted request; the arbiter decides again. -/
def evRequestWithdraw (a : Nat) (s : State) : State :=
  let x := s.arb a
  match x.owner with
  | none => s
  | some _ => ((s.setArb a { x with owner := none }).count (FAB_ARB_N_WITHDRAW a) 1).arbDecide a

/-- DBGAP (R547, R549): selected under scope 1 or 2, and then an access with requester ID 3 to anything but Hearth. Otherwise the
instruction acts as BYPASS and the access is an error. -/
def evDbgap (write : Bool) (addr : Nat) (data : List Byte) (bytes : Nat) (c : RegCtx) (s : State) : State :=
  let ok := s.scope 1 || s.scope 2
  let t := s.jtagSelect 0x10 ok
  let r : BusReq := { req := 3, addr := addr, write := write, bytes := bytes, data := data, beats := 1, close := true }
  if !ok then t.emit (.bus true 0)
  else match t.busDecode addr with
    | none => t.busDefault r
    | some d =>
      if d.1 = 9 ∧ d.2 / 0x10000 = 2 then t.emit (.bus true 0)
      else if d.1 = 9 ∧ write ∧ bytes = 4 then
        let x := t.regWrite d.2 (BitVec.ofNat 32 (leNat (reqData r))) c
        x.1.emit (.bus (!x.2) 0)
      else t.busAccess d.1 { r with addr := d.2 }

end Sys2Proof.Machine
end

