-- ==== Sys2Proof/Machine/Wcp.lean ====
section
/-! DEFINITION. Machine/Wcp.lean: what each Wall Control Protocol request does when its turn comes (R512 to R517): its checks in the order of
R512, its effect, its status and its response. -/

namespace Sys2Proof.Machine

/-! ### Sessions -/

/-- An open session by its number. -/
def State.sess (s : State) (id : Nat) : Option Session := s.sessions.find? fun x => x.id == id

/-- s with one session changed. -/
def State.updSess (s : State) (id : Nat) (f : Session → Session) : State :=
  { s with sessions := s.sessions.map fun x => if x.id = id then f x else x }

/-- What a request leaves: the state, and its status and response, or none while the result is not there yet. -/
abbrev Reply := State × Option (Nat × List Byte)

/-- A request that is answered with a status and nothing else. -/
def State.rep (s : State) (st : Nat) : Reply := (s, some (st, []))

/-- An applied request's answer. -/
def Ans.rep (a : Ans) : Reply := (a.1, some (a.2.1, a.2.2))

/-- A state and a status as an answer. -/
def repOf (a : State × Nat) : Reply := (a.1, some (a.2, []))

/-! ### Uploads (R513) -/

/-- The bytes an upload holds; what was not sent is 0. -/
def Upload.bytes (u : Upload) : List Byte := SMap.getList (fun _ => (0 : Byte)) u.data 0 u.len

/-- An upload of a session by its handle. -/
def Session.upload (x : Session) (h : Nat) : Option Upload := x.uploads.find? fun u => u.handle == h

/-- The content of a closed upload of one of the kinds named. -/
def Session.content (x : Session) (h : Nat) (kinds : List Nat) : Option (Nat × List Byte) :=
  match x.upload h with
  | some u => if u.closed && kinds.contains u.kind then some (u.kind, u.bytes) else none
  | none => none

/-- A handle is released. -/
def State.release (s : State) (id h : Nat) : State := s.updSess id fun x => { x with uploads := x.uploads.filter fun u => u.handle != h }

/-- UPLOAD_OPEN. -/
def State.uploadOpen (s : State) (x : Session) (kind len : Nat) (digest : List Byte) : Reply :=
  if 7 ≤ kind ∨ digest.length ≠ 48 then s.rep 0x0001
  else if s.tile && kind != 3 && kind != 4 then s.rep 0x0006
  else
    let used := (s.sessions.flatMap fun y => y.uploads.map fun u => u.len).sum
    if 4 ≤ x.uploads.length ∨ 67108864 < used + len then s.rep 0x0104
    else
      let h := ([1, 2, 3, 4].find? fun h => (x.upload h).isNone).getD 1
      let u : Upload := { handle := h, kind := kind, len := len, digest := digest, data := [], next := 0, closed := false, last := s.life }
      (s.updSess x.id fun y => { y with uploads := y.uploads ++ [u] }, some (0, [BitVec.ofNat 8 h]))

/-- UPLOAD_DATA. -/
def State.uploadData (s : State) (x : Session) (h off : Nat) (data : List Byte) : Reply :=
  match x.upload h with
  | none => s.rep 0x0102
  | some u =>
    if u.closed ∨ u.len < off + data.length then s.rep 0x0102
    else if s.tile ∧ off ≠ u.next then s.rep 0x0105
    else
      let v : Upload := { u with data := SMap.setList (fun _ => (0 : Byte)) u.data off data, next := off + data.length, last := s.life }
      (s.updSess x.id fun y => { y with uploads := y.uploads.map fun o => if o.handle = h then v else o }).rep 0

/-- A lane table's checks (R402, R422). -/
def State.laneAccept (s : State) (b : List Byte) : Nat :=
  let st := s.laneCheck b
  if st != 0 then st else if 32 < ddrCap (sub b 832 8) then 0x060C else 0

/-- A drive program object's checks; a refused object is logged (R325, R515). -/
def State.drvAccept (s : State) (o : List Byte) : State × Nat :=
  let st := s.objCheck o 1
  if st != 0 then (s.sigFail 1 st, st) else (s, s.drvCheck o)

/-- The admission of a frame program: its own deadline, engines and blend orders (R121, R514). -/
def State.fprogAdmit (s : State) (f : Fprog) : Nat :=
  if s.admitTimes s.live s.accLayers f.dl f.eng && s.budgetsOk s.live s.accLayers then 0 else 0x0205

/-- The checks of an upload's kind (Table 21-5). -/
def State.kindCheck (s : State) (kind : Nat) (bs : List Byte) : State × Nat :=
  if kind = 0 then (s, match parseFprog bs with | some f => s.fprogAdmit f | none => 0x0101)
  else if kind = 1 ∨ kind = 5 then s.drvAccept bs
  else if kind = 2 then (s, s.calCheck bs)
  else if kind = 3 then (let st := s.fwCheck bs; if st != 0 then (s.fwRefused bs st, st) else (s, 0))
  else if kind = 4 then (s, s.laneAccept bs)
  else (s, 0)

/-- UPLOAD_CLOSE: the digest, then the kind's own checks; a handle that fails is released. -/
def State.uploadClose (s : State) (x : Session) (h : Nat) : Reply :=
  match x.upload h with
  | none => s.rep 0x0102
  | some u =>
    if u.closed then s.rep 0x0102
    else if Config.sha384 u.bytes != u.digest then (s.release x.id h).rep 0x0103
    else
      let r := s.kindCheck u.kind u.bytes
      if r.2 != 0 then (r.1.release x.id h).rep r.2
      else (r.1.updSess x.id fun y => { y with uploads := y.uploads.map fun o => if o.handle = h then { o with closed := true } else o }).rep 0

/-- UPLOAD_TIMEOUT: 600 s after its last data. -/
def evUploadTimeout (id h : Nat) (s : State) : State := s.release id h

/-! ### Programs and staging (R75, R501, R514, R515) -/

/-- The frame program is staged to the FSQ for a frame: the values that change with it wait beside it. -/
def State.fprogStage (s : State) (f : Fprog) (bs : List Byte) (frame : Nat) : State :=
  let t : State := { s with comp := { s.comp with staged := some (f.dl, f.eng, f.zl) } }
  (t.setSeq 8 { t.seq 8 with staged := some (some f.image) }).stageBegin 2 frame bs []

/-- The frame program is loaded into the stopped FSQ and started. -/
def State.fprogNow (s : State) (f : Fprog) : State :=
  let t : State := { s with comp := { s.comp with staged := some (f.dl, f.eng, f.zl) } }
  let t := t.setSeq 8 { t.seq 8 with staged := some (some f.image) }
  let t := t.imageSwitch 8
  t.recordAdmit t.accLayers

/-- PROG_LOAD of a frame program. -/
def State.fprogLoad (s : State) (bs : List Byte) : State × Nat :=
  match parseFprog bs with
  | none => (s, 0x0101)
  | some f =>
    if s.fprogAdmit f != 0 then (s.count TEN_N_BUDGET 1, 0x0205)
    else if s.flag FSQ_STAT_RUN then
      if s.stageOpen then (s, 0x0507) else (s.fprogStage f bs (s.fcnt + s.getF FW_STG_CFG_LEAD), 0)
    else (s.fprogNow f, 0)

/-- PROG_LOAD of a drive program set into the sender's own banks: at once into stopped ones; a running one takes it at its next halt. -/
def State.dsetLoad (s : State) (o : List Byte) : State × Nat :=
  let r := s.drvAccept o
  if r.2 != 0 then r
  else match r.1.dsetParse (objPayload o) with
    | none => (r.1, 0x0106)
    | some d => (if r.1.psqsStopped then r.1.dsetNow d else (r.1.dsetStage d).dsetSwitch, 0)

/-- PROG_LOAD. -/
def State.progLoad (s : State) (x : Session) (h : Nat) : Reply :=
  match x.content h [0, 1] with
  | none => s.rep 0x0102
  | some c =>
    let r := if c.1 = 0 then s.fprogLoad c.2 else s.dsetLoad c.2
    ((r.1.release x.id h).rep r.2)

/-- STAGE: to the positions named; a frame program stages in this sender. -/
def State.wcpStage (s : State) (x : Session) (h f ports : Nat) (sites : List (BitVec 64)) : Reply :=
  match x.content h [0, 1, 2] with
  | none => s.rep 0x0102
  | some c =>
    if s.stageOpen then s.rep 0x0507
    else
      let frame := f % 2 ^ 40
      if c.1 = 0 then
        match parseFprog c.2 with
        | none => (s.release x.id h).rep 0x0101
        | some p =>
          if s.fprogAdmit p != 0 then ((s.count TEN_N_BUDGET 1).release x.id h).rep 0x0205
          else ((s.fprogStage p c.2 frame).release x.id h).rep 0
      else
        let tiles := (List.range 8).flatMap fun p =>
          ((List.range 64).filter fun q => ports.testBit p && (sites.getD p 0).getLsbD q).map fun q => (p, q)
        ((s.stageBegin (if c.1 = 1 then 0 else 1) frame c.2 tiles).release x.id h).rep 0

/-- STAGE_STATUS: the three registers, then TID and state of each unconfirmed tile. -/
def State.stageStatusBytes (s : State) (maxrsp : Nat) : List Byte :=
  let tiles : List StageTile := match s.stage with | some g => g.tiles.filter fun x => !x.confirmed | none => []
  leBytes 4 (s.reg FW_STG_STAT).toNat ++ leBytes 4 (s.reg FW_STG_F_LO).toNat ++ leBytes 4 (s.reg FW_STG_F_HI).toNat ++
    leBytes 4 (s.getF FW_STG_N_GROUP) ++
    (tiles.take ((maxrsp - 32) / 9)).flatMap fun x => leBytes 8 (s.tileAt x.port x.pos).tid ++ [BitVec.ofNat 8 x.tries]

/-- SEQ_START: each named sequencer as its START bit does; the first refusal's status answers. -/
def State.seqStart (s : State) (mask : Nat) (vddp : List Nat) : State × Nat :=
  let a := if mask.testBit 0 then s.fsqStart else (s, 0)
  (List.range 8).foldl (fun (r : State × Nat) n =>
    if mask.testBit (8 + n) then
      let x := r.1.psqStart n (vddp.getD n 0)
      (x.1, if r.2 != 0 then r.2 else x.2)
    else r) a

/-- SEQ_STOP. -/
def State.seqStop (s : State) (mask : Nat) : State :=
  (List.range 8).foldl (fun (u : State) n => if mask.testBit (8 + n) then u.psqStop n else u) s

/-! ### Status, events, log (R339, R512, R517) -/

/-- A register as STATUS_READ shows it: read without a side effect, 0 where the role has no such block. -/
def State.statusWord (s : State) (a : Nat) : Word :=
  if s.blockHere (a / 0x10000) then s.regValue a &&& ~~~ BitVec.ofNat 32 (s.absentBits a) else 0

/-- The registers of an item of STATUS_READ. -/
def statusRegs (item index port pos : Nat) : Option (List Nat) :=
  let words := fun (a n : Nat) => (List.range n).map fun i => a + 4 * i
  if item = 0 then some (words SYS_ID 22)
  else if item = 1 then (if port < 10 then some (words (CORD_PCFG port) 16) else none)
  else if item = 2 then (if port < 8 ∧ pos < 64 then some (CORD_HOP port pos :: (List.range 8).map fun j => COMP_DMG port pos j) else none)
  else if item = 3 then
    (if index < 16 then some (words (SRC_VCFG index) 15) else if index < 24 then some (words (SRC_ACFG (index - 16)) 5) else none)
  else if item = 4 then (if index < 64 then some (words (COMP_DESC index 0) 8 ++ [COMP_SLOT index]) else none)
  else if item = 5 then (if index < 16 then some (words (TEN_STAT index) 8) else none)
  else none

/-- STATUS_READ. -/
def State.statusRead (s : State) (item index port pos maxrsp : Nat) : Reply :=
  match statusRegs item index port pos with
  | none => s.rep 0x0001
  | some as_ => (s, some (0, (as_.take ((maxrsp - 16) / 4)).flatMap fun a => leBytes 4 (s.statusWord a).toNat))

/-- a is newer than b (R508). -/
def newer (a b : Word) : Bool := decide (1 ≤ (a - b).toNat) && decide ((a - b).toNat < 2 ^ 31)

/-- An event's message: ESEQ, then the payload of R517. -/
def EventMsg.bytes (e : EventMsg) : List Byte :=
  leBytes 4 e.eseq.toNat ++ leBytes 2 e.code ++ leBytes 2 0 ++ [BitVec.ofNat 8 e.port, BitVec.ofNat 8 e.pos, 0, 0] ++ leBytes 8 e.life ++
    padTo 32 e.detail

/-- EVENT_READ. -/
def Session.eventRead (x : Session) (first : Word) (maxrsp : Nat) : Nat × List Byte :=
  let kept := x.events.reverse
  let lost := match kept with | e :: _ => newer e.eseq first | [] => false
  let es := if lost then kept else kept.filter fun e => !newer first e.eseq
  let out := es.take ((maxrsp - 20) / 52)
  (if lost then 0x0009 else 0, leBytes 4 out.length ++ out.flatMap fun e => e.bytes)

/-- LOG_READ: 32-byte entries from a log SEQ on, then the device key's signature over them. -/
def State.logRead (s : State) (first maxrsp : Nat) : List Byte :=
  let es := s.hea.log.reverse.filter fun e => decide (first ≤ e.seq.toNat)
  let out := es.take ((maxrsp - 116) / 32)
  let b := out.flatMap fun e => padTo 32 (e.body ++ e.chain)
  leBytes 4 out.length ++ b ++ padTo 96 (Config.sign b)

/-- INFO. -/
def State.infoBytes (s : State) (x : Session) : List Byte :=
  [BitVec.ofNat 8 x.tenant, if s.tile then 1 else 0, BitVec.ofNat 8 s.clmState,
   BitVec.ofNat 8 ((if x.unverified then 1 else 0) + (if x.tenant = 0 then 2 else 0))] ++ leBytes 2 8704

/-! ### Owner (R319 to R323, R342) -/

/-- A request sent on to every tile, from the holder. -/
def State.toTiles (s : State) (op : Nat) (data : List Byte) : State := if s.sender && s.active then s.ctrlAll op data else s

/-- OWNER_INSTALL. -/
def State.ownerInstall (s : State) (root : List Byte) : State × Nat :=
  if s.hea.owner.isSome then (s, 0x0406) else ((s.newOwner root 0x0004).toTiles 0x0011 root, 0)

/-- OWNER_XFER, sent on to the tiles. -/
def State.ownerXferAll (s : State) (o : List Byte) : State × Nat :=
  let r := s.ownerXfer o
  if r.2 != 0 then r else (r.1.toTiles 0x0013 o, 0)

/-- KEY_SET with OP 1: the response names the KEYID. -/
def State.keySet (s : State) (k : List Byte) : Reply :=
  if k.length ≠ 97 then s.rep 0x0001
  else
    let r := s.keyAdd k
    if r.2 != 0 then r.1.rep r.2 else (r.1.toTiles 0x0012 (1 :: k), some (0, keyId k))

/-- KEY_SET with OP 2. -/
def State.keyUnset (s : State) (k : List Byte) : Reply :=
  if k.length ≠ 97 then s.rep 0x0001 else ((s.keyRemove k).toTiles 0x0012 (2 :: k), some (0, keyId k))

/-- REFCRED_SET: a digest installs the credential, zeros remove it; the referee's session ends with the credential it came under. -/
def State.refcredSet (s : State) (d : List Byte) : Reply :=
  if d.length ≠ 48 then s.rep 0x0001
  else
    let new := if d.all fun b => b == 0 then none else some d
    if new = s.hea.refcred then s.rep 0
    else
      let t : State := { s with hea := { s.hea with refcred := new } }
      let t := (t.heaRegs.journalKeys).secLog 0x000D [0xFE, if new.isSome then 1 else 2]
      (t.closeSess fun x => x.tenant == 0xFE).rep 0

/-- FACTORY_RESET (R322): the ownership data of every kind goes; the session that asked stays open with no identity. -/
def State.factoryReset (s : State) (id : Nat) : State :=
  let t := (s.src.map fun b => b.b.index).foldl (fun (u : State) i => u.endBinding i) s
  let t := (List.range 16).foldl (fun (u : State) n => u.putTenant n none) t
  let t := (List.range 63).foldl (fun (u : State) k => u.setReg (COMP_SLOT k) 0) t
  let wipe := fun (m : SMap Word) => SMap.clear 0x68000 0x69000 m
  let t : State := { t with regs := wipe t.regs, comp := { t.comp with acc := wipe t.comp.acc, touched := [] },
                            hea := { t.hea with owner := none, ownerGen := t.hea.ownerGen + 1, makers := [], refcred := none },
                            pop := { t.pop with nv := { t.pop.nv with recs := [], agg := [], ckpt := [] }, returned := [] } }
  let t := ((t.protectRegs.heaRegs.popRegs).journalOwner).journalKeys
  let t := (t.journalBilling.emptyCopy 3 0).emptyCopy 3 1
  let t := t.secLog 0x0006 (leBytes 4 t.hea.ownerGen.toNat)
  (t.closeSess fun x => x.id != id).updSess id fun x => { x with tenant := 0xFF }

/-! ### Requests that a tile answers (R162, R191, R341) -/

/-- A request to a tile, whose response answers; no tile there or no claim to reach it with: NO_RESP. -/
def State.askTile (s : State) (x : Session) (seq : Word) (p q op : Nat) (data : List Byte) : Reply :=
  if s.sender && s.active && decide (p < 8) && (s.tileAt p q).enumerated then (s.ctrlSend p q op data (some (x.id, seq)), none)
  else s.rep 0x0305

/-! ### Registers (R516) -/

/-- The offset of an address in register space. -/
def regOffset (a : Nat) : Option Nat := if 0xF0000000 ≤ a ∧ a < 0xF01C0000 then some (a - 0xF0000000) else none

/-- Words read from an address on, up to the first error response. -/
def State.readWords (s : State) (a : Nat) : Nat → State × List Word × Option Nat
  | 0 => (s, [], none)
  | n + 1 =>
    match regOffset a with
    | none => (s, [], some a)
    | some o =>
      let r := s.regRead o
      if r.2.1 then
        let y := r.1.readWords (a + 4) n
        (y.1, r.2.2 :: y.2.1, y.2.2)
      else (r.1, [], some a)

/-- Entries written in order, up to the first error response: how many, and the failing address. -/
def State.writeWords (s : State) (ctx : RegCtx) : List (Nat × Word) → State × Nat × Option Nat
  | [] => (s, 0, none)
  | e :: es =>
    match regOffset e.1 with
    | none => (s, 0, some e.1)
    | some o =>
      let r := s.regWrite o e.2 ctx
      if r.2 then
        let y := r.1.writeWords ctx es
        (y.1, y.2.1 + 1, y.2.2)
      else (r.1, 0, some e.1)

/-- REG_READ. -/
def State.wcpRegRead (s : State) (a count maxrsp : Nat) : Reply :=
  if count = 0 ∨ 256 < count then s.rep 0x0001
  else
    let r := s.readWords (a % 2 ^ 40) (min count ((maxrsp - 20) / 4))
    match r.2.2 with
    | some bad => (r.1, some (0x0801, leBytes 8 bad ++ leBytes 4 r.2.1.length))
    | none => (r.1, some (0, leBytes 4 r.2.1.length ++ r.2.1.flatMap fun w => leBytes 4 w.toNat))

/-- REG_WRITE. -/
def State.wcpRegWrite (s : State) (es : List (Nat × Word)) (ctx : RegCtx) : Reply :=
  if 64 < es.length then s.rep 0x0001
  else
    let r := s.writeWords ctx (es.map fun e => (e.1 % 2 ^ 40, e.2))
    match r.2.2 with
    | some bad => (r.1, some (0x0801, leBytes 8 bad ++ leBytes 4 r.2.1))
    | none => (r.1, some (0, leBytes 4 r.2.1))

/-! ### Power and claims (R289, R302, R440, R442) -/

/-- CORD_POWER: the holder asks every tile of the ports; this sender's ports become dormant at the mark named. -/
def State.cordPower (s : State) (ports fcnt : Nat) : State :=
  let t : State := { s with cord := { s.cord with dormAt := some (ports % 256, fcnt) } }
  if t.active then
    (t.allTiles.filter fun e => ports.testBit e.1).foldl (fun (u : State) e => u.ctrlSend e.1 e.2 0x0020 (leBytes 1 2 ++ leBytes 5 fcnt) none) t
  else t

/-- CORD_WAKE: the ports are dormant no longer. -/
def State.cordWake (s : State) (ports : Nat) : State :=
  let t := s.setF EMB_DORM_PORTS (s.getF EMB_DORM_PORTS &&& (255 - ports % 256))
  { t with cord := { t.cord with dormAt := match t.cord.dormAt with
      | some (m, f) => if m &&& (255 - ports % 256) = 0 then none else some (m &&& (255 - ports % 256), f)
      | none => none } }

/-- A message of the external referee, acted on by a member with EXTREF set only (R289). -/
def State.fromReferee (s : State) (t : State) : Reply := (if s.extDrop then t else s).rep 0

/-! ### Who may ask what (R311, R320, R490, R512, Table 21-2) -/

/-- A request's family; the factory reset has none in Table 21-2 and counts with the owner family. -/
def wcpFamily : WcpReq → Nat
  | .info | .ping _ | .close => 1
  | .uploadOpen _ _ _ | .uploadData _ _ _ | .uploadClose _ | .progLoad _ | .stage _ _ _ _ | .stageStatus | .seqStart _ _ | .seqStop _ => 2
  | .bind _ _ | .unbind _ | .layerSet _ _ _ | .layerClear _ | .surfaceWrite _ _ _ _ | .surfaceFlip _ | .zlistSet _ _ | .coefSet _ _ _
  | .clinker _ _ _ => 3
  | .damage _ => 4
  | .statusRead _ _ _ _ | .eventRead _ | .logRead _ => 5
  | .tenantSet _ _ | .tenantRemove _ | .slotAssign _ _ | .ownerInstall _ | .ownerXfer _ | .keyAdd _ | .keyRemove _ | .refcredSet _
  | .stepAuth _ | .debugNonce | .debugToken _ | .factoryReset => 6
  | .testRun _ _ _ _ _ _ _ | .testAbort _ | .testResult _ _ | .testAck _ => 7
  | .popCollect _ | .popAck _ _ => 8
  | .attest _ _ _ => 9
  | .fwInstall _ | .fwActivate _ | .fwAbandon | .laneInstall _ | .recoveryEnter | .recoveryExit => 10
  | .power _ | .cordPower _ _ | .cordWake _ | .swap | .refHeartbeat _ | .refGrant _ _ _ | .refSwapRsp _ _ _ => 11
  | .regRead _ _ | .regWrite _ _ => 12

/-- An upload message of kind FW or LANE, which counts as a firmware message. -/
def Session.fwUpload (x : Session) : WcpReq → Bool
  | .uploadOpen k _ _ => k == 3 || k == 4
  | .uploadData h _ _ => match x.upload h with | some u => u.kind == 3 || u.kind == 4 | none => false
  | .uploadClose h => match x.upload h with | some u => u.kind == 3 || u.kind == 4 | none => false
  | _ => false

/-- An upload message, whose handle decides (TILE role, R512). -/
def wcpIsUpload : WcpReq → Bool
  | .uploadOpen k _ _ => k == 3 || k == 4
  | .uploadData _ _ _ | .uploadClose _ => true
  | _ => false

/-- What an UNOWNED part serves (R320). -/
def Session.servedUnowned (x : Session) (r : WcpReq) : Bool :=
  wcpFamily r == 1 || wcpFamily r == 9 || wcpFamily r == 10 || x.fwUpload r || match r with | .ownerInstall _ => true | .factoryReset => true | _ => false

/-- What recovery mode serves (R490). -/
def Session.servedRecovery (x : Session) (r : WcpReq) : Bool :=
  wcpFamily r == 1 || wcpFamily r == 9 || x.fwUpload r ||
    match r with | .fwInstall _ | .laneInstall _ | .ownerInstall _ | .factoryReset | .recoveryExit => true | _ => false

/-- The Sender column of Table 21-2; on an UNOWNED part the local SPI session has the owner's firmware messages. -/
def Session.may (x : Session) (r : WcpReq) : Bool :=
  let owner := x.tenant == 0 || x.tenant == 0xFF
  let ten := decide (x.tenant < 16)
  match r with
  | .info | .ping _ | .close | .statusRead _ _ _ _ | .eventRead _ | .attest _ _ _ | .uploadData _ _ _ | .uploadClose _ => true
  | .uploadOpen k _ _ => owner || (ten && k == 6)
  | .bind _ _ | .unbind _ | .layerSet _ _ _ | .layerClear _ | .surfaceWrite _ _ _ _ | .surfaceFlip _ | .damage _ => ten
  | .popCollect t | .popAck t _ => x.tenant == 0 || (ten && x.tenant == t)
  | .refHeartbeat _ | .refGrant _ _ _ | .refSwapRsp _ _ _ => x.tenant == 0xFE
  | .ownerInstall _ | .factoryReset | .recoveryExit => x.spi
  | _ => owner

/-- The checks before a request is applied, in order: role, owner, recovery, sender, claim state; 0 where it may go on. -/
def State.wcpGate (s : State) (x : Session) (r : WcpReq) : Nat :=
  let f := wcpFamily r
  if s.tile && !(f == 1 || f == 5 || f == 6 || f == 9 || f == 10 || wcpIsUpload r) then 0x0006
  else if s.fw.recovery && !x.servedRecovery r then 0x0003
  else if s.hea.owner.isNone && !x.servedUnowned r then 0x0005
  else if !x.may r then 0x0003
  else if (match r with | .factoryReset | .recoveryExit => !s.fw.recovery | _ => false) then 0x0003
  else if s.sender && !s.active && (f == 2 || f == 3 || f == 4 || f == 7) && !x.fwUpload r then 0x0004
  else 0

/-- A request is applied: its effect, and its answer if that is there. -/
def State.wcpDo (s : State) (x : Session) (seq : Word) (maxrsp : Nat) (r : WcpReq) : Reply :=
  let t := x.tenant
  match r with
  | .info => (s, some (0, s.infoBytes x))
  | .ping d => if 64 < d.length then s.rep 0x0001 else (s, some (0, d))
  | .close => s.rep 0
  | .uploadOpen k n d => s.uploadOpen x k n d
  | .uploadData h o d => s.uploadData x h o d
  | .uploadClose h => s.uploadClose x h
  | .progLoad h => s.progLoad x h
  | .stage h f ports sites => s.wcpStage x h f ports sites
  | .stageStatus => (s, some (0, s.stageStatusBytes maxrsp))
  | .seqStart m v => repOf (s.seqStart m v)
  | .seqStop m => (s.seqStop m).rep 0
  | .bind sh d => Ans.rep (s.bind t sh d)
  | .unbind i => Ans.rep (s.unbind t i)
  | .layerSet k c d => Ans.rep (s.layerSet t k c d)
  | .layerClear k => Ans.rep (s.layerClear t k)
  | .surfaceWrite k o d none => s.surfaceWrite x.id seq t k o d
  | .surfaceWrite k o _ (some h) =>
    match x.content h [6] with
    | none => s.rep 0x0102
    | some c => (s.release x.id h).surfaceWrite x.id seq t k o c.2
  | .surfaceFlip k => Ans.rep (s.surfaceFlip t k)
  | .zlistSet e d => Ans.rep (s.zlistSet e d)
  | .coefSet tb ax vs => Ans.rep (s.coefSet tb ax vs)
  | .clinker p q es => if 256 < es.length then s.rep 0x0001 else s.askTile x seq p q Config.opClinker (es.flatMap fun e => leBytes 4 e.toNat)
  | .damage rs => Ans.rep (s.damageHint t rs)
  | .statusRead i k p q => s.statusRead i k p q maxrsp
  | .eventRead e => (s, some (x.eventRead e maxrsp))
  | .logRead n => (s, some (0, s.logRead n maxrsp))
  | .tenantSet k c => Ans.rep (s.tenantSet k c)
  | .tenantRemove k => Ans.rep (s.tenantRemove k)
  | .slotAssign k n => Ans.rep (s.slotAssign k n)
  | .ownerInstall c => repOf (s.ownerInstall c)
  | .ownerXfer o => repOf (s.ownerXferAll o)
  | .keyAdd k => s.keySet k
  | .keyRemove k => s.keyUnset k
  | .refcredSet d => s.refcredSet d
  | .stepAuth o => Ans.rep (s.stepAuth o)
  | .debugNonce => let u := s.newNonce; (u, some (0, match u.hea.nonce with | some n => n.1 | none => []))
  | .debugToken o => repOf (s.debugToken o)
  | .factoryReset => (s.factoryReset x.id).rep 0
  | .testRun id full ports sites d h loc =>
    if full then
      match x.content h [5] with
      | none => s.rep 0x0102
      | some c => let u := s.testRun id true ports sites d c.2 loc; (if u.2 = 0 then u.1.release x.id h else u.1).rep u.2
    else repOf (s.testRun id false ports sites d [] loc)
  | .testAbort id => repOf (s.testAbort id)
  | .testResult id k => (s, some (s.testResult id k maxrsp))
  | .testAck id => repOf (s.testAck id)
  | .popCollect n => Ans.rep (s.popCollect n maxrsp)
  | .popAck n q => Ans.rep (s.popAck n q)
  | .attest nonce p q =>
    if nonce.length ≠ 32 then s.rep 0x0001
    else if q = 0xFF then (s, some (0, s.attest nonce)) else s.askTile x seq p q 0x0010 nonce
  | .fwInstall h =>
    match x.content h [3] with
    | none => s.rep 0x0102
    | some c => let u := s.fwInstall c.2 (some 3) .none; (u.1.release x.id h).rep u.2
  | .fwActivate k => repOf (s.fwActivate k)
  | .fwAbandon => s.fwRevert.rep 0
  | .laneInstall h =>
    match x.content h [4] with
    | none => s.rep 0x0102
    | some c =>
      if s.laneAccept c.2 != 0 then (s.release x.id h).rep (s.laneAccept c.2)
      else let u := s.slotWrite 5 (s.idleCopy 5) c.2 none true (some 4) .none; (u.1.release x.id h).rep u.2
  | .recoveryEnter => State.rep { s with fw := { s.fw with recNext := true } } 0
  | .recoveryExit => s.rep 0
  | .power st => if st = 2 then (s.smoulder false).rep 0 else s.rep 0x0001
  | .cordPower ports f => (s.cordPower ports f).rep 0
  | .cordWake ports => (s.cordWake ports).rep 0
  | .swap => let u := s.swapOwner (some (x.id, seq)); if u.2 then (u.1, none) else s.rep 0x0704
  | .refHeartbeat h => s.fromReferee (s.refHbHeard h)
  | .refGrant c k _ => s.fromReferee (s.grantHeard c k)
  | .refSwapRsp c st q => s.fromReferee (s.swapAnswered c st q)
  | .regRead a n => s.wcpRegRead a n maxrsp
  | .regWrite es ctx => s.wcpRegWrite es ctx

end Sys2Proof.Machine
end

