-- ==== Sys2Proof/Machine/WcpQueue.lean ====
section
/-! DEFINITION. Machine/WcpQueue.lean: requests as they arrive, wait and are answered (R505 to R511), the local SPI port's datagrams
(R507), and the end of an activation pause (R498). -/

namespace Sys2Proof.Machine

/-! ### The local SPI port (R507) -/

/-- LSPI_IRQ_N is low: the transmit queue holds a datagram. -/
def State.lspiIrqLow (s : State) : Bool := !s.spiTx.isEmpty

/-- SPI_WRITE: a whole WRITE transaction delivers one datagram; a longer one, and one cut short, is discarded. -/
def evSpiWrite (whole : Bool) (data : List Byte) (s : State) : State :=
  if whole && decide (data.length ≤ 8800) then { s with spiRx := s.spiRx ++ [data] } else s

/-- SPI_READ: the oldest datagram leaves, or a LEN of 0. -/
def evSpiRead (s : State) : State :=
  match s.spiTx with
  | [] => s.emit (.spi 0 [])
  | o :: q => State.emit { s with spiTx := q } o

/-- A datagram from the local SPI port has been taken in. -/
def State.spiTake (s : State) (spi : Bool) : State := if spi then { s with spiRx := s.spiRx.drop 1 } else s

/-! ### Answers -/

/-- A response leaves, as one DTLS record. -/
def State.reply (s : State) (x : Session) (seq : Word) (r : Rsp) : State :=
  ((s.updSess x.id fun y => { y with txRec := y.txRec + 1, last := s.life }).sessOut x.spi (.rsp x.id seq r)).keyAfter x

/-- A response that no request in the queue gives: at once, or when the Stoker goes on. -/
def State.replyOr (s : State) (x : Session) (seq : Word) (r : Rsp) : State :=
  if s.paused then { s with fw := { s.fw with replies := s.fw.replies ++ [(x.id, seq, r)] } } else s.reply x seq r

/-- What waited for the Stoker leaves. -/
def State.replyRelease (s : State) : State :=
  s.fw.replies.foldl (fun (u : State) e => match u.sess e.1 with | some x => u.reply x e.2.1 e.2.2 | none => u)
    { s with fw := { s.fw with replies := [] } }

/-- The first request of a session has its result: the response leaves and is kept among the last 64, unless it is FORMAT; a close ends
the session, a recovery exit resets the part. -/
def State.leave (s : State) (x : Session) (w : WaitReq) (r : Rsp) : State :=
  let t := s.updSess x.id fun y =>
    let u : Session := { y with waiting := y.waiting.drop 1 }
    if r.status = 1 then u
    else { u with cache := ((w.seq, r) :: y.cache).take 64,
                  newest := match y.newest with | some n => if newer w.seq n then some w.seq else some n | none => some w.seq }
  let t := t.reply x w.seq r
  match w.req with
  | .close => t.closeSess fun y => y.id == x.id
  | .recoveryExit => if r.status = 0 then t.recoveryExit else t
  | _ => t

/-- A request's turn has come. -/
def State.turn (s : State) (x : Session) (w : WaitReq) : State :=
  let s0 : State := { s with fw := { s.fw with arrivals := s.fw.arrivals.filter fun a => a != (x.id, w.seq) } }
  let s0 := s0.updSess x.id fun y => { y with waiting := y.waiting.map fun v => if v.seq = w.seq then { v with applied := true } else v }
  let g := s0.wcpGate x w.req
  if g != 0 then (if g = 1 then s0.count SYS_N_FORMAT 1 else s0).answer x.id w.seq g []
  else
    let a := s0.wcpDo x w.seq w.maxrsp w.req
    match a.2 with
    | some (st, p) => (if st = 1 then a.1.count SYS_N_FORMAT 1 else a.1).mirrorSince s0 (some (x.id, w.seq, { status := st, payload := p }))
    | none => a.1.mirrorSince s0 none

/-- The next response that may leave. -/
def State.nextLeave (s : State) : Option (Session × WaitReq × Rsp) :=
  s.sessions.findSome? fun x => match x.waiting with | w :: _ => w.rsp.map fun r => (x, w, r) | [] => none

/-- The next request to apply: the earliest arrival that stands first in its session (R509, R511). -/
def State.nextTurn (s : State) : Option (Session × WaitReq) :=
  s.fw.arrivals.findSome? fun a => match s.sess a.1 with
    | some x => match x.waiting with
      | w :: _ => if w.seq = a.2 ∧ !w.applied then some (x, w) else none
      | [] => none
    | none => none

/-- Responses leave and requests are applied while there are any, at most n of them. -/
def State.settleN : Nat → State → State
  | 0, s => s
  | n + 1, s =>
    if s.paused then s
    else match s.nextLeave with
      | some e => State.settleN n (s.leave e.1 e.2.1 e.2.2)
      | none => match s.nextTurn with
        | some e => State.settleN n (s.turn e.1 e.2)
        | none => s

/-- Everything that can leave and be applied now (R509 to R511); nothing while the Stoker does not answer (R498). -/
def State.settle (s : State) : State :=
  if s.paused then s
  else
    let t := s.replyRelease
    State.settleN (2 * (t.sessions.map fun x => x.waiting.length).sum + 1) t

/-! ### Arrivals (R505, R506, R508, R509) -/

/-- The newest SEQ a session has applied, the one being applied included. -/
def Session.applied (x : Session) : Option Word :=
  match x.waiting with
  | w :: _ => if w.applied then (match x.newest with | some n => if newer w.seq n then some w.seq else some n | none => some w.seq) else x.newest
  | [] => x.newest

/-- A request arrives on a session. -/
def State.arrive (s : State) (x : Session) (h : WcpHdr) (r : WcpReq) : State :=
  let t := s.count SYS_N_REQUESTS 1
  if !h.ok || h.seq == 0 || decide (h.maxrsp < 1200) || decide (8704 < h.maxrsp) then
    (t.count SYS_N_FORMAT 1).replyOr x h.seq { status := 1, payload := [] }
  else match x.cache.find? fun e => e.1 == h.seq with
    | some e => (t.count SYS_N_CACHED 1).replyOr x h.seq e.2
    | none =>
      if x.waiting.any fun w => w.seq == h.seq then t
      else if (match x.applied with | some n => !newer h.seq n | none => false) then
        (t.count SYS_N_SEQ_OLD 1).replyOr x h.seq { status := 8, payload := [] }
      else if 8 ≤ (x.waiting.filter fun w => !w.applied).length then
        (t.count SYS_N_QUEUE_FULL 1).replyOr x h.seq { status := 7, payload := [] }
      else
        let w : WaitReq := { seq := h.seq, maxrsp := h.maxrsp, applied := false, rsp := none, req := r }
        let u := t.updSess x.id fun y => { y with waiting := y.waiting ++ [w] }
        { u with fw := { u.fw with arrivals := u.fw.arrivals ++ [(x.id, h.seq)] } }

/-- A WCP message: it reaches the part in one record of an open session, waits for its turn, is applied and answered. -/
def State.wcp (s : State) (h : WcpHdr) (r : WcpReq) : State :=
  match s.sess h.sess with
  | none => s
  | some x =>
    let t := (s.spiTake x.spi).updSess x.id fun y => { y with rxRec := y.rxRec + 1, last := s.life }
    let t := if (x.rxRec + 1) % 2 ^ 24 = 0 then t.sessOut x.spi (.dtls x.spi x.port .keyUpdate) else t
    match t.sess h.sess with
    | none => t
    | some y => (t.arrive y h r).settle

/-! ### The activation pause ends (R498) -/

/-- ACTIVATION_PAUSE_END: the Stoker answers again on the new image. -/
def evActivationPauseEnd (s : State) : State :=
  if s.fw.pause then (State.stokerBack { s with fw := { s.fw with pause := false } }).settle else s

end Sys2Proof.Machine
end

