-- ==== Sys2Proof/Machine/Tick.lean ====
section
/-! DEFINITION. Machine/Tick.lean: the frame tick at a sender (R125, R274, R297, R346). -/

namespace Sys2Proof.Machine

/-- Registers whose writes wait for the tick take effect; a new frame period moves the grid, and no tick falls within half a period of it
(R274). -/
def State.tickLoad (s : State) : State :=
  let moved := s.reg FSQ_FPER != s.liveReg FSQ_FPER || s.reg REF_FOFF != s.liveReg REF_FOFF
  let t := tickRegs.foldl (fun (u : State) a => u.setLive a (u.reg a)) s
  if moved then { t with tim := { t.tim with tickFrom := some (t.wtb + t.fper / 2) } } else t

/-- The tick reaches the FSQ unless R297 holds it back. -/
def State.tickRaise (s : State) : State :=
  let h := s.holdStep
  if h.2 then (h.1.fsqSwitch).raiseFsq 0 else h.1

/-- FRAME_TICK: the next boundary of the frame grid has come. -/
def evFrameTick (s : State) : State :=
  let off := match s.tim.tickFrom with | some n => decide (s.wtb < n) | none => true
  if s.tile || off then s
  else if s.flag FSQ_STAT_THROTTLED && decide (s.tickNo % 2 = 1) then s
  else
    let t := ((s.syncPulse.tickLoad.handover).descApply).tenantTick
    let t := t.mirrorSince s none
    let t : State := if t.active then t else { t with comp := { t.comp with ticks := t.comp.ticks + 1 } }
    t.tickRaise

end Sys2Proof.Machine
end

