-- ==== Sys2Proof/Machine/ExecAudio.lean ====
section
/-! DEFINITION. Machine/ExecAudio.lean: the meanings of the commands of one family: inspection camera port and audio ports (chapter 19). -/

namespace Sys2Proof.Machine

/-- AUDIO (R481). -/
def execAudio (rx : CordRx) (data : List Byte) (s : State) : Host.Outcome State Fault Refusal :=
  .next (evAudio rx data s)

/-- AUDIO_BLOCK_DUE (R481). -/
def execAudioBlockDue (timestamp : Nat) (s : State) : Host.Outcome State Fault Refusal :=
  .next (evAudioBlockDue timestamp s)

/-- CAM_ENABLE (R470). -/
def execCamEnable (value : Word) (s : State) : Host.Outcome State Fault Refusal :=
  .next (evCamEnable value s)

/-- CAM_FRAME_START (R472). -/
def execCamFrameStart (nack : Option Nat) (s : State) : Host.Outcome State Fault Refusal :=
  .next (evCamFrameStart nack s)

/-- CAM_FRAME_END (R474). -/
def execCamFrameEnd (lines : List (List Nat)) (took : Bool) (s : State) : Host.Outcome State Fault Refusal :=
  .next (evCamFrameEnd lines took s)

/-- PCOMMIT (R476). -/
def execPcommit (s : State) : Host.Outcome State Fault Refusal :=
  .next (evPcommit s)

/-- AUDIO_FRAME_BOUNDARY (R482). -/
def execAudioFrameBoundary (port : Nat) (ue : Bool) (s : State) : Host.Outcome State Fault Refusal :=
  .next (evAudioFrameBoundary port ue s)

/-- AUD_CFG_WRITE (R483). -/
def execAudCfgWrite (port : Nat) (value : Word) (s : State) : Host.Outcome State Fault Refusal :=
  .next (evAudCfgWrite port value s)

end Sys2Proof.Machine
end

