-- ==== Sys2Proof/Machine/ExecBus.lean ====
section
/-! DEFINITION. Machine/ExecBus.lean: the meanings of the commands of one family: register writes and reads without a row of their own (R5 to R8, R280, R416, R516). -/

namespace Sys2Proof.Machine

/-- REGISTER_WRITE (R6). -/
def execRegisterWrite (addr : Nat) (value : Word) (ctx : RegCtx) (s : State) : Host.Outcome State Fault Refusal :=
  .next ((evRegisterWrite addr value ctx s).settle)

/-- CLRCNT (R6). -/
def execClrcnt (target : ClrTarget) (s : State) : Host.Outcome State Fault Refusal :=
  .next (evClrcnt target s)

/-- BUS_REQUEST (R416). -/
def execBusRequest (req : BusReq) (s : State) : Host.Outcome State Fault Refusal :=
  .next ((evBusRequest req s).settle)

/-- TRANSFER_LAST_BEAT (R408). -/
def execTransferLastBeat (target : Nat) (s : State) : Host.Outcome State Fault Refusal :=
  .next ((evTransferLastBeat target s).settle)

/-- REQUEST_WITHDRAW (R409). -/
def execRequestWithdraw (target : Nat) (s : State) : Host.Outcome State Fault Refusal :=
  .next (evRequestWithdraw target s)

/-- FAB_COMMIT (R412). -/
def execFabCommit (s : State) : Host.Outcome State Fault Refusal :=
  .next (evFabCommit s)

/-- REMAP (R414). -/
def execRemap (value : Bool) (s : State) : Host.Outcome State Fault Refusal :=
  .next (evRemap value s)

/-- REMAP_LOCK (R522). -/
def execRemapLock (s : State) : Host.Outcome State Fault Refusal :=
  .next (evRemapLock s)

/-- LATCHING_READ_LO (R280). -/
def execLatchingReadLo (addr : Nat) (s : State) : Host.Outcome State Fault Refusal :=
  .next (evLatchingReadLo addr s)

end Sys2Proof.Machine
end

