-- ==== Sys2Proof/Machine/ExecClaim.lean ====
section
/-! DEFINITION. Machine/ExecClaim.lean: the meanings of the commands of one family: claims, referees, the board ring and the mirror (chapter 11). -/

namespace Sys2Proof.Machine

/-- HEARTBEAT_TIMER (R295). -/
def execHeartbeatTimer (s : State) : Host.Outcome State Fault Refusal :=
  .next (evHeartbeatTimer s)

/-- HEARTBEAT_TIMEOUT (R295). -/
def execHeartbeatTimeout (referee : Bool) (s : State) : Host.Outcome State Fault Refusal :=
  .next ((evHeartbeatTimeout referee s).settle)

/-- HEARTBEAT_RX (R312). -/
def execHeartbeatRx (hb : Heartbeat) (s : State) : Host.Outcome State Fault Refusal :=
  .next ((evHeartbeatRx hb s).settle)

/-- REFEREE_EVALUATION (R291). -/
def execRefereeEvaluation (swaps : List SwapIn) (s : State) : Host.Outcome State Fault Refusal :=
  .next ((evRefereeEvaluation swaps s).settle)

/-- REFEREE_STARTUP_WAIT (R292). -/
def execRefereeStartupWait (s : State) : Host.Outcome State Fault Refusal :=
  .next ((evRefereeStartupWait s).settle)

/-- GRANT_RX (R297). -/
def execGrantRx (claim : BitVec 64) (holder : Nat) (s : State) : Host.Outcome State Fault Refusal :=
  .next ((evGrantRx claim holder s).settle)

/-- SWAP_RSP_RX (R301). -/
def execSwapRspRx (cur : BitVec 64) (status : Nat) (seq : Word) (s : State) : Host.Outcome State Fault Refusal :=
  .next ((evSwapRspRx cur status seq s).settle)

/-- SWAP_REQ_RETRY (R301). -/
def execSwapReqRetry (s : State) : Host.Outcome State Fault Refusal :=
  .next ((evSwapReqRetry s).settle)

/-- CLM_SWAP_REQ (R302). -/
def execClmSwapReq (s : State) : Host.Outcome State Fault Refusal :=
  .next (evClmSwapReq s)

/-- MIRROR_RX (R305). -/
def execMirrorRx (mgen : Word) (item : MirrorItem) (bulk : Bool) (s : State) : Host.Outcome State Fault Refusal :=
  .next (evMirrorRx mgen item bulk s)

/-- MIRROR_ACK_RX (R305). -/
def execMirrorAckRx (mgen : Word) (item : Nat) (s : State) : Host.Outcome State Fault Refusal :=
  .next ((evMirrorAckRx mgen item s).settle)

/-- MIRROR_ACK_TIMEOUT (R306). -/
def execMirrorAckTimeout (s : State) : Host.Outcome State Fault Refusal :=
  .next ((evMirrorAckTimeout s).settle)

/-- RELAY_RX (R309). -/
def execRelayRx (port dir : Nat) (pkt : CordPkt) (s : State) : Host.Outcome State Fault Refusal :=
  .next ((evRelayRx port dir pkt s).settle)

/-- RING_HELLO_TIMER (R492). -/
def execRingHelloTimer (s : State) : Host.Outcome State Fault Refusal :=
  .next (evRingHelloTimer s)

/-- RING_HELLO_RX (R492). -/
def execRingHelloRx (hello : RingHello) (s : State) : Host.Outcome State Fault Refusal :=
  .next (evRingHelloRx hello s)

/-- RING_FORM_STABLE (R492). -/
def execRingFormStable (s : State) : Host.Outcome State Fault Refusal :=
  .next (evRingFormStable s)

/-- RING_FORM_TIMEOUT (R492). -/
def execRingFormTimeout (s : State) : Host.Outcome State Fault Refusal :=
  .next (evRingFormTimeout s)

end Sys2Proof.Machine
end

