-- ==== Sys2Proof/Machine/ExecCord.lean ====
section
/-! DEFINITION. Machine/ExecCord.lean: the meanings of the commands of one family: cords: links, hops, time transfer, control requests (chapter 5). -/

namespace Sys2Proof.Machine

/-- HOP_TRAINED (R130). -/
def execHopTrained (port : Nat) (width2 : Bool) (s : State) : Host.Outcome State Fault Refusal :=
  .next (evHopTrainedRow port width2 s)

/-- HOP_HELLO_RX (R335). -/
def execHopHelloRx (hello : HopHello) (s : State) : Host.Outcome State Fault Refusal :=
  .next (evHopHelloLanes hello s)

/-- HOP_AUTH_RETRY (R336). -/
def execHopAuthRetry (port : Nat) (s : State) : Host.Outcome State Fault Refusal :=
  .next (evHopAuthRetry port s)

/-- PORT_D_NO_PARTNER (R131). -/
def execPortDNoPartner (port : Nat) (cordEnd : CordEnd) (s : State) : Host.Outcome State Fault Refusal :=
  .next (evPortDNoPartner port cordEnd s)

/-- STEP_UP_EVAL (R133). -/
def execStepUpEval (port step : Nat) (ok : List Bool) (s : State) : Host.Outcome State Fault Refusal :=
  .next (evStepUpLanes port step ok s)

/-- LINK_LOST (R135). -/
def execLinkLost (port : Nat) (s : State) : Host.Outcome State Fault Refusal :=
  .next (evLinkLostLanes port s)

/-- BER_CHECK (R135). -/
def execBerCheck (port errs : Nat) (s : State) : Host.Outcome State Fault Refusal :=
  .next (evBerCheckLanes port errs s)

/-- STARVE (R141). -/
def execStarve (port cls : Nat) (s : State) : Host.Outcome State Fault Refusal :=
  .next (evStarve port cls s)

/-- CREDIT_RX (R141). -/
def execCreditRx (port cls freed : Nat) (s : State) : Host.Outcome State Fault Refusal :=
  .next (evCreditRx port cls freed s)

/-- PROBE_TIMER (R152). -/
def execProbeTimer (s : State) : Host.Outcome State Fault Refusal :=
  .next (evProbeTimer s)

/-- PROBE_RX (R152). -/
def execProbeRx (port id : Nat) (s : State) : Host.Outcome State Fault Refusal :=
  .next (evProbeRx port id s)

/-- ECHO_RX (R152). -/
def execEchoRx (port id : Nat) (s : State) : Host.Outcome State Fault Refusal :=
  .next (evEchoRx port id s)

/-- TIME_RSP_RX (R153). -/
def execTimeRspRx (rx : CordRx) (id t2fr t3fr t2ns t3ns : Nat) (s : State) : Host.Outcome State Fault Refusal :=
  .next (evTimeRspRx rx id t2fr t3fr t2ns t3ns s)

/-- EVENT_RX (R518). -/
def execEventRx (rx : CordRx) (eseq : Word) (code : Nat) (data : List Byte) (s : State) : Host.Outcome State Fault Refusal :=
  .next (evEventRx rx eseq code data s)

/-- CTRL_RSP_RX (R163). -/
def execCtrlRspRx (rx : CordRx) (seq : Word) (op status : Nat) (data : List Byte) (s : State) : Host.Outcome State Fault Refusal :=
  .next ((evCtrlRspRx rx seq op status data s).settle)

/-- CTRL_REQ_RETRY (R163). -/
def execCtrlReqRetry (port pos : Nat) (seq : Option Word) (s : State) : Host.Outcome State Fault Refusal :=
  .next ((evCtrlReqRetryRow port pos seq s).settle)

/-- RING_OK_TIMEOUT (R160). -/
def execRingOkTimeout (port : Nat) (s : State) : Host.Outcome State Fault Refusal :=
  .next (evRingOkTimeout port s)

/-- CUT_THROUGH_FORWARD (R140). -/
def execCutThroughForward (rx : CordRx) (body : CordBody) (s : State) : Host.Outcome State Fault Refusal :=
  .next (evCutThroughForward rx body s)

/-- DORMANT_PORT_SIGNAL (R442). -/
def execDormantPortSignal (port : Nat) (s : State) : Host.Outcome State Fault Refusal :=
  .next (evDormantPortSignal port s)

end Sys2Proof.Machine
end

