-- ==== Sys2Proof/Machine/ExecDdr.lean ====
section
/-! DEFINITION. Machine/ExecDdr.lean: the meanings of the commands of one family: the DDR5 controller (chapter 15). -/

namespace Sys2Proof.Machine

/-- DDR_REQUEST (R399). -/
def execDdrRequest (req : BusReq) (s : State) : Host.Outcome State Fault Refusal :=
  .next (evDdrRequest req s)

/-- DDR_READ_DATA (R404). -/
def execDdrReadData (req : BusReq) (bits : Nat) (s : State) : Host.Outcome State Fault Refusal :=
  .next (evDdrReadData req bits s)

/-- DDR_REFRESH (R398). -/
def execDdrRefresh (s : State) : Host.Outcome State Fault Refusal :=
  .next (evDdrRefresh s)

/-- DDR_MR4_POLL (R398). -/
def execDdrMr4Poll (x2 : Bool) (s : State) : Host.Outcome State Fault Refusal :=
  .next (evDdrMr4Poll x2 s)

/-- DQS_ADJUST (R398). -/
def execDqsAdjust (s : State) : Host.Outcome State Fault Refusal :=
  .next (evDqsAdjust s)

/-- DDR_RETRY_ACK (R401). -/
def execDdrRetryAck (subch : Nat) (s : State) : Host.Outcome State Fault Refusal :=
  .next (evDdrRetryAck subch s)

/-- DDR_ALERT (R402). -/
def execDdrAlert (subch : Nat) (s : State) : Host.Outcome State Fault Refusal :=
  .next (evDdrAlert subch s)

/-- DDR_ALERT_DEASSERT (R402). -/
def execDdrAlertDeassert (subch : Nat) (s : State) : Host.Outcome State Fault Refusal :=
  .next (evDdrAlertDeassert subch s)

/-- DDR_RECOV_EXPIRY (R402). -/
def execDdrRecovExpiry (subch : Nat) (s : State) : Host.Outcome State Fault Refusal :=
  .next (evDdrRecovExpiry subch s)

/-- DDR_RETRAIN_DONE (R403). -/
def execDdrRetrainDone (subch : Nat) (ok : Bool) (s : State) : Host.Outcome State Fault Refusal :=
  .next (evDdrRetrainDone subch ok s)

/-- DDR_RETRAIN (R403). -/
def execDdrRetrain (s : State) : Host.Outcome State Fault Refusal :=
  .next (evDdrRetrain s)

/-- DDR_SCRUB_NOW (R405). -/
def execDdrScrubNow (s : State) : Host.Outcome State Fault Refusal :=
  .next (evDdrScrubNow s)

/-- PATROL_SCRUB (R405). -/
def execPatrolScrub (bits : Nat) (s : State) : Host.Outcome State Fault Refusal :=
  .next (evPatrolScrub bits s)

end Sys2Proof.Machine
end

