-- ==== Sys2Proof/Machine/ExecFirmware.lean ====
section
/-! DEFINITION. Machine/ExecFirmware.lean: the meanings of the commands of one family: firmware trials, staging deadlines and slots (chapter 20, R392). -/

namespace Sys2Proof.Machine

/-- FW_COMMIT (R499). -/
def execFwCommit (s : State) : Host.Outcome State Fault Refusal :=
  .next (evFwCommit s)

/-- FW_TRIAL_TIMEOUT (R499). -/
def execFwTrialTimeout (s : State) : Host.Outcome State Fault Refusal :=
  .next (evFwTrialTimeout s)

/-- FW_CTRL_ABANDON (R499). -/
def execFwCtrlAbandon (s : State) : Host.Outcome State Fault Refusal :=
  .next (evFwCtrlAbandon s)

/-- ACTIVATION_PAUSE_END (R498). -/
def execActivationPauseEnd (s : State) : Host.Outcome State Fault Refusal :=
  .next (evActivationPauseEnd s)

/-- STAGE_CONFIRM_DEADLINE (R502). -/
def execStageConfirmDeadline (s : State) : Host.Outcome State Fault Refusal :=
  .next ((evStageConfirmDeadline s).testStaged)

/-- STAGE_ARM_DEADLINE (R502). -/
def execStageArmDeadline (s : State) : Host.Outcome State Fault Refusal :=
  .next ((evStageArmDeadline s).testStaged)

/-- STAGE_VERIFY (R503). -/
def execStageVerify (s : State) : Host.Outcome State Fault Refusal :=
  .next ((evStageVerify s).testStaged)

/-- FIRMWARE_FAULT (R499). -/
def execFirmwareFault (s : State) : Host.Outcome State Fault Refusal :=
  .next (evFirmwareFault s)

end Sys2Proof.Machine
end

