-- ==== Sys2Proof/Machine/ExecFrame.lean ====
section
/-! DEFINITION. Machine/ExecFrame.lean: the meanings of the commands of one family: frame program instructions and composition (chapters 2, 4, 5). -/

namespace Sys2Proof.Machine

/-- MARK (R52). -/
def execMark (i : SeqInstr) (s : State) : Host.Outcome State Fault Refusal :=
  .next (s.issue 0x20 i effMark)

/-- MARK_SENT (R35). -/
def execMarkSent (s : State) : Host.Outcome State Fault Refusal :=
  .next (evMarkSent s)

/-- DAMAGE (R54). -/
def execDamage (i : SeqInstr) (s : State) : Host.Outcome State Fault Refusal :=
  .next (s.issue 0x21 i doDamage)

/-- BAND (R56). -/
def execBand (i : SeqInstr) (s : State) : Host.Outcome State Fault Refusal :=
  .next (s.issue 0x22 i doBand)

/-- ZLIST (R109). -/
def execZlist (i : SeqInstr) (s : State) : Host.Outcome State Fault Refusal :=
  .next (s.issue 0x23 i doZlist)

/-- BUDGET (R122). -/
def execBudget (i : SeqInstr) (s : State) : Host.Outcome State Fault Refusal :=
  .next (s.issue 0x24 i doBudget)

/-- FLIP (R57). -/
def execFlip (i : SeqInstr) (s : State) : Host.Outcome State Fault Refusal :=
  .next (s.issue 0x25 i doFlip)

/-- TESTSLOT (R52). -/
def execTestslot (i : SeqInstr) (s : State) : Host.Outcome State Fault Refusal :=
  .next (s.issue 0x26 i doTestslotRow)

/-- FRAME_TICK (R274). -/
def execFrameTick (s : State) : Host.Outcome State Fault Refusal :=
  .next ((evFrameTick s).settle)

/-- BAND_JOB_START (R155). -/
def execBandJobStart (engine : Nat) (times : List Nat) (s : State) : Host.Outcome State Fault Refusal :=
  .next (evBandJobStartRow engine times s)

/-- BAND_JOB_COMPLETE (R117). -/
def execBandJobComplete (engine : Nat) (ue : Bool) (s : State) : Host.Outcome State Fault Refusal :=
  .next (evBandJobComplete engine ue s)

/-- BAND_DEADLINE (R117). -/
def execBandDeadline (fcnt : Nat) (s : State) : Host.Outcome State Fault Refusal :=
  .next (evBandDeadline fcnt s)

/-- PRESENT_TIME_REACHED (R127). -/
def execPresentTimeReached (s : State) : Host.Outcome State Fault Refusal :=
  .next (evPresentTimeReached s)

/-- ACK_RX (R148). -/
def execAckRx (rx : CordRx) (ack : AckPkt) (s : State) : Host.Outcome State Fault Refusal :=
  .next (evAckRx rx ack s)

/-- ACK_WINDOW_CLOSE (R118). -/
def execAckWindowClose (s : State) : Host.Outcome State Fault Refusal :=
  .next (evAckWindowClose s)

/-- COMP_GCOMMIT (R126). -/
def execCompGcommit (s : State) : Host.Outcome State Fault Refusal :=
  .next (evCompGcommit s)

/-- COMP_FULLDMG (R113). -/
def execCompFulldmg (s : State) : Host.Outcome State Fault Refusal :=
  .next (evCompFulldmg s)

/-- DAMAGE_MAP_WRITE (R114). -/
def execDamageMapWrite (port pos word : Nat) (value sources : Word) (s : State) : Host.Outcome State Fault Refusal :=
  .next (evDamageMapWrite port pos word value sources s)

/-- SURFACE_WRITE_RELEASE (R106). -/
def execSurfaceWriteRelease (s : State) : Host.Outcome State Fault Refusal :=
  .next ((evSurfaceWriteRelease s).settle)

end Sys2Proof.Machine
end

