-- ==== Sys2Proof/Machine/ExecHearth.lean ====
section
/-! DEFINITION. Machine/ExecHearth.lean: the meanings of the commands of one family: identity, sessions and protection (chapter 12). -/

namespace Sys2Proof.Machine

/-- DTLS_CLIENT_HELLO (R331). -/
def execDtlsClientHello (spi : Bool) (port : Nat) (cookie share suite scheme : Bool) (s : State) : Host.Outcome State Fault Refusal :=
  .next (evDtlsClientHello spi port cookie share suite scheme (s.spiTake spi))

/-- DTLS_KEY_UPDATE (R331). -/
def execDtlsKeyUpdate (session : Nat) (s : State) : Host.Outcome State Fault Refusal :=
  .next (evDtlsKeyUpdate session s)

/-- SESSION_IDLE_TIMEOUT (R333). -/
def execSessionIdleTimeout (session : Nat) (s : State) : Host.Outcome State Fault Refusal :=
  .next (evSessionIdleTimeout session s)

/-- NONCE_REQ (R342). -/
def execNonceReq (s : State) : Host.Outcome State Fault Refusal :=
  .next (evNonceReq s)

/-- NONCE_EXPIRY (R342). -/
def execNonceExpiry (s : State) : Host.Outcome State Fault Refusal :=
  .next (evNonceExpiry s)

/-- FUSE_STEP_DONE (R329). -/
def execFuseStepDone (s : State) : Host.Outcome State Fault Refusal :=
  .next (evFuseStepDone s)

/-- CLIENT_CERTIFICATE (R332). -/
def execClientCertificate (spi : Bool) (port : Nat) (leaf : List Byte) (proof : Bool) (s : State) : Host.Outcome State Fault Refusal :=
  .next (evClientCertificate spi port leaf proof (s.spiTake spi))

end Sys2Proof.Machine
end

