-- ==== Sys2Proof/Machine/ExecJtag.lean ====
section
/-! DEFINITION. Machine/ExecJtag.lean: the meanings of the commands of one family: JTAG, debug and trace (chapter 22). -/

namespace Sys2Proof.Machine

/-- TAP_RESET (R547). -/
def execTapReset (s : State) : Host.Outcome State Fault Refusal :=
  .next (evTapReset s)

/-- IDCODE (R547). -/
def execIdcode (s : State) : Host.Outcome State Fault Refusal :=
  .next (evIdcode s)

/-- SAMPLE_PRELOAD (R547). -/
def execSamplePreload (balls : Nat) (s : State) : Host.Outcome State Fault Refusal :=
  .next (evSamplePreload balls s)

/-- EXTEST (R548). -/
def execExtest (balls : Nat) (s : State) : Host.Outcome State Fault Refusal :=
  .next (evExtest balls s)

/-- CLAMP (R548). -/
def execClamp (s : State) : Host.Outcome State Fault Refusal :=
  .next (evClamp s)

/-- HIGHZ (R547). -/
def execHighz (s : State) : Host.Outcome State Fault Refusal :=
  .next (evHighz s)

/-- DBGAP (R549). -/
def execDbgap (write : Bool) (addr : Nat) (data : List Byte) (bytes : Nat) (ctx : RegCtx)
    (s : State) : Host.Outcome State Fault Refusal :=
  .next ((evDbgap write addr data bytes ctx s).settle)

/-- BYPASS (R547). -/
def execBypass (s : State) : Host.Outcome State Fault Refusal :=
  .next (evBypass s)

/-- STK_HALT (R550). -/
def execStkHalt (on : Bool) (s : State) : Host.Outcome State Fault Refusal :=
  .next ((evStkHalt on s).settle)

/-- STK_STEP (R551). -/
def execStkStep (s : State) : Host.Outcome State Fault Refusal :=
  .next (evStkStep s)

/-- FSQ_HALT (R551). -/
def execFsqHalt (on : Bool) (s : State) : Host.Outcome State Fault Refusal :=
  .next (evFsqHalt on s)

/-- FSQ_STEP (R551). -/
def execFsqStep (ue : Bool) (s : State) : Host.Outcome State Fault Refusal :=
  .next (evFsqStep ue s)

/-- PSQ_HALT (R551). -/
def execPsqHalt (mask : Nat) (s : State) : Host.Outcome State Fault Refusal :=
  .next (evPsqHalt mask s)

/-- TRACE_SWMSG (R552). -/
def execTraceSwmsg (value : Word) (s : State) : Host.Outcome State Fault Refusal :=
  .next (evTraceSwmsg value s)

/-- TRACE_ENABLE (R553). -/
def execTraceEnable (stk seq : Bool) (s : State) : Host.Outcome State Fault Refusal :=
  .next (evTraceEnable stk seq s)

/-- TRACE_CLEAR (R556). -/
def execTraceClear (s : State) : Host.Outcome State Fault Refusal :=
  .next (evTraceClear s)

/-- TRACE_RDATA_READ (R556). -/
def execTraceRdataRead (high : Bool) (s : State) : Host.Outcome State Fault Refusal :=
  .next (evTraceRdataRead high s)

end Sys2Proof.Machine
end

