-- ==== Sys2Proof/Machine/ExecKiln.lean ====
section
/-! DEFINITION. Machine/ExecKiln.lean: the meanings of the commands of one family: ageing, margins and the Kiln (chapter 18). -/

namespace Sys2Proof.Machine

/-- KILN_RUN_START (R458). -/
def execKilnRunStart (s : State) : Host.Outcome State Fault Refusal :=
  .next (evKilnRunStart s)

/-- KILN_MEASUREMENT_DONE (R459). -/
def execKilnMeasurementDone (result : KilnPair) (s : State) : Host.Outcome State Fault Refusal :=
  .next (evKilnMeasurementDone result s)

/-- KILN_RUN_TIMEOUT (R460). -/
def execKilnRunTimeout (s : State) : Host.Outcome State Fault Refusal :=
  .next (evKilnRunTimeout s)

/-- KILN_RUN (R458). -/
def execKilnRun (s : State) : Host.Outcome State Fault Refusal :=
  .next (evKilnRun s)

/-- KILN_TARGET_UPDATE (R462). -/
def execKilnTargetUpdate (s : State) : Host.Outcome State Fault Refusal :=
  .next (evKilnTargetUpdate s)

/-- KILN_TRIM_STEP (R462). -/
def execKilnTrimStep (s : State) : Host.Outcome State Fault Refusal :=
  .next (evKilnTrimStep s)

/-- AGEING_MEASURE (R463). -/
def execAgeingMeasure (degs : List (Option Int)) (s : State) : Host.Outcome State Fault Refusal :=
  .next (evAgeingMeasure degs s)

/-- LANE_MARGIN_SCAN (R464). -/
def execLaneMarginScan (lane left right top bottom : Nat) (s : State) : Host.Outcome State Fault Refusal :=
  .next (evLaneMarginScan lane left right top bottom s)

/-- PIN_DRIFT_MEASURE (R464). -/
def execPinDriftMeasure (drifts : List (Nat × Int)) (s : State) : Host.Outcome State Fault Refusal :=
  .next (evPinDriftMeasure drifts s)

/-- EQH_UPDATE (R464). -/
def execEqhUpdate (s : State) : Host.Outcome State Fault Refusal :=
  .next (evEqhUpdate s)

/-- MARGIN_PLAN (R465). -/
def execMarginPlan (ack : Bool) (s : State) : Host.Outcome State Fault Refusal :=
  .next (evMarginPlan ack s)

/-- PLAN_NOW (R465). -/
def execPlanNow (ack : Bool) (s : State) : Host.Outcome State Fault Refusal :=
  .next (evPlanNow ack s)

/-- AVS_RETRY (R465). -/
def execAvsRetry (ack : Bool) (s : State) : Host.Outcome State Fault Refusal :=
  .next (evAvsRetry ack s)

end Sys2Proof.Machine
end

