-- ==== Sys2Proof/Machine/ExecLamp.lean ====
section
/-! DEFINITION. Machine/ExecLamp.lean: the meanings of the commands of one family: lamp correction and driving the lamp board (chapters 6 and 8). -/

namespace Sys2Proof.Machine

/-- LAMP_TEMP_CYCLE (R228). -/
def execLampTempCycle (raws : List (Option Nat)) (s : State) : Host.Outcome State Fault Refusal :=
  .next (evLampTempCycle raws s)

/-- TEMP_READING_RX (R230). -/
def execTempReadingRx (pos : Nat) (temps : List Nat) (loc valid : Nat) (s : State) : Host.Outcome State Fault Refusal :=
  .next (evTempReadingRx pos temps loc valid s)

/-- TEMP_RING_TIMEOUT (R230). -/
def execTempRingTimeout (sensor : Nat) (s : State) : Host.Outcome State Fault Refusal :=
  .next (evTempRingTimeout sensor s)

/-- GEN_SWITCH_TIMEOUT (R184). -/
def execGenSwitchTimeout (s : State) : Host.Outcome State Fault Refusal :=
  .next (evGenSwitchTimeout s)

/-- SWEEP_DONE (R185). -/
def execSweepDone (s : State) : Host.Outcome State Fault Refusal :=
  .next (evSweepDone s)

/-- SWEEP_COMMIT_TIMEOUT (R186). -/
def execSweepCommitTimeout (s : State) : Host.Outcome State Fault Refusal :=
  .next (evSweepCommitTimeout s)

/-- LAMP_SWEEP (R183). -/
def execLampSweep (s : State) : Host.Outcome State Fault Refusal :=
  .next (evLampSweepRow s)

/-- CAL_LOAD_DONE (R188). -/
def execCalLoadDone (s : State) : Host.Outcome State Fault Refusal :=
  .next (evCalLoadDone s)

/-- LAMP_CLKE (R191). -/
def execLampClke (value : Word) (s : State) : Host.Outcome State Fault Refusal :=
  .next (evLampClkeRow value s)

/-- LAMP_BRIGHT (R239). -/
def execLampBright (value : Nat) (s : State) : Host.Outcome State Fault Refusal :=
  .next (evLampBright value s)

/-- RAMP_STEP (R238). -/
def execRampStep (s : State) : Host.Outcome State Fault Refusal :=
  .next (evRampStep s)

/-- HEADROOM_WINDOW_END (R233). -/
def execHeadroomWindowEnd (mode : Option Nat) (acks : List Bool) (s : State) : Host.Outcome State Fault Refusal :=
  .next (evHeadroomWindowEndRow mode acks s)

/-- SUPPLY_VOTE_RX (R235). -/
def execSupplyVoteRx (pos vote : Nat) (masterSet pmbEn vsag : Bool) (setpoint fails : Nat)
    (s : State) : Host.Outcome State Fault Refusal :=
  .next (evSupplyVoteRx pos vote masterSet pmbEn vsag setpoint fails s)

/-- BRIGHTNESS_REQUEST (R239). -/
def execBrightnessRequest (rx : CordRx) (seq : Word) (bright : Nat) (s : State) : Host.Outcome State Fault Refusal :=
  .next (evBrightnessRequest rx seq bright s)

/-- LAMP_TF_REQUEST (R172). -/
def execLampTfRequest (rx : CordRx) (seq : Word) (tf : Nat) (s : State) : Host.Outcome State Fault Refusal :=
  .next (evLampTfRequest rx seq tf s)

/-- CLINKER_MAP_REQUEST (R191). -/
def execClinkerMapRequest (rx : CordRx) (seq : Word) (entries : List Word) (s : State) : Host.Outcome State Fault Refusal :=
  .next (evClinkerMapRequest rx seq entries s)

end Sys2Proof.Machine
end

