-- ==== Sys2Proof/Machine/ExecLane.lean ====
section
/-! DEFINITION. Machine/ExecLane.lean: the meanings of the commands of one family: serial lanes (chapter 16). -/

namespace Sys2Proof.Machine

/-- ESCAN_START (R426). -/
def execEscanStart (lane : Nat) (value : Word) (s : State) : Host.Outcome State Fault Refusal :=
  .next (evEscanStart lane value s)

/-- ESCAN_ABORT (R427). -/
def execEscanAbort (lane : Nat) (s : State) : Host.Outcome State Fault Refusal :=
  .next (evEscanAbort lane s)

/-- ESCAN_POINT_DONE (R426). -/
def execEscanPointDone (lane errs : Nat) (s : State) : Host.Outcome State Fault Refusal :=
  .next (evEscanPointDone lane errs s)

/-- ESCAN_TIMEOUT (R427). -/
def execEscanTimeout (lane : Nat) (s : State) : Host.Outcome State Fault Refusal :=
  .next (evEscanTimeout lane s)

/-- LANE_TX_SLEEP (R430). -/
def execLaneTxSleep (port : Nat) (s : State) : Host.Outcome State Fault Refusal :=
  .next (evLaneTxSleep port s)

/-- LANE_SCHEDULED_WAKE (R431). -/
def execLaneScheduledWake (port : Nat) (s : State) : Host.Outcome State Fault Refusal :=
  .next (evLaneScheduledWake port s)

/-- LANE_KEEPALIVE_WAKE (R431). -/
def execLaneKeepaliveWake (port : Nat) (s : State) : Host.Outcome State Fault Refusal :=
  .next (evLaneKeepaliveWake port s)

/-- LANE_WAKE_DONE (R431). -/
def execLaneWakeDone (port : Nat) (s : State) : Host.Outcome State Fault Refusal :=
  .next (evLaneWakeDone port s)

/-- LANE_RX_SLEEP (R432). -/
def execLaneRxSleep (port : Nat) (s : State) : Host.Outcome State Fault Refusal :=
  .next (evLaneRxSleep port s)

/-- LANE_RX_RELOCK (R432). -/
def execLaneRxRelock (port : Nat) (s : State) : Host.Outcome State Fault Refusal :=
  .next (evLaneRxRelock port s)

/-- RELOCKFAIL (R432). -/
def execRelockfail (port : Nat) (s : State) : Host.Outcome State Fault Refusal :=
  .next (evRelockfail port s)

/-- LANE_SLEEP_TIMEOUT (R432). -/
def execLaneSleepTimeout (port : Nat) (s : State) : Host.Outcome State Fault Refusal :=
  .next (evLaneSleepTimeout port s)

end Sys2Proof.Machine
end

