-- ==== Sys2Proof/Machine/ExecLayerCmd.lean ====
section
/-! DEFINITION. Machine/ExecLayerCmd.lean: the meanings of the commands of one family: Wall Control Protocol messages: layers, sources and damage (chapter 21). -/

namespace Sys2Proof.Machine

/-- BIND (R86). -/
def execBind (hdr : WcpHdr) (share : Nat) (sdp : Sdp) (s : State) : Host.Outcome State Fault Refusal :=
  .next (s.wcp hdr (.bind share sdp))

/-- UNBIND (R86). -/
def execUnbind (hdr : WcpHdr) (index : Nat) (s : State) : Host.Outcome State Fault Refusal :=
  .next (s.wcp hdr (.unbind index))

/-- LAYER_SET (R101). -/
def execLayerSet (hdr : WcpHdr) (slot cls : Nat) (desc : List Word) (s : State) : Host.Outcome State Fault Refusal :=
  .next (s.wcp hdr (.layerSet slot cls desc))

/-- LAYER_CLEAR (R101). -/
def execLayerClear (hdr : WcpHdr) (slot : Nat) (s : State) : Host.Outcome State Fault Refusal :=
  .next (s.wcp hdr (.layerClear slot))

/-- SURFACE_WRITE (R106). -/
def execSurfaceWrite (hdr : WcpHdr) (slot offset : Nat) (data : List Byte) (handle : Option Nat)
    (s : State) : Host.Outcome State Fault Refusal :=
  .next (s.wcp hdr (.surfaceWrite slot offset data handle))

/-- SURFACE_FLIP (R106). -/
def execSurfaceFlip (hdr : WcpHdr) (slot : Nat) (s : State) : Host.Outcome State Fault Refusal :=
  .next (s.wcp hdr (.surfaceFlip slot))

/-- ZLIST_SET (R108). -/
def execZlistSet (hdr : WcpHdr) (entry : Nat) (data : List Byte) (s : State) : Host.Outcome State Fault Refusal :=
  .next (s.wcp hdr (.zlistSet entry data))

/-- COEF_SET (R104). -/
def execCoefSet (hdr : WcpHdr) (table axis : Nat) (vals : List (BitVec 16)) (s : State) : Host.Outcome State Fault Refusal :=
  .next (s.wcp hdr (.coefSet table axis vals))

/-- CLINKER (R191). -/
def execClinker (hdr : WcpHdr) (port pos : Nat) (entries : List Word) (s : State) : Host.Outcome State Fault Refusal :=
  .next (s.wcp hdr (.clinker port pos entries))

/-- DAMAGE_HINT (R113). -/
def execDamageHint (hdr : WcpHdr) (rects : List (Nat × Nat × Nat × Nat)) (s : State) : Host.Outcome State Fault Refusal :=
  .next (s.wcp hdr (.damage rects))

end Sys2Proof.Machine
end

