-- ==== Sys2Proof/Machine/ExecPin.lean ====
section
/-! DEFINITION. Machine/ExecPin.lean: the meanings of the commands of one family: pin engine instructions (chapters 2 and 7). -/

namespace Sys2Proof.Machine

/-- VEC (R58). -/
def execVec (i : SeqInstr) (smps : List PinSample) (s : State) : Host.Outcome State Fault Refusal :=
  .next (s.issue 0x30 i (doVec smps))

/-- VSTR (R59). -/
def execVstr (i : SeqInstr) (smps : List PinSample) (s : State) : Host.Outcome State Fault Refusal :=
  .next (s.issue 0x31 i (doVstr smps))

/-- VGEN (R59). -/
def execVgen (i : SeqInstr) (smps : List PinSample) (s : State) : Host.Outcome State Fault Refusal :=
  .next (s.issue 0x32 i (doVgen smps))

/-- TSET (R60). -/
def execTset (i : SeqInstr) (s : State) : Host.Outcome State Fault Refusal :=
  .next (s.issue 0x33 i doTset)

/-- PERIOD (R61). -/
def execPeriod (i : SeqInstr) (s : State) : Host.Outcome State Fault Refusal :=
  .next (s.issue 0x34 i doPeriod)

/-- MAP (R182). -/
def execMap (i : SeqInstr) (s : State) : Host.Outcome State Fault Refusal :=
  .next (s.issue 0x35 i doMap)

/-- CAPT (R210). -/
def execCapt (i : SeqInstr) (s : State) : Host.Outcome State Fault Refusal :=
  .next (s.issue 0x36 i doCapt)

/-- TRIG (R220). -/
def execTrig (i : SeqInstr) (s : State) : Host.Outcome State Fault Refusal :=
  .next (s.issue 0x37 i doTrig)

/-- LINE (R213). -/
def execLine (i : SeqInstr) (s : State) : Host.Outcome State Fault Refusal :=
  .next (s.issue 0x38 i doLine)

/-- CAPTURE_READ (R211). -/
def execCaptureRead (n : Nat) (s : State) : Host.Outcome State Fault Refusal :=
  .next (evCaptureRead n s)

/-- LINE_TIMER_WRITE (R35). -/
def execLineTimerWrite (n : Nat) (value : Word) (s : State) : Host.Outcome State Fault Refusal :=
  .next (evLineTimerWrite n value s)

/-- LINE_TICK (R35). -/
def execLineTick (n : Nat) (s : State) : Host.Outcome State Fault Refusal :=
  .next (evLineTick n s)

/-- TRIG_IN_EDGE (R221). -/
def execTrigInEdge (n : Nat) (s : State) : Host.Outcome State Fault Refusal :=
  .next (evTrigInEdge n s)

/-- PIN_EDGE (R206). -/
def execPinEdge (pin : Nat) (rising : Bool) (s : State) : Host.Outcome State Fault Refusal :=
  .next (evPinEdge pin rising s)

/-- PIN_CONFIG_WRITE (R208). -/
def execPinConfigWrite (offset : Nat) (value : Word) (s : State) : Host.Outcome State Fault Refusal :=
  .next (evPinConfigWrite offset value s)

/-- VDDP_FAIL (R207). -/
def execVddpFail (n mv : Nat) (s : State) : Host.Outcome State Fault Refusal :=
  .next (evVddpFail n mv s)

end Sys2Proof.Machine
end

