-- ==== Sys2Proof/Machine/ExecPop.lean ====
section
/-! DEFINITION. Machine/ExecPop.lean: the meanings of the commands of one family: billing time and proof of play (chapter 13). -/

namespace Sys2Proof.Machine

/-- BOFF_EVAL (R357). -/
def execBoffEval (s : State) : Host.Outcome State Fault Refusal :=
  .next (evBoffEval s)

/-- POP_FRAME_EVAL_TIMEOUT (R351). -/
def execPopFrameEvalTimeout (s : State) : Host.Outcome State Fault Refusal :=
  .next (evPopFrameEvalTimeout s)

/-- POP_CHECKPOINT (R361). -/
def execPopCheckpoint (s : State) : Host.Outcome State Fault Refusal :=
  .next (evPopCheckpoint s)

/-- POP_CKPT (R361). -/
def execPopCkpt (s : State) : Host.Outcome State Fault Refusal :=
  .next (evPopCkpt s)

end Sys2Proof.Machine
end

