-- ==== Sys2Proof/Machine/ExecPower.lean ====
section
/-! DEFINITION. Machine/ExecPower.lean: the meanings of the commands of one family: power, reset, start-up, heat and supply (chapters 17 and 20). -/

namespace Sys2Proof.Machine

/-- POWER_ON (R445). -/
def execPowerOn (embOff : Bool) (s : State) : Host.Outcome State Fault Refusal :=
  .next (evPowerOn embOff s)

/-- POWER_GOOD (R485). -/
def execPowerGood (s : State) : Host.Outcome State Fault Refusal :=
  .next (evPowerGood s)

/-- RST_N_ASSERT (R485). -/
def execRstNAssert (s : State) : Host.Outcome State Fault Refusal :=
  .next (evRstNAssert s)

/-- RST_N_RELEASE (R485). -/
def execRstNRelease (s : State) : Host.Outcome State Fault Refusal :=
  .next (evRstNRelease s)

/-- STRAP_SAMPLE (R486). -/
def execStrapSample (balls : Nat) (s : State) : Host.Outcome State Fault Refusal :=
  .next (evStrapSample balls s)

/-- KINDLING (R488). -/
def execKindling (selftest crc : Bool) (nand : NandDev) (ms : Nat) (s : State) : Host.Outcome State Fault Refusal :=
  .next (evKindling selftest crc nand ms s)

/-- DDR_TRAINING (R396). -/
def execDdrTraining (ok : Bool) (s : State) : Host.Outcome State Fault Refusal :=
  .next (evDdrTraining ok s)

/-- RECOVERY (R490). -/
def execRecovery (s : State) : Host.Outcome State Fault Refusal :=
  .next (evRecovery s)

/-- BANKED_ENTRY (R439). -/
def execBankedEntry (s : State) : Host.Outcome State Fault Refusal :=
  .next (evBankedEntry s)

/-- EMB_SMOULDER (R440). -/
def execEmbSmoulder (s : State) : Host.Outcome State Fault Refusal :=
  .next (evEmbSmoulder s)

/-- WAKE_N (R443). -/
def execWakeN (s : State) : Host.Outcome State Fault Refusal :=
  .next (evWakeN s)

/-- WAKE_SIGNAL (R443). -/
def execWakeSignal (sl02 : Bool) (s : State) : Host.Outcome State Fault Refusal :=
  .next (evWakeSignal sl02 s)

/-- WAKE_SPI (R443). -/
def execWakeSpi (s : State) : Host.Outcome State Fault Refusal :=
  .next (evWakeSpi s)

/-- WAKE_ALARM (R443). -/
def execWakeAlarm (s : State) : Host.Outcome State Fault Refusal :=
  .next (evWakeAlarm s)

/-- WAKE_THERM (R453). -/
def execWakeTherm (s : State) : Host.Outcome State Fault Refusal :=
  .next (evWakeTherm s)

/-- VSAG_WARN_ASSERT (R447). -/
def execVsagWarnAssert (rail : Nat) (s : State) : Host.Outcome State Fault Refusal :=
  .next (evVsagWarnAssert rail s)

/-- VSAG_WARN_CLEAR (R447). -/
def execVsagWarnClear (ack : Bool) (s : State) : Host.Outcome State Fault Refusal :=
  .next ((evVsagWarnClear ack s).settle)

/-- SUPPLY_RESET (R449). -/
def execSupplyReset (rail : Nat) (s : State) : Host.Outcome State Fault Refusal :=
  .next (evSupplyReset rail s)

/-- SUP_THRESHOLD_MOVE (R446). -/
def execSupThresholdMove (s : State) : Host.Outcome State Fault Refusal :=
  .next (evSupThresholdMove s)

/-- LIFE_CELL_WRITE (R436). -/
def execLifeCellWrite (s : State) : Host.Outcome State Fault Refusal :=
  .next (evLifeCellWrite s)

/-- XTAL_FAIL (R436). -/
def execXtalFail (s : State) : Host.Outcome State Fault Refusal :=
  .next (evXtalFail s)

/-- DIE_TEMP_READ (R450). -/
def execDieTempRead (temps : List Int) (s : State) : Host.Outcome State Fault Refusal :=
  .next (evDieTempReadRow temps s)

/-- THERM_GRACE_EXPIRY (R451). -/
def execThermGraceExpiry (s : State) : Host.Outcome State Fault Refusal :=
  .next (evThermGraceExpiry s)

/-- THERM_STEP_EXPIRY (R451). -/
def execThermStepExpiry (s : State) : Host.Outcome State Fault Refusal :=
  .next (evThermStepExpiry s)

/-- THERM_RELEASE_EXPIRY (R451). -/
def execThermReleaseExpiry (s : State) : Host.Outcome State Fault Refusal :=
  .next (evThermReleaseExpiry s)

/-- XTAL_RECOVERED (R436). -/
def execXtalRecovered (s : State) : Host.Outcome State Fault Refusal :=
  .next (evXtalRecovered s)

end Sys2Proof.Machine
end

