-- ==== Sys2Proof/Machine/ExecProgram.lean ====
section
/-! DEFINITION. Machine/ExecProgram.lean: the meanings of the commands of one family: Wall Control Protocol messages: programs, staging, test runs, proof of play (chapter 21). -/

namespace Sys2Proof.Machine

/-- PROG_LOAD (R514). -/
def execProgLoad (hdr : WcpHdr) (handle : Nat) (s : State) : Host.Outcome State Fault Refusal :=
  .next (s.wcp hdr (.progLoad handle))

/-- WCP_STAGE (R501). -/
def execWcpStage (hdr : WcpHdr) (handle frame ports : Nat) (sites : List (BitVec 64)) (s : State) : Host.Outcome State Fault Refusal :=
  .next (s.wcp hdr (.stage handle frame ports sites))

/-- STAGE_STATUS (R512). -/
def execStageStatus (hdr : WcpHdr) (s : State) : Host.Outcome State Fault Refusal :=
  .next (s.wcp hdr .stageStatus)

/-- SEQ_START (R512). -/
def execSeqStart (hdr : WcpHdr) (mask : Nat) (vddp : List Nat) (s : State) : Host.Outcome State Fault Refusal :=
  .next (s.wcp hdr (.seqStart mask vddp))

/-- SEQ_STOP (R512). -/
def execSeqStop (hdr : WcpHdr) (mask : Nat) (s : State) : Host.Outcome State Fault Refusal :=
  .next (s.wcp hdr (.seqStop mask))

/-- TEST_RUN (R243). -/
def execTestRun (hdr : WcpHdr) (runid : Word) (full : Bool) (ports : Nat) (sites : List (BitVec 64)) (test : List Byte) (handle : Nat) (loc : Bool)
    (s : State) : Host.Outcome State Fault Refusal :=
  .next (s.wcp hdr (.testRun runid full ports sites test handle loc))

/-- TEST_ABORT (R256). -/
def execTestAbort (hdr : WcpHdr) (runid : Word) (s : State) : Host.Outcome State Fault Refusal :=
  .next (s.wcp hdr (.testAbort runid))

/-- TEST_RESULT (R519). -/
def execTestResult (hdr : WcpHdr) (runid : Word) (first : Nat) (s : State) : Host.Outcome State Fault Refusal :=
  .next (s.wcp hdr (.testResult runid first))

/-- TEST_ACK (R243). -/
def execTestAck (hdr : WcpHdr) (runid : Word) (s : State) : Host.Outcome State Fault Refusal :=
  .next (s.wcp hdr (.testAck runid))

/-- POP_COLLECT (R363). -/
def execPopCollect (hdr : WcpHdr) (tenant : Nat) (s : State) : Host.Outcome State Fault Refusal :=
  .next (s.wcp hdr (.popCollect tenant))

/-- POP_ACK (R363). -/
def execPopAck (hdr : WcpHdr) (tenant rseq : Nat) (s : State) : Host.Outcome State Fault Refusal :=
  .next (s.wcp hdr (.popAck tenant rseq))

end Sys2Proof.Machine
end

