-- ==== Sys2Proof/Machine/ExecSeq.lean ====
section
/-! DEFINITION. Machine/ExecSeq.lean: the meanings of the commands of one family: sequencer control and scalar instructions (chapter 2). -/

namespace Sys2Proof.Machine

/-- NOP (R47). -/
def execNop (i : SeqInstr) (s : State) : Host.Outcome State Fault Refusal :=
  .next (s.issue 0x00 i doNop)

/-- JMP (R41). -/
def execJmp (i : SeqInstr) (s : State) : Host.Outcome State Fault Refusal :=
  .next (s.issue 0x01 i doJmp)

/-- JZ (R41). -/
def execJz (i : SeqInstr) (s : State) : Host.Outcome State Fault Refusal :=
  .next (s.issue 0x02 i doJz)

/-- JNZ (R41). -/
def execJnz (i : SeqInstr) (s : State) : Host.Outcome State Fault Refusal :=
  .next (s.issue 0x03 i doJnz)

/-- CALL (R42). -/
def execCall (i : SeqInstr) (s : State) : Host.Outcome State Fault Refusal :=
  .next (s.issue 0x04 i doCall)

/-- RET (R42). -/
def execRet (i : SeqInstr) (s : State) : Host.Outcome State Fault Refusal :=
  .next (s.issue 0x05 i doRet)

/-- LOOP (R43). -/
def execLoop (i : SeqInstr) (s : State) : Host.Outcome State Fault Refusal :=
  .next (s.issue 0x06 i doLoop)

/-- ENDL (R43). -/
def execEndl (i : SeqInstr) (s : State) : Host.Outcome State Fault Refusal :=
  .next (s.issue 0x07 i doEndl)

/-- WAIT (R44). -/
def execWait (i : SeqInstr) (s : State) : Host.Outcome State Fault Refusal :=
  .next (s.issue 0x08 i doWait)

/-- WAIT_RESUME (R44). -/
def execWaitResume (q : SeqId) (s : State) : Host.Outcome State Fault Refusal :=
  .next (evWaitResume q s)

/-- WAIT_TIMEOUT (R44). -/
def execWaitTimeout (q : SeqId) (s : State) : Host.Outcome State Fault Refusal :=
  .next (evWaitTimeout q s)

/-- SIG (R45). -/
def execSig (i : SeqInstr) (s : State) : Host.Outcome State Fault Refusal :=
  .next (s.issue 0x09 i doSig)

/-- HALT (R46). -/
def execHalt (i : SeqInstr) (s : State) : Host.Outcome State Fault Refusal :=
  .next (s.issue 0x0A i effHalt)

/-- MOV (R48). -/
def execMov (i : SeqInstr) (s : State) : Host.Outcome State Fault Refusal :=
  .next (s.issue 0x10 i doMov)

/-- ADDI (R48). -/
def execAddi (i : SeqInstr) (s : State) : Host.Outcome State Fault Refusal :=
  .next (s.issue 0x11 i doAddi)

/-- ADD (R48). -/
def execAdd (i : SeqInstr) (s : State) : Host.Outcome State Fault Refusal :=
  .next (s.issue 0x12 i doAdd)

/-- SUB (R48). -/
def execSub (i : SeqInstr) (s : State) : Host.Outcome State Fault Refusal :=
  .next (s.issue 0x13 i doSub)

/-- AND (R48). -/
def execAnd (i : SeqInstr) (s : State) : Host.Outcome State Fault Refusal :=
  .next (s.issue 0x14 i doAnd)

/-- OR (R48). -/
def execOr (i : SeqInstr) (s : State) : Host.Outcome State Fault Refusal :=
  .next (s.issue 0x15 i doOr)

/-- XOR (R48). -/
def execXor (i : SeqInstr) (s : State) : Host.Outcome State Fault Refusal :=
  .next (s.issue 0x16 i doXor)

/-- SHL (R49). -/
def execShl (i : SeqInstr) (s : State) : Host.Outcome State Fault Refusal :=
  .next (s.issue 0x17 i doShl)

/-- SHR (R49). -/
def execShr (i : SeqInstr) (s : State) : Host.Outcome State Fault Refusal :=
  .next (s.issue 0x18 i doShr)

/-- CMP (R49). -/
def execCmp (i : SeqInstr) (s : State) : Host.Outcome State Fault Refusal :=
  .next (s.issue 0x19 i doCmp)

/-- LD (R50). -/
def execLd (i : SeqInstr) (s : State) : Host.Outcome State Fault Refusal :=
  .next (s.issue 0x1A i doLd)

/-- ST (R50). -/
def execSt (i : SeqInstr) (s : State) : Host.Outcome State Fault Refusal :=
  .next (s.issue 0x1B i doSt)

/-- SWITCH_TIMEOUT (R76). -/
def execSwitchTimeout (s : State) : Host.Outcome State Fault Refusal :=
  .next (evSwitchTimeout s |> State.testStaged)

/-- FSQ_START (R32). -/
def execFsqStart (s : State) : Host.Outcome State Fault Refusal :=
  .next (evFsqStart s)

/-- PSQ_START (R207). -/
def execPsqStart (n mv : Nat) (s : State) : Host.Outcome State Fault Refusal :=
  .next (evPsqStart n mv s)

/-- PSQ_STOP (R222). -/
def execPsqStop (n : Nat) (s : State) : Host.Outcome State Fault Refusal :=
  .next (evPsqStop n s)

/-- SWEV_RAISE (R36). -/
def execSwevRaise (mask : Nat) (s : State) : Host.Outcome State Fault Refusal :=
  .next (evSwevRaise mask s)

/-- SWEV_PEND_CLEAR (R36). -/
def execSwevPendClear (mask : Nat) (s : State) : Host.Outcome State Fault Refusal :=
  .next (evSwevPendClear mask s)

/-- DMEM_ACCESS (R51). -/
def execDmemAccess (n : Nat) (value : Option Word) (s : State) : Host.Outcome State Fault Refusal :=
  .next (evDmemAccess n value s)

end Sys2Proof.Machine
end

