-- ==== Sys2Proof/Machine/ExecSession.lean ====
section
/-! DEFINITION. Machine/ExecSession.lean: the meanings of the commands of one family: Wall Control Protocol messages: sessions, uploads, status, owner, firmware, power, registers (chapter 21). -/

namespace Sys2Proof.Machine

/-- SPI_WRITE (R507). -/
def execSpiWrite (whole : Bool) (data : List Byte) (s : State) : Host.Outcome State Fault Refusal :=
  .next (evSpiWrite whole data s)

/-- SPI_READ (R507). -/
def execSpiRead (s : State) : Host.Outcome State Fault Refusal :=
  .next (evSpiRead s)

/-- INFO (R512). -/
def execInfo (hdr : WcpHdr) (s : State) : Host.Outcome State Fault Refusal :=
  .next (s.wcp hdr .info)

/-- PING (R512). -/
def execPing (hdr : WcpHdr) (data : List Byte) (s : State) : Host.Outcome State Fault Refusal :=
  .next (s.wcp hdr (.ping data))

/-- CLOSE (R512). -/
def execClose (hdr : WcpHdr) (s : State) : Host.Outcome State Fault Refusal :=
  .next (s.wcp hdr .close)

/-- UPLOAD_OPEN (R513). -/
def execUploadOpen (hdr : WcpHdr) (kind len : Nat) (digest : List Byte) (s : State) : Host.Outcome State Fault Refusal :=
  .next (s.wcp hdr (.uploadOpen kind len digest))

/-- UPLOAD_DATA (R513). -/
def execUploadData (hdr : WcpHdr) (handle offset : Nat) (data : List Byte) (s : State) : Host.Outcome State Fault Refusal :=
  .next (s.wcp hdr (.uploadData handle offset data))

/-- UPLOAD_CLOSE (R513). -/
def execUploadClose (hdr : WcpHdr) (handle : Nat) (s : State) : Host.Outcome State Fault Refusal :=
  .next (s.wcp hdr (.uploadClose handle))

/-- UPLOAD_TIMEOUT (R513). -/
def execUploadTimeout (session handle : Nat) (s : State) : Host.Outcome State Fault Refusal :=
  .next (evUploadTimeout session handle s)

/-- STATUS_READ (R512). -/
def execStatusRead (hdr : WcpHdr) (item index port pos : Nat) (s : State) : Host.Outcome State Fault Refusal :=
  .next (s.wcp hdr (.statusRead item index port pos))

/-- EVENT_READ (R517). -/
def execEventRead (hdr : WcpHdr) (eseq : Word) (s : State) : Host.Outcome State Fault Refusal :=
  .next (s.wcp hdr (.eventRead eseq))

/-- LOG_READ (R339). -/
def execLogRead (hdr : WcpHdr) (seq : Nat) (s : State) : Host.Outcome State Fault Refusal :=
  .next (s.wcp hdr (.logRead seq))

/-- TENANT_SET (R349). -/
def execTenantSet (hdr : WcpHdr) (slot : Nat) (contents : TenantRec) (s : State) : Host.Outcome State Fault Refusal :=
  .next (s.wcp hdr (.tenantSet slot contents))

/-- TENANT_REMOVE (R346). -/
def execTenantRemove (hdr : WcpHdr) (slot : Nat) (s : State) : Host.Outcome State Fault Refusal :=
  .next (s.wcp hdr (.tenantRemove slot))

/-- SLOT_ASSIGN (R100). -/
def execSlotAssign (hdr : WcpHdr) (layer tenant : Nat) (s : State) : Host.Outcome State Fault Refusal :=
  .next (s.wcp hdr (.slotAssign layer tenant))

/-- OWNER_INSTALL (R320). -/
def execOwnerInstall (hdr : WcpHdr) (root : List Byte) (s : State) : Host.Outcome State Fault Refusal :=
  .next (s.wcp hdr (.ownerInstall root))

/-- OWNER_XFER (R321). -/
def execOwnerXfer (hdr : WcpHdr) (obj : SignedObj) (s : State) : Host.Outcome State Fault Refusal :=
  .next (s.wcp hdr (.ownerXfer obj))

/-- KEY_ADD (R323). -/
def execKeyAdd (hdr : WcpHdr) (key : List Byte) (s : State) : Host.Outcome State Fault Refusal :=
  .next (s.wcp hdr (.keyAdd key))

/-- KEY_REMOVE (R323). -/
def execKeyRemove (hdr : WcpHdr) (key : List Byte) (s : State) : Host.Outcome State Fault Refusal :=
  .next (s.wcp hdr (.keyRemove key))

/-- REFCRED_SET (R323). -/
def execRefcredSet (hdr : WcpHdr) (digest : List Byte) (s : State) : Host.Outcome State Fault Refusal :=
  .next (s.wcp hdr (.refcredSet digest))

/-- STEP_AUTH (R358). -/
def execStepAuth (hdr : WcpHdr) (obj : SignedObj) (s : State) : Host.Outcome State Fault Refusal :=
  .next (s.wcp hdr (.stepAuth obj))

/-- DEBUG_NONCE (R342). -/
def execDebugNonce (hdr : WcpHdr) (s : State) : Host.Outcome State Fault Refusal :=
  .next (s.wcp hdr .debugNonce)

/-- DEBUG_TOKEN (R343). -/
def execDebugToken (hdr : WcpHdr) (obj : SignedObj) (s : State) : Host.Outcome State Fault Refusal :=
  .next (s.wcp hdr (.debugToken obj))

/-- FACTORY_RESET (R322). -/
def execFactoryReset (hdr : WcpHdr) (s : State) : Host.Outcome State Fault Refusal :=
  .next (s.wcp hdr .factoryReset)

/-- ATTEST (R341). -/
def execAttest (hdr : WcpHdr) (nonce : List Byte) (port pos : Nat) (s : State) : Host.Outcome State Fault Refusal :=
  .next (s.wcp hdr (.attest nonce port pos))

/-- FW_INSTALL (R497). -/
def execFwInstall (hdr : WcpHdr) (handle : Nat) (s : State) : Host.Outcome State Fault Refusal :=
  .next (s.wcp hdr (.fwInstall handle))

/-- FW_ACTIVATE (R498). -/
def execFwActivate (hdr : WcpHdr) (slot : Nat) (s : State) : Host.Outcome State Fault Refusal :=
  .next (s.wcp hdr (.fwActivate slot))

/-- FW_ABANDON (R499). -/
def execFwAbandon (hdr : WcpHdr) (s : State) : Host.Outcome State Fault Refusal :=
  .next (s.wcp hdr .fwAbandon)

/-- LANE_INSTALL (R423). -/
def execLaneInstall (hdr : WcpHdr) (handle : Nat) (s : State) : Host.Outcome State Fault Refusal :=
  .next (s.wcp hdr (.laneInstall handle))

/-- RECOVERY_ENTER (R490). -/
def execRecoveryEnter (hdr : WcpHdr) (s : State) : Host.Outcome State Fault Refusal :=
  .next (s.wcp hdr .recoveryEnter)

/-- RECOVERY_EXIT (R490). -/
def execRecoveryExit (hdr : WcpHdr) (s : State) : Host.Outcome State Fault Refusal :=
  .next (s.wcp hdr .recoveryExit)

/-- POWER (R440). -/
def execPower (hdr : WcpHdr) (state : Nat) (s : State) : Host.Outcome State Fault Refusal :=
  .next (s.wcp hdr (.power state))

/-- CORD_POWER (R442). -/
def execCordPower (hdr : WcpHdr) (ports fcnt : Nat) (s : State) : Host.Outcome State Fault Refusal :=
  .next (s.wcp hdr (.cordPower ports fcnt))

/-- CORD_WAKE (R442). -/
def execCordWake (hdr : WcpHdr) (ports : Nat) (s : State) : Host.Outcome State Fault Refusal :=
  .next (s.wcp hdr (.cordWake ports))

/-- SWAP (R302). -/
def execSwap (hdr : WcpHdr) (s : State) : Host.Outcome State Fault Refusal :=
  .next (s.wcp hdr .swap)

/-- REF_HEARTBEAT (R289). -/
def execRefHeartbeat (hdr : WcpHdr) (hb : Heartbeat) (s : State) : Host.Outcome State Fault Refusal :=
  .next (s.wcp hdr (.refHeartbeat hb))

/-- REF_GRANT (R289). -/
def execRefGrant (hdr : WcpHdr) (claim : BitVec 64) (holder reason : Nat) (s : State) : Host.Outcome State Fault Refusal :=
  .next (s.wcp hdr (.refGrant claim holder reason))

/-- REF_SWAP_RSP (R289). -/
def execRefSwapRsp (hdr : WcpHdr) (cur : BitVec 64) (status : Nat) (seq : Word) (s : State) : Host.Outcome State Fault Refusal :=
  .next (s.wcp hdr (.refSwapRsp cur status seq))

/-- REG_READ (R516). -/
def execRegRead (hdr : WcpHdr) (addr count : Nat) (s : State) : Host.Outcome State Fault Refusal :=
  .next (s.wcp hdr (.regRead addr count))

/-- REG_WRITE (R516). -/
def execRegWrite (hdr : WcpHdr) (entries : List (Nat × Word)) (ctx : RegCtx) (s : State) : Host.Outcome State Fault Refusal :=
  .next (s.wcp hdr (.regWrite entries ctx))

end Sys2Proof.Machine
end

