-- ==== Sys2Proof/Machine/ExecSource.lean ====
section
/-! DEFINITION. Machine/ExecSource.lean: the meanings of the commands of one family: source intake (chapter 3). -/

namespace Sys2Proof.Machine

/-- SOURCE_FRAME_RX (R81). -/
def execSourceFrameRx (frame : SrcFrame) (s : State) : Host.Outcome State Fault Refusal :=
  .next (evSourceFrameRxRow frame s)

/-- FRAME_CLOSE_TIMEOUT (R88). -/
def execFrameCloseTimeout (stream : Nat) (s : State) : Host.Outcome State Fault Refusal :=
  .next (evFrameCloseTimeout stream s)

/-- NO_SIGNAL (R93). -/
def execNoSignal (stream : Nat) (s : State) : Host.Outcome State Fault Refusal :=
  .next (evNoSignal stream s)

/-- SOURCE_PORT_LINK_CHANGE (R302). -/
def execSourcePortLinkChange (port : Nat) (link fec : Bool) (s : State) : Host.Outcome State Fault Refusal :=
  .next (evSourceLinkLanes port link fec s)

end Sys2Proof.Machine
end

