-- ==== Sys2Proof/Machine/ExecStore.lean ====
section
/-! DEFINITION. Machine/ExecStore.lean: the meanings of the commands of one family: calibration store and NV journal (chapter 14). -/

namespace Sys2Proof.Machine

/-- NAND_ERASE_DONE (R372). -/
def execNandEraseDone (ok blank : Bool) (s : State) : Host.Outcome State Fault Refusal :=
  .next ((evNandEraseDoneRow ok blank s).settle)

/-- NAND_PROGRAM_DONE (R376). -/
def execNandProgramDone (ok : Bool) (s : State) : Host.Outcome State Fault Refusal :=
  .next ((evNandProgramDoneRow ok s).settle)

/-- NAND_READ_DONE (R380). -/
def execNandReadDone (secs : List (Option Nat)) (s : State) : Host.Outcome State Fault Refusal :=
  .next ((evNandReadDone secs s).settle)

/-- NAND_PACE_TICK (R377). -/
def execNandPaceTick (s : State) : Host.Outcome State Fault Refusal :=
  .next (evNandPaceTickRow s)

/-- SCRUB_TICK (R381). -/
def execScrubTick (s : State) : Host.Outcome State Fault Refusal :=
  .next (evScrubTickRow s)

/-- NAND_SCRUB_NOW (R381). -/
def execNandScrubNow (s : State) : Host.Outcome State Fault Refusal :=
  .next (evNandScrubNowRow s)

/-- QSPI_WRITE_DONE (R392). -/
def execQspiWriteDone (ok : Bool) (s : State) : Host.Outcome State Fault Refusal :=
  .next ((evQspiWriteDone ok s).settle)

/-- CFG_SLOT_WRITE (R369). -/
def execCfgSlotWrite (s : State) : Host.Outcome State Fault Refusal :=
  .next (evCfgSlotWrite s)

end Sys2Proof.Machine
end

