-- ==== Sys2Proof/Machine/ExecTest.lean ====
section
/-! DEFINITION. Machine/ExecTest.lean: the meanings of the commands of one family: in-service test (chapter 9). -/

namespace Sys2Proof.Machine

/-- TEST_OP_ARM (R245). -/
def execTestOpArm (rx : CordRx) (data : List Byte) (s : State) : Host.Outcome State Fault Refusal :=
  .next (evTestOpArm rx data s)

/-- TEST_OP_ABORT (R256). -/
def execTestOpAbort (rx : CordRx) (data : List Byte) (s : State) : Host.Outcome State Fault Refusal :=
  .next (evTestOpAbort rx data s)

/-- TEST_OP_RESEND (R254). -/
def execTestOpResend (rx : CordRx) (data : List Byte) (s : State) : Host.Outcome State Fault Refusal :=
  .next (evTestOpResend rx data s)

/-- TEST_WINDOW_OPEN (R248). -/
def execTestWindowOpen (s : State) : Host.Outcome State Fault Refusal :=
  .next (evTestWindowOpen s)

/-- TEST_WINDOW_CLOSE (R251). -/
def execTestWindowClose (s : State) : Host.Outcome State Fault Refusal :=
  .next (evTestWindowClose s)

/-- FULL_TEST_POLL (R258). -/
def execFullTestPoll (s : State) : Host.Outcome State Fault Refusal :=
  .next (evFullTestPoll s)

/-- FULL_TEST_LIMIT (R258). -/
def execFullTestLimit (s : State) : Host.Outcome State Fault Refusal :=
  .next (evFullTestLimit s)

/-- TEST_RES_RX (R254). -/
def execTestResRx (rx : CordRx) (res : TestResPkt) (s : State) : Host.Outcome State Fault Refusal :=
  .next (evTestResRx rx res s)

/-- TEST_COLLECT_TIMEOUT (R254). -/
def execTestCollectTimeout (s : State) : Host.Outcome State Fault Refusal :=
  .next (evTestCollectTimeout s)

/-- RUN_TIMEOUT (R256). -/
def execRunTimeout (s : State) : Host.Outcome State Fault Refusal :=
  .next (evRunTimeout s)

end Sys2Proof.Machine
end

