-- ==== Sys2Proof/Machine/ExecTile.lean ====
section
/-! DEFINITION. Machine/ExecTile.lean: the meanings of the commands of one family: a tile's frames and control requests (chapters 5 and 6). -/

namespace Sys2Proof.Machine

/-- MARK_RX (R145). -/
def execMarkRx (rx : CordRx) (fcnt fper ntiles : Nat) (s : State) : Host.Outcome State Fault Refusal :=
  .next (evMarkRx rx fcnt fper ntiles s)

/-- PRESENT_RX (R145). -/
def execPresentRx (rx : CordRx) (fcnt ptime : Nat) (count : List Nat) (s : State) : Host.Outcome State Fault Refusal :=
  .next (evPresentRx rx fcnt ptime count s)

/-- BAND_RX (R169). -/
def execBandRx (rx : CordRx) (band : BandPkt) (fits : Bool) (s : State) : Host.Outcome State Fault Refusal :=
  .next (evBandRx rx band fits s)

/-- BAND_CORRECTION_DONE (R171). -/
def execBandCorrectionDone (s : State) : Host.Outcome State Fault Refusal :=
  .next (evBandCorrectionDone s)

/-- PTIME_REACHED (R146). -/
def execPtimeReached (s : State) : Host.Outcome State Fault Refusal :=
  .next (evPtimeReached s)

/-- TESTSLOT_RX (R247). -/
def execTestslotRx (rx : CordRx) (fcnt tstart len : Nat) (s : State) : Host.Outcome State Fault Refusal :=
  .next (evTestslotRx rx fcnt tstart len s)

/-- ENUM (R130). -/
def execEnum (rx : CordRx) (seq : Word) (pos : Nat) (s : State) : Host.Outcome State Fault Refusal :=
  .next (evEnum rx seq pos s)

/-- RATE_STEP (R135). -/
def execRateStep (rx : CordRx) (seq : Word) (data : List Byte) (s : State) : Host.Outcome State Fault Refusal :=
  .next (evRateStep rx seq data s)

/-- STATUS (R162). -/
def execStatus (rx : CordRx) (seq : Word) (s : State) : Host.Outcome State Fault Refusal :=
  .next (evStatus rx seq s)

/-- CTRL_ATTEST (R341). -/
def execCtrlAttest (rx : CordRx) (seq : Word) (nonce : List Byte) (s : State) : Host.Outcome State Fault Refusal :=
  .next (evCtrlAttest rx seq nonce s)

/-- OWNER_SET (R320). -/
def execOwnerSet (rx : CordRx) (seq : Word) (root : List Byte) (s : State) : Host.Outcome State Fault Refusal :=
  .next (evOwnerSet rx seq root s)

/-- CTRL_KEY_SET (R323). -/
def execCtrlKeySet (rx : CordRx) (seq : Word) (add : Bool) (key : List Byte) (s : State) : Host.Outcome State Fault Refusal :=
  .next (evCtrlKeySet rx seq add key s)

/-- CTRL_OWNER_XFER (R321). -/
def execCtrlOwnerXfer (rx : CordRx) (seq : Word) (obj : SignedObj) (s : State) : Host.Outcome State Fault Refusal :=
  .next (evCtrlOwnerXfer rx seq obj s)

/-- CTRL_DEBUG_NONCE (R342). -/
def execCtrlDebugNonce (rx : CordRx) (seq : Word) (s : State) : Host.Outcome State Fault Refusal :=
  .next (evCtrlDebugNonce rx seq s)

/-- CTRL_DEBUG_TOKEN (R343). -/
def execCtrlDebugToken (rx : CordRx) (seq : Word) (obj : SignedObj) (s : State) : Host.Outcome State Fault Refusal :=
  .next (evCtrlDebugToken rx seq obj s)

/-- CTRL_POWER (R440). -/
def execCtrlPower (rx : CordRx) (seq : Word) (state fcnt : Nat) (s : State) : Host.Outcome State Fault Refusal :=
  .next (evCtrlPower rx seq state fcnt s)

/-- STAGE (R501). -/
def execStage (rx : CordRx) (seq : Word) (kind len : Nat) (digest : List Byte) (s : State) : Host.Outcome State Fault Refusal :=
  .next (evStage rx seq kind len digest s)

/-- STAGE_DATA (R501). -/
def execStageData (rx : CordRx) (seq : Word) (offset : Nat) (chunk : List Byte) (s : State) : Host.Outcome State Fault Refusal :=
  .next (evStageData rx seq offset chunk s)

/-- CONFIRM (R501). -/
def execConfirm (rx : CordRx) (seq : Word) (s : State) : Host.Outcome State Fault Refusal :=
  .next (evConfirm rx seq s)

/-- ARM (R502). -/
def execArm (rx : CordRx) (seq : Word) (frame : Nat) (s : State) : Host.Outcome State Fault Refusal :=
  .next (evArm rx seq frame s)

/-- CANCEL (R502). -/
def execCancel (rx : CordRx) (seq : Word) (s : State) : Host.Outcome State Fault Refusal :=
  .next (evCancel rx seq s)

/-- FW_DATA (R491). -/
def execFwData (rx : CordRx) (seq : Word) (offset : Nat) (chunk : List Byte) (last : Bool)
    (s : State) : Host.Outcome State Fault Refusal :=
  .next (evFwData rx seq offset chunk last s)

end Sys2Proof.Machine
end

