-- ==== Sys2Proof/Machine/ExecTime.lean ====
section
/-! DEFINITION. Machine/ExecTime.lean: the meanings of the commands of one family: references, frame lock and interval measurement (chapter 10). -/

namespace Sys2Proof.Machine

/-- PTP_SYNC_TIMEOUT (R281). -/
def execPtpSyncTimeout (s : State) : Host.Outcome State Fault Refusal :=
  .next (evPtpSyncTimeout s)

/-- SYNC_EDGE (R266). -/
def execSyncEdge (input : Nat) (s : State) : Host.Outcome State Fault Refusal :=
  .next (evSyncEdge input s)

/-- SYNC_STOP (R264). -/
def execSyncStop (input : Nat) (s : State) : Host.Outcome State Fault Refusal :=
  .next (evSyncStop input s)

/-- SYNC_RATE_CHECK (R264). -/
def execSyncRateCheck (input : Nat) (dev : Int) (s : State) : Host.Outcome State Fault Refusal :=
  .next (evSyncRateCheck input dev s)

/-- OCXO_STOP (R264). -/
def execOcxoStop (s : State) : Host.Outcome State Fault Refusal :=
  .next (evOcxoStop s)

/-- OCXO_RATE_CHECK (R264). -/
def execOcxoRateCheck (ratio : Int) (s : State) : Host.Outcome State Fault Refusal :=
  .next (evOcxoRateCheck ratio s)

/-- OCXO_REQUALIFIED (R265). -/
def execOcxoRequalified (s : State) : Host.Outcome State Fault Refusal :=
  .next (evOcxoRequalified s)

/-- REF_QUALIFIED (R268). -/
def execRefQualified (ref : Nat) (s : State) : Host.Outcome State Fault Refusal :=
  .next (evRefQualified ref s)

/-- REF_EVALUATION (R269). -/
def execRefEvaluation (s : State) : Host.Outcome State Fault Refusal :=
  .next (evRefEvaluation s)

/-- EPOCH_TIMEOUT (R273). -/
def execEpochTimeout (s : State) : Host.Outcome State Fault Refusal :=
  .next (evEpochTimeout s)

/-- NET_VALID_WRITE (R281). -/
def execNetValidWrite (value : Bool) (s : State) : Host.Outcome State Fault Refusal :=
  .next (evNetValidWrite value s)

/-- NTOFF_WRITE (R282). -/
def execNtoffWrite (hi : Word) (s : State) : Host.Outcome State Fault Refusal :=
  .next (evNtoffWrite hi s)

/-- PPS_OUT_PULSE (R267). -/
def execPpsOutPulse (s : State) : Host.Outcome State Fault Refusal :=
  .next (evPpsOutPulse s)

/-- TIM_ARM (R280). -/
def execTimArm (channel : Nat) (value : Word) (s : State) : Host.Outcome State Fault Refusal :=
  .next (evTimArm channel value s)

/-- TIM_ABORT (R280). -/
def execTimAbort (mask : Nat) (s : State) : Host.Outcome State Fault Refusal :=
  .next (evTimAbort mask s)

/-- TIM_STAMP (R278). -/
def execTimStamp (channel : Nat) (start stop : Bool) (s : State) : Host.Outcome State Fault Refusal :=
  .next (evTimStamp channel start stop s)

/-- TIM_TIMEOUT (R278). -/
def execTimTimeout (channel : Nat) (s : State) : Host.Outcome State Fault Refusal :=
  .next (evTimTimeout channel s)

/-- TIM_GATE_END (R279). -/
def execTimGateEnd (channel : Nat) (s : State) : Host.Outcome State Fault Refusal :=
  .next (evTimGateEnd channel s)

/-- TIM_RES_READ (R280). -/
def execTimResRead (channel word : Nat) (s : State) : Host.Outcome State Fault Refusal :=
  .next (evTimResRead channel word s)

/-- OCXO_WARM_CHANGE (R263). -/
def execOcxoWarmChange (warm : Bool) (s : State) : Host.Outcome State Fault Refusal :=
  .next (evOcxoWarmChange warm s)

/-- OCXO_GLITCH (R264). -/
def execOcxoGlitch (s : State) : Host.Outcome State Fault Refusal :=
  .next (evOcxoGlitch s)

end Sys2Proof.Machine
end

