-- ==== Sys2Proof/Machine/Dispatch.lean ====
section
/-! DEFINITION. Machine/Dispatch.lean: one arm per command, each a direct call of its meaning. -/

namespace Sys2Proof.Machine

def exec (i : Instr) (s : State) : Host.Outcome State Fault Refusal :=
  match i with
  | .powerOn embOff => Sys2Proof.Machine.execPowerOn embOff s
  | .powerGood => Sys2Proof.Machine.execPowerGood s
  | .rstNAssert => Sys2Proof.Machine.execRstNAssert s
  | .rstNRelease => Sys2Proof.Machine.execRstNRelease s
  | .strapSample balls => Sys2Proof.Machine.execStrapSample balls s
  | .kindling selftest crc nand ms => Sys2Proof.Machine.execKindling selftest crc nand ms s
  | .ddrTraining ok => Sys2Proof.Machine.execDdrTraining ok s
  | .registerWrite addr value ctx => Sys2Proof.Machine.execRegisterWrite addr value ctx s
  | .clrcnt target => Sys2Proof.Machine.execClrcnt target s
  | .nop x => Sys2Proof.Machine.execNop x s
  | .jmp x => Sys2Proof.Machine.execJmp x s
  | .jz x => Sys2Proof.Machine.execJz x s
  | .jnz x => Sys2Proof.Machine.execJnz x s
  | .call x => Sys2Proof.Machine.execCall x s
  | .ret x => Sys2Proof.Machine.execRet x s
  | .loop x => Sys2Proof.Machine.execLoop x s
  | .endl x => Sys2Proof.Machine.execEndl x s
  | .wait x => Sys2Proof.Machine.execWait x s
  | .waitResume q => Sys2Proof.Machine.execWaitResume q s
  | .waitTimeout q => Sys2Proof.Machine.execWaitTimeout q s
  | .sig x => Sys2Proof.Machine.execSig x s
  | .halt x => Sys2Proof.Machine.execHalt x s
  | .mov x => Sys2Proof.Machine.execMov x s
  | .addi x => Sys2Proof.Machine.execAddi x s
  | .add x => Sys2Proof.Machine.execAdd x s
  | .sub x => Sys2Proof.Machine.execSub x s
  | .and x => Sys2Proof.Machine.execAnd x s
  | .or x => Sys2Proof.Machine.execOr x s
  | .xor x => Sys2Proof.Machine.execXor x s
  | .shl x => Sys2Proof.Machine.execShl x s
  | .shr x => Sys2Proof.Machine.execShr x s
  | .cmp x => Sys2Proof.Machine.execCmp x s
  | .ld x => Sys2Proof.Machine.execLd x s
  | .st x => Sys2Proof.Machine.execSt x s
  | .mark x => Sys2Proof.Machine.execMark x s
  | .markSent => Sys2Proof.Machine.execMarkSent s
  | .damage x => Sys2Proof.Machine.execDamage x s
  | .band x => Sys2Proof.Machine.execBand x s
  | .zlist x => Sys2Proof.Machine.execZlist x s
  | .budget x => Sys2Proof.Machine.execBudget x s
  | .flip x => Sys2Proof.Machine.execFlip x s
  | .testslot x => Sys2Proof.Machine.execTestslot x s
  | .vec x smps => Sys2Proof.Machine.execVec x smps s
  | .vstr x smps => Sys2Proof.Machine.execVstr x smps s
  | .vgen x smps => Sys2Proof.Machine.execVgen x smps s
  | .tset x => Sys2Proof.Machine.execTset x s
  | .period x => Sys2Proof.Machine.execPeriod x s
  | .map x => Sys2Proof.Machine.execMap x s
  | .capt x => Sys2Proof.Machine.execCapt x s
  | .trig x => Sys2Proof.Machine.execTrig x s
  | .line x => Sys2Proof.Machine.execLine x s
  | .switchTimeout => Sys2Proof.Machine.execSwitchTimeout s
  | .fsqStart => Sys2Proof.Machine.execFsqStart s
  | .psqStart n mv => Sys2Proof.Machine.execPsqStart n mv s
  | .psqStop n => Sys2Proof.Machine.execPsqStop n s
  | .swevRaise mask => Sys2Proof.Machine.execSwevRaise mask s
  | .swevPendClear mask => Sys2Proof.Machine.execSwevPendClear mask s
  | .dmemAccess n value => Sys2Proof.Machine.execDmemAccess n value s
  | .captureRead n => Sys2Proof.Machine.execCaptureRead n s
  | .lineTimerWrite n value => Sys2Proof.Machine.execLineTimerWrite n value s
  | .lineTick n => Sys2Proof.Machine.execLineTick n s
  | .trigInEdge n => Sys2Proof.Machine.execTrigInEdge n s
  | .pinEdge pin rising => Sys2Proof.Machine.execPinEdge pin rising s
  | .pinConfigWrite offset value => Sys2Proof.Machine.execPinConfigWrite offset value s
  | .vddpFail n mv => Sys2Proof.Machine.execVddpFail n mv s
  | .frameTick => Sys2Proof.Machine.execFrameTick s
  | .sourceFrameRx frame => Sys2Proof.Machine.execSourceFrameRx frame s
  | .frameCloseTimeout stream => Sys2Proof.Machine.execFrameCloseTimeout stream s
  | .noSignal stream => Sys2Proof.Machine.execNoSignal stream s
  | .ptpSyncTimeout => Sys2Proof.Machine.execPtpSyncTimeout s
  | .bandJobStart engine times => Sys2Proof.Machine.execBandJobStart engine times s
  | .bandJobComplete engine ue => Sys2Proof.Machine.execBandJobComplete engine ue s
  | .bandDeadline fcnt => Sys2Proof.Machine.execBandDeadline fcnt s
  | .presentTimeReached => Sys2Proof.Machine.execPresentTimeReached s
  | .ackRx rx ack => Sys2Proof.Machine.execAckRx rx ack s
  | .ackWindowClose => Sys2Proof.Machine.execAckWindowClose s
  | .compGcommit => Sys2Proof.Machine.execCompGcommit s
  | .compFulldmg => Sys2Proof.Machine.execCompFulldmg s
  | .damageMapWrite port pos word value sources => Sys2Proof.Machine.execDamageMapWrite port pos word value sources s
  | .surfaceWriteRelease => Sys2Proof.Machine.execSurfaceWriteRelease s
  | .hopTrained port width2 => Sys2Proof.Machine.execHopTrained port width2 s
  | .hopHelloRx hello => Sys2Proof.Machine.execHopHelloRx hello s
  | .hopAuthRetry port => Sys2Proof.Machine.execHopAuthRetry port s
  | .portDNoPartner port cordEnd => Sys2Proof.Machine.execPortDNoPartner port cordEnd s
  | .stepUpEval port step ok => Sys2Proof.Machine.execStepUpEval port step ok s
  | .linkLost port => Sys2Proof.Machine.execLinkLost port s
  | .berCheck port errs => Sys2Proof.Machine.execBerCheck port errs s
  | .starve port cls => Sys2Proof.Machine.execStarve port cls s
  | .creditRx port cls freed => Sys2Proof.Machine.execCreditRx port cls freed s
  | .probeTimer => Sys2Proof.Machine.execProbeTimer s
  | .probeRx port id => Sys2Proof.Machine.execProbeRx port id s
  | .echoRx port id => Sys2Proof.Machine.execEchoRx port id s
  | .timeRspRx rx id t2fr t3fr t2ns t3ns => Sys2Proof.Machine.execTimeRspRx rx id t2fr t3fr t2ns t3ns s
  | .markRx rx fcnt fper ntiles => Sys2Proof.Machine.execMarkRx rx fcnt fper ntiles s
  | .presentRx rx fcnt ptime count => Sys2Proof.Machine.execPresentRx rx fcnt ptime count s
  | .bandRx rx band fits => Sys2Proof.Machine.execBandRx rx band fits s
  | .bandCorrectionDone => Sys2Proof.Machine.execBandCorrectionDone s
  | .ptimeReached => Sys2Proof.Machine.execPtimeReached s
  | .testslotRx rx fcnt tstart len => Sys2Proof.Machine.execTestslotRx rx fcnt tstart len s
  | .eventRx rx eseq code data => Sys2Proof.Machine.execEventRx rx eseq code data s
  | .ctrlRspRx rx seq op status data => Sys2Proof.Machine.execCtrlRspRx rx seq op status data s
  | .ctrlReqRetry port pos seq => Sys2Proof.Machine.execCtrlReqRetry port pos seq s
  | .ringOkTimeout port => Sys2Proof.Machine.execRingOkTimeout port s
  | .enum rx seq pos => Sys2Proof.Machine.execEnum rx seq pos s
  | .rateStep rx seq data => Sys2Proof.Machine.execRateStep rx seq data s
  | .status rx seq => Sys2Proof.Machine.execStatus rx seq s
  | .ctrlAttest rx seq nonce => Sys2Proof.Machine.execCtrlAttest rx seq nonce s
  | .ownerSet rx seq root => Sys2Proof.Machine.execOwnerSet rx seq root s
  | .ctrlKeySet rx seq add key => Sys2Proof.Machine.execCtrlKeySet rx seq add key s
  | .ctrlOwnerXfer rx seq obj => Sys2Proof.Machine.execCtrlOwnerXfer rx seq obj s
  | .ctrlDebugNonce rx seq => Sys2Proof.Machine.execCtrlDebugNonce rx seq s
  | .ctrlDebugToken rx seq obj => Sys2Proof.Machine.execCtrlDebugToken rx seq obj s
  | .ctrlPower rx seq state fcnt => Sys2Proof.Machine.execCtrlPower rx seq state fcnt s
  | .audio rx data => Sys2Proof.Machine.execAudio rx data s
  | .audioBlockDue timestamp => Sys2Proof.Machine.execAudioBlockDue timestamp s
  | .stage rx seq kind len digest => Sys2Proof.Machine.execStage rx seq kind len digest s
  | .stageData rx seq offset chunk => Sys2Proof.Machine.execStageData rx seq offset chunk s
  | .confirm rx seq => Sys2Proof.Machine.execConfirm rx seq s
  | .arm rx seq frame => Sys2Proof.Machine.execArm rx seq frame s
  | .cancel rx seq => Sys2Proof.Machine.execCancel rx seq s
  | .fwData rx seq offset chunk last => Sys2Proof.Machine.execFwData rx seq offset chunk last s
  | .lampTempCycle raws => Sys2Proof.Machine.execLampTempCycle raws s
  | .tempReadingRx pos temps loc valid => Sys2Proof.Machine.execTempReadingRx pos temps loc valid s
  | .tempRingTimeout sensor => Sys2Proof.Machine.execTempRingTimeout sensor s
  | .genSwitchTimeout => Sys2Proof.Machine.execGenSwitchTimeout s
  | .sweepDone => Sys2Proof.Machine.execSweepDone s
  | .sweepCommitTimeout => Sys2Proof.Machine.execSweepCommitTimeout s
  | .lampSweep => Sys2Proof.Machine.execLampSweep s
  | .calLoadDone => Sys2Proof.Machine.execCalLoadDone s
  | .lampClke value => Sys2Proof.Machine.execLampClke value s
  | .lampBright value => Sys2Proof.Machine.execLampBright value s
  | .rampStep => Sys2Proof.Machine.execRampStep s
  | .headroomWindowEnd mode acks => Sys2Proof.Machine.execHeadroomWindowEnd mode acks s
  | .supplyVoteRx pos vote masterSet pmbEn vsag setpoint fails => Sys2Proof.Machine.execSupplyVoteRx pos vote masterSet pmbEn vsag setpoint fails s
  | .testOpArm rx data => Sys2Proof.Machine.execTestOpArm rx data s
  | .testOpAbort rx data => Sys2Proof.Machine.execTestOpAbort rx data s
  | .testOpResend rx data => Sys2Proof.Machine.execTestOpResend rx data s
  | .testWindowOpen => Sys2Proof.Machine.execTestWindowOpen s
  | .testWindowClose => Sys2Proof.Machine.execTestWindowClose s
  | .fullTestPoll => Sys2Proof.Machine.execFullTestPoll s
  | .fullTestLimit => Sys2Proof.Machine.execFullTestLimit s
  | .testResRx rx res => Sys2Proof.Machine.execTestResRx rx res s
  | .testCollectTimeout => Sys2Proof.Machine.execTestCollectTimeout s
  | .runTimeout => Sys2Proof.Machine.execRunTimeout s
  | .syncEdge input => Sys2Proof.Machine.execSyncEdge input s
  | .syncStop input => Sys2Proof.Machine.execSyncStop input s
  | .syncRateCheck input dev => Sys2Proof.Machine.execSyncRateCheck input dev s
  | .ocxoStop => Sys2Proof.Machine.execOcxoStop s
  | .ocxoRateCheck ratio => Sys2Proof.Machine.execOcxoRateCheck ratio s
  | .ocxoRequalified => Sys2Proof.Machine.execOcxoRequalified s
  | .refQualified ref => Sys2Proof.Machine.execRefQualified ref s
  | .refEvaluation => Sys2Proof.Machine.execRefEvaluation s
  | .epochTimeout => Sys2Proof.Machine.execEpochTimeout s
  | .netValidWrite value => Sys2Proof.Machine.execNetValidWrite value s
  | .ntoffWrite hi => Sys2Proof.Machine.execNtoffWrite hi s
  | .ppsOutPulse => Sys2Proof.Machine.execPpsOutPulse s
  | .timArm channel value => Sys2Proof.Machine.execTimArm channel value s
  | .timAbort mask => Sys2Proof.Machine.execTimAbort mask s
  | .timStamp channel start stop => Sys2Proof.Machine.execTimStamp channel start stop s
  | .timTimeout channel => Sys2Proof.Machine.execTimTimeout channel s
  | .timGateEnd channel => Sys2Proof.Machine.execTimGateEnd channel s
  | .timResRead channel word => Sys2Proof.Machine.execTimResRead channel word s
  | .heartbeatTimer => Sys2Proof.Machine.execHeartbeatTimer s
  | .heartbeatTimeout referee => Sys2Proof.Machine.execHeartbeatTimeout referee s
  | .heartbeatRx hb => Sys2Proof.Machine.execHeartbeatRx hb s
  | .refereeEvaluation swaps => Sys2Proof.Machine.execRefereeEvaluation swaps s
  | .refereeStartupWait => Sys2Proof.Machine.execRefereeStartupWait s
  | .grantRx claim holder => Sys2Proof.Machine.execGrantRx claim holder s
  | .swapRspRx cur status seq => Sys2Proof.Machine.execSwapRspRx cur status seq s
  | .swapReqRetry => Sys2Proof.Machine.execSwapReqRetry s
  | .clmSwapReq => Sys2Proof.Machine.execClmSwapReq s
  | .mirrorRx mgen item bulk => Sys2Proof.Machine.execMirrorRx mgen item bulk s
  | .mirrorAckRx mgen item => Sys2Proof.Machine.execMirrorAckRx mgen item s
  | .mirrorAckTimeout => Sys2Proof.Machine.execMirrorAckTimeout s
  | .relayRx port dir pkt => Sys2Proof.Machine.execRelayRx port dir pkt s
  | .ringHelloTimer => Sys2Proof.Machine.execRingHelloTimer s
  | .ringHelloRx hello => Sys2Proof.Machine.execRingHelloRx hello s
  | .ringFormStable => Sys2Proof.Machine.execRingFormStable s
  | .ringFormTimeout => Sys2Proof.Machine.execRingFormTimeout s
  | .dtlsClientHello spi port cookie share suite scheme => Sys2Proof.Machine.execDtlsClientHello spi port cookie share suite scheme s
  | .dtlsKeyUpdate session => Sys2Proof.Machine.execDtlsKeyUpdate session s
  | .sessionIdleTimeout session => Sys2Proof.Machine.execSessionIdleTimeout session s
  | .nonceReq => Sys2Proof.Machine.execNonceReq s
  | .nonceExpiry => Sys2Proof.Machine.execNonceExpiry s
  | .fuseStepDone => Sys2Proof.Machine.execFuseStepDone s
  | .boffEval => Sys2Proof.Machine.execBoffEval s
  | .popFrameEvalTimeout => Sys2Proof.Machine.execPopFrameEvalTimeout s
  | .popCheckpoint => Sys2Proof.Machine.execPopCheckpoint s
  | .popCkpt => Sys2Proof.Machine.execPopCkpt s
  | .nandEraseDone ok blank => Sys2Proof.Machine.execNandEraseDone ok blank s
  | .nandProgramDone ok => Sys2Proof.Machine.execNandProgramDone ok s
  | .nandReadDone secs => Sys2Proof.Machine.execNandReadDone secs s
  | .nandPaceTick => Sys2Proof.Machine.execNandPaceTick s
  | .scrubTick => Sys2Proof.Machine.execScrubTick s
  | .nandScrubNow => Sys2Proof.Machine.execNandScrubNow s
  | .busRequest req => Sys2Proof.Machine.execBusRequest req s
  | .transferLastBeat target => Sys2Proof.Machine.execTransferLastBeat target s
  | .requestWithdraw target => Sys2Proof.Machine.execRequestWithdraw target s
  | .fabCommit => Sys2Proof.Machine.execFabCommit s
  | .remap value => Sys2Proof.Machine.execRemap value s
  | .remapLock => Sys2Proof.Machine.execRemapLock s
  | .recovery => Sys2Proof.Machine.execRecovery s
  | .ddrRequest req => Sys2Proof.Machine.execDdrRequest req s
  | .ddrReadData req bits => Sys2Proof.Machine.execDdrReadData req bits s
  | .ddrRefresh => Sys2Proof.Machine.execDdrRefresh s
  | .ddrMr4Poll x2 => Sys2Proof.Machine.execDdrMr4Poll x2 s
  | .dqsAdjust => Sys2Proof.Machine.execDqsAdjust s
  | .ddrRetryAck subch => Sys2Proof.Machine.execDdrRetryAck subch s
  | .ddrAlert subch => Sys2Proof.Machine.execDdrAlert subch s
  | .ddrAlertDeassert subch => Sys2Proof.Machine.execDdrAlertDeassert subch s
  | .ddrRecovExpiry subch => Sys2Proof.Machine.execDdrRecovExpiry subch s
  | .ddrRetrainDone subch ok => Sys2Proof.Machine.execDdrRetrainDone subch ok s
  | .ddrRetrain => Sys2Proof.Machine.execDdrRetrain s
  | .ddrScrubNow => Sys2Proof.Machine.execDdrScrubNow s
  | .patrolScrub bits => Sys2Proof.Machine.execPatrolScrub bits s
  | .escanStart lane value => Sys2Proof.Machine.execEscanStart lane value s
  | .escanAbort lane => Sys2Proof.Machine.execEscanAbort lane s
  | .escanPointDone lane errs => Sys2Proof.Machine.execEscanPointDone lane errs s
  | .escanTimeout lane => Sys2Proof.Machine.execEscanTimeout lane s
  | .laneTxSleep port => Sys2Proof.Machine.execLaneTxSleep port s
  | .laneScheduledWake port => Sys2Proof.Machine.execLaneScheduledWake port s
  | .laneKeepaliveWake port => Sys2Proof.Machine.execLaneKeepaliveWake port s
  | .laneWakeDone port => Sys2Proof.Machine.execLaneWakeDone port s
  | .laneRxSleep port => Sys2Proof.Machine.execLaneRxSleep port s
  | .laneRxRelock port => Sys2Proof.Machine.execLaneRxRelock port s
  | .relockfail port => Sys2Proof.Machine.execRelockfail port s
  | .laneSleepTimeout port => Sys2Proof.Machine.execLaneSleepTimeout port s
  | .bankedEntry => Sys2Proof.Machine.execBankedEntry s
  | .embSmoulder => Sys2Proof.Machine.execEmbSmoulder s
  | .wakeN => Sys2Proof.Machine.execWakeN s
  | .wakeSignal sl02 => Sys2Proof.Machine.execWakeSignal sl02 s
  | .wakeSpi => Sys2Proof.Machine.execWakeSpi s
  | .wakeAlarm => Sys2Proof.Machine.execWakeAlarm s
  | .wakeTherm => Sys2Proof.Machine.execWakeTherm s
  | .vsagWarnAssert rail => Sys2Proof.Machine.execVsagWarnAssert rail s
  | .vsagWarnClear ack => Sys2Proof.Machine.execVsagWarnClear ack s
  | .supplyReset rail => Sys2Proof.Machine.execSupplyReset rail s
  | .supThresholdMove => Sys2Proof.Machine.execSupThresholdMove s
  | .lifeCellWrite => Sys2Proof.Machine.execLifeCellWrite s
  | .xtalFail => Sys2Proof.Machine.execXtalFail s
  | .dieTempRead temps => Sys2Proof.Machine.execDieTempRead temps s
  | .thermGraceExpiry => Sys2Proof.Machine.execThermGraceExpiry s
  | .thermStepExpiry => Sys2Proof.Machine.execThermStepExpiry s
  | .thermReleaseExpiry => Sys2Proof.Machine.execThermReleaseExpiry s
  | .kilnRunStart => Sys2Proof.Machine.execKilnRunStart s
  | .kilnMeasurementDone result => Sys2Proof.Machine.execKilnMeasurementDone result s
  | .kilnRunTimeout => Sys2Proof.Machine.execKilnRunTimeout s
  | .kilnRun => Sys2Proof.Machine.execKilnRun s
  | .kilnTargetUpdate => Sys2Proof.Machine.execKilnTargetUpdate s
  | .kilnTrimStep => Sys2Proof.Machine.execKilnTrimStep s
  | .ageingMeasure degs => Sys2Proof.Machine.execAgeingMeasure degs s
  | .laneMarginScan lane left right top bottom => Sys2Proof.Machine.execLaneMarginScan lane left right top bottom s
  | .pinDriftMeasure drifts => Sys2Proof.Machine.execPinDriftMeasure drifts s
  | .eqhUpdate => Sys2Proof.Machine.execEqhUpdate s
  | .marginPlan ack => Sys2Proof.Machine.execMarginPlan ack s
  | .planNow ack => Sys2Proof.Machine.execPlanNow ack s
  | .avsRetry ack => Sys2Proof.Machine.execAvsRetry ack s
  | .camEnable value => Sys2Proof.Machine.execCamEnable value s
  | .camFrameStart nack => Sys2Proof.Machine.execCamFrameStart nack s
  | .camFrameEnd lines took => Sys2Proof.Machine.execCamFrameEnd lines took s
  | .pcommit => Sys2Proof.Machine.execPcommit s
  | .audioFrameBoundary port ue => Sys2Proof.Machine.execAudioFrameBoundary port ue s
  | .audCfgWrite port value => Sys2Proof.Machine.execAudCfgWrite port value s
  | .fwCommit => Sys2Proof.Machine.execFwCommit s
  | .fwTrialTimeout => Sys2Proof.Machine.execFwTrialTimeout s
  | .fwCtrlAbandon => Sys2Proof.Machine.execFwCtrlAbandon s
  | .activationPauseEnd => Sys2Proof.Machine.execActivationPauseEnd s
  | .stageConfirmDeadline => Sys2Proof.Machine.execStageConfirmDeadline s
  | .stageArmDeadline => Sys2Proof.Machine.execStageArmDeadline s
  | .stageVerify => Sys2Proof.Machine.execStageVerify s
  | .spiWrite whole data => Sys2Proof.Machine.execSpiWrite whole data s
  | .spiRead => Sys2Proof.Machine.execSpiRead s
  | .info hdr => Sys2Proof.Machine.execInfo hdr s
  | .ping hdr data => Sys2Proof.Machine.execPing hdr data s
  | .close hdr => Sys2Proof.Machine.execClose hdr s
  | .uploadOpen hdr kind len digest => Sys2Proof.Machine.execUploadOpen hdr kind len digest s
  | .uploadData hdr handle offset data => Sys2Proof.Machine.execUploadData hdr handle offset data s
  | .uploadClose hdr handle => Sys2Proof.Machine.execUploadClose hdr handle s
  | .uploadTimeout session handle => Sys2Proof.Machine.execUploadTimeout session handle s
  | .progLoad hdr handle => Sys2Proof.Machine.execProgLoad hdr handle s
  | .wcpStage hdr handle frame ports sites => Sys2Proof.Machine.execWcpStage hdr handle frame ports sites s
  | .stageStatus hdr => Sys2Proof.Machine.execStageStatus hdr s
  | .seqStart hdr mask vddp => Sys2Proof.Machine.execSeqStart hdr mask vddp s
  | .seqStop hdr mask => Sys2Proof.Machine.execSeqStop hdr mask s
  | .bind hdr share sdp => Sys2Proof.Machine.execBind hdr share sdp s
  | .unbind hdr index => Sys2Proof.Machine.execUnbind hdr index s
  | .layerSet hdr slot cls desc => Sys2Proof.Machine.execLayerSet hdr slot cls desc s
  | .layerClear hdr slot => Sys2Proof.Machine.execLayerClear hdr slot s
  | .surfaceWrite hdr slot offset data handle => Sys2Proof.Machine.execSurfaceWrite hdr slot offset data handle s
  | .surfaceFlip hdr slot => Sys2Proof.Machine.execSurfaceFlip hdr slot s
  | .zlistSet hdr entry data => Sys2Proof.Machine.execZlistSet hdr entry data s
  | .coefSet hdr table axis vals => Sys2Proof.Machine.execCoefSet hdr table axis vals s
  | .clinker hdr port pos entries => Sys2Proof.Machine.execClinker hdr port pos entries s
  | .damageHint hdr rects => Sys2Proof.Machine.execDamageHint hdr rects s
  | .statusRead hdr item index port pos => Sys2Proof.Machine.execStatusRead hdr item index port pos s
  | .eventRead hdr eseq => Sys2Proof.Machine.execEventRead hdr eseq s
  | .logRead hdr seq => Sys2Proof.Machine.execLogRead hdr seq s
  | .tenantSet hdr slot contents => Sys2Proof.Machine.execTenantSet hdr slot contents s
  | .tenantRemove hdr slot => Sys2Proof.Machine.execTenantRemove hdr slot s
  | .slotAssign hdr layer tenant => Sys2Proof.Machine.execSlotAssign hdr layer tenant s
  | .ownerInstall hdr root => Sys2Proof.Machine.execOwnerInstall hdr root s
  | .ownerXfer hdr obj => Sys2Proof.Machine.execOwnerXfer hdr obj s
  | .keyAdd hdr key => Sys2Proof.Machine.execKeyAdd hdr key s
  | .keyRemove hdr key => Sys2Proof.Machine.execKeyRemove hdr key s
  | .refcredSet hdr digest => Sys2Proof.Machine.execRefcredSet hdr digest s
  | .stepAuth hdr obj => Sys2Proof.Machine.execStepAuth hdr obj s
  | .debugNonce hdr => Sys2Proof.Machine.execDebugNonce hdr s
  | .debugToken hdr obj => Sys2Proof.Machine.execDebugToken hdr obj s
  | .factoryReset hdr => Sys2Proof.Machine.execFactoryReset hdr s
  | .testRun hdr runid full ports sites test handle loc => Sys2Proof.Machine.execTestRun hdr runid full ports sites test handle loc s
  | .testAbort hdr runid => Sys2Proof.Machine.execTestAbort hdr runid s
  | .testResult hdr runid first => Sys2Proof.Machine.execTestResult hdr runid first s
  | .testAck hdr runid => Sys2Proof.Machine.execTestAck hdr runid s
  | .popCollect hdr tenant => Sys2Proof.Machine.execPopCollect hdr tenant s
  | .popAck hdr tenant rseq => Sys2Proof.Machine.execPopAck hdr tenant rseq s
  | .attest hdr nonce port pos => Sys2Proof.Machine.execAttest hdr nonce port pos s
  | .fwInstall hdr handle => Sys2Proof.Machine.execFwInstall hdr handle s
  | .fwActivate hdr slot => Sys2Proof.Machine.execFwActivate hdr slot s
  | .fwAbandon hdr => Sys2Proof.Machine.execFwAbandon hdr s
  | .laneInstall hdr handle => Sys2Proof.Machine.execLaneInstall hdr handle s
  | .recoveryEnter hdr => Sys2Proof.Machine.execRecoveryEnter hdr s
  | .recoveryExit hdr => Sys2Proof.Machine.execRecoveryExit hdr s
  | .power hdr state => Sys2Proof.Machine.execPower hdr state s
  | .cordPower hdr ports fcnt => Sys2Proof.Machine.execCordPower hdr ports fcnt s
  | .cordWake hdr ports => Sys2Proof.Machine.execCordWake hdr ports s
  | .swap hdr => Sys2Proof.Machine.execSwap hdr s
  | .refHeartbeat hdr hb => Sys2Proof.Machine.execRefHeartbeat hdr hb s
  | .refGrant hdr claim holder reason => Sys2Proof.Machine.execRefGrant hdr claim holder reason s
  | .refSwapRsp hdr cur status seq => Sys2Proof.Machine.execRefSwapRsp hdr cur status seq s
  | .regRead hdr addr count => Sys2Proof.Machine.execRegRead hdr addr count s
  | .regWrite hdr entries ctx => Sys2Proof.Machine.execRegWrite hdr entries ctx s
  | .latchingReadLo addr => Sys2Proof.Machine.execLatchingReadLo addr s
  | .tapReset => Sys2Proof.Machine.execTapReset s
  | .idcode => Sys2Proof.Machine.execIdcode s
  | .samplePreload balls => Sys2Proof.Machine.execSamplePreload balls s
  | .extest balls => Sys2Proof.Machine.execExtest balls s
  | .clamp => Sys2Proof.Machine.execClamp s
  | .highz => Sys2Proof.Machine.execHighz s
  | .dbgap write addr data bytes ctx => Sys2Proof.Machine.execDbgap write addr data bytes ctx s
  | .bypass => Sys2Proof.Machine.execBypass s
  | .stkHalt on => Sys2Proof.Machine.execStkHalt on s
  | .stkStep => Sys2Proof.Machine.execStkStep s
  | .fsqHalt on => Sys2Proof.Machine.execFsqHalt on s
  | .fsqStep ue => Sys2Proof.Machine.execFsqStep ue s
  | .psqHalt mask => Sys2Proof.Machine.execPsqHalt mask s
  | .traceSwmsg value => Sys2Proof.Machine.execTraceSwmsg value s
  | .traceEnable stk seq => Sys2Proof.Machine.execTraceEnable stk seq s
  | .traceClear => Sys2Proof.Machine.execTraceClear s
  | .traceRdataRead high => Sys2Proof.Machine.execTraceRdataRead high s
  | .sourcePortLinkChange port link fec => Sys2Proof.Machine.execSourcePortLinkChange port link fec s
  | .xtalRecovered => Sys2Proof.Machine.execXtalRecovered s
  | .ocxoWarmChange warm => Sys2Proof.Machine.execOcxoWarmChange warm s
  | .ocxoGlitch => Sys2Proof.Machine.execOcxoGlitch s
  | .clientCertificate spi port leaf proof => Sys2Proof.Machine.execClientCertificate spi port leaf proof s
  | .qspiWriteDone ok => Sys2Proof.Machine.execQspiWriteDone ok s
  | .cutThroughForward rx body => Sys2Proof.Machine.execCutThroughForward rx body s
  | .brightnessRequest rx seq bright => Sys2Proof.Machine.execBrightnessRequest rx seq bright s
  | .lampTfRequest rx seq tf => Sys2Proof.Machine.execLampTfRequest rx seq tf s
  | .clinkerMapRequest rx seq entries => Sys2Proof.Machine.execClinkerMapRequest rx seq entries s
  | .dormantPortSignal port => Sys2Proof.Machine.execDormantPortSignal port s
  | .firmwareFault => Sys2Proof.Machine.execFirmwareFault s
  | .cfgSlotWrite => Sys2Proof.Machine.execCfgSlotWrite s

end Sys2Proof.Machine
end

