-- ==== Sys2Proof/Safety.lean ====
section
/-! DEFINITION. Safety.lean: what a safe run keeps: the canonical form of every addressed memory and table, so that equal contents are
equal data. -/

namespace Sys2Proof.Machine

/-- The register file, the values in force, the sequencers, banks, arbiters, eye scans and audio ports, DDR5, SRAM and the trace ring are in
their canonical form: keys strictly rising, no entry equal to what an unlisted key reads as. -/
structure Canonical (regs live : SMap Word) (seqs : SMap Seq) (banks : SMap Bank) (arbs : SMap Arb) (scans : SMap (Option Scan))
    (aud : SMap AudPort) (ddr sram : SMap Byte) (trace : SMap (BitVec 64)) : Prop where
  regs : SMap.wf regReset regs = true
  live : SMap.wf regReset live = true
  seqs : SMap.wf (fun _ => Seq.init) seqs = true
  banks : SMap.wf (fun _ => Bank.init) banks = true
  arbs : SMap.wf (fun _ => Arb.init) arbs = true
  scans : SMap.wf (fun _ => none) scans = true
  aud : SMap.wf (fun _ => AudPort.init) aud = true
  ddr : SMap.wf ddrFill ddr = true
  sram : SMap.wf sramFill sram = true
  trace : SMap.wf (fun _ => 0) trace = true

/-- The addressed memories and tables of the part are in their canonical form. -/
def State.Canon (s : State) : Prop := Canonical s.regs s.live s.seqs s.banks s.arbs s.scans s.aud s.ddr s.sram s.trace

/-- A sequencer row's instruction is at its turn: its sequencer is ready for it, and it meets no cause of a fault (R68). -/
def State.atTurn (s : State) (op : BitVec 6) (i : SeqInstr) : Prop :=
  s.seqReady i.q = true ∧
    faultOf (seqIdx i.q) i.q (s.seq (seqIdx i.q)) (s.bank (seqIdx i.q)).vsel (rowWord op i.body) i.ue = none

/-- A control request with these operands that a tile takes in is new to its session: t is the tile with its header and blocks taken, the
request's number is not in the cache, and the cache is not full (R163). -/
def State.takesNew (s : State) (r : CordRx) (seq : Word) (op : Nat) (data : List Byte) (t : State) : Prop :=
  s.tileOwn r (.ctrlReq seq op data) = (t, true) ∧ (t.tl.ctlCache.find? fun e => e.1 == seq) = none ∧ t.tl.ctlCache.length < 64

/-- Between s and t only sequencer k's own state and its bank's count of non-vector instructions may differ. -/
structure OnlySeq (s t : State) (k : Nat) : Prop where
  seqs : ∀ j, j ≠ k → t.seq j = s.seq j
  banks : ∀ j, j ≠ k → t.bank j = s.bank j
  bank : ∃ n, t.bank k = { s.bank k with nonvec := n }
  rest : t = { s with seqs := t.seqs, banks := t.banks }

end Sys2Proof.Machine
end

