-- ==== Sys2Proof/Certificates/Slice0/Obligations.lean ====
section
/-! DEFINITION. Certificates/Slice0/Obligations.lean: the statements for the provers. -/

section

open Sys2Proof Sys2Proof.Machine

/-- A step takes the command at the front of the queue and runs it with the rest of the queue (log 1). -/
def Obligations.StepRunsFrontCommand : Prop :=
  ∀ (c : Instr) (cs : List Instr) (s : State), s.pending = c :: cs → step s = exec c { s with pending := cs }

/-- On an empty queue one nominal ns passes (the model's choice, log 2): the WTB advances 1 + FCORR ns (R262), the life counter stays or
rises by 1, and nothing else changes but the two clocks' fractions. -/
def Obligations.EmptyQueueStepPassesOneNanosecond : Prop :=
  ∀ s : State, s.pending = [] → ∃ t, step s = .next t ∧
    (t.wtb : Int) * 10 ^ 12 + t.tim.frac = (s.wtb : Int) * 10 ^ 12 + s.tim.frac + 64 * (10 ^ 12 + s.fcorr) ∧ t.tim.frac < 10 ^ 12 ∧
    (t.life = s.life ∨ t.life = (s.life + 1) % 2 ^ 48) ∧
    t = { s with wtb := t.wtb, life := t.life, tim := { s.tim with frac := t.tim.frac, lifeFrac := t.tim.lifeFrac } }

/-- The part right after reset has its memories and tables in their canonical form. -/
def Obligations.ResetIsCanonical : Prop := State.reset.Canon

/-- Every step, of every command and of none, keeps the canonical form of every addressed memory and table: registers, values in force,
sequencers, banks, arbiters, eye scans, audio ports, DDR5, SRAM and the trace ring. -/
def Obligations.StepKeepsCanonicalMemories : Prop :=
  ∀ s t : State, s.Canon → step s = .next t → t.Canon

/-- Every command answers a next state and leaves the queue alone. No command moves the life counter but POWER_ON with VDD_EMB off before
and SUPPLY_RESET of VDD_EMB (its loss as the model takes it, log 136), where it resumes at the highest cell value plus 32,768 (R436). -/
def Obligations.CommandsCompleteAndLeaveQueueAndLife : Prop :=
  ∀ (c : Instr) (s : State), s.Canon → ∃ t, exec c s = .next t ∧ t.pending = s.pending ∧
    (c ≠ .powerOn true → c ≠ .supplyReset 2 → t.life = s.life) ∧
    (c = .powerOn true ∨ c = .supplyReset 2 → t.life = (s.pwr.lifeCell + 32768) % 2 ^ 48)

/-- The life counter never decreases (R436): in a step below the counter's last value, and where Ember's rail returns it resumes beyond the highest cell. -/
def Obligations.LifeCounterNeverDecreases : Prop :=
  ∀ s t : State, s.Canon → s.life < 2 ^ 48 - 1 → step s = .next t →
    (s.pending.head? ≠ some (.powerOn true) → s.pending.head? ≠ some (.supplyReset 2) → s.life ≤ t.life) ∧
    (s.pending.head? = some (.powerOn true) ∨ s.pending.head? = some (.supplyReset 2) → s.pwr.lifeCell + 32768 < 2 ^ 48 → s.pwr.lifeCell + 32768 = t.life)

/-- The register file: a register reads what was last put there, a field its low bits, and nothing else changes. -/
def Obligations.RegisterReadsLastValue : Prop :=
  ∀ (s : State) (a : Nat) (v : Word), s.Canon →
    (s.setReg a v).reg a = v ∧ (∀ b, b ≠ a → (s.setReg a v).reg b = s.reg b) ∧ s.setReg a v = { s with regs := (s.setReg a v).regs } ∧
    ∀ (f : Field) (n : Nat), f.lo ≤ f.hi → f.hi < 32 →
      (s.setF f n).getF f = n % 2 ^ (f.hi + 1 - f.lo) ∧ (∀ g : Field, g.addr ≠ f.addr → (s.setF f n).getF g = s.getF g)

/-- Right after reset nothing waits or is bound, no memory lists anything, and every register reads the reset value of its table; where the
spec gives none, the value that log 4 names. -/
def Obligations.ResetState : Prop :=
  State.reset.pending = [] ∧ State.reset.out = [] ∧ State.reset.sessions = [] ∧ State.reset.src = [] ∧ State.reset.comp.jobs = [] ∧
    State.reset.wtb = 0 ∧ State.reset.life = 0 ∧ State.reset.ddr = [] ∧ State.reset.sram = [] ∧ State.reset.trace = [] ∧
    (∀ a, State.reset.reg a = match regDef a with | some d => resetWord d | none => 0) ∧ State.reset.fw.kindled = none

/-- mov, addi, add, sub, and, or, xor, shl, shr, cmp, ld and st at their turn (R33, R48 to R50): the result in GD, the flags, PC + 1. -/
def Obligations.ScalarInstructionResults : Prop :=
  ∀ (s : State) (i : SeqInstr) (k : Nat) (q : Seq) (w : BitVec 64), k = seqIdx i.q → q = s.seq k →
    (w = rowWord 0x10#6 i.body → s.atTurn 0x10#6 i →
      exec (.mov i) s = .next (s.goNext k (q.setReg (wD w) (if wI w then wImm w else q.reg (wB w))))) ∧
    (w = rowWord 0x11#6 i.body → s.atTurn 0x11#6 i → exec (.addi i) s =
      .next (s.goNext k ((q.setReg (wD w) (q.reg (wA w) + wImm w)).setFlags (q.reg (wA w) + wImm w)
        (decide (2 ^ 32 ≤ (q.reg (wA w)).toNat + (wImm w).toNat))))) ∧
    (w = rowWord 0x12#6 i.body → s.atTurn 0x12#6 i → exec (.add i) s =
      .next (s.goNext k ((q.setReg (wD w) (q.reg (wA w) + q.reg (wB w))).setFlags (q.reg (wA w) + q.reg (wB w))
        (decide (2 ^ 32 ≤ (q.reg (wA w)).toNat + (q.reg (wB w)).toNat))))) ∧
    (w = rowWord 0x13#6 i.body → s.atTurn 0x13#6 i → exec (.sub i) s =
      .next (s.goNext k ((q.setReg (wD w) (q.reg (wA w) - q.reg (wB w))).setFlags (q.reg (wA w) - q.reg (wB w))
        (decide ((q.reg (wA w)).toNat < (q.reg (wB w)).toNat))))) ∧
    (w = rowWord 0x14#6 i.body → s.atTurn 0x14#6 i → exec (.and i) s =
      .next (s.goNext k ((q.setReg (wD w) (q.reg (wA w) &&& srcOf q w)).setFlags (q.reg (wA w) &&& srcOf q w) false))) ∧
    (w = rowWord 0x15#6 i.body → s.atTurn 0x15#6 i → exec (.or i) s =
      .next (s.goNext k ((q.setReg (wD w) (q.reg (wA w) ||| srcOf q w)).setFlags (q.reg (wA w) ||| srcOf q w) false))) ∧
    (w = rowWord 0x16#6 i.body → s.atTurn 0x16#6 i → exec (.xor i) s =
      .next (s.goNext k ((q.setReg (wD w) (q.reg (wA w) ^^^ srcOf q w)).setFlags (q.reg (wA w) ^^^ srcOf q w) false))) ∧
    (w = rowWord 0x17#6 i.body → s.atTurn 0x17#6 i → exec (.shl i) s =
      .next (s.goNext k ((q.setReg (wD w) (q.reg (wA w) <<< ((srcOf q w).toNat % 32))).setFlags
        (q.reg (wA w) <<< ((srcOf q w).toNat % 32)) (carryShl (q.reg (wA w)) ((srcOf q w).toNat % 32))))) ∧
    (w = rowWord 0x18#6 i.body → s.atTurn 0x18#6 i → exec (.shr i) s =
      .next (s.goNext k ((q.setReg (wD w) (q.reg (wA w) >>> ((srcOf q w).toNat % 32))).setFlags
        (q.reg (wA w) >>> ((srcOf q w).toNat % 32)) (carryShr (q.reg (wA w)) ((srcOf q w).toNat % 32))))) ∧
    (w = rowWord 0x19#6 i.body → s.atTurn 0x19#6 i → exec (.cmp i) s =
      .next (s.goNext k (q.setFlags (q.reg (wA w) - srcOf q w) (decide ((q.reg (wA w)).toNat < (srcOf q w).toNat))))) ∧
    (w = rowWord 0x1A#6 i.body → s.atTurn 0x1A#6 i →
      exec (.ld i) s = .next (s.goNext k (q.setReg (wD w) (SMap.get dmemFill q.dmem (memAddr q w / 4))))) ∧
    (w = rowWord 0x1B#6 i.body → s.atTurn 0x1B#6 i → s.Canon →
      exec (.st i) s = .next ((s.setSeq k { q with dmem := SMap.set dmemFill q.dmem (memAddr q w / 4) (q.reg (wB w)) }).goNext k
        { q with dmem := SMap.set dmemFill q.dmem (memAddr q w / 4) (q.reg (wB w)) }))

/-- Going on at a PC: the frame of every sequencer instruction that ends so (R30, R47, R64). -/
def Obligations.GoingOnMovesOneSequencer : Prop :=
  ∀ (s : State) (k pc : Nat) (q : Seq), s.Canon →
    (s.goTo k q pc).seq k = { q with pc := BitVec.ofNat 16 pc } ∧ OnlySeq s (s.goTo k q pc) k ∧
    (k ≠ 8 → (s.goTo k q pc).bank k = { s.bank k with nonvec := (s.bank k).nonvec + 1 }) ∧
    (k = 8 → (s.goTo k q pc).banks = s.banks)

/-- The frame of the instructions that only compute: nop, loop and the scalar class. -/
def Obligations.ScalarInstructionsChangeOneSequencer : Prop :=
  ∀ (s t : State) (i : SeqInstr) (e : BitVec 6 × Instr), s.Canon →
    e ∈ [(0x00#6, Instr.nop i), (0x06#6, .loop i), (0x10#6, .mov i), (0x11#6, .addi i), (0x12#6, .add i), (0x13#6, .sub i), (0x14#6, .and i),
         (0x15#6, .or i), (0x16#6, .xor i), (0x17#6, .shl i), (0x18#6, .shr i), (0x19#6, .cmp i), (0x1A#6, .ld i), (0x1B#6, .st i)] →
    s.atTurn e.1 i → exec e.2 s = .next t →
    OnlySeq s t (seqIdx i.q) ∧ (t.seq (seqIdx i.q)).ev = (s.seq (seqIdx i.q)).ev ∧ (t.seq (seqIdx i.q)).stack = (s.seq (seqIdx i.q)).stack ∧
      (t.seq (seqIdx i.q)).image = (s.seq (seqIdx i.q)).image ∧ (t.seq (seqIdx i.q)).prog = (s.seq (seqIdx i.q)).prog

/-- R31: a write to G0 is discarded; an instruction whose destination is G0 still sets the flags. -/
def Obligations.WriteToG0IsDiscarded : Prop :=
  (∀ (q : Seq) (v : Word), q.setReg 0 v = q ∧ q.reg 0 = 0) ∧
  (∀ (q : Seq) (r : Nat) (v : Word), r ≠ 0 → SMap.wf (fun _ => 0) q.g = true → (q.setReg r v).reg r = v) ∧
  (∀ (s : State) (k : Nat) (r : Word) (c : Bool), s.scalar k 0 r c = s.goNext k { s.seq k with z := r == 0, n := r.getLsbD 31, c := c })

/-- R41: the jumps, and PC_RANGE for the PC that is taken and no other. -/
def Obligations.JumpsAndTheirRange : Prop :=
  (∀ (s : State) (i : SeqInstr) (k : Nat) (q : Seq), k = seqIdx i.q → q = s.seq k →
    (s.atTurn 0x01#6 i → exec (.jmp i) s = .next (s.jumpTo k q (wTarget (rowWord 0x01#6 i.body)))) ∧
    (s.atTurn 0x02#6 i → exec (.jz i) s = .next (if q.z then s.jumpTo k q (wTarget (rowWord 0x02#6 i.body)) else s.goTo k q (q.pc.toNat + 1))) ∧
    (s.atTurn 0x03#6 i → exec (.jnz i) s = .next (if q.z then s.goTo k q (q.pc.toNat + 1) else s.jumpTo k q (wTarget (rowWord 0x03#6 i.body))))) ∧
  (∀ (k : Nat) (id : SeqId) (q : Seq) (v : Nat) (b : BitVec 58),
    (rsvdSet (rowWord 0x01#6 b) = false → faultOf k id q v (rowWord 0x01#6 b) false =
      if progSize k ≤ wTarget (rowWord 0x01#6 b) then some 0x04 else none) ∧
    (rsvdSet (rowWord 0x02#6 b) = false → faultOf k id q v (rowWord 0x02#6 b) false =
      if progSize k ≤ (if q.z then wTarget (rowWord 0x02#6 b) else q.pc.toNat + 1) then some 0x04 else none) ∧
    (rsvdSet (rowWord 0x03#6 b) = false → faultOf k id q v (rowWord 0x03#6 b) false =
      if progSize k ≤ (if q.z then q.pc.toNat + 1 else wTarget (rowWord 0x03#6 b)) then some 0x04 else none))

/-- R42: call and ret, and their stack faults. -/
def Obligations.CallAndReturn : Prop :=
  (∀ (s : State) (i : SeqInstr) (k : Nat) (q : Seq), k = seqIdx i.q → q = s.seq k →
    (s.atTurn 0x04#6 i → exec (.call i) s = .next (s.jumpTo k { q with stack := (q.pc + 1) :: q.stack } (wTarget (rowWord 0x04#6 i.body)))) ∧
    (∀ a rest, q.stack = a :: rest → s.atTurn 0x05#6 i → exec (.ret i) s = .next (s.jumpTo k { q with stack := rest } a.toNat))) ∧
  (∀ (k : Nat) (id : SeqId) (q : Seq) (v : Nat) (b : BitVec 58),
    (rsvdSet (rowWord 0x04#6 b) = false → 8 ≤ q.stack.length → faultOf k id q v (rowWord 0x04#6 b) false = some 0x05) ∧
    (rsvdSet (rowWord 0x05#6 b) = false → q.stack = [] → faultOf k id q v (rowWord 0x05#6 b) false = some 0x06)) ∧
  (∀ (s : State) (k pc : Nat) (q : Seq), s.Canon →
    ((s.jumpTo k q pc).seq k).stack = q.stack ∧ ((s.jumpTo k q pc).seq k).pc = BitVec.ofNat 16 pc ∧
      ((s.jumpTo k q pc).seq k).z = q.z ∧ ((s.jumpTo k q pc).seq k).n = q.n ∧ ((s.jumpTo k q pc).seq k).c = q.c) ∧
  (∀ (s : State) (i : SeqInstr) (c : Nat), s.Canon → s.seqReady i.q = true →
    faultOf (seqIdx i.q) i.q (s.seq (seqIdx i.q)) (s.bank (seqIdx i.q)).vsel (rowWord 0x04#6 i.body) i.ue = some c →
    ∃ t, exec (.call i) s = .next t ∧ (t.seq (seqIdx i.q)).stack = (s.seq (seqIdx i.q)).stack)

/-- R43: loop and endl. -/
def Obligations.LoopAndEndl : Prop :=
  ∀ (s : State) (i : SeqInstr) (k : Nat) (q : Seq) (w : BitVec 64), k = seqIdx i.q → q = s.seq k →
    (w = rowWord 0x06#6 i.body → s.atTurn 0x06#6 i → exec (.loop i) s = .next
      (s.goTo k (q.setLc (wLC w) (BitVec.ofNat 24 (if wS w then (q.reg (wA w)).toNat % 2 ^ 24 else w24 w)))
        (if (if wS w then (q.reg (wA w)).toNat % 2 ^ 24 else w24 w) = 0 then fld w 47 32 + 1 else q.pc.toNat + 1))) ∧
    (w = rowWord 0x07#6 i.body → s.atTurn 0x07#6 i →
      (q.lcv (wLC w) = 0 → exec (.endl i) s = .next (s.goTo k q (q.pc.toNat + 1))) ∧
      (q.lcv (wLC w) = 1 → exec (.endl i) s = .next (s.goTo k (q.setLc (wLC w) 0) (q.pc.toNat + 1))) ∧
      (1 < (q.lcv (wLC w)).toNat → exec (.endl i) s = .next (s.jumpTo k (q.setLc (wLC w) (q.lcv (wLC w) - 1)) (wTarget w))))

/-- nop, sig, halt and wait (R44 to R47). -/
def Obligations.NopSigHaltWait : Prop :=
  ∀ (s : State) (i : SeqInstr) (k : Nat) (q : Seq) (w : BitVec 64), k = seqIdx i.q → q = s.seq k →
    (s.atTurn 0x00#6 i → exec (.nop i) s = .next (s.goTo k q (q.pc.toNat + 1))) ∧
    (w = rowWord 0x09#6 i.body → s.atTurn 0x09#6 i →
      exec (.sig i) s = .next ((s.raiseSw (wEV w)).goNext k ((s.raiseSw (wEV w)).seq k)) ∧ 24 ≤ wEV w ∧ wEV w ≤ 31) ∧
    (s.atTurn 0x0A#6 i → s.Canon → s.flag (switchF k) = false → ∃ t, exec (.halt i) s = .next t ∧ (t.seq k).pc = q.pc + 1 ∧
      t.flag (runF k) = false ∧ t.flag (haltedF k) = true ∧ (t.seq k).image = q.image) ∧
    (w = rowWord 0x08#6 i.body → s.atTurn 0x08#6 i → q.ev.getLsbD (wEV w) = true → w.getLsbD 40 = false →
      exec (.wait i) s = .next (s.goNext k { q with ev := q.ev &&& ~~~ BitVec.ofNat 32 (2 ^ wEV w), z := false })) ∧
    (w = rowWord 0x08#6 i.body → s.atTurn 0x08#6 i → q.ev.getLsbD (wEV w) = false ∨ w.getLsbD 40 = true → s.Canon →
      ∃ t, exec (.wait i) s = .next t ∧
        t.seq k = { q with ev := q.ev &&& ~~~ BitVec.ofNat 32 (2 ^ wEV w), waiting := some (wEV w, w24 w) } ∧
        ∀ j, j ≠ k → t.seq j = s.seq j)

/-- The end of a wait (R44): the event consumed and Z 0, or the timeout with Z 1 and nothing consumed. -/
def Obligations.WaitEnds : Prop :=
  ∀ (s : State) (id : SeqId) (k e t : Nat) (q : Seq), k = seqIdx id → q = s.seq k → (id = .fsq → s.tile = false ∧ s.flag TRACE_HALT_FSQ_HALT = false) →
    q.waiting = some (e, t) → s.flag (runF k) = true →
    (q.ev.getLsbD e = true → exec (.waitResume id) s = .next
      ((s.goNext k { q with ev := q.ev &&& ~~~ BitVec.ofNat 32 (2 ^ e), waiting := none, z := false }).traceSeq k 7
        (BitVec.ofNat 32 (q.pc.toNat + 1)))) ∧
    (t ≠ 0 → exec (.waitTimeout id) s = .next (s.goNext k { q with waiting := none, z := true })) ∧
    (t = 0 → exec (.waitTimeout id) s = .next s)

/-- The causes of a fault in the order of R68, down to the operand range; and DMEM_RANGE of ld and st (R50), which leaves data memory. -/
def Obligations.FaultOrder : Prop :=
  (∀ (k : Nat) (id : SeqId) (q : Seq) (v : Nat) (w : BitVec 64),
    faultOf k id q v w true = some 0x0B ∧
    (opDefined (wOp w) = false → faultOf k id q v w false = some 0x01) ∧
    (opDefined (wOp w) = true → opForeign id (wOp w) = true → faultOf k id q v w false = some 0x02) ∧
    (opDefined (wOp w) = true → opForeign id (wOp w) = false → rsvdSet w = true → faultOf k id q v w false = some 0x03) ∧
    (opDefined (wOp w) = true → opForeign id (wOp w) = false → rsvdSet w = false → valueBad w = true →
      faultOf k id q v w false = some 0x0A)) ∧
  (∀ (s : State) (i : SeqInstr), s.Canon → s.seqReady i.q = true → i.ue = false →
    (rsvdSet (rowWord 0x1A#6 i.body) = false → 4096 ≤ memAddr (s.seq (seqIdx i.q)) (rowWord 0x1A#6 i.body) ∨
        memAddr (s.seq (seqIdx i.q)) (rowWord 0x1A#6 i.body) % 4 ≠ 0 →
      exec (.ld i) s = .next (s.seqFault (seqIdx i.q) 0x07 (rowWord 0x1A#6 i.body))) ∧
    (rsvdSet (rowWord 0x1B#6 i.body) = false → 4096 ≤ memAddr (s.seq (seqIdx i.q)) (rowWord 0x1B#6 i.body) ∨
        memAddr (s.seq (seqIdx i.q)) (rowWord 0x1B#6 i.body) % 4 ≠ 0 →
      exec (.st i) s = .next (s.seqFault (seqIdx i.q) 0x07 (rowWord 0x1B#6 i.body))) ∧
    (∀ c w, ((s.seqFault (seqIdx i.q) c w).seq (seqIdx i.q)).dmem = (s.seq (seqIdx i.q)).dmem))

/-- damage, band, zlist, budget, flip and testslot at their turn (R52, R54 to R57). -/
def Obligations.FrameInstructionResults : Prop :=
  ∀ (s : State) (i : SeqInstr), i.q = .fsq →
    (∀ w, w = rowWord 0x21#6 i.body → s.atTurn 0x21#6 i → s.unloadedLayers = [] → s.Canon →
      ∃ t, exec (.damage i) s = .next t ∧
        t.comp.frameDmg = (s.pendingBands (s.effPorts (wPorts w))).filter s.eligible ∧
        t.seq 8 = { (s.seq 8).setReg (wD w) (BitVec.ofNat 32 ((s.pendingBands (s.effPorts (wPorts w))).filter s.eligible).length) with
          z := ((s.pendingBands (s.effPorts (wPorts w))).filter s.eligible).isEmpty, n := false, pc := BitVec.ofNat 16 ((s.seq 8).pc.toNat + 1) }) ∧
    (∀ w, w = rowWord 0x22#6 i.body → s.atTurn 0x22#6 i →
      (wM w = false → s.effPorts (wPorts w) = 0 → exec (.band i) s = .next (s.goNext 8 (s.seq 8))) ∧
      (wM w = true → s.eligible (((s.seq 8).reg (wA w)).toNat / 65536 % 8, ((s.seq 8).reg (wA w)).toNat / 256 % 64, ((s.seq 8).reg (wA w)).toNat % 256) = false →
        s.getF COMP_ADMIT_ENG_ENG ≤ engCount (wEng w) → exec (.band i) s = .next (s.goNext 8 ((s.seq 8).setReg (wD w) 0))) ∧
      (wM w = true → s.eligible (((s.seq 8).reg (wA w)).toNat / 65536 % 8, ((s.seq 8).reg (wA w)).toNat / 256 % 64, ((s.seq 8).reg (wA w)).toNat % 256) = true →
        s.getF COMP_ADMIT_ENG_ENG ≤ engCount (wEng w) → ∀ u, u = s.issueJobs [(((s.seq 8).reg (wA w)).toNat / 65536 % 8,
            ((s.seq 8).reg (wA w)).toNat / 256 % 64, ((s.seq 8).reg (wA w)).toNat % 256)] (wEng w) →
          exec (.band i) s = .next (u.goNext 8 ((u.seq 8).setReg (wD w) 1)))) ∧
    (∀ w, w = rowWord 0x23#6 i.body → s.atTurn 0x23#6 i →
      (s.effPorts (wPorts w) = 0 → exec (.zlist i) s = .next (s.goNext 8 (s.seq 8))) ∧
      ∃ t, exec (.zlist i) s = .next t ∧ ∀ p, p < 8 → (s.effPorts (wPorts w)).testBit p = true →
        SMap.wf (fun _ => 256) s.comp.zsel = true → SMap.get (fun _ => 256) t.comp.zsel p = wZsel w) ∧
    (∀ w, w = rowWord 0x24#6 i.body → s.atTurn 0x24#6 i → ∀ u, u = s.setF FSQ_DL_DEADLINE (w24 w) →
      exec (.budget i) s = .next ((if w24 w < s.getF COMP_ADMIT_DL_DL then u.setFlag FSQ_STAT_DL_SHORT true else u).goNext 8
        ((s.seq 8).setReg (wD w) ((if w24 w < s.getF COMP_ADMIT_DL_DL then u.setFlag FSQ_STAT_DL_SHORT true else u).reg FSQ_ADMIT)))) ∧
    (∀ w, w = rowWord 0x25#6 i.body → s.atTurn 0x25#6 i →
      (s.effPorts (wPorts w) = 0 → exec (.flip i) s = .next (s.goNext 8 (s.seq 8))) ∧
      (s.effPorts (wPorts w) ≠ 0 → s.comp.started = false ∨ s.comp.flipped = true →
        exec (.flip i) s = .next ((s.count FSQ_N_DISCFLIP 1).goNext 8 (s.seq 8))) ∧
      (s.effPorts (wPorts w) ≠ 0 → s.comp.started = true → s.comp.flipped = false → s.flag SUP_STAT_VSAG_WARN = false → s.active = true →
        ∀ u, u = State.presentOut { s with comp := { s.comp with flipped := true } } (s.effPorts (wPorts w)) (op24 (s.seq 8) w) →
          exec (.flip i) s = .next (u.goNext 8 (u.seq 8)))) ∧
    (∀ w, w = rowWord 0x26#6 i.body → s.atTurn 0x26#6 i →
      (s.effPorts (wPorts w) = 0 ∨ s.comp.started = false → exec (.testslot i) s = .next (s.goNext 8 (s.seq 8))) ∧
      (s.effPorts (wPorts w) ≠ 0 → s.comp.started = true → s.flag SUP_STAT_VSAG_WARN = false → s.active = false → s.test.run = none →
        exec (.testslot i) s = .next (s.goNext 8 (s.seq 8))))

/-- mark: the counter, the frame's record and what leaves each port (R52, R118, R144). -/
def Obligations.MarkOpensAFrame : Prop :=
  ∀ (s : State) (i : SeqInstr) (w : BitVec 64), i.q = .fsq → w = rowWord 0x20#6 i.body → s.atTurn 0x20#6 i →
    (s.effPorts (wPorts w) = 0 ∨ s.heldBack = true → exec (.mark i) s = .next (s.goNext 8 (s.seq 8))) ∧
    (s.effPorts (wPorts w) ≠ 0 → s.heldBack = false →
      exec (.mark i) s = .next (effMark s 8 w) ∧
      ∃ (u v : State) (f : FrameRec), u = (s.setFcnt ((s.fcnt + 1) % 2 ^ 40)).closeUnsent.pruneFrames ∧
        f = { fcnt := (s.fcnt + 1) % 2 ^ 40, ports := s.effPorts (wPorts w), tmark := s.wtb, fper := s.fper, gen := u.comp.gen, issued := [],
              late := 0, present := none, pports := 0, acks := [], ev3 := false, jobsDone := true, vis := [], popDone := !s.active, next := none } ∧
        v.comp.frames = f :: u.comp.frames ∧ v.comp.started = true ∧ v.comp.flipped = false ∧ v.comp.gen = u.comp.gen ∧
        v = { u with comp := v.comp } ∧
        ∀ x y, x = v.eachPort f.ports (fun x p => x.frameSend p (.mark f.fcnt s.ns s.fper (x.enumPos p).length)) →
          y = State.raisePsqs (if s.active then x.popMark f.fcnt else x) 0 → doMark s 8 w = y.goNext 8 (y.seq 8))

/-- An event occurs in a sequencer (R34, R35), and the two rows that only raise one. -/
def Obligations.EventsArePendingBits : Prop :=
  (∀ (s : State) (k n : Nat), (s.seq k).ev.getLsbD n = false →
    s.raiseEv k n = s.setSeq k { s.seq k with ev := (s.seq k).ev ||| BitVec.ofNat 32 (2 ^ n) }) ∧
  (∀ (s : State) (k n : Nat), (s.seq k).ev.getLsbD n = true →
    s.raiseEv k n = s.count16 (if k = 8 then FSQ_N_EVOVR else PSQ_N_EVOVR k) 1) ∧
  (∀ s : State, exec .markSent s = .next (s.raiseFsq 1) ∧ exec .presentTimeReached s = .next (s.raiseFsq 2) ∧
    (s.sender = true → s.raiseFsq 1 = s.raiseEv 8 1 ∧ s.raiseFsq 2 = s.raiseEv 8 2) ∧
    (s.sender = false → s.raiseFsq 1 = s ∧ s.raiseFsq 2 = s))

/-- FRAME_TICK, BAND_DEADLINE and ACK_WINDOW_CLOSE in a sender (R117, R118, R274). -/
def Obligations.FrameGridAndDeadlines : Prop :=
  ∀ s : State, s.tile = false →
    ((∀ n, s.tim.tickFrom = some n → n ≤ s.wtb) → (s.flag FSQ_STAT_THROTTLED = true → s.tickNo % 2 = 0) →
      ∀ t, t = State.mirrorSince ((s.syncPulse.tickLoad.handover).descApply).tenantTick s none →
        exec .frameTick s = .next (State.tickRaise (if t.active then t else { t with comp := { t.comp with ticks := t.comp.ticks + 1 } })).settle) ∧
    (∀ n, s.tim.tickFrom = some n → s.wtb < n → exec .frameTick s = .next s.settle) ∧
    (∀ n, (s.comp.running ++ s.comp.jobs ++ s.comp.backlog).filter (fun j => j.fcnt == n) = [] → s.comp.backlog = [] →
      exec (.bandDeadline n) s = .next (s.eachPort 255 fun u p => u.releasePort p)) ∧
    (∀ n j js, s.comp.jobs = j :: js → j.fcnt = n → s.comp.running = [] → s.comp.backlog = [] → js.all (fun x => x.fcnt != n) = true →
      exec (.bandDeadline n) s = .next
        ((State.missJob { s with comp := { s.comp with jobs := js } } j).eachPort 255 fun u p => u.releasePort p)) ∧
    (∀ f, s.comp.frames.reverse.find? (fun f => f.present.isSome && !f.ev3) = some f → exec .ackWindowClose s = .next (s.flipClose f)) ∧
    (s.comp.frames.reverse.find? (fun f => f.present.isSome && !f.ev3) = none → exec .ackWindowClose s = .next s)

/-- BAND_JOB_START and BAND_JOB_COMPLETE in a sender (R116, R117, R121). -/
def Obligations.BandJobs : Prop :=
  ∀ (s : State) (e : Nat) (j : Job), s.tile = false →
    (∀ times, (s.comp.jobs.find? fun j => j.eng.testBit e) = none → exec (.bandJobStart e times) s = .next s) ∧
    (∀ times, (s.getF COMP_STAT_ENG_BUSY).testBit e = true → exec (.bandJobStart e times) s = .next s) ∧
    (∀ times t g geo, e < 4 → (s.getF COMP_STAT_ENG_BUSY).testBit e = false → (s.comp.jobs.find? fun j => j.eng.testBit e) = some j →
      t = State.feed { s.litReturn with comp := { s.comp with jobs := s.comp.jobs.erase j } } → g = t.genOf j.gen →
      geo = geoOf g.live j.port j.pos → t.flag SUP_STAT_VSAG_WARN = false →
      ∀ need, need = t.wtb + 64 * (64 + bandPixels geo j.band + (if (layerOf g.regs 63).en then (layerOf g.regs 63).area geo j.band else 0)) →
      (t.deadline j < need → exec (.bandJobStart e times) s = .next (t.missJob j)) ∧
      (∀ om, om = omitAll ((blendOrder g.regs j.zsel).filter fun l => l.covers geo j.band) times 0 geo j.band s.wtb (t.deadline j) [] →
        need ≤ t.deadline j → (t.frameOf j.fcnt).present = none → ∃ (u : State), exec (.bandJobStart e times) s = .next u ∧
        u.comp.jobs = t.comp.jobs ∧ u.comp.frames = s.comp.frames ∧ u.ddr = s.ddr ∧
        u.comp.running = s.comp.running ++ [{ j with eng := e, start := s.wtb, far := false, omitted := om }])) ∧
    (∀ ue, (s.comp.running.find? fun j => j.eng == e) = none → exec (.bandJobComplete e ue) s = .next s) ∧
    ((s.comp.running.find? fun j => j.eng == e) = some j →
      (∀ ue, ue = true ∨ (s.freeEngine j).deadline j < (s.freeEngine j).wtb →
        exec (.bandJobComplete e ue) s = .next (((s.freeEngine j).missJob j).releasePort j.port)) ∧
      (∀ t g geo, t = s.freeEngine j → t.wtb ≤ t.deadline j → (t.frameOf j.fcnt).next = none ∨ (t.frameOf j.fcnt).present ≠ none →
        g = t.genOf j.gen → geo = geoOf g.live j.port j.pos →
        ∃ (u : State), exec (.bandJobComplete e false) s = .next (u.releasePort j.port).jobsCheck ∧
          u.comp.cordq = t.comp.cordq ++ [(j.port, j.pos, t.bandPacket g ((blendOrder g.regs j.zsel).filter
            fun l => l.covers geo j.band && !j.omitted.contains l.slot) geo j, j.fcnt, j.far)]))

/-- ACK_RX, COMP_GCOMMIT, COMP_FULLDMG, DAMAGE_MAP_WRITE and SURFACE_WRITE_RELEASE (R114, R125, R148). -/
def Obligations.FrameInputs : Prop :=
  (∀ (s : State) (r : CordRx) (a : AckPkt) (t : State), s.senderUp r (.ack a) = (t, true) → exec (.ackRx r a) s = .next (t.ackTake r.port r.hdr.src a)) ∧
  (∀ (s : State) (p q : Nat) (a : AckPkt) (f : FrameRec), (s.setFlag (CORD_HOP_LOCK p q) (!a.flags.testBit 0)).comp.frames = s.comp.frames ∧
    ((s.comp.frames.find? fun f => f.fcnt == a.fcnt) = none → s.ackTake p q a = s.setFlag (CORD_HOP_LOCK p q) (!a.flags.testBit 0)) ∧
    ((s.comp.frames.find? fun f => f.fcnt == a.fcnt) = some f → (f.acks.any fun x => x.1 == p && x.2.1 == q) = false → a.result ≠ 0 →
      s.ackTake p q a = ((s.setFlag (CORD_HOP_LOCK p q) (!a.flags.testBit 0)).updFrame a.fcnt
        fun _ => { f with acks := f.acks ++ [(p, q, a)] }).flipCheck a.fcnt)) ∧
  (∀ s : State, s.tile = false →
    exec .compGcommit s = .next ((s.setFlag COMP_STAT_GEO_PEND true).emit (.bus false 0)) ∧
    exec .compFulldmg s = .next ((s.damageBands (allBands s.live)).emit (.bus false 0)) ∧
    ∀ p q j v sources, (s.comp.dmgSeen = true ∨ (v ||| sources) &&& ~~~ s.reg (COMP_DMG p q j) = 0 →
        exec (.damageMapWrite p q j v sources) s = .next ((s.setReg (COMP_DMG p q j) (v ||| sources)).emit (.bus false 0))) ∧
      (s.comp.dmgSeen = false → (v ||| sources) &&& ~~~ s.reg (COMP_DMG p q j) ≠ 0 → ∀ u, u = s.setReg (COMP_DMG p q j) (v ||| sources) →
        exec (.damageMapWrite p q j v sources) s =
          .next ((State.raiseFsq { u with comp := { u.comp with dmgSeen := true } } 4).emit (.bus false 0)))) ∧
  (∀ s : State, s.tile = true → exec .compGcommit s = .next (s.emit (.bus false 0)) ∧ exec .compFulldmg s = .next (s.emit (.bus false 0)) ∧
    ∀ p q j v sources, exec (.damageMapWrite p q j v sources) s = .next (s.emit (.bus false 0))) ∧
  (∀ (s t : State) h, (s.comp.held.find? fun h => h.applied && !((s.comp.jobs ++ s.comp.backlog ++ s.comp.running).any fun j => decide (j.gen ≤ h.gen))) =
      some h → t = { s with comp := { s.comp with held := s.comp.held.filter fun x => x != h } } →
    ((t.sessions.find? fun x => x.id == h.sess) = none → exec .surfaceWriteRelease s = .next t.settle) ∧
    ∀ x, (t.sessions.find? fun x => x.id == h.sess) = some x → ∀ r, r = t.surfacePut x.tenant h.slot h.offset h.data →
      exec .surfaceWriteRelease s = .next (r.1.answer h.sess h.seq r.2.1 r.2.2).settle)

/-- R32: what program start leaves in the sequencer. -/
def Obligations.ProgramStartState : Prop :=
  ∀ (s : State) (k : Nat) (i : SeqImage) (q : Seq), s.Canon → k ≤ 8 → (s.seq k).image = some i → q = (s.progStart k).seq k →
    (∀ r, q.reg r = 0) ∧ (∀ n, q.lcv n = 0) ∧ q.z = false ∧ q.n = false ∧ q.c = false ∧ q.stack = [] ∧ q.ev = 0 ∧
    q.pc = BitVec.ofNat 16 i.hdr.entry ∧ q.image = some i ∧
    ∀ a, SMap.get dmemFill q.dmem a = if a < i.dmem.length then (i.dmem[a]?).getD 0 else 0

/-- The non-vector pin instructions only queue their settings (R60). -/
def Obligations.PinSettingsWait : Prop :=
  ∀ (s : State) (i : SeqInstr) (k : Nat) (q : Seq) (e : BitVec 6 × Instr × PinSetting), k = seqIdx i.q → q = s.seq k →
    e ∈ [(0x33#6, Instr.tset i, PinSetting.tset (wTS (rowWord 0x33#6 i.body)) (wEdge (rowWord 0x33#6 i.body)) (op24 q (rowWord 0x33#6 i.body))),
         (0x34#6, .period i, .period (op24 q (rowWord 0x34#6 i.body))), (0x35#6, .map i, .map (op24 q (rowWord 0x35#6 i.body) % 4096)),
         (0x36#6, .capt i, .capt (wMode (rowWord 0x36#6 i.body)) (fld (rowWord 0x36#6 i.body) 13 0)),
         (0x37#6, .trig i, .trig (wMode (rowWord 0x37#6 i.body)) (fld (rowWord 0x37#6 i.body) 3 0)),
         (0x38#6, .line i, .line (op24 q (rowWord 0x38#6 i.body) % 256))] →
    s.atTurn e.1 i → exec e.2.1 s = .next ((s.setBank k { s.bank k with pend := (s.bank k).pend ++ [e.2.2] }).goNext k q)

/-- What each queued setting does at the next vector (R60). -/
def Obligations.PinSettingsTakeEffect : Prop :=
  (∀ (s : State) (n set v : Nat),
    s.applySetting n (.tset set 0 v) = s.setReg (PSQ_TDRIVE n set) (BitVec.ofNat 32 v) ∧
    s.applySetting n (.tset set 1 v) = s.setReg (PSQ_TRETURN n set) (BitVec.ofNat 32 v) ∧
    s.applySetting n (.tset set 2 v) = s.setReg (PSQ_TSTROBE n set) (BitVec.ofNat 32 v) ∧
    s.applySetting n (.period v) = s.setReg (PSQ_PERIOD n) (BitVec.ofNat 32 v) ∧
    s.applySetting n (.line v) = s.setF (PSQ_POS_LINE n) v) ∧
  (∀ (s : State) (n start : Nat), s.Canon →
    ((s.applySetting n (.capt 0 start)).bank n).capOn = false ∧
    (∀ m, m = 1 ∨ m = 2 → ((s.applySetting n (.capt m start)).bank n).capOn = true ∧ ((s.applySetting n (.capt m start)).bank n).deep = 0)) ∧
  (∀ (s : State) (n a b : Nat), s.Canon → (s.bank n).pend = [.period a, .period b] →
    ((s.applyPend n).bank n).pend = [] ∧ (s.applyPend n).reg (PSQ_PERIOD n) = BitVec.ofNat 32 b)

/-- vec, vstr and vgen (R58, R59, R64), and the count of a vector (R204). -/
def Obligations.VectorInstructions : Prop :=
  (∀ (s : State) (i : SeqInstr) (smps : List PinSample) (k : Nat) (q : Seq) (e : BitVec 6 × Instr × VecKind) (w : BitVec 64),
    k = seqIdx i.q → q = s.seq k → w = rowWord e.1 i.body →
    e ∈ [(0x30#6, Instr.vec i smps, ⟨false, false⟩), (0x31#6, .vstr i smps, ⟨true, false⟩), (0x32#6, .vgen i smps, ⟨true, true⟩)] → s.atTurn e.1 i →
    (op24 q w = 0 → exec e.2.1 s = .next (s.goNext k q)) ∧
    (op24 q w ≠ 0 → ∀ (t u v : State) (r : State × Bool), t = (s.stall k).applyPend k →
      u = (t.setFlag (PSQ_STAT_SAFE k) false).setFlag (PIN_BSTAT_SAFE k) false →
      r = State.vectors k (wTS w) (wLit w) e.2.2 (op24 q w) smps (u.setBank k { u.bank k with fresh := false, nonvec := 0 }, false) →
      v = (if r.2 then r.1.raiseEv k 8 else r.1) → exec e.2.1 s = .next (v.setSeq k { v.seq k with pc := q.pc + 1 }))) ∧
  (∀ (s : State) (n ts lit : Nat) (kd : VecKind) (smp : PinSample), ∃ (u : State) (d on lv : BitVec 32) (tr : BitVec 4),
    (s.vector n ts lit kd smp).1 = (u.countVector n).emit (.vector n d on lv tr)) ∧
  (∀ (s : State) (n : Nat), s.Canon → (s.countVector n).getF (PSQ_VCNT_HI_V n) * 2 ^ 32 + ((s.countVector n).reg (PSQ_VCNT_LO n)).toNat =
    (s.getF (PSQ_VCNT_HI_V n) * 2 ^ 32 + (s.reg (PSQ_VCNT_LO n)).toNat + 1) % 2 ^ 48)

/-- LINE_TICK, TRIG_IN_EDGE, PIN_EDGE, CAPTURE_READ, LINE_TIMER_WRITE, PIN_CONFIG_WRITE and VDDP_FAIL (R206 to R211). -/
def Obligations.PinInputs : Prop :=
  ∀ (s : State) (n : Nat),
    (s.getF (PSQ_LTIM_INTERVAL n) = 0 → exec (.lineTick n) s = .next s) ∧
    (s.getF (PSQ_LTIM_INTERVAL n) ≠ 0 → exec (.lineTick n) s = .next (s.raiseEv n 1)) ∧
    (s.getF (PSQ_TRIGIN_SRC n) = 63 → exec (.trigInEdge n) s = .next s) ∧
    (s.getF (PSQ_TRIGIN_SRC n) ≠ 63 → exec (.trigInEdge n) s = .next (s.raiseEv n 6)) ∧
    (∀ v, exec (.lineTimerWrite n v) s = .next ((s.plainWrite (PSQ_LTIM n) v).emit (.bus false 0))) ∧
    (exec (.captureRead n) s = .next ((s.setF (PSQ_CADDR_ADDR n) (s.getF (PSQ_CADDR_ADDR n) + 1)).emit
      (.bus false (SMap.get (fun _ => 0) (s.bank n).capBuf (s.getF (PSQ_CADDR_ADDR n))).toNat))) ∧
    (∀ p up, (s.getF (PIN_PCFG1_SLOPE p) = 0 ∨ (s.getF (PIN_PCFG1_SLOPE p) = 1 ∧ up = false) ∨ (s.getF (PIN_PCFG1_SLOPE p) = 2 ∧ up = true)) →
      exec (.pinEdge p up) s = .next s) ∧
    (∀ p up t, (s.getF (PIN_PCFG1_SLOPE p) = 3 ∨ (s.getF (PIN_PCFG1_SLOPE p) = 1 ∧ up = true) ∨ (s.getF (PIN_PCFG1_SLOPE p) = 2 ∧ up = false)) →
      t = (List.range 16).foldl (fun (u : State) c => if u.getF (TIM_CFG_START c) = p ∨ u.getF (TIM_CFG_STOP c) = p then
        evTimStamp c (u.getF (TIM_CFG_START c) == p) (u.getF (TIM_CFG_STOP c) == p) u else u) s →
      exec (.pinEdge p up) s = .next (if s.getF (PSQ_TRIGIN_SRC (p / 32)) = p % 32 then t.raiseEv (p / 32) 6 else t)) ∧
    (∀ o v a, a = 0xC0000 + o / 4 * 4 % 0x10000 →
      (s.regAccepts s.bankRuns a v = false → exec (.pinConfigWrite o v) s = .next (s.emit (.bus true 0))) ∧
      (s.regAccepts s.bankRuns a v = true → ∀ m, m = (if a % 0x10000 < 0x800 then a % 0x10000 / 256 else (a % 0x10000 - 0x800) / 16) →
        exec (.pinConfigWrite o v) s = .next ((if m < 8 ∧ s.flag (PSQ_STAT_RUN m) = false ∧ s.flag (PSQ_STAT_SAFE m) = true then
          (s.plainWrite a v).bankSafe m else s.plainWrite a v).emit (.bus false 0)))) ∧
    (∀ mv, s.Canon → s.flag (PSQ_STAT_RUN n) = false ∨ vddpIn (s.getF (PIN_BCFG_VSEL n)) mv = true → n < 8 →
      exec (.vddpFail n mv) s = .next ((s.setF (PIN_BSTAT_VDDP_MV n) mv).setBank n
        { s.bank n with vddpBad := !vddpIn (s.getF (PIN_BCFG_VSEL n)) mv })) ∧
    (∀ mv, s.Canon → s.tile = false → n < 8 → s.flag (PSQ_STAT_RUN n) = true → vddpIn (s.getF (PIN_BCFG_VSEL n)) mv = false →
      exec (.vddpFail n mv) s = .next (((((((s.vddpRead n mv).psqHaltSafe n).setFlag (PSQ_STAT_VSTOP n) true).setFlag
        (PIN_BSTAT_VDDP_FAIL n) true).event 0x0004 [BitVec.ofNat 8 n] .owner).testFault n 0xFF)))

/-- FSQ_START, PSQ_START, PSQ_STOP, SWEV_RAISE, SWEV_PEND_CLEAR, DMEM_ACCESS and SWITCH_TIMEOUT. -/
def Obligations.SequencerControl : Prop :=
  ∀ (s : State) (n : Nat),
    (s.tile = false → s.active = true → exec .fsqStart s = .next (s.fsqRun.emit (.bus false 0))) ∧
    (s.tile = false → s.active = false → exec .fsqStart s = .next (s.emit (.bus true 0))) ∧
    (s.tile = true → exec .fsqStart s = .next (s.emit (.bus false 0))) ∧
    (∀ mv t, t = s.vddpRead n mv → s.boundary = false → (n ≠ 0 ∨ s.sender = false ∨ s.flag CAM_CFG_EN = false) →
      ((t.bank n).vddpBad = true → exec (.psqStart n mv) s = .next ((t.setFlag (PIN_BSTAT_VDDP_FAIL n) true).emit (.bus true 0))) ∧
      ((t.bank n).vddpBad = false → (t.seq n).image ≠ none → exec (.psqStart n mv) s = .next ((t.progStart n).emit (.bus false 0)))) ∧
    (∀ mv, (s.boundary = true ∨ (n = 0 ∧ s.sender = true ∧ s.flag CAM_CFG_EN = true)) →
      exec (.psqStart n mv) s = .next ((s.vddpRead n mv).emit (.bus true 0))) ∧
    (s.flag (PSQ_STAT_RUN n) = true → exec (.psqStop n) s = .next ((s.psqHaltSafe n).emit (.bus false 0))) ∧
    (s.flag (PSQ_STAT_RUN n) = false → exec (.psqStop n) s = .next ((s.bankSafe n).emit (.bus false 0))) ∧
    (∀ m, s.Canon → m < 256 → exec (.swevRaise m) s = .next ((s.raiseSwMask m).emit (.bus false 0))) ∧
    (∀ m, m < 256 → exec (.swevPendClear m) s = .next ((s.setReg PSQ_SWEV (s.reg PSQ_SWEV &&& ~~~ BitVec.ofNat 32 m)).emit (.bus false 0))) ∧
    (∀ a, a = s.getF (PSQ_DADDR_ADDR n) →
      exec (.dmemAccess n none) s = .next ((s.setF (PSQ_DADDR_ADDR n) (a + 4)).emit (.bus false (SMap.get dmemFill (s.seq n).dmem (a / 4)).toNat)) ∧
      ∀ v, exec (.dmemAccess n (some v)) s = .next ((State.setF (s.setDmem n a v) (PSQ_DADDR_ADDR n) (a + 4)).emit (.bus false 0))) ∧
    ((∀ k, k < 9 → s.flag (switchF k) = false) → s.test.run = none → exec .switchTimeout s = .next s) ∧
    (∀ k, k < 8 → s.flag (switchF k) = true → s.flag (switchF 8) = false → s.test.run = none → s.Canon →
      ∃ (u : State), exec .switchTimeout s = .next (u.event 0x000F [] .owner) ∧ (∀ j, j ≤ 8 → (u.seq j).staged = none) ∧
        ∀ j, j ≤ 8 → (u.seq j).prog = (s.seq j).prog ∧ (u.seq j).image = (s.seq j).image)

/-- What a full reset keeps, and what it resets (R2, R435, R445, R485). -/
def Obligations.FullResetKeepsNonVolatile : Prop :=
  ∀ (s t : State) (ember sram : Bool) (cause : Nat), s.Canon → t = s.fullReset ember sram cause →
    t.nvj = s.nvj ∧ t.sto.blks = s.sto.blks ∧ t.sto.copies = s.sto.copies ∧ t.sto.intent = s.sto.intent ∧ t.sto.qspi = s.sto.qspi ∧
    t.pop.nv = s.pop.nv ∧ t.clm.nvCur = s.clm.nvCur ∧ t.clm.nvTop = s.clm.nvTop ∧ t.clm.nvHolder = s.clm.nvHolder ∧
    t.age.hist = s.age.hist ∧ t.life = s.life ∧ t.fw.inReset = true ∧ t.fw.kindled = none ∧
    t.seqs = State.reset.seqs ∧ t.banks = State.reset.banks ∧ t.sessions = [] ∧ t.src = [] ∧ t.comp = State.reset.comp ∧
    t.stage = none ∧ t.test = State.reset.test ∧ t.sram = [] ∧ t.ddr = [] ∧
    (∀ a, keptReg ember a = true → a ≠ EMB_PWR → a ≠ EMB_STAT → a ≠ EMB_RCAUSE → a ≠ SUP_MEAS 0 → a / 0x10000 ≠ TRACE_STAT / 0x10000 → t.reg a = s.reg a) ∧
    (∀ a, keptReg ember a = false → a ≠ EMB_PWR → a ≠ EMB_STAT → a ≠ EMB_RCAUSE → a ≠ SUP_MEAS 0 → a / 0x10000 ≠ TRACE_STAT / 0x10000 →
      t.reg a = State.reset.reg a) ∧
    t.getF EMB_PWR_STATE = 0 ∧ t.getF (SUP_MEAS_NOM 0) = 750 ∧ (sram = true → t.trace = [])

/-- POWER_ON, POWER_GOOD, RST_N_ASSERT, RST_N_RELEASE and SUPPLY_RESET (R445, R449, R485). -/
def Obligations.PowerAndResetInputs : Prop :=
  ∀ s : State,
    (∀ (off : Bool), s.Canon → ∃ t, exec (.powerOn off) s = .next t ∧ t.fw.inReset = true ∧ t.fw.powerGood = false ∧ t.pwr.powered = true ∧
      t.nvj = s.nvj ∧ t.seqs = [] ∧ t.ddr = [] ∧ (off = false → t.life = s.life ∧
        (t.reg EMB_N_POWERONS).toNat = min ((s.reg EMB_N_POWERONS).toNat + 1) 0xFFFFFFFF) ∧
      (off = true → t.life = (s.pwr.lifeCell + 32768) % 2 ^ 48)) ∧
    (∃ t, exec .powerGood s = .next t ∧ t.fw.powerGood = true ∧ t.fw.goodAt = s.life ∧ t.fw.inReset = (s.fw.inReset && s.fw.rstLow) ∧
      t = { s with fw := t.fw }) ∧
    (∃ t, exec .rstNRelease s = .next t ∧ t.fw.rstLow = false ∧ t.fw.inReset = (s.fw.inReset && !s.fw.powerGood) ∧ t = { s with fw := t.fw }) ∧
    (exec .rstNAssert s = .next { s.fullReset false false 1 with fw := { (s.fullReset false false 1).fw with rstLow := true } }) ∧
    (∀ r, 4 ≤ r ∨ (r = 3 ∧ s.flag SUP_STAT_VMON_OFF = true) → exec (.supplyReset r) s = .next s) ∧
    (∀ r, r < 4 → (r = 3 → s.flag SUP_STAT_VMON_OFF = false) → ∀ u, u = (s.fullReset (r == 2) (r == 1) (2 + r)).count (SUP_N_RESET r) 1 →
      exec (.supplyReset r) s = .next { u with fw := { u.fw with powerGood := false },
                                               life := if r = 2 then (s.pwr.lifeCell + 32768) % 2 ^ 48 else s.life })

/-- STRAP_SAMPLE, KINDLING, DDR_TRAINING and RECOVERY (R1, R396, R488, R490). -/
def Obligations.StartUp : Prop :=
  ∀ s : State,
    (∀ balls, s.fw.inReset = true → exec (.strapSample balls) s = .next s) ∧
    (∀ balls, s.fw.inReset = false → s.Canon → ∃ t, exec (.strapSample balls) s = .next t ∧ (t.reg EMB_STRAPS).toNat = balls % 4096 ∧
      t = { s with regs := t.regs }) ∧
    (∀ crc d ms, s.fw.inReset = false → s.fw.kindled = none → s.fw.recovery = false →
      exec (.kindling false crc d ms) s = .next (s.setFlag HEARTH_STAT_SELFTEST_OK false).recoveryEnter ∧
      ∀ (t u : State), t = (((s.setFlag HEARTH_STAT_SELFTEST_OK true).replay crc).blowPending).laneBoot →
        u = t.setFlag FW_STAT_BOOT_RSVD (t.getF EMB_STRAPS_BOOT == 3) →
        (t.getF EMB_STRAPS_BOOT = 1 ∨ t.getF EMB_STRAPS_BOOT = 2 ∨ u.fw.recNext = true →
          exec (.kindling true crc d ms) s = .next (u.nandStart d).recoveryEnter) ∧
        (t.getF EMB_STRAPS_BOOT ≠ 1 → t.getF EMB_STRAPS_BOOT ≠ 2 → u.fw.recNext = false →
          (u.fwSelect = none → exec (.kindling true crc d ms) s = .next (u.nandStart d).recoveryEnter) ∧
          ∀ v x, u.fwSelect = some v → x = ((v.setFlag SYS_CTRL_REMAP true).setFlag SYS_CTRL_REMAP_LOCK true).setF FW_BOOT_KTIME ms →
            exec (.kindling true crc d ms) s = .next (State.stokerStart { x with fw := { x.fw with kindled := some x.wtb } } d))) ∧
    (∀ st crc d ms, s.fw.inReset = true ∨ s.fw.kindled ≠ none ∨ s.fw.recovery = true → exec (.kindling st crc d ms) s = .next s) ∧
    (∀ u : State, (u.recoveryEnter).fw.recovery = true ∧ (u.recoveryEnter).fw.recNext = false ∧ (u.recoveryEnter).fw.kindled = u.fw.kindled) ∧
    (∀ ok, s.getF DDR_CFG_CAP = 0 ∨ s.flag DDR_STAT_TRAIN_FAIL = true → exec (.ddrTraining ok) s = .next s) ∧
    (s.getF DDR_CFG_CAP ≠ 0 → s.flag DDR_STAT_TRAIN_FAIL = false →
      exec (.ddrTraining true) s = .next (State.setFlag { s with ddr := [] } DDR_STAT_TRAINED true) ∧
      exec (.ddrTraining false) s = .next (((s.setFlag DDR_STAT_TRAINED false).setFlag DDR_STAT_TRAIN_FAIL true).healthReg)) ∧
    (∃ t, exec .recovery s = .next t ∧ t.fw.recNext = true ∧ t.fw = { s.fw with recNext := true } ∧ t.ddr = s.ddr ∧ t.seqs = s.seqs)

/-- VSAG_WARN_ASSERT and VSAG_WARN_CLEAR (R447, R448); BANKED_ENTRY, EMB_SMOULDER, LIFE_CELL_WRITE, XTAL_FAIL, XTAL_RECOVERED and
SUP_THRESHOLD_MOVE. -/
def Obligations.SupplyAndPowerStates : Prop :=
  (∀ (s : State) (r : Nat),
    (4 ≤ r ∨ (r = 3 ∧ s.flag SUP_STAT_VMON_OFF = true) ∨ (s.getF SUP_STAT_WARN).testBit r = true → exec (.vsagWarnAssert r) s = .next s) ∧
    (r < 4 → (r = 3 → s.flag SUP_STAT_VMON_OFF = false) → (s.getF SUP_STAT_WARN).testBit r = false → ∀ t,
      t = ((s.setF SUP_STAT_WARN (s.getF SUP_STAT_WARN ||| 2 ^ r)).setF SUP_STAT_WARNED (s.getF SUP_STAT_WARNED ||| 2 ^ r)).count (SUP_N_WARN r) 1 →
      (s.flag SUP_STAT_VSAG_WARN = true → exec (.vsagWarnAssert r) s = .next t) ∧
      (s.flag SUP_STAT_VSAG_WARN = false → exec (.vsagWarnAssert r) s =
        .next (((((((t.setFlag SUP_STAT_VSAG_WARN true).irq 24).raiseFsq 7).raisePsqs 3).healthReg).closeRecords).sagHold))) ∧
    (∀ ack, s.flag SUP_STAT_VSAG_WARN = false → exec (.vsagWarnClear ack) s = .next s.settle) ∧
    (∀ ack t, s.flag SUP_STAT_VSAG_WARN = true →
      t = ((((((s.setF SUP_STAT_WARN 0).setFlag SUP_STAT_VSAG_WARN false).irq 24).healthReg).nandKick).blowNext).fwResume →
      (t.age.wait = false → exec (.vsagWarnClear ack) s = .next t.settle) ∧
      (t.age.wait = true → exec (.vsagWarnClear ack) s = .next (State.plan { t with age := { t.age with wait := false } } ack).settle))) ∧
  (∀ s : State,
    (s.getF EMB_PWR_STATE ≠ 0 ∨ s.idle = false → exec .bankedEntry s = .next s) ∧
    (s.getF EMB_PWR_STATE = 0 → s.idle = true → s.Canon → ∃ t, exec .bankedEntry s = .next t ∧ t.getF EMB_PWR_STATE = 1 ∧ t.seqs = s.seqs ∧
      t.comp = s.comp) ∧
    (s.getF EMB_PWR_STATE = 2 → exec .embSmoulder s = .next (s.emit (.bus false 0))) ∧
    (s.getF EMB_PWR_STATE ≠ 2 → ∀ (t u : State), t = (List.range 8).foldl State.psqHaltSafe s →
      u = [0, 1, 2, 3].foldl (fun (u : State) p => if u.sender && u.flag (SRC_PSTAT_LINK p) then evSourceLinkLanes p false false u else u)
        ((List.range 10).foldl State.linkOff (t.closeRecords.traceMark 10 0)) →
      exec .embSmoulder s = .next ((((u.setF EMB_PWR_STATE 2).count EMB_N_SMOULDERS 1).setFlag EMB_STAT_SMOULDER_THERM false).emit (.bus false 0))) ∧
    (∀ u : State, u = { s with pwr := { s.pwr with lifeCell := max s.pwr.lifeCell s.life } } →
      (s.getF EMB_PWR_STATE = 2 → exec .lifeCellWrite s = .next u) ∧
      (s.getF EMB_PWR_STATE ≠ 2 → s.age.secs < 3599 → exec .lifeCellWrite s = .next { u with age := { s.age with secs := s.age.secs + 1 } }) ∧
      (s.getF EMB_PWR_STATE ≠ 2 → 3599 ≤ s.age.secs →
        exec .lifeCellWrite s = .next (State.setReg { u with age := { s.age with secs := 0 } } AGE_OPH (s.reg AGE_OPH + 1)))) ∧
    (∀ p, exec (.dormantPortSignal p) s = .next (s.setF EMB_DORM_PORTS (s.getF EMB_DORM_PORTS &&& (255 - 2 ^ (p % 8))))) ∧
    exec .xtalFail s = .next (s.setFlag EMB_STAT_XTAL_FAIL true) ∧ exec .xtalRecovered s = .next (s.setFlag EMB_STAT_XTAL_FAIL false) ∧
    exec .supThresholdMove s = .next (s.setF (SUP_MEAS_NOM 0) (s.getF AGE_AVSSET_SETPOINT)))

/-- WAKE_N, WAKE_SIGNAL, WAKE_SPI, WAKE_ALARM and WAKE_THERM (Table 17-2, R444, R453). -/
def Obligations.WakeSources : Prop :=
  (∀ (s : State) (src : Nat), s.getF EMB_PWR_STATE ≠ 2 ∨ (s.getF EMB_WAKE_EN).testBit src = false ∨
      (s.flag EMB_STAT_SMOULDER_THERM = true ∧ src ≠ 0 ∧ src ≠ 5) ∨ (s.flag EMB_STAT_SMOULDER_THERM = false ∧ src = 5) → s.wake src = s) ∧
  (∀ (s u : State) (src : Nat), s.getF EMB_PWR_STATE = 2 → (s.getF EMB_WAKE_EN).testBit src = true → s.flag EMB_STAT_SMOULDER_THERM = false →
    src ≠ 5 → s.Canon →
    u = (((s.setF EMB_WCAUSE_CAUSE (2 ^ src)).setF EMB_PWR_STATE 0).count EMB_N_WAKES 1).setFlag EMB_STAT_SMOULDER_THERM false →
    ∀ v x : State, v = u.traceMark 11 (u.reg EMB_WCAUSE) → x = (List.range 8).foldl State.psqResume { v with pwr := { v.pwr with t120 := 0 } } →
      s.wake src = if x.tile then (x.rampDue).event 0x000A [] .owner else x) ∧
  (∀ s : State, exec .wakeN s = .next (s.wake 0) ∧ exec (.wakeSignal false) s = .next (s.wake 1) ∧ exec .wakeSpi s = .next (s.wake 3) ∧
    exec .wakeTherm s = .next (s.wake 5) ∧
    (s.sender = false → exec (.wakeSignal true) s = .next (s.wake 2)) ∧ (s.sender = true → exec (.wakeSignal true) s = .next s) ∧
    (s.liveReg EMB_ALARM_LO ≠ 0 ∨ s.liveReg EMB_ALARM_HI ≠ 0 → exec .wakeAlarm s = .next (s.wake 4)) ∧
    (s.liveReg EMB_ALARM_LO = 0 → s.liveReg EMB_ALARM_HI = 0 → exec .wakeAlarm s = .next s))

/-- DIE_TEMP_READ and the thermal timers (R450, R451, R453). -/
def Obligations.ThermalStates : Prop :=
  ∀ s : State,
    (∀ xs t, t = evDieTempRead xs s → exec (.dieTempRead xs) s =
      .next (State.kilnTemp { t with age := { t.age with tempSum := t.age.tempSum + t.dieT, tempN := t.age.tempN + 1 } })) ∧
    (s.getF THERM_STAT_STATE = 1 → exec .thermGraceExpiry s = .next (s.thermEnforce 1)) ∧
    (s.getF THERM_STAT_STATE ≠ 1 → exec .thermGraceExpiry s = .next s) ∧
    (s.getF THERM_STAT_STATE = 2 → 1600 ≤ s.dieT →
      exec .thermStepExpiry s = .next (s.thermLevel (min s.lmax (s.getF THERM_STAT_LEVEL + 1)))) ∧
    (s.getF THERM_STAT_STATE ≠ 2 ∨ s.dieT < 1600 → exec .thermStepExpiry s = .next s) ∧
    (s.getF THERM_STAT_STATE = 2 → s.dieT < s.thermLow → ∀ t, t = s.thermLevel (s.getF THERM_STAT_LEVEL - 1) →
      exec .thermReleaseExpiry s = .next (if t.getF THERM_STAT_LEVEL = 0 then t.setF THERM_STAT_STATE 0 else t)) ∧
    (s.getF THERM_STAT_STATE ≠ 2 ∨ s.thermLow ≤ s.dieT → exec .thermReleaseExpiry s = .next s) ∧
    (∀ x : Int, 1792 ≤ x → s.flag THERM_STAT_IMMED = false → s.getF THERM_STAT_STATE ≠ 0 → ∀ u, u = s.count THERM_N_IMMEDIATES 1 →
      s.thermMove x = ((u.setFlag THERM_STAT_IMMED true).thermEnforce u.lmax).healthReg) ∧
    (∀ (x : Int) t, 1600 ≤ x → x < 1792 → t = (s.setFlag THERM_STAT_IMMED false).healthReg → t.getF THERM_STAT_STATE = 0 →
      s.thermMove x = ((t.setF THERM_STAT_STATE 1).count THERM_N_REQUESTS 1).event 0x0006 [] (.tenants 0xFFFF)) ∧
    (∀ (x : Int) t, 1792 ≤ x → s.getF THERM_STAT_STATE = 0 → t = ((s.setF THERM_STAT_STATE 1).count THERM_N_REQUESTS 1).event 0x0006 [] (.tenants 0xFFFF) →
      ∀ u, u = (if t.flag THERM_STAT_IMMED then t else t.count THERM_N_IMMEDIATES 1) →
      s.thermMove x = ((u.setFlag THERM_STAT_IMMED true).thermEnforce u.lmax).healthReg)

/-- R5: narrow and misaligned accesses of registers. -/
def Obligations.MisalignedRegisterAccess : Prop :=
  (∀ (s : State) (a : Nat) (v : Word) (c : RegCtx), a < 0x1C0000 → a % 4 ≠ 0 →
    exec (.registerWrite a v c) s = .next (s.emit (.bus true 0)).settle ∧ exec (.latchingReadLo a) s = .next (s.emit (.bus true 0))) ∧
  (∀ (s : State) (r : BusReq), r.bytes ≠ 4 ∨ r.addr % 4 ≠ 0 → s.busAccess 9 r = s.emit (.bus true 0))

/-- REGISTER_WRITE of a register without a special rule (R6, R516), and of a block that the role does not have (R3). -/
def Obligations.PlainRegisterWrites : Prop :=
  ∀ (s : State) (a : Nat) (v : Word) (c : RegCtx), a < 0x1C0000 → a % 4 = 0 →
    (s.blockHere (a / 0x10000) = false → exec (.registerWrite a v c) s = .next (s.emit (.bus false 0)).settle ∧
      exec (.latchingReadLo a) s = .next (s.emit (.bus false 0))) ∧
    (s.blockHere (a / 0x10000) = true → a < 0x51000 ∨ 0x52000 ≤ a → ∀ m w, m = BitVec.ofNat 32 (s.absentBits a) →
      w = (v &&& ~~~ m) ||| (s.reg a &&& m) → s.specialWrite a w c = none →
      (s.regAccepts s.bankRuns a w = false → exec (.registerWrite a v c) s = .next (s.emit (.bus true 0)).settle) ∧
      (s.regAccepts s.bankRuns a w = true → exec (.registerWrite a v c) s = .next ((s.plainWrite a w).emit (.bus false 0)).settle) ∧
      (∀ d, regDef a = some d → s.plainWrite a w = s.setReg a (writtenWord d (s.reg a) w)) ∧
      (regDef a = none → s.plainWrite a w = s)) ∧
    (∀ (d : RegDef) (old w : Word) (i : Nat), i < 32 → (∀ f, f ∈ d.fields → f.lo ≤ f.hi ∧ f.hi < 32) →
      d.fields.Pairwise (fun f g => f.hi < g.lo ∨ g.hi < f.lo) →
      ((∀ f, f ∈ d.fields → f.lo ≤ i → i ≤ f.hi → f.acc = .ro ∨ f.acc = .wo) → (writtenWord d old w).getLsbD i = old.getLsbD i) ∧
      (∀ f, f ∈ d.fields → f.lo ≤ i → i ≤ f.hi → f.acc = .rw ∨ f.acc = .rws ∨ f.acc = .rwl → (writtenWord d old w).getLsbD i = w.getLsbD i) ∧
      (∀ f, f ∈ d.fields → f.lo ≤ i → i ≤ f.hi → f.acc = .w1c → (writtenWord d old w).getLsbD i = (old.getLsbD i && !w.getLsbD i)))

/-- CLRCNT, FAB_COMMIT, REMAP and REMAP_LOCK (R412, R414, R516, R522). -/
def Obligations.ControlWrites : Prop :=
  ∀ s : State,
    (∀ n, n < 8 → exec (.clrcnt (.bank n)) s = .next ((s.clearBank n).emit (.bus false 0))) ∧
    exec (.clrcnt .test) s = .next ((s.clearCounts 0xB8100 0xC0000).emit (.bus false 0)) ∧
    (∀ b, s.blockHere b = true → b ≠ 18 → b = 0 ∨ b = 7 ∨ b = 22 ∨ ctrlBlocks.contains b = true →
      exec (.clrcnt (.block b)) s = .next ((s.clearCounts (b * 0x10000) ((b + 1) * 0x10000)).emit (.bus false 0))) ∧
    (s.blockHere 18 = true → exec (.clrcnt (.block 18)) s =
      .next (((s.clearCounts 0x120000 0x130000).setF THERM_TEMP_PEAK 0).emit (.bus false 0))) ∧
    (∀ lo hi a, s.Canon → (s.clearCounts lo hi).reg a = if lo ≤ a ∧ a < hi ∧ isCount a = true then regReset a else s.reg a) ∧
    (s.Canon → ∃ (t : State), exec .fabCommit s = .next (t.emit (.bus false 0)) ∧ (∀ r, r < 16 → t.getF (FAB_PRIO_PRIO r) = s.getF (FAB_PRIO_SH_PRIO r)) ∧
      t = { s with regs := t.regs }) ∧
    (s.flag SYS_CTRL_REMAP_LOCK = false → s.Canon → ∀ b, ∃ (t : State), exec (.remap b) s = .next (t.emit (.bus false 0)) ∧
      t.flag SYS_CTRL_REMAP = b ∧ t.flag SYS_CTRL_REMAP_LOCK = false ∧ t = { s with regs := t.regs }) ∧
    (s.Canon → ∃ (t : State), exec .remapLock s = .next (t.emit (.bus false 0)) ∧ t.flag SYS_CTRL_REMAP_LOCK = true ∧
      t.flag SYS_CTRL_REMAP = s.flag SYS_CTRL_REMAP ∧ t = { s with regs := t.regs }) ∧
    (s.flag SYS_CTRL_REMAP_LOCK = true → ∀ b v, s.flag SYS_CTRL_REMAP ≠ b → v = BitVec.ofNat 32 ((if b then 1 else 0) + 2) →
      exec (.remap b) s = .next ((s.lockViol SYS_CTRL v).emit (.bus true 0)))

/-- LATCHING_READ_LO (R280). -/
def Obligations.LatchingReads : Prop :=
  ∀ (s : State) (a : Nat), a < 0x1C0000 → a % 4 = 0 → s.blockHere (a / 0x10000) = true →
    (0x51000 ≤ a → a < 0x52000 → exec (.latchingReadLo a) s = .next (s.emit (.bus false (s.dmem 8 (a - 0x51000)).toNat))) ∧
    (a < 0x51000 ∨ 0x52000 ≤ a → a ≠ TRACE_RDATA_LO → a ≠ TRACE_RDATA_HI → a / 0x10000 ≠ 11 →
      (∀ w, s.latched a = some w → exec (.latchingReadLo a) s =
        .next (State.emit { s with latch := (releasedBy a).foldl (fun m k => SMap.erase k m) s.latch } (.bus false w.toNat))) ∧
      (s.latched a = none → openReg a = false → exec (.latchingReadLo a) s =
        .next (State.emit { s with latch := (latchedBy a).foldl (fun m k => SMap.insert k (s.regValue k) m) s.latch }
          (.bus false (s.regValue a &&& ~~~ BitVec.ofNat 32 (s.absentBits a)).toNat))))

/-- BUS_REQUEST, TRANSFER_LAST_BEAT and REQUEST_WITHDRAW (R408, R409, R416). -/
def Obligations.BusArbitration : Prop :=
  (∀ (s : State) (r : BusReq), s.busDecode r.addr = none →
    ∀ t, t = (s.decErr r.addr r.req r.write).emit (.bus true 0) →
      exec (.busRequest r) s = .next (if r.req ≤ 1 then t.emit (.stoker 0) else t).settle) ∧
  (∀ (s : State) (r : BusReq) (a o : Nat) (t : State), s.busDecode r.addr = some (a, o) →
    t = s.setArb a { s.arb a with ports := (s.arb a).ports ++ [{ r := { r with addr := o }, left := max 1 r.beats, lost := 0 }] } →
    ((s.arb a).owner = none → exec (.busRequest r) s = .next (t.arbDecide a).settle) ∧
    ((s.arb a).owner ≠ none → exec (.busRequest r) s = .next t.settle)) ∧
  (∀ (s : State) (a : Nat), (s.arb a).owner = none → exec (.transferLastBeat a) s = .next s.settle ∧ exec (.requestWithdraw a) s = .next s) ∧
  (∀ (s : State) (a : Nat) (q : ArbReq), (s.arb a).owner = some q →
    (q.left ≤ s.arbLimit a → exec (.transferLastBeat a) s =
      .next ((State.busAccess (s.setArb a { s.arb a with owner := none }) a q.r).arbDecide a).settle) ∧
    (∀ ps, ps = (s.arb a).ports ++ [{ q with left := q.left - s.arbLimit a, lost := 0 }] → s.arbLimit a < q.left →
      exec (.transferLastBeat a) s = .next ((s.setArb a { s.arb a with owner := none, ports := ps }).arbDecide a).settle) ∧
    exec (.requestWithdraw a) s = .next (((s.setArb a { s.arb a with owner := none }).count (FAB_ARB_N_WITHDRAW a) 1).arbDecide a)) ∧
  (∀ (s : State) (a : Nat) (w : ArbReq), s.Canon → s.flag (FAB_ARB_CFG_FREEZE a) = false → a < 11 →
    s.arbBest a ((s.arb a).queue ++ rrOrder (s.arb a).last (s.arb a).ports) = some w → ((s.arbDecide a).arb a).owner = some w ∧
      ((s.arbDecide a).arb a).last = w.r.req ∧ ∀ b, b ≠ a → (s.arbDecide a).arb b = s.arb b)

/-- SRAM and DDR5: read after write, and what a write leaves alone. -/
def Obligations.MemoryReadsLastWrite : Prop :=
  (∀ (s t : State) (k : Nat) (r : BusReq), s.Canon → k ≠ 0 → k ≠ 9 → k ≠ 10 → r.write = true → t = s.busAccess k r →
    (∀ i, i < (reqData r).length → SMap.get sramFill t.sram (r.addr + i) = ((reqData r)[i]?).getD 0) ∧
    (∀ b, b < r.addr ∨ r.addr + (reqData r).length ≤ b → SMap.get sramFill t.sram b = SMap.get sramFill s.sram b) ∧
    t = { s with sram := t.sram, out := .bus false 0 :: s.out } ∧
    ∀ q, q.write = false → q.addr = r.addr → q.bytes = (reqData r).length → t.busAccess k q = t.emit (.bus false (leNat (reqData r)))) ∧
  (∀ (s : State) (a : Nat) (bs : List Byte), s.Canon →
    (∀ i, i < bs.length → (s.ddrWrite a bs).ddrByte (a + i) = (bs[i]?).getD 0) ∧
    (∀ b, b < a ∨ a + bs.length ≤ b → (s.ddrWrite a bs).ddrByte b = s.ddrByte b) ∧ s.ddrWrite a bs = { s with ddr := (s.ddrWrite a bs).ddr })

/-- DDR_REQUEST and DDR_READ_DATA (R399 to R404). -/
def Obligations.DdrAccesses : Prop :=
  ∀ (s : State) (r : BusReq) (k : Nat) (d : DdrSub), k = ddrSubOf r.addr → d = s.ddrSub k →
    (s.inDdr r.addr = false → exec (.ddrRequest r) s = .next (s.decErr r.addr r.req r.write)) ∧
    (s.inDdr r.addr = true →
      (s.flag DDR_STAT_DOWN = true → exec (.ddrRequest r) s = .next (s.ueOutcome r)) ∧
      (s.flag DDR_STAT_DOWN = false → s.ddrServes = false ∨ d.blocked = true ∨ d.wait ≠ [] →
        exec (.ddrRequest r) s = .next (s.setDdrSub k { d with wait := d.wait ++ [r] })) ∧
      (s.flag DDR_STAT_DOWN = false → s.ddrServes = true → d.blocked = false → d.wait = [] →
        ∀ t, t = s.setDdrSub k { d with buf := d.buf ++ [r], rows := s.touchRow d.rows r } →
        (narrow r = true → exec (.ddrRequest r) s = .next (t.count DDR_N_RMW 1)) ∧
        (narrow r = false → r.write = true → exec (.ddrRequest r) s = .next ((t.ddrWrite (r.addr - ddrBase) (reqData r)).emit (.bus false 0))) ∧
        (narrow r = false → r.write = false → exec (.ddrRequest r) s = .next t))) ∧
    (s.ddrServes = true → s.inDdr r.addr = true → s.flag DDR_STAT_DOWN = false →
      (r.write = false → exec (.ddrReadData r 0) s =
        .next ((s.emit (.bus false (leNat ((List.range r.bytes).map fun i => s.ddrByte (r.addr - ddrBase + i))))).panicRead r)) ∧
      (r.write = true → exec (.ddrReadData r 0) s = .next (((s.ddrWrite (r.addr - ddrBase) (reqData r)).emit (.bus false 0)).panicRead r)) ∧
      exec (.ddrReadData r 1) s = .next (((s.ceAt r.addr).ddrDeliver r).panicRead r) ∧
      (∀ n, 2 ≤ n → exec (.ddrReadData r n) s = .next (((s.ueAt r.addr r.req).ueOutcome r).panicRead r))) ∧
    (∀ t : State, r.req < 4 ∨ 7 < r.req → r.req ≠ 10 → t.panicRead r = t) ∧
    (∀ t : State, 4 ≤ r.req → r.req ≤ 7 → (t.comp.running.any fun j => j.eng == r.req - 4) = false →
      t.panicRead r = (t.panicSet r.req false).freed) ∧
    (s.ddrServes = false ∨ s.inDdr r.addr = false ∨ s.flag DDR_STAT_DOWN = true → ∀ n, exec (.ddrReadData r n) s = .next s) ∧
    (8 ≤ r.req → r.req ≤ 9 → s.ueOutcome r = s.emit (.bus true 0)) ∧ (r.req ≤ 1 → s.ueOutcome r = s.emit (.stoker 1))

/-- The DDR5 controller's own events (R397, R401 to R405). -/
def Obligations.DdrMaintenance : Prop :=
  ∀ (s : State) (k : Nat) (d : DdrSub), d = s.ddrSub k →
    exec .ddrRefresh s = .next s ∧ exec .dqsAdjust s = .next s ∧
    (∀ b, s.ddrServes = true → exec (.ddrMr4Poll b) s = .next (s.setFlag DDR_STAT_REFX2 b)) ∧
    (∀ b, s.ddrServes = false → exec (.ddrMr4Poll b) s = .next s) ∧
    (s.ddrServes = true → d.retrain = false →
      (d.replay = false → exec (.ddrAlert k) s = .next ((s.count DDR_N_PARERR 1).setDdrSub k { d with alert := true })) ∧
      (d.replay = true → ∀ t, t = (s.count DDR_N_PARERR 1).count DDR_N_REPLAYFAIL 1 →
        (3 ≤ d.fails → exec (.ddrAlert k) s = .next (t.ddrRetrain [k])) ∧
        (d.fails < 3 → exec (.ddrAlert k) s = .next (t.setDdrSub k { d with alert := true, replay := false, fails := d.fails + 1 }))) ∧
      (d.alert = false → d.recov = false → d.replay = false →
        exec (.ddrRetryAck k) s = .next ((s.setDdrSub k { d with buf := d.buf.drop 1 }).ddrDrain k)) ∧
      (d.alert = false → d.recov = false → d.replay = true → d.buf.length ≤ 1 → exec (.ddrRetryAck k) s =
        .next (((s.setDdrSub k { d with buf := d.buf.drop 1, replay := false, fails := 0 }).count DDR_N_REPLAYS 1).ddrDrain k))) ∧
    (d.alert = true → exec (.ddrAlertDeassert k) s = .next (s.setDdrSub k { d with alert := false, recov := true })) ∧
    (d.alert = false → exec (.ddrAlertDeassert k) s = .next s) ∧
    (d.recov = true → exec (.ddrRecovExpiry k) s = .next (s.ddrReplay k)) ∧ (d.recov = false → exec (.ddrRecovExpiry k) s = .next s) ∧
    (d.retrain = true → exec (.ddrRetrainDone k true) s = .next (s.ddrReplay k)) ∧
    (d.retrain = true → d.wait = [] → k < 2 → (s.ddrSub (1 - k)).wait = [] → s.Canon → ∃ (t : State), exec (.ddrRetrainDone k false) s = .next t ∧
      t.flag DDR_STAT_DOWN = true ∧ t.ddr = s.ddr ∧ t.out = s.out) ∧
    (d.retrain = false → ∀ ok, exec (.ddrRetrainDone k ok) s = .next s) ∧
    (s.ddrServes = true → s.flag DDR_STAT_DOWN = false → exec .ddrRetrain s = .next ((s.ddrRetrain [0, 1]).emit (.bus false 0))) ∧
    (s.ddrHere = true → exec .ddrScrubNow s = .next (State.emit { s with mc := { s.mc with scrubOn := true, scrubAt := 0 } } (.bus false 0))) ∧
    (s.ddrServes = true → s.flag DDR_STAT_DOWN = false → (s.ddrSub (ddrSubOf (ddrBase + s.mc.scrubAt))).retrain = false →
      s.mc.scrubAt + 64 < s.ddrSize →
      exec (.patrolScrub 0) s = .next { s with mc := { s.mc with scrubAt := s.mc.scrubAt + 64 } } ∧
      exec (.patrolScrub 1) s = .next { s.ceAt (ddrBase + s.mc.scrubAt) with mc := { s.mc with scrubAt := s.mc.scrubAt + 64 } })

/-- SOURCE_FRAME_RX, FRAME_CLOSE_TIMEOUT, NO_SIGNAL and SOURCE_PORT_LINK_CHANGE (R81, R88 to R93, R425). -/
def Obligations.SourceIntake : Prop :=
  (∀ (s : State) (f : SrcFrame), s.tile = false → s.flag (SRC_PCFG_EN f.port) = true → f.port < 4 → s.flag DDR_STAT_TRAIN_FAIL = false →
    (∀ dst dport src seq ts m segs au, f.body = .media dst dport src seq ts m segs au →
      (f.fcs = true → f.len ≤ 9216 → f.tags ≤ 1 →
        (s.matchLeg f.port dst dport src = none → exec (.sourceFrameRx f) s = .next (s.count (SRC_N_PUNM f.port) 1)) ∧
        (∀ b leg, s.matchLeg f.port dst dport src = some (b, leg) → b.b.sdp.video = true →
          exec (.sourceFrameRx f) s = .next (s.videoPacket b leg seq ts m segs)))) ∧
    (f.body = .infra → f.fcs = true → f.len ≤ 9216 → f.tags ≤ 1 → exec (.sourceFrameRx f) s = .next s) ∧
    (f.body = .other → f.fcs = true → f.len ≤ 9216 → f.tags ≤ 1 → exec (.sourceFrameRx f) s = .next (s.count (SRC_N_PUNM f.port) 1)) ∧
    (f.body = .infra ∨ f.body = .other → f.fcs = false → exec (.sourceFrameRx f) s = .next (s.count (SRC_N_PFCS f.port) 1))) ∧
  (∀ (s : State) (i : Nat),
    ((s.src.find? fun b => b.b.index == i && b.b.sdp.video) = none → exec (.frameCloseTimeout i) s = .next s) ∧
    (∀ b, (s.src.find? fun b => b.b.index == i && b.b.sdp.video) = some b → exec (.frameCloseTimeout i) s = .next (s.closeFrame b)) ∧
    (∀ b ts t hi rx, b.rx.frameTs = some ts → b.b.index = i → t = s.count (SRC_V_N_LOST i) b.lostNow →
      hi = (b.rx.got.map fun g => g.1).foldl (fun m x => max m x) 0 →
      rx = { b.rx with frameTs := none, segs := [], counted := some hi, closedTs := some ts } →
      (∀ l, l < b.b.sdp.height → lineMissing b.rx.segs l (sdpLine b.b.sdp) = true) → 0 < b.b.sdp.height → b.newest = none →
      s.closeFrame b = (t.count (SRC_V_N_DISCARDED i) 1).updSrc i fun x => { x with rx := rx }) ∧
    (∀ b ts rx, b.rx.frameTs = some ts → b.b.index = i → (∀ l, l < b.b.sdp.height → lineMissing b.rx.segs l (sdpLine b.b.sdp) = false) →
      rx = { b.rx with frameTs := none, segs := [], counted := some ((b.rx.got.map fun g => g.1).foldl (fun m x => max m x) 0), closedTs := some ts } →
      ∃ u : State, u.src = s.src ∧ s.closeFrame b = u.updSrc i fun x =>
        { x with rx := rx, newest := some b.filling, filling := nextFill b.filling b.newest b.held,
                 tsrc := SMap.set (fun _ => 0) x.tsrc b.filling (sourceTime b.b.sdp ts b.rx.arrNt) }) ∧
    ((s.src.find? fun b => b.b.index == i) = none → exec (.noSignal i) s = .next s) ∧
    (∀ b, (s.src.find? fun b => b.b.index == i) = some b → i < 16 → exec (.noSignal i) s =
      .next (((s.setFlag (SRC_VSTAT_NO_SIGNAL i) true).updSrc i fun x => { x with newest := none }).event 0x0002 (leBytes 1 i)
        (.tenants (bindMask b.b)))) ∧
    (∀ b, (s.src.find? fun b => b.b.index == i) = some b → 16 ≤ i → exec (.noSignal i) s =
      .next ((s.updSrc i fun x => { x with newest := none }).event 0x0002 (leBytes 1 i) (.tenants (bindMask b.b))))) ∧
  (∀ (s : State) (p : Nat) (link fec : Bool), s.tile = false → p < 4 → s.flag DDR_STAT_TRAIN_FAIL = false →
    ∀ t, t = ((s.setFlag (SRC_PSTAT_LINK p) link).setFlag (SRC_PSTAT_FEC_LOCK p) fec) →
    (link = true → s.flag LANE_STAT_TABLE_NONE = false → s.laneValid p (2 + s.getF (SRC_PCFG_RATE p)) = true →
      exec (.sourcePortLinkChange p link fec) s = .next ((t.healthReg).laneTrain p (2 + s.getF (SRC_PCFG_RATE p)))) ∧
    (link = true → s.flag LANE_STAT_TABLE_NONE = true ∨ s.laneValid p (2 + s.getF (SRC_PCFG_RATE p)) = false →
      exec (.sourcePortLinkChange p link fec) s = .next (s.setFlag (LANE_LSTAT_NOENTRY p) true)) ∧
    (link = false → exec (.sourcePortLinkChange p link fec) s =
      .next ((if s.flag (SRC_PSTAT_LINK p) then t.setFlag (SRC_PSTAT_LINK_LOST p) true else t).healthReg.laneOff p)))

/-- The camera port and the audio ports (R470 to R484). -/
def Obligations.CameraAndAudio : Prop :=
  (∀ s : State, s.tile = false →
    (∀ v, s.regAccepts s.bankRuns CAM_CFG v = false → exec (.camEnable v) s = .next (s.emit (.bus true 0))) ∧
    (∀ v t, s.regAccepts s.bankRuns CAM_CFG v = true → t = s.plainWrite CAM_CFG v → fieldIn v CAM_CFG_EN = 1 →
      (s.flag CAM_CFG_EN = true → exec (.camEnable v) s = .next (t.emit (.bus false 0))) ∧
      (s.flag CAM_CFG_EN = false → s.Canon → ∃ (u : State), exec (.camEnable v) s = .next u ∧ u.flag (PSQ_STAT_CAM 0) = true ∧
        (u.bank 0).drv = (s.bank 0).drv &&& ~~~ 0x7FFFF#32 ∧ ∀ n, n ≠ 0 → u.bank n = s.bank n)) ∧
    (∀ v, s.regAccepts s.bankRuns CAM_CFG v = true → fieldIn v CAM_CFG_EN = 0 → s.flag CAM_CFG_EN = true → exec (.camEnable v) s =
      .next (((((s.plainWrite CAM_CFG v).setFlag (PSQ_STAT_CAM 0) false).setFlag CAM_STAT_ACTIVE false).bankSafe 0).emit (.bus false 0))) ∧
    (∀ nack, s.flag CAM_CFG_EN = false → exec (.camFrameStart nack) s = .next s) ∧
    (∀ nack, s.flag CAM_CFG_EN = true → s.flag CAM_STAT_PPEND = false → s.Canon → ∃ (t : State), exec (.camFrameStart nack) s = .next t ∧
      t.flag CAM_STAT_ACTIVE = true ∧ t.cam.size = s.reg CAM_SIZE ∧ t.cam.stride = s.reg CAM_STRIDE ∧ t.cam.base = s.reg CAM_BASE ∧
      t.ddr = s.ddr) ∧
    (∀ lines took, s.flag CAM_CFG_EN = false ∨ s.flag CAM_STAT_ACTIVE = false → exec (.camFrameEnd lines took) s = .next s) ∧
    (∀ lines, s.flag CAM_CFG_EN = true → s.flag CAM_STAT_ACTIVE = true → s.Canon → ∃ (t : State), exec (.camFrameEnd lines false) s = .next t ∧
      t.flag CAM_STAT_OVF = true ∧ t.flag CAM_STAT_ACTIVE = false ∧ t.cam = s.cam) ∧
    (∀ lines, s.flag CAM_CFG_EN = true → s.flag CAM_STAT_ACTIVE = true → s.Canon → ∃ (t : State), exec (.camFrameEnd lines true) s = .next t ∧
      t.flag CAM_STAT_FRAME_DONE = true ∧ t.flag CAM_STAT_ACTIVE = false ∧ t.cam.buf = 1 - s.cam.buf) ∧
    (∀ n, n = s.getF CAM_SENS_NP + 1 → ∃ (t : State), exec .pcommit s = .next (t.emit (.bus false 0)) ∧ t.cam.np = n ∧
      t.cam.staged = (List.range (min n 8)).map (fun k => (s.getF (CAM_PSET_REG k), s.getF (CAM_PSET_DATA k))) ∧ t.ddr = s.ddr)) ∧
  (∀ (s t : State) (r : CordRx) (data : List Byte), s.tileHdr r false = (t, true) →
    (4 ≤ leAt data 0 1 ∨ leAt data 1 1 = 0 → exec (.audio r data) s = .next t) ∧
    (leAt data 0 1 < 4 → 0 < leAt data 1 1 → ∀ first fs, first = audNearest (64 * (leAt data 8 8 + 1000 * t.getF (AUD_DELAY_DELAY (leAt data 0 1)))) →
      fs = (List.range (leAt data 3 1)).map (fun j =>
        ({ at_ := first + j, ts := 0, samples := audWords (leAt data 1 1) (data.drop (16 + j * leAt data 1 1 * 4)) } : AudFrame)) →
      exec (.audio r data) s = .next (t.audBlock (leAt data 0 1) (8192 / leAt data 1 1) (leAt data 1 1) fs))) ∧
  (∀ (s : State) (n : Nat),
    (∀ ts, s.active = false ∨ s.flag AUD_TXCFG_EN = false → exec (.audioBlockDue ts) s = .next s) ∧
    (∀ ts b, s.active = true → s.flag AUD_TXCFG_EN = true →
      (s.src.find? fun b => b.b.index == 16 + s.getF AUD_TXCFG_TXSTREAM) = some b →
      ∃ data : List Byte, exec (.audioBlockDue ts) s =
          .next (s.eachPort (s.getF AUD_TXCFG_PORTS) fun u p => u.frameSend p (.ctrlReq 0 0x0030 data)) ∧
        data.length = 16 + 48 * b.b.sdp.channels * 4 ∧ leAt data 0 1 = s.getF AUD_TXCFG_TPORT ∧ leAt data 3 1 = 48) ∧
    (∀ ue, s.flag (AUD_STAT_RUN n) = false ∨ 4 ≤ n → exec (.audioFrameBoundary n ue) s = .next s) ∧
    (∀ ue, s.flag (AUD_STAT_RUN n) = true → n < 4 → (s.audPort n).buf = [] → exec (.audioFrameBoundary n ue) s =
      .next (((s.audGap n (s.audPort n) [] (s.getF (AUD_CFG_RAMP n) * 48)).freed.panicAud n).audStop n)) ∧
    (∀ f fs den t, s.flag (AUD_STAT_RUN n) = true → n < 4 → (s.audPort n).buf = f :: fs → f.at_ = audIndex s.wtb →
      (∀ g, g ∈ fs → audIndex s.wtb ≤ g.at_) → den = s.getF (AUD_CFG_RAMP n) * 48 →
      t = s.emit (.audio n (s.audSlots n (some f)) (min (s.audPort n).gain den) den) →
      ∀ q, q = { s.audPort n with buf := fs, gain := t.audStep n (s.audPort n).gain, under := false } →
        exec (.audioFrameBoundary n false) s = .next (((t.setAud n q).freed.panicAud n).audStop n)) ∧
    (∀ v, 4 ≤ n ∨ s.regAccepts s.bankRuns (AUD_CFG n) v = false → exec (.audCfgWrite n v) s = .next (s.emit (.bus true 0))) ∧
    (∀ v, n < 4 → s.regAccepts s.bankRuns (AUD_CFG n) v = true →
      exec (.audCfgWrite n v) s = .next ((s.audCfgWrite n v).1.emit (.bus false 0))))

/-- The reference inputs and the OCXO (R263 to R269). -/
def Obligations.References : Prop :=
  ∀ (s : State) (i : Nat),
    (∀ l, (s.refIn i).last = some l → 10 * (s.wtb - l) < 9 * s.syncP i ∨ 11 * s.syncP i < 10 * (s.wtb - l) →
      exec (.syncEdge i) s = .next (s.count (syncCnt i 1) 1)) ∧
    (∀ l t, (s.refIn i).last = some l → 9 * s.syncP i ≤ 10 * (s.wtb - l) → 10 * (s.wtb - l) ≤ 11 * s.syncP i →
      t = (s.setRefIn i { s.refIn i with last := some s.wtb }).setReg (REF_SYNC_PERR i)
        (BitVec.ofNat 32 (unsigned 32 (clampInt (-2147483648) 2147483647 (s.syncErr i s.wtb)))) →
      (t.tile = true → exec (.syncEdge i) s = .next t) ∧
      (t.tile = false → ∀ u, u = (if t.flag (enF i) = true ∧ t.getF (staF i) = 0 then t.qualify i else t) →
        exec (.syncEdge i) s = .next (if u.getF REF_STAT_SEL = i then u.steer else u))) ∧
    exec (.syncStop i) s = .next ((s.count (syncCnt i 0) 1).refLost i) ∧
    (∀ d : Int, 20000000 < d.natAbs → exec (.syncRateCheck i d) s = .next ((s.count (syncCnt i 2) 1).refLost i)) ∧
    (∀ d : Int, d.natAbs ≤ 20000000 → exec (.syncRateCheck i d) s = .next s) ∧
    (s.getF (staF i) = 1 → exec (.refQualified i) s = .next (s.setF (staF i) 2)) ∧
    (s.getF (staF i) ≠ 1 → exec (.refQualified i) s = .next s) ∧
    (s.onOcxo = true → (s.count REF_N_OCXO_STOP 1).flag REF_STAT_DEGRADED = false →
      exec .ocxoStop s = .next (((s.count REF_N_OCXO_STOP 1).carryRatio true).setFlag REF_STAT_DEGRADED true)) ∧
    (s.onOcxo = true → (s.count REF_N_OCXO_STOP 1).flag REF_STAT_DEGRADED = true → exec .ocxoStop s = .next (s.count REF_N_OCXO_STOP 1)) ∧
    (s.onOcxo = true → exec .ocxoRequalified s = .next (((if s.flag REF_STAT_DEGRADED = true then s.carryRatio false else s).setFlag
      REF_STAT_DEGRADED false).setFlag REF_STAT_BASE_UNQUAL false)) ∧
    (∀ r g, s.onOcxo = true → g = s.tim.gates → g.length < 10 ∨ (10 * r - g.foldl (fun a b => a + b) 0).natAbs ≤ 200000000 →
      exec (.ocxoRateCheck r) s = .next { s with tim := { s.tim with gates := (r :: g).take 10, ocxoRatio := r } }) ∧
    (s.onOcxo = true → exec .ocxoGlitch s = .next (s.count REF_N_OCXO_GLITCH 1)) ∧
    (s.onOcxo = false → exec .ocxoStop s = .next s ∧ exec .ocxoRequalified s = .next s ∧ exec .ocxoGlitch s = .next s ∧
      ∀ r, exec (.ocxoRateCheck r) s = .next s) ∧
    (∀ w, exec (.ocxoWarmChange w) s = .next (State.setFlag { s with tim := { s.tim with warm := w } } REF_STAT_BASE_COLD (s.onOcxo && !w))) ∧
    (s.tile = true → exec .refEvaluation s = .next s) ∧
    (s.tile = false → ∀ x t u v w : State,
      x = [0, 1, 2].foldl (fun (u : State) i => if u.flag (enF i) || u.getF (staF i) == 0 then u else u.refLost i) s →
      t = (if x.flag REF_CFG_ENNET = true ∧ x.netValid = true ∧ x.getF (staF 2) = 0 then x.qualify 2 else x) →
      u = (if t.bestRef = t.getF REF_STAT_SEL then t else t.select t.bestRef).epochCheck →
      v = { u with tim := { u.tim with anySel := u.tim.anySel || (u.flag REF_STAT_EPOCH_FIXED && t.bestRef != 3) } } →
      w = (match v.tim.holdAt with | some h => v.setReg REF_HOLD (BitVec.ofNat 32 ((v.wtb - h) / secU)) | none => v) →
      exec .refEvaluation s = .next w.steer)

/-- Network time, PPS_OUT and TIM (R267, R273, R277 to R282). -/
def Obligations.TimeAndIntervals : Prop :=
  ∀ s : State,
    (s.tile = false → s.netValid = false → exec .ptpSyncTimeout s = .next s) ∧
    (s.tile = false → s.netValid = true → s.Canon → ∃ t : State, exec .ptpSyncTimeout s = .next t ∧ t.flag REF_NET_NET_VALID = false ∧
      t.getF REF_STAT_STA_NET = 0 ∧ t.wtb = s.wtb ∧ t.live = s.live) ∧
    (s.tile = false → s.netValid = true → exec (.netValidWrite true) s = .next (s.emit (.bus false 0))) ∧
    (s.tile = false → s.netValid = false → ∀ t, t = s.setFlag REF_NET_NET_VALID true → exec (.netValidWrite true) s =
      .next ((State.popTimeSet ((if t.flag REF_CFG_ENNET then t.qualify 2 else t).epochNetSet.epochCheck)).emit (.bus false 0))) ∧
    (s.tile = false → exec (.netValidWrite false) s = .next (s.netLost.emit (.bus false 0))) ∧
    (∀ hi t, s.tile = false → t = s.setReg REF_NTOFF_HI hi →
      exec (.ntoffWrite hi) s = .next ((t.setLive REF_NTOFF_LO (t.reg REF_NTOFF_LO)).setLive REF_NTOFF_HI hi)) ∧
    (s.tile = false → exec .epochTimeout s = .next s.epochFix) ∧ (s.tile = true → exec .epochTimeout s = .next s) ∧
    (s.flag REF_OUT_PPS_EN = true → exec .ppsOutPulse s =
      .next (s.emit (.ppsOut ((s.wtb : Int) + signed 32 (s.reg REF_OUTOFF).toNat) (1000 * s.getF REF_OUT_PPS_W)))) ∧
    (s.flag REF_OUT_PPS_EN = false → exec .ppsOutPulse s = .next s) ∧
    (∀ c v w, c < 16 → w = v ||| 4#32 → s.regAccepts s.bankRuns (TIM_CFG c) w = true →
      exec (.timArm c v) s = .next (((s.plainWrite (TIM_CFG c) w).timStart c).emit (.bus false 0))) ∧
    (∀ c v, c < 16 → s.regAccepts s.bankRuns (TIM_CFG c) (v ||| 4#32) = false → exec (.timArm c v) s = .next (s.emit (.bus true 0))) ∧
    (∀ m, SMap.wf (fun _ => none) s.tim.runs = true → ∃ t : State, exec (.timAbort m) s = .next (t.emit (.bus false 0)) ∧
      ∀ c, t.timRun c = if c < 16 ∧ m.testBit c = true then none else s.timRun c) ∧
    (∀ c, s.timRun c = none → (∀ a b, exec (.timStamp c a b) s = .next s) ∧ exec (.timTimeout c) s = .next s ∧ exec (.timGateEnd c) s = .next s) ∧
    (∀ c r, s.timRun c = some r →
      (∀ l a b, r.last = some l → s.wtb < l + 128 → exec (.timStamp c a b) s = .next (s.setTimRun c (some { r with lost := true }))) ∧
      (∀ a b, (∀ l, r.last = some l → l + 128 ≤ s.wtb) → s.getF (TIM_CFG_MODE c) = 2 → ∀ r', r' = { r with last := some s.wtb } →
        exec (.timStamp c a b) s = .next (s.setTimRun c (some (if a then { r' with stamps := s.wtb :: r.stamps } else r')))) ∧
      (∀ o v r', (∀ l, r.last = some l → l + 128 ≤ s.wtb) → s.getF (TIM_CFG_MODE c) ≠ 2 → r.opened = some o →
        s.getF (TIM_CFG_START c) ≠ s.getF (TIM_CFG_STOP c) → v = satInterval ((s.wtb : Int) - o) →
        r' = { r with last := some s.wtb, vals := v.1 :: r.vals, ovr := r.ovr || v.2, opened := none } →
        exec (.timStamp c false true) s =
          .next (if s.getF (TIM_N_N c) ≤ r'.vals.length then s.latencyDone c r' false else s.setTimRun c (some r'))) ∧
      (s.getF (TIM_CFG_MODE c) = 1 → s.getF (TIM_TMO_TMO c) ≠ 0 → exec (.timTimeout c) s = .next (s.latencyDone c r true)) ∧
      (∀ n nom f, s.getF (TIM_CFG_MODE c) = 2 → n = r.stamps.length → nom = (s.reg (TIM_NOM_LO c)).toNat + s.getF (TIM_NOM_HI_NOM c) * 2 ^ 32 →
        2 ≤ n → 0 < nom → f = lineFit r.stamps.reverse ((r.armedAt + s.wtb) / 2) nom → exec (.timGateEnd c) s =
          .next (s.timDone c { r with ovr := r.ovr || f.2.2.1 } false
            [w32 f.1, w32 f.2.1, BitVec.ofNat 32 f.2.2.2, BitVec.ofNat 32 n, 0, BitVec.ofNat 32 n])) ∧
      (r.vals ≠ [] → ∀ tmo, s.latencyDone c r tmo = s.timDone c r tmo (latencyWords r.vals))) ∧
    (∀ c k, c < 16 → k < 6 → s.latched (TIM_RES c k) = none → ∃ t : State,
      exec (.timResRead c k) s = .next (t.emit (.bus false (s.reg (TIM_RES c k)).toNat)) ∧ t = { s with latch := t.latch }) ∧
    (∀ c k w, c < 16 → k < 6 → s.latched (TIM_RES c k) = some w → ∃ t : State,
      exec (.timResRead c k) s = .next (t.emit (.bus false w.toNat)) ∧ t = { s with latch := t.latch })

/-- HOP_TRAINED, HOP_HELLO_RX, HOP_AUTH_RETRY, STEP_UP_EVAL, BER_CHECK, LINK_LOST and PORT_D_NO_PARTNER. -/
def Obligations.CordLinks : Prop :=
  ∀ (s : State) (p : Nat),
    (∀ w, s.dormant p = true → exec (.hopTrained p w) s = .next s) ∧
    (∀ w t, s.Canon → s.dormant p = false → s.portOn p = true → s.hopAuth p ≠ .keyed → isRing p = false →
      t = (s.setHopAuth p .trained).setPortStep p 0 → ∀ u, u = (((t.setFlag (CORD_PSTAT_LINK p) true).setFlag (CORD_PSTAT_WIDTH2 p) w).setFlag
        (CORD_HOP_UP (t.ownHop p).1 (t.ownHop p).2) true).setFlag (CORD_HOP_WIDTH2 (t.ownHop p).1 (t.ownHop p).2) w →
      exec (.hopTrained p w) s = .next ((if s.tile = true ∧ p = 0 then u.healthReg.setFlag (CORD_PCFG_EN 1) true else u.healthReg).laneSync p)) ∧
    (∀ h : HopHello, h.port = p → s.hopAuth p = .trained →
      (s.hopAdmits h = false → exec (.hopHelloRx h) s = .next ((s.hopFailed h).laneSync p)) ∧
      (s.hopAdmits h = true → s.tile = true → p = 1 → s.getF CORD_TSTAT_POS = 63 → h.tile = true →
        exec (.hopHelloRx h) s = .next ((s.setFlag (CORD_PSTAT_CORD_FULL 1) true).laneSync p)) ∧
      (s.hopAdmits h = true → s.tile = false ∨ p ≠ 1 ∨ s.getF CORD_TSTAT_POS ≠ 63 ∨ h.tile = false →
        exec (.hopHelloRx h) s = .next ((s.hopKeyed h).laneSync p))) ∧
    (s.hopAuth p = .failed → exec (.hopAuthRetry p) s = .next (s.setHopAuth p .trained)) ∧
    (s.hopAuth p ≠ .failed → exec (.hopAuthRetry p) s = .next s) ∧
    (∀ k ok, (s.portLanes p).all (fun l => s.laneValid l k) = false ∨ (s.fw.recovery = true ∧ s.tile = true ∧ p = 0) →
      exec (.stepUpEval p k ok) s = .next s) ∧
    (∀ k ok, (s.fw.recovery = false ∨ s.tile = false ∨ p ≠ 0) → (s.portLanes p).all (fun l => s.laneValid l k) = true → k ≤ 3 → k ≤ s.maxStep p → isRing p = true ∨ s.tile = true →
      exec (.stepUpEval p k ok) s = .next ((if ok.headD false = true ∧ s.linkUp p = true then s.setPortStep p k else s).laneSync p)) ∧
    (∀ k ok t, (s.fw.recovery = false ∨ s.tile = false ∨ p ≠ 0) → (s.portLanes p).all (fun l => s.laneValid l k) = true → k ≤ 3 → k ≤ s.maxStep p → isRing p = false → s.tile = false →
      t = (List.range ok.length).foldl (fun (u : State) h => if ok.getD h false && u.flag (CORD_HOP_UP p h) &&
        decide (u.getF (CORD_HOP_STEP p h) + 1 = k) then u.setF (CORD_HOP_STEP p h) k else u) s →
      exec (.stepUpEval p k ok) s = .next ((t.setF (CORD_PSTAT_STEP p) (t.getF (CORD_HOP_STEP p 0))).laneSync p)) ∧
    (∀ e, s.linkUp p = false → exec (.berCheck p e) s = .next (s.laneSync p)) ∧
    (∀ e t, s.linkUp p = true → isRing p = false → t = s.count (CORD_N_BLKERR p) e →
      (e ≤ s.getF CORD_BERLIM_LIM → exec (.berCheck p e) s =
        .next (State.laneSync { t with cord := { t.cord with badSec := SMap.set (fun _ => 0) t.cord.badSec p 0 } } p)) ∧
      (s.getF CORD_BERLIM_LIM < e → 2 ≤ SMap.get (fun _ => 0) t.cord.badSec p →
        ∀ u, u = State.count { t with cord := { t.cord with badSec := SMap.erase p t.cord.badSec } } (CORD_N_DOWNSHIFT p) 1 →
        exec (.berCheck p e) s = .next ((u.setPortStep p (u.portStep p - 1)).laneSync p))) ∧
    (s.hopAuth p = .down → exec (.linkLost p) s = .next (s.laneSync p)) ∧
    (s.hopAuth p ≠ .down → SMap.wf (fun _ => HopAuth.down) s.cord.hops = true → ∃ t : State, exec (.linkLost p) s = .next (t.laneSync p) ∧
      t.hopAuth p = .down ∧ SMap.get (fun _ => 0) t.cord.held p = s.portStep p + 1) ∧
    (s.tile = true → exec (.portDNoPartner p .noPartner) s = .next (s.setFlag (CORD_PSTAT_END 1) true)) ∧
    (∀ t, s.tile = false → s.flag (CORD_PSTAT_ENUM_DONE p) = false → s.linkUp p = true →
      t = { s with cord := { s.cord with ctrlOut := s.cord.ctrlOut.filter fun o => !(o.port == p && o.op == 0x0001 && o.pos == (s.enumPos p).length) } } →
      ∀ u, u = (t.setFlag (CORD_PSTAT_ENUM_DONE p) true).setF (CORD_PSTAT_TILES p) (s.enumPos p).length →
      exec (.portDNoPartner p .noPartner) s = .next (u.setFlag (CORD_PSTAT_END p) true) ∧ exec (.portDNoPartner p .ringClosed) s = .next u ∧
      exec (.portDNoPartner p .full) s = .next ((u.setFlag (CORD_PSTAT_CORD_FULL p) true).eventAt 0x0013 p 63 [] .owner))

/-- The traffic of a cord at a sender and at every port (R139 to R163). -/
def Obligations.CordTraffic : Prop :=
  (∀ (s : State) (r : CordRx) (b : CordBody) (t u : State), s.tile = false →
    t = s.freeBlocks r.port (bodyCls b) (pktBlocks { hdr := r.hdr, body := b }) → u = t.sawClaim r.hdr.claim →
    (r.htag = false → s.senderUp r b = (t.count (CORD_N_HTAGERR r.port) 1, false)) ∧
    (r.htag = true → r.abort = true → s.senderUp r b = (u.count (CORD_N_ABORTRX r.port) 1, false)) ∧
    (r.htag = true → r.abort = false → r.tag = false → s.senderUp r b = (u.count (CORD_N_TAGERR r.port) 1, false)) ∧
    (r.htag = true → r.abort = false → r.tag = true → u.active = true →
      (r.hdr.claim.toNat < u.claim.toNat → s.senderUp r b = (u.count (CORD_N_STALE r.port) 1, false)) ∧
      (u.claim.toNat ≤ r.hdr.claim.toNat → s.senderUp r b = (u, true)))) ∧
  (∀ (s t : State) (r : CordRx) (b : CordBody) (p : CordPkt), p = { hdr := r.hdr, body := b } →
    (s.tile = false → exec (.cutThroughForward r b) s = .next s) ∧
    (s.tile = true → s.tileHdr { r with tag := true, abort := false } true = (t, true) → (∀ x y, b ≠ .undefinedType x y) →
      (r.hdr.dest = 0xFE ∨ (r.hdr.up = false ∧ t.forMe r = true) →
        exec (.cutThroughForward r b) s = .next (t.freeBlocks r.port (bodyCls b) (pktBlocks p))) ∧
      (r.hdr.dest ≠ 0xFE → r.hdr.up = true ∨ t.forMe r = false →
        (r.abort = false → r.tag = true → exec (.cutThroughForward r b) s = .next (t.sendFrom (some r.port) (1 - r.port) p)) ∧
        (r.abort = true → exec (.cutThroughForward r b) s = .next (State.freeBlocks
          ((t.count (CORD_N_ABORTRX r.port) 1).emit (.cordAbort (1 - r.port))) r.port (bodyCls b) (pktBlocks p))) ∧
        (r.abort = false → r.tag = false → exec (.cutThroughForward r b) s = .next (State.freeBlocks
          ((t.count (CORD_N_TAGERR r.port) 1).emit (.cordAbort (1 - r.port))) r.port (bodyCls b) (pktBlocks p)))))) ∧
  (∀ (s t : State) (r : CordRx) (eseq : Word) (code : Nat) (data : List Byte), s.senderUp r (.event eseq code data) = (t, true) →
    exec (.eventRx r eseq code data) s = .next ((t.eventTake r.port r.hdr.src code data).stageEvent r.port r.hdr.src code)) ∧
  (∀ (s t : State) (r : CordRx) (seq : Word) (op st : Nat) (data : List Byte), s.senderUp r (.ctrlRsp seq op st data) = (t, true) →
    exec (.ctrlRspRx r seq op st data) s = .next (t.rspTake r.port r.hdr.src seq op st data).settle) ∧
  (∀ (s : State) (p : Nat),
    (∀ c n, exec (.creditRx p c n) s = .next (State.pump { s with cord := { s.cord with
      freed := SMap.set (fun _ => 0) s.cord.freed (p * 2 + c % 2) (n % 65536) } } p (c % 2))) ∧
    (∀ c, SMap.get (fun _ => []) s.cord.txq (p * 2 + c % 2) ≠ [] → s.credits p (c % 2) = 0 → isRing p = false →
      exec (.starve p c) s = .next ((s.count (CORD_N_STARVE p) 1).setFlag (CORD_PSTAT_STARVE p) true)) ∧
    (∀ c, SMap.get (fun _ => []) s.cord.txq (p * 2 + c % 2) = [] ∨ s.credits p (c % 2) ≠ 0 → exec (.starve p c) s = .next s) ∧
    (∀ i, s.linkUp p = false → exec (.probeRx p i) s = .next s) ∧
    (∀ i h, s.linkUp p = true → h = ({ up := false, enc := false, relay := false, dest := 0xFE, src := 0xFE, claim := s.claim } : PktHdr) →
      exec (.probeRx p i) s = .next ((s.emit (.echo p i)).send p { hdr := h, body := .timeRsp i (s.wtb % 64) (s.wtb % 64) s.ns s.ns })) ∧
    (∀ i ex, ex = s.tl.exch.map (fun e => if e.port = p ∧ e.id = i ∧ e.t4.isNone then { e with t4 := some s.wtb } else e) →
      exec (.echoRx p i) s = .next { s with tl := { s.tl with exch := ex } }) ∧
    exec (.ringOkTimeout p) s = .next (s.setFlag (CORD_PSTAT_RING_OK p) false) ∧
    (s.tile = false → exec .probeTimer s = .next ((s.probe 8).probe 9)) ∧
    (s.tile = true → exec .probeTimer s = .next (((if s.awake s.timePort then s.probe s.timePort else s).probe 8).probe 9)) ∧
    (∀ r : CordRx, s.linkUp r.port = true → r.htag = true → r.tag = true → r.abort = false → isRing r.port = true →
      ∀ i a b c d, (s.tl.exch.find? fun e => e.port == r.port && e.id == i) = none → exec (.timeRspRx r i a b c d) s = .next s) ∧
    (∀ (r : CordRx) i a b c d e t4 x, s.linkUp r.port = true → r.htag = true → r.tag = true → r.abort = false → isRing r.port = false →
      ∀ t u : State, t = s.freeBlocks r.port 1 2 → (t.tl.exch.find? fun e => e.port == r.port && e.id == i) = some e → e.t4 = some t4 →
      x = exchange e.t1 (c * 64 + a % 64 : Nat) (d * 64 + b % 64 : Nat) t4 (t.asym r.port) →
      u = { t with tl := { t.tl with exch := t.tl.exch.filter fun y => !(y.port == r.port && y.id == i) } } →
      (r.port ≠ u.timePort → exec (.timeRspRx r i a b c d) s = .next u) ∧
      (r.port = u.timePort → ∀ st v : State, st = { u with tl := { u.tl with stats := (x :: u.tl.stats).take (u.getF CORD_PROBE_N) } } →
        v = st.setF (CORD_HOP_LAT 0 r.port) (roundDiv (st.tl.stats.foldl (fun a y => a + y.1) 0) (2 * st.tl.stats.length)).toNat →
        exec (.timeRspRx r i a b c d) s = .next (v.timeChannel r.port).timeFollow)) ∧
    (∀ q n o, (s.cord.ctrlOut.find? fun o => o.port == p && o.pos == q && o.seq == n) = some o → s.active = true →
      (o.tries < 8 → ∀ o', o' = { o with tries := o.tries + 1 } → exec (.ctrlReqRetry p q (some n)) s = .next (State.ctrlResend
        { s with cord := { s.cord with ctrlOut := s.cord.ctrlOut.map fun x => if x = o then o' else x } } o').settle) ∧
      (8 ≤ o.tries → o.op ≠ 0x0001 → o.wcp = none → exec (.ctrlReqRetry p q (some n)) s = .next (State.eventAt
        { s with cord := { s.cord with ctrlOut := s.cord.ctrlOut.filter fun x => x != o } } 0x0008 p q [] .owner).settle)))

/-- The frame packets at a tile and the flip (R145 to R149, R170, R182). -/
def Obligations.TileFrames : Prop :=
  (∀ (s t : State) (r : CordRx), s.tile = true → s.tileHdr r false = (t, true) →
    (∀ n p k l, t.tl.last = some l → n ≤ l → exec (.markRx r n p k) s = .next (t.count (CORD_N_DUP r.port) 1)) ∧
    (∀ n p k, (∀ l, t.tl.last = some l → l < n) → ∀ (u v : State) f, u = (match t.tl.frame with | some f => t.frameClose f 5 0 | none => t).commit.genSwitch →
      f = ({ fcnt := n, ptime := none, count := [], late := false, held := [], corrected := [], protFail := false } : TileFrame) →
      v = { u with tl := { u.tl with frame := some f, last := some n, fper := some p, lastMark := u.wtb, ntiles := k, rx := [] } } →
      exec (.markRx r n p k) s =
        .next ((State.raisePsqs ((v.setF CORD_TSTAT_POS_B (k - 1 - v.getF CORD_TSTAT_POS_A)).setPos) 0).stageSwitch n |>.powerMark n)) ∧
    (t.tl.frame = none → (∀ n pt c, exec (.presentRx r n pt c) s = .next t) ∧ ∀ n a b, exec (.testslotRx r n a b) s = .next t) ∧
    (∀ f, t.tl.frame = some f →
      (∀ n pt c, f.fcnt ≠ n → exec (.presentRx r n pt c) s = .next t) ∧
      (∀ pt c, f.ptime ≠ none → exec (.presentRx r f.fcnt pt c) s = .next (t.count (CORD_N_DUP r.port) 1)) ∧
      (∀ pt c, f.ptime = none → t.wtb ≤ pt * 64 → exec (.presentRx r f.fcnt pt c) s =
        .next { t with tl := { t.tl with frame := some { f with ptime := some pt, count := c, late := false } } }) ∧
      (∀ pt c g u, f.ptime = none → pt * 64 < t.wtb → g = { f with ptime := some pt, count := c, late := true } →
        u = { t with tl := { t.tl with frame := some g } } →
        exec (.presentRx r f.fcnt pt c) s = .next (u.frameClose g (u.flipResult g) 0)) ∧
      (∀ a b, t.tl.slots = [] → exec (.testslotRx r f.fcnt a b) s =
        .next (State.testRegs { t with tl := { t.tl with slots := [(f.fcnt, a, b)] } })) ∧
      (∀ a b u, t.tl.slots ≠ [] → u = t.count TS_N_SLOTREPL 1 → exec (.testslotRx r f.fcnt a b) s =
        .next (State.testRegs { u with tl := { u.tl with slots := [(f.fcnt, a, b)] } })))) ∧
  (∀ (s t : State) (r : CordRx) (b : BandPkt) (f : TileFrame), s.tileOwn r (.band b) = (t, true) → t.tl.frame = some f →
    (b.ftag ≠ f.fcnt % 65536 → ∀ fits, exec (.bandRx r b fits) s = .next t) ∧
    (b.ftag = f.fcnt % 65536 → f.held.contains b.band = true → ∀ fits, exec (.bandRx r b fits) s = .next (t.count (CORD_N_DUP r.port) 1)) ∧
    (b.ftag = f.fcnt % 65536 → f.held.contains b.band = false → t.flag LAMP_STAT_LOADING = false → t.flag LAMP_STAT_UNCAL = false →
      exec (.bandRx r b false) s = .next (t.count (CORD_N_ACCEPTOVF r.port) 1) ∧
      (t.tileBands ≤ b.band ∨ b.width ≠ t.getF LAMP_GEOM_W ∨ b.lines ≠ bandLines (t.getF LAMP_GEOM_H) b.band →
        exec (.bandRx r b true) s = .next (t.count LAMP_N_GEOMERR 1)) ∧
      (b.band < t.tileBands → b.width = t.getF LAMP_GEOM_W → b.lines = bandLines (t.getF LAMP_GEOM_H) b.band → regionOk b = true →
        ∃ u : State, exec (.bandRx r b true) s = .next u ∧ u.tl.frame = some { f with held := f.held ++ [b.band] } ∧
          u.tl.rx = t.tl.rx ++ [{ band := b.band, lines := b.lines, pixels := b.pixels, fcnt := f.fcnt }] ∧ u.lamp.lamps = t.lamp.lamps))) ∧
  (∀ s : State,
    (s.tl.rx = [] → exec .bandCorrectionDone s = .next s) ∧
    (∀ b bs c t, s.tl.rx = b :: bs → s.lamp.cal = some c → t = State.storeBand { s with tl := { s.tl with rx := bs } } c b.band b.pixels →
      t.tl.frame = none → exec .bandCorrectionDone s = .next t) ∧
    (∀ b bs c t f, s.tl.rx = b :: bs → s.lamp.cal = some c → t = State.storeBand { s with tl := { s.tl with rx := bs } } c b.band b.pixels →
      t.tl.frame = some f → f.fcnt = b.fcnt → exec .bandCorrectionDone s =
        .next { t with tl := { t.tl with frame := some { f with corrected := f.corrected ++ [b.band] } } }) ∧
    (s.tl.frame = none → exec .ptimeReached s = .next s) ∧
    (∀ f, s.tl.frame = some f → s.tile = true → f.ptime ≠ none →
      (s.flipResult f = 0 → exec .ptimeReached s =
        .next ((State.raisePsqs ((s.flipBands f.held).commit.syncPulse.rampFlip) 2).frameClose f 0 f.held.length)) ∧
      (s.flipResult f ≠ 0 → exec .ptimeReached s = .next (s.commit.frameClose f (s.flipResult f) 0))))

/-- The control requests of a tile (R157 to R163, R320 to R343, R440, R501). -/
def Obligations.TileRequests : Prop :=
  (∀ (s : State) (seq : Word) (op : Nat) (f : State → State × Option (Nat × List Byte)),
    (∀ e, (s.tl.ctlCache.find? fun e => e.1 == seq) = some e → s.ctrlTake seq op f = s.rspUp (.ctrlRsp seq e.2.1 e.2.2.1 e.2.2.2)) ∧
    ((s.tl.ctlCache.find? fun e => e.1 == seq) = none → 64 ≤ s.tl.ctlCache.length → (s.tl.ctlCache.all fun e => decide (seq.toNat < e.1.toNat)) = true →
      s.ctrlTake seq op f = s.rspUp (.ctrlRsp seq op 0x0008 []))) ∧
  (∀ (s t : State) (r : CordRx) (seq : Word),
    (s.takesNew r seq 0x0003 [] t → exec (.status r seq) s = .next (t.ctrlAnswer seq 0x0003 0 t.statusData)) ∧
    (∀ d, s.takesNew r seq 0x0002 d t →
      exec (.rateStep r seq d) s = .next (State.ctrlAnswer { t with cord := { t.cord with badSec := [] } } seq 0x0002 0 [])) ∧
    (∀ n, s.takesNew r seq 0x0010 n t → n.length = 32 → exec (.ctrlAttest r seq n) s = .next (t.freed.ctrlAnswer seq 0x0010 0 (t.attest n))) ∧
    (∀ root, s.takesNew r seq 0x0011 root t →
      (t.hea.owner = none → exec (.ownerSet r seq root) s = .next ((t.newOwner root 0x0004).ctrlAnswer seq 0x0011 0 [])) ∧
      (t.hea.owner ≠ none → exec (.ownerSet r seq root) s = .next (t.ctrlAnswer seq 0x0011 0x0406 []))) ∧
    (∀ k, (s.takesNew r seq 0x0012 (leBytes 1 1 ++ k) t →
        exec (.ctrlKeySet r seq true k) s = .next ((t.keyAdd k).1.ctrlAnswer seq 0x0012 (t.keyAdd k).2 [])) ∧
      (s.takesNew r seq 0x0012 (leBytes 1 2 ++ k) t → exec (.ctrlKeySet r seq false k) s = .next ((t.keyRemove k).ctrlAnswer seq 0x0012 0 []))) ∧
    (∀ o, s.takesNew r seq 0x0013 o t → exec (.ctrlOwnerXfer r seq o) s = .next ((t.ownerXfer o).1.ctrlAnswer seq 0x0013 (t.ownerXfer o).2 [])) ∧
    (∀ n, s.takesNew r seq 0x0014 [0] t → t.newNonce.hea.nonce = some n →
      exec (.ctrlDebugNonce r seq) s = .next (t.newNonce.ctrlAnswer seq 0x0014 0 n.1)) ∧
    (∀ o, s.takesNew r seq 0x0014 (1 :: o) t → exec (.ctrlDebugToken r seq o) s = .next ((t.debugToken o).1.ctrlAnswer seq 0x0014 (t.debugToken o).2 [])) ∧
    (∀ n, s.takesNew r seq 0x0020 (leBytes 1 2 ++ leBytes 5 n) t →
      exec (.ctrlPower r seq 2 n) s = .next (State.ctrlAnswer { t with pwr := { t.pwr with smoulderAt := some n } } seq 0x0020 0 [])) ∧
    (∀ kind len dg, s.takesNew r seq 0x0040 (leBytes 1 kind ++ leBytes 4 len ++ dg) t →
      (2 ≤ kind → exec (.stage r seq kind len dg) s = .next (t.ctrlAnswer seq 0x0040 0x0001 [])) ∧
      (kind < 2 → ∀ g, g = ({ kind := kind, len := len, digest := dg, data := [], arm := none, due := false, asks := [] } : TileStage) →
        exec (.stage r seq kind len dg) s = .next (State.ctrlAnswer { t with tstage := some g } seq 0x0040 0 []))) ∧
    (∀ off ch g, s.takesNew r seq 0x0041 (leBytes 4 off ++ ch) t → t.tstage = some g → t.writeFor seq = false → off + ch.length < g.len →
      ch.length ≤ 3072 → exec (.stageData r seq off ch) s =
        .next (State.ctrlAnswer { t with tstage := some { g with data := SMap.setList (fun _ => 0) g.data off ch } } seq 0x0041 0 [])) ∧
    (∀ n, s.takesNew r seq Config.opBright (leBytes 2 n) t →
      (0x8000 < n → exec (.brightnessRequest r seq n) s = .next (t.ctrlAnswer seq Config.opBright 1 [])) ∧
      (n ≤ 0x8000 → exec (.brightnessRequest r seq n) s = .next ((t.setBright n).ctrlAnswer seq Config.opBright 0 []))) ∧
    (∀ n, s.takesNew r seq Config.opLampTf (leBytes 1 n) t →
      (3 ≤ n → exec (.lampTfRequest r seq n) s = .next (t.ctrlAnswer seq Config.opLampTf 1 [])) ∧
      (n < 3 → t.getF LAMP_TF_TF ≠ n →
        exec (.lampTfRequest r seq n) s = .next ((t.setF LAMP_TF_TF n).genPending.ctrlAnswer seq Config.opLampTf 0 [])) ∧
      (n < 3 → t.getF LAMP_TF_TF = n → exec (.lampTfRequest r seq n) s = .next ((t.setF LAMP_TF_TF n).ctrlAnswer seq Config.opLampTf 0 []))) ∧
    (∀ es : List Word, s.takesNew r seq Config.opClinker (es.flatMap fun e => leBytes 4 e.toNat) t →
      (t.flag NAND_STAT_ASH_FULL = true → exec (.clinkerMapRequest r seq es) s = .next (t.ctrlAnswer seq Config.opClinker 0x0602 [0, 0, 0, 0])) ∧
      (∀ u k, t.flag NAND_STAT_ASH_FULL = false → t.clinkerEdits es = (u, k) → k ≠ 0 → exec (.clinkerMapRequest r seq es) s =
        .next (u.clkWrite.ctrlAnswer seq Config.opClinker (if k = es.length then 0 else 0x0609) (leBytes 4 k)))) ∧
    (s.takesNew r seq 0x0042 [] t → t.tstage = none → exec (.confirm r seq) s = .next (t.ctrlAnswer seq 0x0042 0 (List.replicate 48 0))) ∧
    (∀ g, s.takesNew r seq 0x0042 [] t → t.tstage = some g → (t.sto.writes.any fun w => w.kind == stageSlot g.kind) = false →
      exec (.confirm r seq) s = .next (t.ctrlAnswer seq 0x0042 0 (t.confirmData g.kind))) ∧
    (∀ n, s.takesNew r seq 0x0043 (leBytes 5 n) t →
      (t.tstage = none → exec (.arm r seq n) s = .next (t.ctrlAnswer seq 0x0043 0x0102 [])) ∧
      (∀ g, t.tstage = some g → exec (.arm r seq n) s = .next (State.ctrlAnswer { t with tstage := some { g with arm := some n } } seq 0x0043 0 []))) ∧
    (s.takesNew r seq 0x0044 [] t → exec (.cancel r seq) s =
      .next (State.ctrlAnswer { t with tstage := t.tstage.map fun g => { g with arm := none } } seq 0x0044 0 [])) ∧
    (∀ off ch d, s.takesNew r seq 0x0050 (leBytes 4 off ++ [0] ++ ch) t → (t.sto.writes.any fun w => w.fwdone == .ctrl seq 0x0050) = false →
      ch.length ≤ 3072 → off + ch.length ≤ 393392 → d = SMap.setList (fun _ => (0 : Byte)) (if off = 0 then [] else t.fw.fwData) off ch →
      exec (.fwData r seq off ch false) s = .next (State.ctrlAnswer { t with fw := { t.fw with fwData := d } } seq 0x0050 0 []))) ∧
  (∀ (s t u : State) (r : CordRx) (seq : Word) (pos : Nat), s.tileHdr r true = (u, true) →
    t = u.freeBlocks r.port 1 (pktBlocks { hdr := r.hdr, body := .ctrlReq seq 0x0001 (leBytes 1 pos) }) →
    (t.tl.ctlCache.find? fun e => e.1 == seq) = none → t.tl.ctlCache.length < 64 →
    exec (.enum r seq pos) s = .next (((t.setF CORD_TSTAT_POS_A pos).setPos).ctrlAnswer seq 0x0001 0 ((t.setF CORD_TSTAT_POS_A pos).setPos).enumData))

/-- The rows of the lamp correction and of the lamp board (R183 to R191, R228 to R239). -/
def Obligations.LampRows : Prop :=
  (∀ s : State, s.tile = false → exec .lampSweep s = .next (s.emit (.bus false 0)) ∧ (∀ v, exec (.lampBright v) s = .next (s.emit (.bus false 0))) ∧
    (∀ v, exec (.lampClke v) s = .next (s.emit (.bus false 0))) ∧ exec .sweepCommitTimeout s = .next s ∧ exec .genSwitchTimeout s = .next s ∧
    (∀ p v m e g x f, exec (.supplyVoteRx p v m e g x f) s = .next s) ∧ (∀ p t l v, exec (.tempReadingRx p t l v) s = .next s) ∧
    ∀ r, exec (.lampTempCycle r) s = .next s) ∧
  (∀ s : State, s.tile = true →
    (s.lamp.loading = none → exec .calLoadDone s = .next s) ∧
    (∀ c k, s.lamp.loading = some (c, k) → s.flag LAMP_STAT_LOADING = true → (s.sto.loads.any fun l => l.1 == 0) = false →
      s.lamp.cal = none → s.lamp.overdue = false → ∃ t : State, exec .calLoadDone s = .next t ∧ t.lamp.cal = some c ∧ t.lamp.loading = none ∧
        t.lamp.overlay = s.lamp.overlay ∧ t.seqs = s.seqs) ∧
    exec .lampSweep s = .next (s.genPending.emit (.bus false 0)) ∧
    exec .sweepCommitTimeout s = .next s.commit ∧
    (s.flag LAMP_STAT_GEN_PEND = false → exec .genSwitchTimeout s = .next s) ∧
    (s.flag LAMP_STAT_GEN_PEND = true → s.flag LAMP_STAT_LOADING = true →
      exec .genSwitchTimeout s = .next { s with lamp := { s.lamp with overdue := true } }) ∧
    (s.flag LAMP_STAT_GEN_PEND = true → s.flag LAMP_STAT_LOADING = false → exec .genSwitchTimeout s =
      .next (match s.tl.frame with | some f => s.frameClose f 2 0 | none => s).genSwitch) ∧
    (s.flag LAMP_STAT_LOADING = true ∨ s.staleBands = [] ∨ s.lamp.cal = none → exec .sweepDone s = .next s) ∧
    (∀ c ks t u, s.lamp.cal = some c → s.flag LAMP_STAT_LOADING = false → s.staleBands ≠ [] → s.tl.frame = none → ks = s.staleBands →
      t = ks.foldl (fun (u : State) k => u.storeBand c k (u.activeCodes c k)) s →
      u = (t.count LAMP_N_SWEEPS 1).setF LAMP_SWT_SWEEP_US ((t.wtb - t.lamp.sweepStart) / 64000) →
      exec .sweepDone s = .next { u with lamp := { u.lamp with swept := ks } }) ∧
    (∀ v, v < 0x8001 → s.flag LAMP_RAMP_ACTIVE = true → exec (.lampBright v) s = .next ((s.setF LAMP_RAMP_TARGET v).emit (.bus false 0))) ∧
    (∀ v, v < 0x8001 → s.flag LAMP_RAMP_ACTIVE = false → exec (.lampBright v) s = .next ((s.putBright v).emit (.bus false 0))) ∧
    (∀ v, 0x8000 < v → v < 0x10000 → exec (.lampBright v) s = .next (s.emit (.bus true 0))) ∧
    (∀ v t, s.flag NAND_STAT_ASH_FULL = false → s.clinkerEdit (bitsOf v.toNat 17 0) (bitsOf v.toNat 21 20) = some t →
      exec (.lampClke v) s = .next (t.clkWrite.emit (.bus false 0))) ∧
    (∀ v, s.flag NAND_STAT_ASH_FULL = true → exec (.lampClke v) s = .next (s.emit (.bus true 0))) ∧
    (s.flag LAMP_RAMP_ACTIVE = false ∨ s.brd.rampOn = false → exec .rampStep s = .next s) ∧
    (∀ n i t, s.flag LAMP_RAMP_ACTIVE = true → s.brd.rampOn = true → n = ceilDiv (s.getF LAMP_RAMP_RAMP_MS) 50 → i = s.brd.rampStep + 1 → i < n →
      t = (s.setF LAMP_BRIGHT_BRIGHT (roundDiv ((s.getF LAMP_RAMP_TARGET * i : Nat) : Int) n).toNat).genPending →
      exec .rampStep s = .next { t with brd := { t.brd with rampStep := i } }) ∧
    (∀ n, s.getF (LAMP_TSENS_SRC n) = 2 → exec (.tempRingTimeout n) s = .next ((s.setSensorBad n true).setFlag (LAMP_TSTAT_VALID n) false)) ∧
    (∀ n, s.getF (LAMP_TSENS_SRC n) ≠ 2 → exec (.tempRingTimeout n) s = .next s) ∧
    (∀ pos temps loc valid m, (∀ n, n < 4 → s.getF (LAMP_TSENS_SRC n) ≠ 2) →
      m = ({ pos := pos, temps := temps, loc := loc, valid := valid, at_ := s.wtb } : TempMsg) →
      exec (.tempReadingRx pos temps loc valid) s = .next { s with brd := { s.brd with ring := m :: s.brd.ring.filter fun x => x.pos != pos } }) ∧
    (∀ raws t, (∀ n, n < 4 → s.getF (LAMP_TSENS_SRC n) ≠ 1) → t = s.newTeff.raisePsqs 9 → t.localSensors = 0 →
      exec (.lampTempCycle raws) s = .next { t with brd := { t.brd with tempSeq := t.brd.tempSeq + 1 } }) ∧
    (∀ raws t u, t = (List.range 4).foldl (fun (u : State) n => if u.getF (LAMP_TSENS_SRC n) = 1 then u.readSensor n (raws.getD n none) else u) s →
      u = t.newTeff.raisePsqs 9 → u.localSensors ≠ 0 → ∃ b : RingBody,
      exec (.lampTempCycle raws) s = .next (State.ringSend { u with brd := { u.brd with tempSeq := u.brd.tempSeq + 1 } } 0xFF b)) ∧
    (∀ mode acks, ∃ (t u : State) (up : Nat), exec (.headroomWindowEnd mode acks) s = .next u ∧ t = evHeadroomWindowEnd mode acks s ∧ up ≤ 1 ∧
      t.brd.win = s.brd.win + 1 ∧ t.brd.hrFails = 0 ∧
      u = { t with age := { t.age with hrWins := t.age.hrWins + 1, hrUps := t.age.hrUps + up } }) ∧
    (∀ p v e g x f m, m = ({ pos := p, vote := v, pmbEn := e, vsag := g, fails := f, at_ := s.wtb } : VoteMsg) → ∀ t : State,
      t = { s with brd := { s.brd with votes := m :: s.brd.votes.filter fun x => x.pos != p } } →
      exec (.supplyVoteRx p v false e g x f) s = .next t ∧
      (t.flag LAMP_HRSTAT_MASTER = false → ∀ u, u = (t.newSetpoint x).setFlag LAMP_HRSTAT_SUP_STALE false →
        exec (.supplyVoteRx p v true e g x f) s = .next { u with brd := { u.brd with lastSet := some x, noSet := 0 } })))

/-- The rows of the in-service test (R245 to R258). -/
def Obligations.TestRows : Prop :=
  (∀ (s t : State) (r : CordRx) (d : List Byte), s.testHdr r d = (t, true) →
    (leAt d 6 1 = 1 → exec (.testOpArm r d) s = .next (t.armRun d)) ∧
    (leAt d 6 1 = 2 → exec (.testOpAbort r d) s = .next (t.abortRun (testRunid d))) ∧
    (leAt d 6 1 = 3 → exec (.testOpResend r d) s = .next
      ((t.test.held.filter fun f => f.runid.toNat == testRunid d).foldl (fun (u : State) f => (u.count TS_N_RESFRAG 1).sendUp (.testRes f)) t)) ∧
    (leAt d 6 1 = 0 ∨ 3 < leAt d 6 1 → exec (.testOpArm r d) s = .next (t.count TS_N_TESTERR 1) ∧
      exec (.testOpAbort r d) s = .next (t.count TS_N_TESTERR 1) ∧ exec (.testOpResend r d) s = .next (t.count TS_N_TESTERR 1))) ∧
  (∀ (s : State) (n : Nat) a, s.test.armed = some a → testRunid a.payload = n → s.test.win = none →
    ∃ t : State, s.abortRun n = State.testRegs t ∧ t.test.armed = none ∧ t.seqs = s.seqs) ∧
  (∀ s : State,
    (s.tl.slots = [] → exec .testWindowOpen s = .next s) ∧
    (∀ sl sls t u, s.Canon → s.tl.slots = sl :: sls → s.test.win = none → t = { s with tl := { s.tl with slots := [] } } →
      u = ((if t.tile = true then (t.count TS_N_SLOTS 1).raisePsqs 4 else if t.test.armed.isSome = true then t.raisePsqs 4 else t).testRegs).winClose false →
      (u.test.armed = none → exec .testWindowOpen s = .next (u.winOpen sl.1 none)) ∧
      (∀ a v, u.test.armed = some a → a.full = false → 0 < a.left → v = u.winOpen sl.1 (some a) →
        exec .testWindowOpen s =
          .next (State.testRegs { v with test := { v.test with armed := some { a with left := a.left - 1, slotno := a.slotno + 1 } } }))) ∧
    (s.fullWin = none → exec .testWindowClose s = .next (s.winClose false) ∧ exec .fullTestPoll s = .next s ∧ exec .fullTestLimit s = .next s) ∧
    (∀ a, s.fullWin = some a → exec .testWindowClose s = .next s ∧ exec .fullTestLimit s = .next (s.winClose false) ∧
      ((∀ n, n ∈ s.runBanks a.payload → s.mailState n = 2 ∨ s.mailState n = 3) → exec .fullTestPoll s = .next (s.winClose false)) ∧
      (∀ n, n ∈ s.runBanks a.payload → s.mailState n ≠ 2 → s.mailState n ≠ 3 → exec .fullTestPoll s = .next s)) ∧
    (∀ r f t, s.senderUp r (.testRes f) = (t, true) → exec (.testResRx r f) s = .next (t.testTake r.port r.hdr.src f)) ∧
    (s.test.run = none → exec .testCollectTimeout s = .next s ∧ exec .runTimeout s = .next s) ∧
    (∀ r ks t, s.test.run = some r → ks = r.due.filter (fun k => !r.evd.contains k) →
      (ks = [] → exec .testCollectTimeout s = .next s) ∧
      (ks ≠ [] → t = State.raiseFsq { s with test := { s.test with run := some { r with evd := r.evd ++ ks } } } 8 →
        exec .testCollectTimeout s = .next ((r.sites.filter fun x => r.due.any fun k => !x.settled k).foldl (fun (u : State) x => u.testAsk r x) t))) ∧
    (∀ r, s.test.run = some r → r.full = false → r.slot < testSlots r.payload → exec .runTimeout s = .next (s.testEnd 0x0304)) ∧
    (∀ r, s.test.run = some r → r.full = true ∨ testSlots r.payload ≤ r.slot → exec .runTimeout s = .next s))

/-- The rows of claims, the ring and the mirror (R291 to R312, R492). -/
def Obligations.ClaimRows : Prop :=
  ∀ s : State,
    (s.member = true → s.refActs = false → s.flag CLM_CFG_EXTREF = false → ∀ t, t = (s.healthReg.ringSend 0xFF (.heartbeat s.ownHb)) →
      t.flag CLM_CFG_EXTREF = false → t.swapAuto.refActs = false → exec .heartbeatTimer s = .next t.swapAuto) ∧
    (s.refActs = true → exec .heartbeatTimer s = .next (s.ringSend 0xFF (.heartbeat s.refHbOut))) ∧
    (s.member = false → s.refActs = false → exec .heartbeatTimer s = .next s) ∧
    (∀ b, s.member = true → exec (.heartbeatTimeout b) s =
      .next ((s.count CLM_N_HB_MISS 1).setFlag (if b then CLM_STAT_REF_OK else CLM_STAT_PARTNER_OK) false).settle) ∧
    (∀ b, s.member = false → exec (.heartbeatTimeout b) s = .next s.settle) ∧
    (∀ h, s.refActs = false → s.member = true →
      (h.state = 5 → s.extDrop = false → exec (.heartbeatRx h) s = .next (s.refHbHeard h).settle) ∧
      (h.state = 5 → s.extDrop = true → exec (.heartbeatRx h) s = .next (s.count CLM_N_EXTDROP 1).settle) ∧
      (h.state ≠ 5 → h.pos = s.partnerPos → exec (.heartbeatRx h) s = .next (s.healthReg.partHbHeard h).settle)) ∧
    (∀ rs, s.refActs = false → exec (.refereeEvaluation rs) s = .next s.settle) ∧
    (∀ rs t, s.refActs = true → t = (s.refInbox rs).refQuiet → t.clm.started = true → exec (.refereeEvaluation rs) s =
      .next (((swapOrder t.clm.inbox).foldl State.refSwap { t with clm := { t.clm with inbox := [] } }).refLoss).settle) ∧
    (s.refActs = true → s.clm.started = false → s.clm.firstHb ≠ none → exec .refereeStartupWait s = .next s.refStart.settle) ∧
    (s.clm.started = true → exec .refereeStartupWait s = .next s.settle) ∧
    (∀ c h, s.extDrop = false → exec (.grantRx c h) s = .next (s.grantHeard c h).settle) ∧
    (∀ c h, s.extDrop = true → exec (.grantRx c h) s = .next (s.count CLM_N_EXTDROP 1).settle) ∧
    (∀ c st n, s.member = true → s.extDrop = false → exec (.swapRspRx c st n) s = .next (s.swapAnswered c st n).settle) ∧
    (s.clm.swapOut = [] → exec .swapReqRetry s = .next s.settle) ∧
    (∀ r r' q, s.clm.swapOut = r :: q → r.tries < 8 → r' = { r with tries := r.tries + 1 } →
      exec .swapReqRetry s = .next (State.swapSend { s with clm := { s.clm with swapOut := q ++ [r'] } } r').settle) ∧
    (∀ r q, s.clm.swapOut = r :: q → 8 ≤ r.tries → r.wcp = none →
      exec .swapReqRetry s = .next (State.settle { s with clm := { s.clm with swapOut := q } })) ∧
    (s.member = false ∨ s.flag CLM_STAT_REF_OK = false → exec .clmSwapReq s = .next (s.emit (.bus true 0))) ∧
    (s.member = true → s.flag CLM_STAT_REF_OK = true → exec .clmSwapReq s = .next ((s.swapRequest 0x80 none).emit (.bus false 0))) ∧
    (∀ g it b, s.member = false ∨ (s.clmState ≠ 1 ∧ s.clmState ≠ 2) → exec (.mirrorRx g it b) s = .next s) ∧
    (∀ (g : Word) (it : MirrorItem) (t u : State), s.member = true → s.clmState = 1 ∨ s.clmState = 2 → t = s.takeItem it →
      u = { t with clm := { t.clm with mirror := t.clm.mirror.map (fun g => g.put (itemNo it) it), mirrorNew := if t.clm.mirror.isSome then t.clm.mirrorNew else t.clm.mirrorNew.put (itemNo it) it } } →
      exec (.mirrorRx g it false) s = .next ((u.setReg CLM_MGEN g).ringSend s.partnerPos (.mirrorAck g (itemNo it)))) ∧
    (∀ g n, s.clm.bulk = false → exec (.mirrorAckRx g n) s =
      .next (State.mirrorRelease { s with clm := { s.clm with toAck := s.clm.toAck.filter fun a => !(a.1 == g && a.2 == n) } }).settle) ∧
    (s.clm.toAck = [] → exec .mirrorAckTimeout s = .next s.settle) ∧
    (∀ t, s.clm.toAck ≠ [] → s.clm.bulk = false → t = ((s.setFlag CLM_STAT_MIRROR_LOST true).count CLM_N_MIRROR_LOST 1).event 0x0011 [] .owner →
      t.clm.bulk = false → exec .mirrorAckTimeout s =
        .next (State.startBulk (State.mirrorRelease { t with clm := { t.clm with toAck := [], bulk := false } })).settle) ∧
    (∀ p k, s.tile = false → p < 8 → s.flag (CORD_PCFG_RELAY p) = true → s.linkUp p = true → exec (.relayRx p 0 k) s = .next (s.send p k).settle) ∧
    (∀ p k, s.tile = false → p < 8 → s.flag (CORD_PCFG_RELAY p) = false ∨ s.linkUp p = false → exec (.relayRx p 0 k) s = .next s.settle) ∧
    (∀ p k a t, s.tile = false → p < 8 → k.body = .ack a → t = s.sawClaim k.hdr.claim → t.active = true → t.relayOn p = true →
      (t.claim.toNat ≤ k.hdr.claim.toNat → exec (.relayRx p 1 k) s = .next (t.ackTake p k.hdr.src a).settle) ∧
      (k.hdr.claim.toNat < t.claim.toNat → exec (.relayRx p 1 k) s = .next (t.count (CORD_N_STALE p) 1).settle)) ∧
    (s.fw.kindled ≠ none → s.flag RING_STAT_RING_POS_DUP = false → exec .ringHelloTimer s = .next (s.ringSend 0xFF (.hello s.ownHello))) ∧
    (s.fw.kindled = none ∨ s.flag RING_STAT_RING_POS_DUP = true → exec .ringHelloTimer s = .next s) ∧
    (∀ h known dup t, h.pos ≠ s.getF RING_STAT_POS → h.referee = false → known = SMap.get (fun _ => 0) s.cord.ringTids h.pos →
      dup = (known != 0 && known != h.tid + 1) → t = { s with cord := { s.cord with ringTids := SMap.set (fun _ => 0) s.cord.ringTids h.pos (h.tid + 1), ringDup := if dup then s.cord.ringDup ||| 2 ^ h.pos else s.cord.ringDup } } →
      exec (.ringHelloRx h) s = .next t.ringMembers) ∧
    (s.linkUp 8 = true → s.linkUp 9 = true → exec .ringFormStable s = .next (s.ringForm false)) ∧
    (s.linkUp 8 = false ∨ s.linkUp 9 = false → exec .ringFormStable s = .next s) ∧
    (s.fw.kindled ≠ none → exec .ringFormTimeout s = .next (s.ringForm true)) ∧ (s.fw.kindled = none → exec .ringFormTimeout s = .next s)

/-- Hearth, proof of play and the store (R329 to R342, R351 to R359, R372 to R392). -/
def Obligations.HearthPopAndStoreRows : Prop :=
  (∀ (s t : State) (spi : Bool) (port : Nat), t = s.spiTake spi →
    (∀ a b c d, t.servesDtls spi port = false ∨ 4 ≤ t.hea.shakes.length → exec (.dtlsClientHello spi port a b c d) s = .next t) ∧
    (t.servesDtls spi port = true → t.hea.shakes.length < 4 →
      (∀ a b c d, c = false ∨ d = false → exec (.dtlsClientHello spi port a b c d) s = .next (t.sessOut spi (.dtls spi port .handshakeFailure))) ∧
      (∀ a b, a = false ∨ b = false → exec (.dtlsClientHello spi port a b true true) s = .next (t.sessOut spi (.dtls spi port .helloRetry))) ∧
      exec (.dtlsClientHello spi port true true true true) s =
        .next ((State.sessRegs { t with hea := { t.hea with shakes := t.hea.shakes ++ [(spi, port)] } }).sessOut spi (.dtls spi port .serverFlight))) ∧
    (∀ leaf p, t.hea.shakes.contains (spi, port) = false → exec (.clientCertificate spi port leaf p) s = .next t) ∧
    (∀ leaf u, t.hea.shakes.contains (spi, port) = true → u = { t with hea := { t.hea with shakes := t.hea.shakes.erase (spi, port) } } →
      exec (.clientCertificate spi port leaf false) s = .next ((((u.sessRegs.count HEARTH_N_AUTHFAIL_SESS 1).secLog 0x0003
        (leBytes 4 0xFF ++ (Config.sha384 leaf).take 4)).sessOut spi (.dtls spi port .refused))) ∧
      (∀ w, u.leafInTime leaf = true → u.admits spi leaf = some w → w ≠ 0xFE → (u.sessions.filter fun x => x.tenant != 0xFE).length < 16 →
        ∃ v : State, exec (.clientCertificate spi port leaf true) s = .next (v.sessOut spi (.dtls spi port .accepted)) ∧
          v.hea.nextSess = u.hea.nextSess + 1 ∧ ∃ x : Session, v.sessions = u.sessions ++ [x] ∧ x.id = u.hea.nextSess ∧ x.tenant = w ∧
            x.spi = spi ∧ x.port = port ∧ x.cache = [] ∧ x.last = u.life))) ∧
  (∀ (s : State) (id : Nat),
    ((s.sessions.find? fun x => x.id == id) = none → exec (.dtlsKeyUpdate id) s = .next s) ∧
    (∀ x xs, (s.sessions.find? fun x => x.id == id) = some x →
      xs = s.sessions.map (fun y => if y.id = id then { y with last := s.life, rxRec := y.rxRec + 1 } else y) →
      exec (.dtlsKeyUpdate id) s = .next (State.sessOut { s with sessions := xs } x.spi (.dtls x.spi x.port .keyUpdate))) ∧
    (∃ t : State, exec (.sessionIdleTimeout id) s = .next t ∧ t.sessions = s.sessions.filter (fun x => !(x.id == id)) ∧ t.hea = s.hea) ∧
    (∃ t : State, exec .nonceReq s = .next t ∧ ∃ bs : List Byte, t.hea.nonce = some (bs, s.life) ∧ bs.length = 32) ∧
    (∃ t : State, exec .nonceExpiry s = .next t ∧ t.hea = { s.hea with nonce := none } ∧ t.sessions = s.sessions) ∧
    (s.hea.target = none → exec .fuseStepDone s = .next s) ∧
    (∀ v o, s.hea.target = some (v, o) → ∃ t : State, exec .fuseStepDone s = .next t ∧
      t.hea.fuses = s.hea.fuses ||| BitVec.ofNat 64 (2 ^ fusedOf s.hea.fuses) ∧ (fusedOf s.hea.fuses + 1 < v → t.hea.target = some (v, o)) ∧
      (v ≤ fusedOf s.hea.fuses + 1 → t.hea.target = none)) ∧
    (s.tile = true ∨ s.pop.boff = none → exec .boffEval s = .next s) ∧
    (∀ b, s.tile = false → s.pop.boff = some b → (s.ntoff - b).natAbs ≤ 1000000 ∨ s.netValid = false →
      ∃ t : State, exec .boffEval s = .next t ∧ t = { s with regs := t.regs }) ∧
    (∀ b, s.tile = false → s.pop.boff = some b → s.netValid = true → 1000000 < (s.ntoff - b) → s.ntoff - b ≤ (s.getF POP_CLK_LIM : Int) * 1000000 →
      s.Canon → ∃ t : State, exec .boffEval s = .next t ∧ t.pop = { s.pop with boff := some (b + (s.getF POP_CLK_SLEW : Int)) } ∧ t.flag POP_STAT_SLEWING = true) ∧
    ((s.comp.frames.reverse.find? fun f => f.present.isNone && f.next.isSome && !f.popDone) = none → exec .popFrameEvalTimeout s = .next s) ∧
    (∀ f, (s.comp.frames.reverse.find? fun f => f.present.isNone && f.next.isSome && !f.popDone) = some f →
      exec .popFrameEvalTimeout s = .next (s.popEval f.fcnt)) ∧
    (s.tile = true → exec .popCheckpoint s = .next s ∧ exec .popCkpt s = .next (s.emit (.bus false 0))) ∧
    (s.tile = false → s.paused = false → exec .popCheckpoint s = .next s.popCheckpoint) ∧
    (s.tile = false → exec .popCkpt s = .next (s.popCheckpoint.emit (.bus false 0))) ∧
    (s.tile = false → s.paused = true → exec .popCheckpoint s = .next { s with pwr := { s.pwr with dueWrites := true } })) ∧
  (∀ s : State,
    (s.sto.op = none → (∀ a b, exec (.nandEraseDone a b) s = .next s.stagePump.settle) ∧ (∀ a, exec (.nandProgramDone a) s = .next s.stagePump.settle) ∧
      ∀ x, exec (.nandReadDone x) s = .next s.settle) ∧
    (∀ b, s.sto.op = some (.header b) → exec (.nandProgramDone false) s = .next ((((s.opEnd.retire b).nandRegs).nandKick).stagePump.settle) ∧
      exec (.nandProgramDone true) s =
        .next (((((s.opEnd.setBlk b { (s.opEnd.blk b) with hdr := true }).count NAND_N_PROGRAMS 1).nandRegs).nandKick).stagePump.settle)) ∧
    (∀ b h t u, s.sto.op = some (.erase b h) → t = s.opEnd → u = State.journalDrop { t with sto := { t.sto with intent := none } } 0x01 b →
      ∀ bl, exec (.nandEraseDone false bl) s = .next ((((u.setBlk b { (u.blk b) with blank := false }).retire b).nandKick).stagePump.settle)) ∧
    (∀ o a x, s.sto.op = some o → s.readAt o = some a → (∃ b p, o = .scrub b p ∧ a = (b, p)) →
      ∃ t : State, exec (.nandReadDone x) s = .next ((t.nandRegs.scrubHot.nandKick).stagePump.settle) ∧
        t = (s.opEnd.readCounts a.1 x).scrubDone a.1 a.2 x) ∧
    (s.tile = true ∨ (s.active = false ∧ s.clm.mirror = none) → exec .cfgSlotWrite s = .next s) ∧
    (∀ g, s.tile = false → (s.active = true ∧ g = s.cfgGen ∨ s.active = false ∧ s.clm.mirror = some g) →
      exec .cfgSlotWrite s = .next (s.slotWrite 3 (s.idleCopy 3) [] (some g) true none .none).1) ∧
    exec .nandPaceTick s = .next ((State.nandKick { s with sto := { s.sto with paceOk := true, scrubReq := s.sto.scrubReq || s.sto.scrubNow } }).stagePump.settle) ∧
    (∀ t, t = (if s.sto.scrubPass.isNone = true then s.scrubOpen false else s) →
      exec .scrubTick s = .next ((State.nandKick { t with sto := { t.sto with scrubReq := true } }).stagePump.settle)) ∧
    (∀ t, t = s.scrubOpen true → exec .nandScrubNow s =
      .next (((State.nandKick { t with sto := { t.sto with scrubReq := true } }).emit (.bus false 0)).stagePump.settle)) ∧
    (∀ ok, (s.sto.writes.find? fun w => w.qspi) = none → exec (.qspiWriteDone ok) s = .next s.nandKick.settle) ∧
    (∀ w, (s.sto.writes.find? fun w => w.qspi) = some w → ((s.putWrite { w with qver := false }).nandKick.sto.writes.any fun x => x.kind == w.kind) = true →
      exec (.qspiWriteDone false) s = .next ((s.putWrite { w with qver := false }).nandKick.settle)))

/-- Lanes, the Kiln, ageing, firmware and staging rows. -/
def Obligations.LaneKilnAndFirmwareRows : Prop :=
  (∀ (s : State) (l : Nat),
    (∀ w, s.regAccepts s.bankRuns (LANE_ESCAN_CFG l) w = false → exec (.escanStart l w) s = .next (s.emit (.bus true 0))) ∧
    (∀ w t, s.regAccepts s.bankRuns (LANE_ESCAN_CFG l) w = true →
      t = ((s.plainWrite (LANE_ESCAN_CFG l) w).setFlag (LANE_ESCAN_STAT_NOLINK l) false).setFlag (LANE_ESCAN_STAT_TIMEOUT l) false →
      (t.getF (LANE_LSTAT_RXST l) = 0 → exec (.escanStart l w) s =
        .next ((((t.setScan l none).scanEnd l).setFlag (LANE_ESCAN_STAT_NOLINK l) true).emit (.bus false 0))) ∧
      (t.getF (LANE_LSTAT_RXST l) ≠ 0 → ∀ x, x = ({ margin := t.flag (LANE_ESCAN_CFG_MODE l), dir := 0, step := 1 } : Scan) →
        exec (.escanStart l w) s = .next (((State.scanPoint (t.setReg (LANE_MARGIN l) 0) l x).setFlag (LANE_ESCAN_STAT_BUSY l) true).emit (.bus false 0)))) ∧
    exec (.escanAbort l) s =
      .next ((((s.setScan l none).setFlag (LANE_ESCAN_STAT_BUSY l) false).setFlag (LANE_ESCAN_STAT_WAITKILN l) false).emit (.bus false 0)) ∧
    (s.scan l = none → exec (.escanTimeout l) s = .next s ∧ ∀ n, exec (.escanPointDone l n) s = .next s) ∧
    (∀ x, s.scan l = some x → exec (.escanTimeout l) s = .next ((s.scanEnd l).setFlag (LANE_ESCAN_STAT_TIMEOUT l) true) ∧
      ∀ e n t, n = 2 ^ s.getF (LANE_ESCAN_CFG_DWELL l) → t = ((s.setReg (LANE_ERRCNT l) (BitVec.ofNat 32 (min e 0xFFFFFFFF))).setReg
          (LANE_BITCNT_LO l) (BitVec.ofNat 32 n)).setF (LANE_BITCNT_HI_B l) (n / 2 ^ 32) →
        (x.margin = false → exec (.escanPointDone l e) s = .next (t.scanEnd l)) ∧
        (x.margin = true → e ≤ s.getF (LANE_ESCAN_LIM_ERRLIM l) → x.step < marginMax x.dir →
          exec (.escanPointDone l e) s = .next (t.scanPoint l { x with step := x.step + 1 })) ∧
        (x.margin = true → s.getF (LANE_ESCAN_LIM_ERRLIM l) < e → x.dir < 3 → exec (.escanPointDone l e) s =
          .next ((t.setF (marginF l x.dir) (x.step - 1)).scanPoint l { x with dir := x.dir + 1, step := 1 })))) ∧
  (∀ (s : State) (p : Nat),
    (p ≤ 9 → s.flag (LANE_SLEEP_EN p) = true → s.txst p = 1 → exec (.laneTxSleep p) s = .next ((s.emit (.quiet p)).setLanes p LANE_LSTAT_TXST 3)) ∧
    (9 < p ∨ s.flag (LANE_SLEEP_EN p) = false ∨ s.txst p ≠ 1 → exec (.laneTxSleep p) s = .next s) ∧
    exec (.laneScheduledWake p) s = .next (s.txWake p) ∧ exec (.laneKeepaliveWake p) s = .next (s.txWake p) ∧
    (s.txst p = 2 → exec (.laneWakeDone p) s = .next (((s.setLanes p LANE_LSTAT_TXST 1).pump p 0).pump p 1)) ∧
    (s.txst p ≠ 2 → exec (.laneWakeDone p) s = .next s) ∧
    (s.rxst p = 1 → exec (.laneRxSleep p) s = .next (s.setLanes p LANE_LSTAT_RXST 2)) ∧ (s.rxst p ≠ 1 → exec (.laneRxSleep p) s = .next s) ∧
    (2 ≤ s.rxst p → exec (.laneRxRelock p) s = .next ((s.setLanes p LANE_LSTAT_RXST 1).countLanes p LANE_N_RXRELOCK) ∧
      exec (.relockfail p) s = .next ((evLinkLost p (s.countLanes p LANE_N_RELOCKFAIL)).laneSync p) ∧
      exec (.laneSleepTimeout p) s = .next ((evLinkLost p s).laneSync p)) ∧
    (s.rxst p < 2 → exec (.laneRxRelock p) s = .next s ∧ exec (.relockfail p) s = .next s ∧ exec (.laneSleepTimeout p) s = .next s)) ∧
  (∀ s : State,
    exec .kilnRunStart s = .next s.kilnTrigger ∧ exec .kilnRun s = .next (s.kilnTrigger.emit (.bus false 0)) ∧
    (s.kiln.run = none → exec .kilnRunTimeout s = .next s ∧ ∀ m, exec (.kilnMeasurementDone m) s = .next s) ∧
    (∀ r, s.kiln.run = some r → exec .kilnRunTimeout s = .next ((s.count KILN_N_SKIPPED (kilnLeft r.cls r.idx)).kilnEnd) ∧
      exec (.kilnMeasurementDone .skipped) s = .next ((s.count KILN_N_SKIPPED 1).kilnGo r) ∧
      ∀ a b, s.kilnCan r.cls r.idx = true → exec (.kilnMeasurementDone (.pair a b false)) s = .next ((s.kilnResult r a b).kilnGo r) ∧
        exec (.kilnMeasurementDone (.pair a b true)) s = .next s) ∧
    (∀ tc k (f : Int), tc = clampInt (-320) 1600 s.dieT → k = min 3 ((tc + 320).toNat / 480) → f = tc + 320 - 480 * k →
      ∃ t : State, exec .kilnTargetUpdate s = .next t ∧ t = { s with kiln := { s.kiln with targets := t.kiln.targets } } ∧
        t.kiln.targets = kilnTargets.foldl (fun m x => SMap.set (fun _ => none) m x
          (some (s.setVal k x + roundDiv ((s.setVal (k + 1) x - s.setVal k x) * f) 480))) s.kiln.targets) ∧
    (∃ t : State, exec .kilnTrimStep s = .next t ∧ t = { s with kiln := { s.kiln with applied := t.kiln.applied } } ∧
      t.kiln.applied = kilnTargets.foldl (fun m x => SMap.set (fun _ => none) m x (some (oneCode (s.kilnApplied x) (s.kilnTarget x)))) s.kiln.applied) ∧
    (∀ ds, s.Canon → ∃ t : State, exec (.ageingMeasure ds) s = .next t ∧ t = { s with regs := t.regs } ∧
      ∀ m d, m < 16 → ds.getD m none = some d → d.natAbs ≤ 20000 → t.flag (AGE_MON_VALID m) = true ∧ t.getF (AGE_MON_DEG m) = unsigned 16 d) ∧
    (∀ l a b c d, SMap.get (fun _ => none) s.age.lanes l = none → exec (.laneMarginScan l a b c d) s =
      .next { s with age := { s.age with lanes := SMap.set (fun _ => none) s.age.lanes l (some (min a b, min c d)) } }) ∧
    (∀ l a b c d x, SMap.get (fun _ => none) s.age.lanes l = some x → exec (.laneMarginScan l a b c d) s =
      .next { s with age := { s.age with lanes := SMap.set (fun _ => none) s.age.lanes l (some (min x.1 (min a b), min x.2 (min c d))) } }) ∧
    (∀ ds, exec (.pinDriftMeasure ds) s =
      .next { s with age := { s.age with drift := ds.foldl (fun m d => SMap.set (fun _ => (0 : Int)) m (d.1 % 256) d.2) s.age.drift } }) ∧
    (s.tile = false → exec .eqhUpdate s = .next s) ∧
    (∀ n e, s.tile = true → n < 8 → s.flag (PIN_BSTAT_SAFE n) = false → e = s.age.eqh + s.getF LAMP_K_K * Config.exp2 (s.teff - 640) / 32768 →
      exec .eqhUpdate s = .next (State.setReg { s with age := { s.age with eqh := e } } AGE_EQH (BitVec.ofNat 32 (min 0xFFFFFFFF (e / (360 * 2 ^ 32)))))) ∧
    (∀ a, exec (.marginPlan a) s = .next (s.planDue a) ∧ exec (.planNow a) s = .next ((s.planDue a).emit (.bus false 0))) ∧
    (∀ a, s.age.avs = none → exec (.avsRetry a) s = .next s) ∧ (∀ a mv, s.age.avs = some mv → exec (.avsRetry a) s = .next (s.avsWrite mv a)) ∧
    (s.flag FW_STAT_TRIAL = false → exec .firmwareFault s = .next s) ∧
    (s.flag FW_STAT_TRIAL = true → ∀ (p : Nat) (t : State), p = s.fw.prev →
      t = (State.pauseBegin { s with fw := { s.fw with actWait := none } } p (SMap.get (fun _ => []) s.sto.qspi (2 + p))).setFlag FW_STAT_TRIAL false →
      exec .firmwareFault s = .next (((t.setFlag FW_STAT_REVERTED true).count FW_N_REVERTS 1).event 0x000D [] .owner)) ∧
    exec .fwCommit s = .next (s.fwCommit.emit (.bus false 0)) ∧ exec .fwCtrlAbandon s = .next (s.fwRevert.emit (.bus false 0)) ∧
    (s.fw.actWait = some 1 → exec .fwTrialTimeout s = .next s) ∧ (s.fw.actWait ≠ some 1 → exec .fwTrialTimeout s = .next s.fwRevert) ∧
    (s.fw.pause = false → exec .activationPauseEnd s = .next s) ∧
    (s.fw.pause = true → exec .activationPauseEnd s = .next (State.stokerBack { s with fw := { s.fw with pause := false } }).settle) ∧
    (s.stage = none → exec .stageConfirmDeadline s = .next s.testStaged ∧ exec .stageArmDeadline s = .next s.testStaged ∧
      exec .stageVerify s = .next s.testStaged) ∧
    (∀ g, s.stage = some g →
      (g.phase = 0 → (g.tiles.all fun x => x.confirmed) = false → exec .stageConfirmDeadline s = .next s.stageCancel.testStaged) ∧
      (∀ n t, g.phase = 0 → (g.tiles.all fun x => x.confirmed) = true → n = (if g.kind = 2 then 2 else 1) → t = { s with stage := some { g with phase := n } } →
        exec .stageConfirmDeadline s = .next (State.testStaged
          (State.stageRegs (g.tiles.foldl (fun (u : State) x => u.ctrlSend x.port x.pos 0x0043 (leBytes 5 g.frame) none) t) n))) ∧
      (g.phase = 1 → (g.tiles.all fun x => x.armed) = true →
        exec .stageArmDeadline s = .next (State.stageRegs { s with stage := some { g with phase := 2 } } 2).testStaged) ∧
      (g.phase = 1 → (g.tiles.all fun x => x.armed) = false → exec .stageArmDeadline s = .next s.stageCancel.testStaged) ∧
      (g.phase = 3 → g.kind = 2 → exec .stageVerify s =
        .next ((State.count { s with stage := none } FW_N_STG_DONE 1).stageReport g 0).testStaged) ∧
      (3 ≤ g.phase → g.kind ≠ 2 → exec .stageVerify s = .next
        ((g.tiles.filter fun x => !x.ok).foldl (fun (u : State) x => u.ctrlSend x.port x.pos 0x0003 [] none) s).testStaged)))

/-- The JTAG, debug and trace rows (R547 to R557). -/
def Obligations.JtagDebugAndTraceRows : Prop :=
  (∀ (s : State) (b : Nat),
    exec .tapReset s = .next { s with jtag := 1 } ∧ exec .idcode s = .next (State.emit { s with jtag := 1 } (.jtag 0x172969AB)) ∧
    exec .bypass s = .next (State.emit { s with jtag := 0xFF } (.jtag 0)) ∧
    (s.scope 0 = false → ∀ i ∈ [Instr.samplePreload b, .extest b, .clamp, .highz], exec i s = .next (State.emit { s with jtag := 0xFF } (.jtag 0))) ∧
    (s.scope 0 = true → exec (.samplePreload b) s = .next (State.emit { s with jtag := 2 } (.jtag b)) ∧
      exec .highz s = .next (State.emit { s with jtag := 5 } (.jtag 0)) ∧
      (s.allSafe = true → exec (.extest b) s = .next (State.emit { s with jtag := 3 } (.jtag b)) ∧
        exec .clamp s = .next (State.emit { s with jtag := 4 } (.jtag 0))) ∧
      (s.allSafe = false → ∀ i ∈ [Instr.extest b, .clamp], ∀ t, t = s.count TRACE_N_EXTEST_REFUSED 1 →
        exec i s = .next (State.emit { t with jtag := 0xFF } (.jtag 0))))) ∧
  (∀ (s : State) (w : Bool) (a n : Nat) (d : List Byte) (c : RegCtx),
    (s.scope 1 = false → s.scope 2 = false →
      exec (.dbgap w a d n c) s = .next (State.emit { s with jtag := 0xFF } (.bus true 0)).settle) ∧
    (s.scope 1 = true ∨ s.scope 2 = true → ∀ t : State, t = { s with jtag := 0x10 } →
      (0xF0020000 ≤ a → a < 0xF0030000 → exec (.dbgap w a d n c) s = .next (t.emit (.bus true 0)).settle) ∧
      (∀ x, 0xF0000000 ≤ a → a < 0xF01C0000 → a < 0xF0020000 ∨ 0xF0030000 ≤ a → d.length = 4 →
        x = t.regWrite (a - 0xF0000000) (BitVec.ofNat 32 (leNat d)) c → exec (.dbgap true a d 4 c) s = .next (x.1.emit (.bus (!x.2) 0)).settle) ∧
      (0x10000000 ≤ a → a < 0x10000000 + sramSize → d.length = n →
        exec (.dbgap true a d n c) s = .next (State.emit { t with sram := SMap.setList sramFill t.sram (a - 0x10000000) d } (.bus false 0)).settle ∧
        exec (.dbgap false a d n c) s = .next (t.emit (.bus false (leNat (SMap.getList sramFill t.sram (a - 0x10000000) n)))).settle))) ∧
  (∀ (s : State) (on ue : Bool) (m : Nat), s.Canon → s.paused = false →
    (s.scope 1 = false →
      exec .stkStep s = .next ((s.lockViol TRACE_HALT (s.haltNow ||| 2)).emit (.bus true 0)) ∧
      (s.flag TRACE_HALT_STK_HALT = false → exec (.stkHalt true) s =
        .next ((s.lockViol TRACE_HALT (BitVec.ofNat 32 (1 + 4 * s.getF TRACE_HALT_FSQ_HALT))).emit (.bus true 0)).settle)) ∧
    (s.scope 1 = true →
      exec .stkStep s = .next (s.emit (.bus false 0)) ∧
      ∃ t : State, exec (.stkHalt true) s = .next t ∧ t.flag TRACE_HALT_STK_HALT = true ∧ t.paused = true ∧ t.seqs = s.seqs ∧ t.comp = s.comp) ∧
    (s.scope 2 = false →
      exec (.fsqStep ue) s = .next ((s.lockViol TRACE_HALT (s.haltNow ||| 8)).emit (.bus true 0)) ∧
      (s.flag TRACE_HALT_FSQ_HALT = !on → exec (.fsqHalt on) s =
        .next ((s.lockViol TRACE_HALT (BitVec.ofNat 32 (if on then 4 else 0))).emit (.bus true 0))) ∧
      (m % 256 ≠ 0 → exec (.psqHalt m) s =
        .next ((s.lockViol TRACE_HALT (s.haltNow ||| BitVec.ofNat 32 (m % 256 * 16))).emit (.bus true 0)))) ∧
    (s.scope 2 = true →
      exec (.fsqStep ue) s = .next ((s.fsqStep ue).emit (.bus false 0)) ∧
      (∃ t : State, exec (.fsqHalt on) s = .next t ∧ t.flag TRACE_HALT_FSQ_HALT = on ∧ t.seqs = s.seqs ∧ t.comp = s.comp) ∧
      exec (.psqHalt m) s = .next (((List.range 8).foldl (fun (u : State) n => if m.testBit n then u.psqStop n else u) s).emit (.bus false 0)))) ∧
  (∀ (s : State) (ue : Bool), (s.seqRuns .fsq = false ∨ s.flag TRACE_HALT_FSQ_HALT = false ∨ s.comp.backlog ≠ [] → s.fsqStep ue = s) ∧
    (∀ w, s.seqRuns .fsq = true → s.flag TRACE_HALT_FSQ_HALT = true → s.comp.backlog = [] →
      w = SMap.get progFill (s.seq 8).prog (s.seq 8).pc.toNat → s.fsqStep ue = s.issueWord .fsq w ue (effFsq (wOp w)))) ∧
  (∀ s : State, s.Canon → s.paused = true → s.fw.pause = false → s.scope 1 = true → ∀ t : State, t = s.setF TRACE_HALT_STK_HALT 0 →
    exec (.stkHalt false) s = .next (t.stokerBack.emit (.bus false 0)).settle) ∧
  (∀ (s : State) (v : Word),
    (s.flag TRACE_CTRL_STK_EN = true → exec (.traceSwmsg v) s = .next ((s.trace64 0 3 v).emit (.bus false 0))) ∧
    (s.flag TRACE_CTRL_STK_EN = false → exec (.traceSwmsg v) s = .next (s.emit (.bus false 0))) ∧
    (∀ a b : Bool, s.Canon → s.getF TRACE_CTRL_CLEAR = 0 → s.getF TRACE_CTRL_CLRCNT = 0 → ∃ t : State, exec (.traceEnable a b) s = .next t ∧
      t.flag TRACE_CTRL_STK_EN = a ∧ t.flag TRACE_CTRL_SEQ_EN = b ∧ t.flag TRACE_CTRL_MODE = s.flag TRACE_CTRL_MODE ∧ t.seqs = s.seqs ∧
      ((a = true → s.flag TRACE_CTRL_STK_EN = true) → (b = true → s.flag TRACE_CTRL_SEQ_EN = true) → t.trace = s.trace)) ∧
    (s.scope 3 = false → exec .traceClear s = .next (s.emit (.bus true 0)) ∧ ∀ h, exec (.traceRdataRead h) s = .next (s.emit (.bus true 0))) ∧
    (s.scope 3 = true → s.Canon →
      (s.getF TRACE_CTRL_CLRCNT = 0 → ∃ t : State, exec .traceClear s = .next t ∧ t.trace = [] ∧ t.getF TRACE_WPTR_PTR = 0 ∧
        t.flag TRACE_STAT_WRAPPED = false ∧ t.flag TRACE_STAT_FULL = false ∧ t.flag TRACE_STAT_RETAINED = false ∧ t.seqs = s.seqs) ∧
      (∀ e, e = SMap.get (fun _ => (0 : BitVec 64)) s.trace (s.getF TRACE_RADDR_ADDR) →
        exec (.traceRdataRead false) s = .next (State.emit { s with latch := SMap.set (fun _ => (0 : Word)) s.latch TRACE_RDATA_HI (e.extractLsb' 32 32) }
          (.bus false (e.extractLsb' 0 32).toNat))) ∧
      exec (.traceRdataRead true) s = .next ((s.setF TRACE_RADDR_ADDR (s.getF TRACE_RADDR_ADDR + 1)).emit
        (.bus false (SMap.get (fun _ => (0 : Word)) s.latch TRACE_RDATA_HI).toNat))))

/-- Every request of Table 21-2 arrives, waits, is checked, applied and answered (R505 to R512); SPI_WRITE, SPI_READ (R507) and UPLOAD_TIMEOUT
(R513). What each request does when applied is `WcpRequestResults`. That a request is applied at once where nothing waits is the model's
choice (log entry 2). -/
def Obligations.WcpRequestsAreAppliedAndAnswered : Prop :=
  (∀ (h : WcpHdr) (n m k j : Nat) (b d : List Byte) (v : Word) (c : BitVec 64) (sites : List (BitVec 64)) (ns : List Nat) (ws : List Word)
      (sdp : Sdp) (o : Option Nat) (cs : List (BitVec 16)) (rects : List (Nat × Nat × Nat × Nat)) (ten : TenantRec) (f g : Bool) (hb : Heartbeat)
      (es : List (Nat × Word)) (ctx : RegCtx),
    ∀ e ∈ ([(.info h, .info), (.ping h b, .ping b), (.close h, .close), (.uploadOpen h n m b, .uploadOpen n m b),
        (.uploadData h n m b, .uploadData n m b), (.uploadClose h n, .uploadClose n), (.progLoad h n, .progLoad n),
        (.wcpStage h n m k sites, .stage n m k sites), (.stageStatus h, .stageStatus), (.seqStart h n ns, .seqStart n ns),
        (.seqStop h n, .seqStop n), (.bind h n sdp, .bind n sdp), (.unbind h n, .unbind n), (.layerSet h n m ws, .layerSet n m ws),
        (.layerClear h n, .layerClear n), (.surfaceWrite h n m b o, .surfaceWrite n m b o), (.surfaceFlip h n, .surfaceFlip n),
        (.zlistSet h n b, .zlistSet n b), (.coefSet h n m cs, .coefSet n m cs), (.clinker h n m ws, .clinker n m ws),
        (.damageHint h rects, .damage rects), (.statusRead h n m k j, .statusRead n m k j), (.eventRead h v, .eventRead v),
        (.logRead h n, .logRead n), (.tenantSet h n ten, .tenantSet n ten), (.tenantRemove h n, .tenantRemove n),
        (.slotAssign h n m, .slotAssign n m), (.ownerInstall h b, .ownerInstall b), (.ownerXfer h b, .ownerXfer b), (.keyAdd h b, .keyAdd b),
        (.keyRemove h b, .keyRemove b), (.refcredSet h b, .refcredSet b), (.stepAuth h b, .stepAuth b), (.debugNonce h, .debugNonce),
        (.debugToken h b, .debugToken b), (.factoryReset h, .factoryReset), (.testRun h v f n sites d m g, .testRun v f n sites d m g),
        (.testAbort h v, .testAbort v), (.testResult h v n, .testResult v n), (.testAck h v, .testAck v), (.popCollect h n, .popCollect n),
        (.popAck h n m, .popAck n m), (.attest h b n m, .attest b n m), (.fwInstall h n, .fwInstall n), (.fwActivate h n, .fwActivate n),
        (.fwAbandon h, .fwAbandon), (.laneInstall h n, .laneInstall n), (.recoveryEnter h, .recoveryEnter), (.recoveryExit h, .recoveryExit),
        (.power h n, .power n), (.cordPower h n m, .cordPower n m), (.cordWake h n, .cordWake n), (.swap h, .swap),
        (.refHeartbeat h hb, .refHeartbeat hb), (.refGrant h c n m, .refGrant c n m), (.refSwapRsp h c n v, .refSwapRsp c n v),
        (.regRead h n m, .regRead n m), (.regWrite h es ctx, .regWrite es ctx)] : List (Instr × WcpReq)),
    (∀ s : State, s.sess h.sess = none → exec e.1 s = .next s) ∧
    (∀ (s t : State) (x y : Session), s.Canon → s.sess h.sess = some x → (s.sessions.map Session.id).Nodup → (x.rxRec + 1) % 2 ^ 24 ≠ 0 →
      t = (s.spiTake x.spi).updSess x.id (fun z => { z with rxRec := z.rxRec + 1, last := s.life }) →
      y = { x with rxRec := x.rxRec + 1, last := s.life } → exec e.1 s = .next (t.arrive y h e.2).settle) ∧
    (∀ (s t : State) (x y : Session), s.Canon → s.paused = false → s.fw.replies = [] → s.fw.arrivals = [] →
      (∀ z ∈ s.sessions, z.waiting = []) → (s.sessions.map Session.id).Nodup → s.sess h.sess = some x → (x.rxRec + 1) % 2 ^ 24 ≠ 0 →
      h.ok = true → h.seq ≠ 0 → 1200 ≤ h.maxrsp → h.maxrsp ≤ 8704 → (∀ r ∈ x.cache, r.1 ≠ h.seq) → (∀ q, x.newest = some q → newer h.seq q = true) →
      t = ((s.spiTake x.spi).count SYS_N_REQUESTS 1).updSess x.id (fun z => { z with rxRec := z.rxRec + 1, last := s.life, waiting := [
        ({ seq := h.seq, maxrsp := h.maxrsp, applied := true, rsp := none, req := e.2 } : WaitReq)] }) →
      y = { x with rxRec := x.rxRec + 1, last := s.life, waiting := [
        ({ seq := h.seq, maxrsp := h.maxrsp, applied := false, rsp := none, req := e.2 } : WaitReq)] } →
      (∀ r, r = t.wcpGate y e.2 → r ≠ 0 → exec e.1 s = .next (State.settleN 2 (t.answer x.id h.seq r []))) ∧
      (t.wcpGate y e.2 = 0 → ∀ a, a = t.wcpDo y h.seq h.maxrsp e.2 →
        (a.2 = none → exec e.1 s = .next (State.settleN 2 (a.1.mirrorSince t none))) ∧
        (∀ st p u, a.2 = some (st, p) → u = (if st = 1 then a.1.count SYS_N_FORMAT 1 else a.1) →
          exec e.1 s = .next (State.settleN 2 (u.mirrorSince t (some (x.id, h.seq, { status := st, payload := p }))))))) ) ∧
  (∀ (s t : State) (y : Session) (h : WcpHdr) (r : WcpReq), s.Canon → s.paused = false → t = s.count SYS_N_REQUESTS 1 →
    (h.ok = false ∨ h.seq = 0 ∨ h.maxrsp < 1200 ∨ 8704 < h.maxrsp →
      s.arrive y h r = (t.count SYS_N_FORMAT 1).reply y h.seq { status := 1, payload := [] }) ∧
    (h.ok = true → h.seq ≠ 0 → 1200 ≤ h.maxrsp → h.maxrsp ≤ 8704 →
      (∀ c, y.cache.find? (fun c => c.1 == h.seq) = some c → s.arrive y h r = (t.count SYS_N_CACHED 1).reply y h.seq c.2) ∧
      (y.cache.find? (fun c => c.1 == h.seq) = none →
        ((∃ w ∈ y.waiting, w.seq = h.seq) → s.arrive y h r = t) ∧
        ((∀ w ∈ y.waiting, w.seq ≠ h.seq) →
          (∀ q, y.applied = some q → newer h.seq q = false →
            s.arrive y h r = (t.count SYS_N_SEQ_OLD 1).reply y h.seq { status := 8, payload := [] }) ∧
          ((∀ q, y.applied = some q → newer h.seq q = true) →
            (8 ≤ (y.waiting.filter fun w => !w.applied).length →
              s.arrive y h r = (t.count SYS_N_QUEUE_FULL 1).reply y h.seq { status := 7, payload := [] }) ∧
            ((y.waiting.filter fun w => !w.applied).length < 8 → ∃ u : State, s.arrive y h r = u ∧
              u.fw.arrivals = s.fw.arrivals ++ [(y.id, h.seq)] ∧ u.out = s.out ∧ u.seqs = s.seqs ∧ u.comp = s.comp)))))) ∧
  (∀ (s : State) (x : Session) (w : WaitReq) (r : Rsp) (n : Nat), s.nextLeave = some (x, w, r) → s.paused = false →
    State.settleN (n + 1) s = State.settleN n (s.leave x w r) ∧
    (w.req ≠ .close → w.req ≠ .recoveryExit → x.spi = false → (x.txRec + 1) % 2 ^ 24 ≠ 0 → (s.leave x w r).out = .rsp x.id w.seq r :: s.out ∧
      ∀ y z, s.sess x.id = some y → (s.leave x w r).sess x.id = some z →
        z.waiting = y.waiting.drop 1 ∧ (r.status = 1 → z.cache = y.cache) ∧ (r.status ≠ 1 → z.cache = ((w.seq, r) :: y.cache).take 64))) ∧
  (∀ (s : State) (whole : Bool) (b : List Byte) (id n : Nat),
    (whole = true → b.length ≤ 8800 → exec (.spiWrite whole b) s = .next { s with spiRx := s.spiRx ++ [b] }) ∧
    (whole = false ∨ 8800 < b.length → exec (.spiWrite whole b) s = .next s) ∧
    (s.spiTx = [] → exec .spiRead s = .next (s.emit (.spi 0 []))) ∧
    (∀ o q, s.spiTx = o :: q → exec .spiRead s = .next (State.emit { s with spiTx := q } o)) ∧
    exec (.uploadTimeout id n) s =
      .next (s.updSess id fun x => { x with uploads := x.uploads.filter fun u => u.handle != n }))

/-- The effect, status and response payload of each request (Table 21-2), as `WcpRequestsAreAppliedAndAnswered` applies it. -/
def Obligations.WcpRequestResults : Prop :=
  (∀ (s : State) (x : Session) (q : Word) (m n k : Nat) (b : List Byte) (no : Nat → Reply), no = (fun st => (s, some (st, []))) →
    s.wcpDo x q m .info = (s, some (0, [BitVec.ofNat 8 x.tenant, if s.tile then 1 else 0, BitVec.ofNat 8 s.clmState,
      BitVec.ofNat 8 ((if x.unverified then 1 else 0) + (if x.tenant = 0 then 2 else 0)), 0x00, 0x22])) ∧
    (b.length ≤ 64 → s.wcpDo x q m (.ping b) = (s, some (0, b))) ∧ (64 < b.length → s.wcpDo x q m (.ping b) = no 1) ∧
    s.wcpDo x q m .close = no 0 ∧ s.wcpDo x q m .recoveryExit = no 0 ∧
    (k < 7 → b.length = 48 → s.tile = false → x.uploads.length < 4 →
      (s.sessions.flatMap fun y => y.uploads.map fun u => u.len).sum + n ≤ 67108864 → ∃ (t : State) (h : Nat) (u : Upload),
        s.wcpDo x q m (.uploadOpen k n b) = (t, some (0, [BitVec.ofNat 8 h])) ∧ 1 ≤ h ∧ h ≤ 4 ∧ x.upload h = none ∧
        t = s.updSess x.id (fun y => { y with uploads := y.uploads ++ [u] }) ∧ u.handle = h ∧ u.kind = k ∧ u.len = n ∧ u.digest = b ∧
        u.data = [] ∧ u.next = 0 ∧ u.closed = false ∧ u.last = s.life) ∧
    (k < 7 → b.length = 48 → s.tile = false → 4 ≤ x.uploads.length ∨
      67108864 < (s.sessions.flatMap fun y => y.uploads.map fun u => u.len).sum + n → s.wcpDo x q m (.uploadOpen k n b) = no 0x0104) ∧
    (x.upload n = none → s.wcpDo x q m (.uploadData n k b) = no 0x0102 ∧ s.wcpDo x q m (.uploadClose n) = no 0x0102) ∧
    (∀ u v, x.upload n = some u → u.closed = false →
      (u.len < k + b.length → s.wcpDo x q m (.uploadData n k b) = no 0x0102) ∧
      (k + b.length ≤ u.len → s.tile = true → k ≠ u.next → s.wcpDo x q m (.uploadData n k b) = no 0x0105) ∧
      (k + b.length ≤ u.len → s.tile = false ∨ k = u.next →
        v = { u with data := SMap.setList (fun _ => (0 : Byte)) u.data k b, next := k + b.length, last := s.life } → s.wcpDo x q m (.uploadData n k b) =
          (s.updSess x.id (fun y => { y with uploads := y.uploads.map fun o => if o.handle = n then v else o }), some (0, []))) ∧
      (Config.sha384 u.bytes ≠ u.digest → s.wcpDo x q m (.uploadClose n) = (s.release x.id n, some (0x0103, []))) ∧
      (Config.sha384 u.bytes = u.digest → (s.kindCheck u.kind u.bytes).2 ≠ 0 → s.wcpDo x q m (.uploadClose n) =
        ((s.kindCheck u.kind u.bytes).1.release x.id n, some ((s.kindCheck u.kind u.bytes).2, []))) ∧
      (Config.sha384 u.bytes = u.digest → (s.kindCheck u.kind u.bytes).2 = 0 → s.wcpDo x q m (.uploadClose n) =
        ((s.kindCheck u.kind u.bytes).1.updSess x.id (fun y => { y with uploads := y.uploads.map fun o =>
          if o.handle = n then { o with closed := true } else o }), some (0, [])))) ∧
    (x.content n [0, 1] = none → s.wcpDo x q m (.progLoad n) = no 0x0102) ∧
    (∀ p f t u, x.content n [0, 1] = some (0, p) → parseFprog p = some f → s.fprogAdmit f = 0 → s.flag FSQ_STAT_RUN = false →
      t = { s with comp := { s.comp with staged := some (f.dl, f.eng, f.zl) } } →
      u = (State.setSeq t 8 { t.seq 8 with staged := some (some f.image) }).imageSwitch 8 →
      s.wcpDo x q m (.progLoad n) = ((u.recordAdmit u.accLayers).release x.id n, some (0, []))) ∧
    (∀ p f, x.content n [0, 1] = some (0, p) → parseFprog p = some f → s.fprogAdmit f = 0 → s.flag FSQ_STAT_RUN = true → s.stageOpen = false →
      s.wcpDo x q m (.progLoad n) = ((s.fprogStage f p (s.fcnt + s.getF FW_STG_CFG_LEAD)).release x.id n, some (0, []))) ∧
    (∀ p f, x.content n [0, 1] = some (0, p) → parseFprog p = some f → s.fprogAdmit f ≠ 0 →
      s.wcpDo x q m (.progLoad n) = ((s.count TEN_N_BUDGET 1).release x.id n, some (0x0205, []))) ∧
    (∀ p, x.content n [0, 1] = some (1, p) → s.wcpDo x q m (.progLoad n) = ((s.dsetLoad p).1.release x.id n, some ((s.dsetLoad p).2, []))) ∧
    (∀ ports sites, (x.content n [0, 1, 2] = none → s.wcpDo x q m (.stage n k ports sites) = no 0x0102) ∧
      (x.content n [0, 1, 2] ≠ none → s.stageOpen = true → s.wcpDo x q m (.stage n k ports sites) = no 0x0507) ∧
      (∀ p f, x.content n [0, 1, 2] = some (0, p) → s.stageOpen = false → parseFprog p = some f → s.fprogAdmit f = 0 →
        s.wcpDo x q m (.stage n k ports sites) = ((s.fprogStage f p (k % 2 ^ 40)).release x.id n, some (0, []))) ∧
      (∀ c p g, x.content n [0, 1, 2] = some (c, p) → c ≠ 0 → s.stageOpen = false → g = ((List.range 8).flatMap fun a =>
          ((List.range 64).filter fun i => ports.testBit a && (sites.getD a 0).getLsbD i).map fun i => (a, i)) →
        s.wcpDo x q m (.stage n k ports sites) = ((s.stageBegin (if c = 1 then 0 else 1) (k % 2 ^ 40) p g).release x.id n, some (0, [])))) ∧
    (∃ r : List Byte, s.wcpDo x q m .stageStatus = (s, some (0, r)) ∧ r.take 16 = leBytes 4 (s.reg FW_STG_STAT).toNat ++
      leBytes 4 (s.reg FW_STG_F_LO).toNat ++ leBytes 4 (s.reg FW_STG_F_HI).toNat ++ leBytes 4 (s.getF FW_STG_N_GROUP)) ∧
    (∀ v, n % 65536 = 1 → (s.active = true → s.wcpDo x q m (.seqStart n v) = (s.fsqRun, some (0, []))) ∧
      (s.active = false → s.wcpDo x q m (.seqStart n v) = no 4)) ∧
    (∀ v i, i < 8 → n = 2 ^ (8 + i) → s.wcpDo x q m (.seqStart n v) =
      ((s.psqStart i (v.getD i 0)).1, some ((s.psqStart i (v.getD i 0)).2, []))) ∧
    (∀ i, i < 8 → n = 2 ^ (8 + i) → s.wcpDo x q m (.seqStop n) = (s.psqStop i, some (0, [])))) ∧
  (∀ (s : State) (x : Session) (q : Word) (m n k : Nat) (b : List Byte) (no : Nat → Reply), no = (fun st => (s, some (st, []))) →
    (∀ sh d, (sdpOk d = false → s.wcpDo x q m (.bind sh d) = no 0x0207) ∧ (sdpOk d = true → s.bindFits d = false →
        s.wcpDo x q m (.bind sh d) = no 0x0208) ∧
      (∀ i a, sdpOk d = true → s.bindFits d = true → s.freeStream d.video = some i → s.allocDdr (sdpSpace d) = some a →
        s.wcpDo x q m (.bind sh d) = ((s.addBinding { index := i, tenant := x.tenant, share := sh, sdp := d } a).litReturn,
          some (0, [BitVec.ofNat 8 i])))) ∧
    (s.src.find? (fun b => b.b.index == n) = none → s.wcpDo x q m (.unbind n) = no 0x0203) ∧
    (∀ b, s.src.find? (fun b => b.b.index == n) = some b → (x.tenant = 0 ∨ b.b.tenant = x.tenant →
        s.wcpDo x q m (.unbind n) = ((if n < 16 then s.clearSlots (s.readers n) else s).endBinding n, some (0, []))) ∧
      (x.tenant ≠ 0 → b.b.tenant ≠ x.tenant → s.wcpDo x q m (.unbind n) = no 3)) ∧
    (∀ cls d ws l a, n < 63 → s.slotTenant n = some x.tenant → ws = descWords x.tenant d → l = decodeLayer n (fun i => (ws.getD i 0).toNat) →
      (l.video = true → s.mayRead x.tenant l.stream = true) → s.layerRange x.tenant l = true → a = putDesc s.comp.acc n ws →
      (s.admitOk (layersOf a) = true → s.wcpDo x q m (.layerSet n cls d) = (s.acceptDesc a [n], some (0, [BitVec.ofNat 8 n]))) ∧
      (s.admitOk (layersOf a) = false → s.reduces x.tenant s.accLayers (layersOf a) = false →
        s.wcpDo x q m (.layerSet n cls d) = (s.count TEN_N_BUDGET 1, some (0x0205, [])))) ∧
    (∀ cls d, n < 63 → s.slotTenant n ≠ some x.tenant → s.wcpDo x q m (.layerSet n cls d) = no 0x0201) ∧
    (s.slotCheck x.tenant n ≠ 0 → s.wcpDo x q m (.layerClear n) = no (s.slotCheck x.tenant n) ∧
      s.wcpDo x q m (.surfaceFlip n) = no (s.slotCheck x.tenant n) ∧ s.wcpDo x q m (.surfaceWrite n k b none) = no (s.slotCheck x.tenant n)) ∧
    (s.slotCheck x.tenant n = 0 → s.wcpDo x q m (.layerClear n) = (s.clearSlots [n], some (0, [])) ∧
      (n < 16 → s.wcpDo x q m (.surfaceFlip n) = no 0x0204 ∧ s.wcpDo x q m (.surfaceWrite n k b none) = no 0x0204) ∧
      (16 ≤ n → ∀ a, a = SMap.set regReset s.comp.acc (COMP_DESC n 0) (SMap.get regReset s.comp.acc (COMP_DESC n 0) ^^^ 0x20000) →
        s.wcpDo x q m (.surfaceFlip n) = ({ s with comp := { s.comp with acc := a, touched := (s.comp.touched ++ [n]).dedup } }, some (0, []))) ∧
      (16 ≤ n → n ∉ s.comp.touched → (∀ h ∈ s.comp.held, h.slot ≠ n) → s.wcpDo x q m (.surfaceWrite n k b none) =
        ((s.surfacePut x.tenant n k b).1, some ((s.surfacePut x.tenant n k b).2.1, (s.surfacePut x.tenant n k b).2.2))) ∧
      (16 ≤ n → n ∈ s.comp.touched → ∃ (t : State) (h : HeldSurf), s.wcpDo x q m (.surfaceWrite n k b none) = (t, none) ∧
        t = { s with comp := { s.comp with held := s.comp.held ++ [h] } } ∧ h.slot = n ∧ h.data = b ∧ h.offset = k ∧ h.applied = false)) ∧
    (256 ≤ n ∨ b.length ≠ 64 → s.wcpDo x q m (.zlistSet n b) = no 1) ∧
    (n < 256 → b.length = 64 → zlistOk b = true → s.admitOk s.accLayers = true → ∃ t : State, s.wcpDo x q m (.zlistSet n b) = (t, some (0, [])) ∧
      t = { s with comp := { s.comp with acc := t.comp.acc, ztouched := (s.comp.ztouched ++ [n]).dedup } } ∧
      ∀ i, i < 16 → SMap.wf regReset s.comp.acc = true → SMap.get regReset t.comp.acc (COMP_ZLIST n i) = (zlistWords b).getD i 0) ∧
    (∀ ax cs, n < 16 → ax < 2 → cs.length = 64 * (if ax = 0 then 8 else 6) → ∃ t : State, s.wcpDo x q m (.coefSet n ax cs) = (t, some (0, [])) ∧
      t = { s with comp := { s.comp with coef := t.comp.coef } }) ∧
    (∀ ax cs, 16 ≤ n ∨ 2 ≤ ax ∨ cs.length ≠ 64 * (if ax = 0 then 8 else 6) → s.wcpDo x q m (.coefSet n ax cs) = no 1) ∧
    (∀ es r, 256 < es.length → s.wcpDo x q m (.clinker n r es) = no 1) ∧
    (∀ es r, es.length ≤ 256 → s.sender = true → s.active = true → n < 8 → (s.tileAt n r).enumerated = true → s.wcpDo x q m (.clinker n r es) =
      (s.ctrlSend n r Config.opClinker (es.flatMap fun e => leBytes 4 e.toNat) (some (x.id, q)), none)) ∧
    (∀ rs, 64 < rs.length → s.wcpDo x q m (.damage rs) = no 1) ∧
    (∀ rs, rs.length ≤ 64 → ∃ bs, s.wcpDo x q m (.damage rs) = (s.damageBands bs, some (0, [])) ∧
      ∀ z ∈ bs, z ∈ allBands s.live ∧ ∃ r ∈ rs, bandMeets (geoOf s.live z.1 z.2.1) z.2.2 r = true) ∧
    (∀ i j, 5 < i → s.wcpDo x q m (.statusRead i n k j) = no 1) ∧
    (∀ i j rg, statusRegs i n k j = some rg → s.wcpDo x q m (.statusRead i n k j) =
      (s, some (0, (rg.take ((m - 16) / 4)).flatMap fun a => leBytes 4 (s.statusWord a).toNat))) ∧
    (∀ e, s.wcpDo x q m (.eventRead e) = (s, some (x.eventRead e m)) ∧
      (∀ l, x.events.reverse.head? = some l → newer l.eseq e = true → (x.eventRead e m).1 = 9)) ∧
    (∀ es bs, es = (s.hea.log.reverse.filter fun e => decide (n ≤ e.seq.toNat)).take ((m - 116) / 32) →
      bs = (es.flatMap fun e => padTo 32 (e.body ++ e.chain)) →
      s.wcpDo x q m (.logRead n) = (s, some (0, leBytes 4 es.length ++ bs ++ padTo 96 (Config.sign bs))))) ∧
  (∀ (s : State) (x : Session) (q : Word) (m n k : Nat) (b : List Byte) (no : Nat → Reply), no = (fun st => (s, some (st, []))) →
    (∀ c, s.wcpDo x q m (.tenantSet n c) = ((s.tenantSet n c).1, some (s.tenantSet n c).2) ∧
      (16 ≤ n → s.wcpDo x q m (.tenantSet n c) = no 1) ∧
      (n < 16 → s.hea.owner = none → s.wcpDo x q m (.tenantSet n c) = (s.count TEN_N_CERT_CHAIN 1, some (0x020C, [])))) ∧
    (n = 0 ∨ 16 ≤ n ∨ SMap.get (fun _ => none) s.hea.tenants n = none → s.wcpDo x q m (.tenantRemove n) = no 1) ∧
    (∀ c, 0 < n → n < 16 → SMap.get (fun _ => none) s.hea.tenants n = some c → ∃ t : State,
      s.wcpDo x q m (.tenantRemove n) = (t, some (0, [])) ∧ (∀ y ∈ t.sessions, y.tenant ≠ n) ∧ n ∈ t.comp.endTen) ∧
    (63 ≤ n ∨ (16 ≤ k ∧ k ≠ 255) → s.wcpDo x q m (.slotAssign n k) = no 1) ∧
    (n < 63 → k < 16 → s.slotTenant n = none → s.wcpDo x q m (.slotAssign n k) =
      ((s.setF (COMP_SLOT_TENANT n) k).setFlag (COMP_SLOT_ASSIGNED n) true, some (0, []))) ∧
    (s.hea.owner ≠ none → s.wcpDo x q m (.ownerInstall b) = no 0x0406) ∧
    (s.hea.owner = none → s.wcpDo x q m (.ownerInstall b) = ((s.newOwner b 4).toTiles 0x0011 b, some (0, []))) ∧
    ((s.ownerXfer b).2 = 0 → s.wcpDo x q m (.ownerXfer b) = ((s.ownerXfer b).1.toTiles 0x0013 b, some (0, []))) ∧
    ((s.ownerXfer b).2 ≠ 0 → s.wcpDo x q m (.ownerXfer b) = ((s.ownerXfer b).1, some ((s.ownerXfer b).2, []))) ∧
    (b.length ≠ 97 → s.wcpDo x q m (.keyAdd b) = no 1 ∧ s.wcpDo x q m (.keyRemove b) = no 1) ∧
    (b.length = 97 → s.wcpDo x q m (.keyRemove b) = ((s.keyRemove b).toTiles 0x0012 (2 :: b), some (0, (Config.sha384 b).take 8)) ∧
      (b ∈ s.hea.makers → s.wcpDo x q m (.keyAdd b) = (s.toTiles 0x0012 (1 :: b), some (0, (Config.sha384 b).take 8))) ∧
      (b ∉ s.hea.makers → 8 ≤ s.hea.makers.length → s.wcpDo x q m (.keyAdd b) = no 0x0405) ∧
      (b ∉ s.hea.makers → s.hea.makers.length < 8 → ∀ t : State, t = { s with hea := { s.hea with makers := s.hea.makers ++ [b] } } →
        s.wcpDo x q m (.keyAdd b) = (((t.heaRegs.journalKeys).secLog 7 ((Config.sha384 b).take 8)).toTiles 0x0012 (1 :: b),
          some (0, (Config.sha384 b).take 8)))) ∧
    (b.length ≠ 48 → s.wcpDo x q m (.refcredSet b) = no 1) ∧
    (∀ c (t : State), b.length = 48 → c = (if b.all fun y => y == 0 then none else some b) → c ≠ s.hea.refcred →
      t = { s with hea := { s.hea with refcred := c } } → s.wcpDo x q m (.refcredSet b) =
        (((t.heaRegs.journalKeys).secLog 0x0D [0xFE, if c.isSome then 1 else 2]).closeSess (fun y => y.tenant == 0xFE), some (0, []))) ∧
    (∀ o, s.wcpDo x q m (.stepAuth o) = ((s.stepAuth o).1, some (s.stepAuth o).2) ∧
      (s.objCheck o 4 ≠ 0 → s.wcpDo x q m (.stepAuth o) = ((s.sigFail 4 (s.objCheck o 4)).count POP_N_STEPREF 1, some (s.objCheck o 4, [])))) ∧
    (∃ r, s.newNonce.hea.nonce = some (r, s.life) ∧ r.length = 32 ∧ s.wcpDo x q m .debugNonce = (s.newNonce, some (0, r))) ∧
    (∀ o, s.wcpDo x q m (.debugToken o) = ((s.debugToken o).1, some ((s.debugToken o).2, [])) ∧
      (s.hea.nonce = none → s.objCheck o 3 = 0 → (objPayload o).length = 52 → leAt (objPayload o) 48 4 < 16 →
        sub (objPayload o) 0 16 = s.serial → (s.debugToken o).2 = 0x0408)) ∧
    (∃ t : State, s.wcpDo x q m .factoryReset = (t, some (0, [])) ∧ t.hea.owner = none ∧ t.hea.makers = [] ∧ t.hea.refcred = none ∧
      t.pop.nv.recs = [] ∧ t.pop.nv.agg = [] ∧ ∀ y ∈ t.sessions, y.id = x.id) ∧
    (∀ r ports sites d h loc, s.wcpDo x q m (.testRun r false ports sites d h loc) =
        ((s.testRun r false ports sites d [] loc).1, some ((s.testRun r false ports sites d [] loc).2, [])) ∧
      (x.content h [5] = none → s.wcpDo x q m (.testRun r true ports sites d h loc) = no 0x0102) ∧
      (∀ c p u, x.content h [5] = some (c, p) → u = s.testRun r true ports sites d p loc → u.2 = 0 →
        s.wcpDo x q m (.testRun r true ports sites d h loc) = (u.1.release x.id h, some (0, [])))) ∧
    (∀ r, (s.test.run = none → s.wcpDo x q m (.testAbort r) = no 1) ∧
      (∀ g, s.test.run = some g → g.runid = r → g.full = false → s.wcpDo x q m (.testAbort r) =
        ((if (s.testSend g 2).sender then (s.testSend g 2).abortRun r.toNat else s.testSend g 2).testEnd 0x0306, some (0, []))) ∧
      s.wcpDo x q m (.testResult r n) = (s, some (s.testResult r n m)) ∧
      ((∀ g ∈ s.test.past, g.runid ≠ r) → s.wcpDo x q m (.testAck r) = no 1) ∧
      ((∃ g ∈ s.test.past, g.runid = r) → s.wcpDo x q m (.testAck r) =
        ({ s with test := { s.test with past := s.test.past.filter fun g => g.runid != r } }, some (0, [])))) ∧
    (16 ≤ n → s.wcpDo x q m (.popCollect n) = no 1) ∧
    (∀ rs, n < 16 → rs = (((s.pop.nv.recs.filter fun r => r.tenant == n) ++ s.pop.nv.agg.filter fun r => r.tenant == n).take
        (min 16 ((m - 20) / 224))) →
      ∃ t : State, s.wcpDo x q m (.popCollect n) = (t, some (0, leBytes 4 rs.length ++ rs.flatMap fun r => s.popBytes r)) ∧ t.pop.nv = s.pop.nv) ∧
    (∃ t : State, s.wcpDo x q m (.popAck n k) = (t, some (0, [])) ∧ t.pop.nv.recs = s.pop.nv.recs.filter fun r =>
      !(r.tenant == n && decide (r.rseq ≤ k) && s.pop.returned.contains r.rseq))) ∧
  (∀ (s : State) (x : Session) (q : Word) (m n k : Nat) (b : List Byte) (no : Nat → Reply), no = (fun st => (s, some (st, []))) →
    (b.length ≠ 32 → s.wcpDo x q m (.attest b n k) = no 1) ∧
    (b.length = 32 → s.wcpDo x q m (.attest b n 0xFF) = (s, some (0, s.attestBody b ++ padTo 96 (Config.sign (s.attestBody b))))) ∧
    (b.length = 32 → k ≠ 0xFF → s.sender = true → s.active = true → n < 8 → (s.tileAt n k).enumerated = true →
      s.wcpDo x q m (.attest b n k) = (s.ctrlSend n k 0x0010 b (some (x.id, q)), none)) ∧
    (x.content n [3] = none → s.wcpDo x q m (.fwInstall n) = no 0x0102) ∧
    (∀ c p, x.content n [3] = some (c, p) → s.wcpDo x q m (.fwInstall n) =
      ((s.fwInstall p (some 3) .none).1.release x.id n, some ((s.fwInstall p (some 3) .none).2, []))) ∧
    (s.fwBusy = true → s.wcpDo x q m (.fwActivate n) = no 0x0507) ∧
    (∀ i : State × Nat, i = s.fwActivate n → s.wcpDo x q m (.fwActivate n) = (i.1, some (i.2, []))) ∧
    s.wcpDo x q m .fwAbandon = (s.fwRevert, some (0, [])) ∧
    (x.content n [4] = none → s.wcpDo x q m (.laneInstall n) = no 0x0102) ∧
    (∀ c p u, x.content n [4] = some (c, p) → s.laneAccept p = 0 → u = s.slotWrite 5 (s.idleCopy 5) p none true (some 4) .none →
      s.wcpDo x q m (.laneInstall n) = (u.1.release x.id n, some (u.2, []))) ∧
    (∀ c p, x.content n [4] = some (c, p) → s.laneAccept p ≠ 0 →
      s.wcpDo x q m (.laneInstall n) = (s.release x.id n, some (s.laneAccept p, []))) ∧
    s.wcpDo x q m .recoveryEnter = ({ s with fw := { s.fw with recNext := true } }, some (0, [])) ∧
    s.wcpDo x q m (.power 2) = (s.smoulder false, some (0, [])) ∧ (n ≠ 2 → s.wcpDo x q m (.power n) = no 1) ∧
    (∃ t : State, s.wcpDo x q m (.cordPower n k) = (t, some (0, [])) ∧ t.cord.dormAt = some (n % 256, k)) ∧
    (∃ t : State, s.wcpDo x q m (.cordWake n) = (t, some (0, [])) ∧ (s.Canon → n < 256 →
      t.getF EMB_DORM_PORTS = s.getF EMB_DORM_PORTS &&& (255 - n))) ∧
    (s.member = false ∨ s.flag CLM_STAT_REF_OK = false → s.wcpDo x q m .swap = no 0x0704) ∧
    (s.member = true → s.flag CLM_STAT_REF_OK = true → s.wcpDo x q m .swap = (s.swapRequest 0x80 (some (x.id, q)), none)) ∧
    (∀ h c w, (s.extDrop = false → s.wcpDo x q m (.refHeartbeat h) = no 0 ∧ s.wcpDo x q m (.refGrant c n k) = no 0 ∧
        s.wcpDo x q m (.refSwapRsp c n w) = no 0) ∧
      (s.extDrop = true → s.wcpDo x q m (.refHeartbeat h) = (s.refHbHeard h, some (0, [])) ∧
        s.wcpDo x q m (.refGrant c n k) = (s.grantHeard c n, some (0, [])) ∧
        s.wcpDo x q m (.refSwapRsp c n w) = (s.swapAnswered c n w, some (0, [])))) ∧
    (k = 0 ∨ 256 < k → s.wcpDo x q m (.regRead n k) = no 1) ∧
    (∀ v t, 1 ≤ (m - 20) / 4 → 0xF0000000 ≤ n → n < 0xF01C0000 → s.regRead (n - 0xF0000000) = (t, true, v) →
      s.wcpDo x q m (.regRead n 1) = (t, some (0, leBytes 4 1 ++ leBytes 4 v.toNat))) ∧
    (∀ v t, 1 ≤ (m - 20) / 4 → 0xF0000000 ≤ n → n < 0xF01C0000 → s.regRead (n - 0xF0000000) = (t, false, v) →
      s.wcpDo x q m (.regRead n 1) = (t, some (0x0801, leBytes 8 n ++ leBytes 4 0))) ∧
    (∀ es c, 64 < es.length → s.wcpDo x q m (.regWrite es c) = no 1) ∧
    (∀ es c u, (es : List (Nat × Word)).length ≤ 64 → (∀ e ∈ es, e.1 < 2 ^ 40) → u = s.writeWords c es →
      (u.2.2 = none → u.2.1 = es.length ∧ s.wcpDo x q m (.regWrite es c) = (u.1, some (0, leBytes 4 es.length))) ∧
      (∀ bad, u.2.2 = some bad → s.wcpDo x q m (.regWrite es c) = (u.1, some (0x0801, leBytes 8 bad ++ leBytes 4 u.2.1)))) ∧
    (∀ c e es, s.writeWords c [] = (s, 0, none) ∧
      (e.1 < 0xF0000000 ∨ 0xF01C0000 ≤ e.1 → s.writeWords c (e :: es) = (s, 0, some e.1)) ∧
      (∀ t, 0xF0000000 ≤ e.1 → e.1 < 0xF01C0000 → s.regWrite (e.1 - 0xF0000000) e.2 c = (t, false) →
        s.writeWords c (e :: es) = (t, 0, some e.1)) ∧
      (∀ t, 0xF0000000 ≤ e.1 → e.1 < 0xF01C0000 → s.regWrite (e.1 - 0xF0000000) e.2 c = (t, true) →
        s.writeWords c (e :: es) = ((t.writeWords c es).1, (t.writeWords c es).2.1 + 1, (t.writeWords c es).2.2))))

end
end

