-- ==== Sys2Proof/Laws/SMap.lean ====
section
/-! SUPPORT. Laws/SMap.lean: reading after writing, and the canonical form, proved once for every sparse map. -/

namespace Sys2Proof.Machine

variable {α : Type} {d : Nat → α}

/-- The canonical form from a bound on is the one from any lower bound on. -/
theorem SMap.wfFrom_weaken [DecidableEq α] {m : SMap α} {a b : Nat} (h : b ≤ a)
    (hw : SMap.wfFrom d (some a) m = true) : SMap.wfFrom d (some b) m = true := by
  cases m with
  | nil => rfl
  | cons e m =>
    obtain ⟨k, v⟩ := e
    simp only [SMap.wfFrom, SMap.above, Bool.and_eq_true, decide_eq_true_eq] at hw ⊢
    exact ⟨⟨by omega, hw.1.2⟩, hw.2⟩

theorem SMap.wfFrom_none [DecidableEq α] {m : SMap α} {a : Nat}
    (hw : SMap.wfFrom d (some a) m = true) : SMap.wfFrom d none m = true := by
  cases m with
  | nil => rfl
  | cons e m =>
    obtain ⟨k, v⟩ := e
    simp only [SMap.wfFrom, SMap.above, Bool.and_eq_true, decide_eq_true_eq] at hw ⊢
    exact ⟨⟨trivial, hw.1.2⟩, hw.2⟩

theorem SMap.get_below [DecidableEq α] {m : SMap α} {a k : Nat} (hw : SMap.wfFrom d (some a) m = true) (hk : k ≤ a) :
    SMap.get d m k = d k := by
  cases m with
  | nil => rfl
  | cons e m =>
    obtain ⟨k', v⟩ := e
    simp only [SMap.wfFrom, SMap.above, Bool.and_eq_true, decide_eq_true_eq] at hw
    have : k < k' := by omega
    simp [SMap.get, this, Nat.ne_of_lt this]

@[simp] theorem SMap.get_insert_same {m : SMap α} {k : Nat} {v : α} : SMap.get d (SMap.insert k v m) k = v := by
  induction m with
  | nil => simp [SMap.insert, SMap.get]
  | cons e m ih =>
    obtain ⟨k', v'⟩ := e
    simp only [SMap.insert]
    split
    · simp [SMap.get]
    · split
      · simp [SMap.get]
      · rename_i h1 h2
        simp [SMap.get, h2, h1, ih]

theorem SMap.get_insert_other {m : SMap α} {k k' : Nat} {v : α} (h : k' ≠ k) :
    SMap.get d (SMap.insert k v m) k' = SMap.get d m k' := by
  induction m with
  | nil => simp [SMap.insert, SMap.get, h]
  | cons e m ih =>
    obtain ⟨j, w⟩ := e
    simp only [SMap.insert]
    split
    · rename_i h1
      simp only [SMap.get, h, if_false]
      split
      · rename_i h2
        have h3 : k' < j := by omega
        simp [Nat.ne_of_lt h3, h3]
      · rfl
    · split
      · rename_i h1 h2
        subst h2
        simp [SMap.get, h]
      · simp only [SMap.get, ih]

theorem SMap.get_erase_other [DecidableEq α] {m : SMap α} {k k' : Nat} (h : k' ≠ k)
    (hw : SMap.wf d m = true) : SMap.get d (SMap.erase k m) k' = SMap.get d m k' := by
  unfold SMap.wf at hw
  induction m with
  | nil => rfl
  | cons e m ih =>
    obtain ⟨j, w⟩ := e
    have hm : SMap.wfFrom d (some j) m = true := by
      simp only [SMap.wfFrom, Bool.and_eq_true] at hw; exact hw.2
    simp only [SMap.erase]
    split
    · rfl
    · split
      · rename_i h1 h2
        subst h2
        simp only [SMap.get, h, if_false]
        split
        · exact SMap.get_below hm (by omega)
        · rfl
      · simp only [SMap.get, ih (SMap.wfFrom_none hm)]

theorem SMap.get_erase_same [DecidableEq α] {m : SMap α} {k : Nat} (hw : SMap.wf d m = true) :
    SMap.get d (SMap.erase k m) k = d k := by
  unfold SMap.wf at hw
  induction m with
  | nil => rfl
  | cons e m ih =>
    obtain ⟨j, w⟩ := e
    have hm : SMap.wfFrom d (some j) m = true := by
      simp only [SMap.wfFrom, Bool.and_eq_true] at hw; exact hw.2
    simp only [SMap.erase]
    split
    · rename_i h1
      simp [SMap.get, h1, Nat.ne_of_lt h1]
    · split
      · rename_i h1 h2
        subst h2
        exact SMap.get_below hm (Nat.le_refl _)
      · rename_i h1 h2
        simp only [SMap.get, h2, h1, if_false, ih (SMap.wfFrom_none hm)]

/-- Reading the key just written gives the value written. -/
theorem SMap.get_set_same [DecidableEq α] {m : SMap α} {k : Nat} {v : α} (hw : SMap.wf d m = true) :
    SMap.get d (SMap.set d m k v) k = v := by
  unfold SMap.set
  split
  · rename_i h; rw [SMap.get_erase_same hw, h]
  · exact SMap.get_insert_same

/-- A write leaves every other key as it was. -/
theorem SMap.get_set_other [DecidableEq α] {m : SMap α} {k k' : Nat} {v : α} (hw : SMap.wf d m = true) (h : k' ≠ k) :
    SMap.get d (SMap.set d m k v) k' = SMap.get d m k' := by
  unfold SMap.set
  split
  · exact SMap.get_erase_other h hw
  · exact SMap.get_insert_other h

theorem SMap.wfFrom_insert [DecidableEq α] {m : SMap α} {k : Nat} {v : α} (hv : v ≠ d k) :
    ∀ {lo : Option Nat}, SMap.wfFrom d lo m = true → (∀ l, lo = some l → l < k) →
    SMap.wfFrom d lo (SMap.insert k v m) = true := by
  induction m with
  | nil =>
    intro lo _ hl
    cases lo <;> simp [SMap.insert, SMap.wfFrom, SMap.above, hv]
    exact hl _ rfl
  | cons e m ih =>
    obtain ⟨j, w⟩ := e
    intro lo hw hl
    simp only [SMap.wfFrom, SMap.above, Bool.and_eq_true, decide_eq_true_eq] at hw
    simp only [SMap.insert]
    have hlk : SMap.above lo k = true := by
      cases lo
      · rfl
      · simpa [SMap.above] using hl _ rfl
    split
    · rename_i h1
      simp only [SMap.wfFrom, SMap.above, Bool.and_eq_true, decide_eq_true_eq]
      exact ⟨⟨hlk, hv⟩, ⟨h1, hw.1.2⟩, hw.2⟩
    · split
      · rename_i h1 h2
        subst h2
        simp only [SMap.wfFrom, SMap.above, Bool.and_eq_true, decide_eq_true_eq]
        exact ⟨⟨hlk, hv⟩, hw.2⟩
      · rename_i h1 h2
        simp only [SMap.wfFrom, SMap.above, Bool.and_eq_true, decide_eq_true_eq]
        exact ⟨hw.1, ih hw.2 (by intro l hl'; cases hl'; omega)⟩

theorem SMap.wfFrom_erase [DecidableEq α] {m : SMap α} {k : Nat} :
    ∀ {lo : Option Nat}, SMap.wfFrom d lo m = true → SMap.wfFrom d lo (SMap.erase k m) = true := by
  induction m with
  | nil => intro lo _; rfl
  | cons e m ih =>
    obtain ⟨j, w⟩ := e
    intro lo hw
    have hw' := hw
    simp only [SMap.wfFrom, SMap.above, Bool.and_eq_true, decide_eq_true_eq] at hw
    simp only [SMap.erase]
    split
    · exact hw'
    · split
      · cases lo with
        | none => exact SMap.wfFrom_none hw.2
        | some l => exact SMap.wfFrom_weaken (by have := hw.1.1; simp [SMap.above] at this; omega) hw.2
      · simp only [SMap.wfFrom, SMap.above, Bool.and_eq_true, decide_eq_true_eq]
        exact ⟨hw.1, ih hw.2⟩

/-- A write keeps the canonical form. -/
theorem SMap.wf_set [DecidableEq α] {m : SMap α} {k : Nat} {v : α} (hw : SMap.wf d m = true) :
    SMap.wf d (SMap.set d m k v) = true := by
  unfold SMap.set SMap.wf at *
  split
  · exact SMap.wfFrom_erase hw
  · rename_i h; exact SMap.wfFrom_insert h hw (by intro l hl; cases hl)

theorem SMap.wf_setList [DecidableEq α] {vs : List α} : ∀ {m : SMap α} {k : Nat}, SMap.wf d m = true →
    SMap.wf d (SMap.setList d m k vs) = true := by
  induction vs with
  | nil => intro m k h; exact h
  | cons v vs ih => intro m k h; exact ih (SMap.wf_set h)

theorem SMap.wfFrom_filter [DecidableEq α] (p : Nat × α → Bool) {m : SMap α} :
    ∀ {lo : Option Nat}, SMap.wfFrom d lo m = true → SMap.wfFrom d lo (m.filter p) = true := by
  induction m with
  | nil => intro lo _; rfl
  | cons e m ih =>
    obtain ⟨j, w⟩ := e
    intro lo hw
    simp only [SMap.wfFrom, SMap.above, Bool.and_eq_true, decide_eq_true_eq] at hw
    rw [List.filter_cons]
    split
    · simp only [SMap.wfFrom, SMap.above, Bool.and_eq_true, decide_eq_true_eq]
      exact ⟨hw.1, ih hw.2⟩
    · cases lo with
      | none => exact SMap.wfFrom_none (ih hw.2)
      | some l => exact SMap.wfFrom_weaken (by have := hw.1.1; simp [SMap.above] at this; omega) (ih hw.2)

/-- Clearing a range keeps the canonical form. -/
theorem SMap.wf_clear [DecidableEq α] {m : SMap α} {lo hi : Nat} (hw : SMap.wf d m = true) :
    SMap.wf d (SMap.clear lo hi m) = true := SMap.wfFrom_filter _ hw

/-- Taking a slice keeps the canonical form. -/
theorem SMap.wf_slice [DecidableEq α] {m : SMap α} {lo hi : Nat} (hw : SMap.wf d m = true) :
    SMap.wf d (SMap.slice lo hi m) = true := SMap.wfFrom_filter _ hw

end Sys2Proof.Machine
end

