-- ==== Sys2Proof/Laws/Held.lean ====
section
/-! SUPPORT. Laws/Held.lean: what almost every function of the model keeps: the queue, the life counter, and the canonical form of the
addressed memories; and how that passes through choices, folds and record updates. The lemmas of the other files of Laws/ say it function by
function. -/

namespace Sys2Proof.Machine

/-- The queue and the life counter a state is held to. -/
structure Keep where
  queue : List Instr
  life : Nat

/-- The same, of the parts of a state. -/
def heldOf (k : Keep) (p : List Instr) (life : Nat) (regs live : SMap Word) (seqs : SMap Seq) (banks : SMap Bank) (arbs : SMap Arb)
    (scans : SMap (Option Scan)) (aud : SMap AudPort) (ddr sram : SMap Byte) (trace : SMap (BitVec 64)) : Prop :=
  p = k.queue ∧ life = k.life ∧ Canonical regs live seqs banks arbs scans aud ddr sram trace

/-- The state has k's queue and life counter, and its addressed memories are in their canonical form. -/
def Held (k : Keep) (s : State) : Prop :=
  heldOf k s.pending s.life s.regs s.live s.seqs s.banks s.arbs s.scans s.aud s.ddr s.sram s.trace

/-- Held of a state that may not be there. -/
structure HeldO (k : Keep) (o : Option State) : Prop where
  use : ∀ r, o = some r → Held k r

/-- Held of a state with a result, which may not be there. -/
structure HeldOP {β : Type} (k : Keep) (o : Option (State × β)) : Prop where
  use : ∀ r, o = some r → Held k r.1

/-- Held of the next state. -/
structure HeldH (k : Keep) (o : Host.Outcome State Fault Refusal) : Prop where
  use : ∀ r, o = .next r → Held k r

variable {k : Keep} {s : State} {β γ : Type}

theorem Held.ofCanon (h : s.Canon) : Held ⟨s.pending, s.life⟩ s := ⟨rfl, rfl, h⟩
theorem Held.canon (h : Held k s) : s.Canon := h.2.2
theorem Held.pending (h : Held k s) : s.pending = k.queue := h.1
theorem Held.lifeEq (h : Held k s) : s.life = k.life := h.2.1

theorem held_mk {p o rg lv la sq ba w li se cm co tl lm br cl po sr ti te mc ar sc ld pw ki ag ca au jt sm rx tx tr dd he st nv fw sg sl ts dl dp fc} :
    Held k (State.mk p o rg lv la sq ba w li se cm co tl lm br cl po sr ti te mc ar sc ld pw ki ag ca au jt sm rx tx tr dd he st nv fw sg sl
      ts dl dp fc) = heldOf k p li rg lv sq ba ar sc au dd sm tr := rfl

theorem heldOf_self (h : Held k s) :
    heldOf k s.pending s.life s.regs s.live s.seqs s.banks s.arbs s.scans s.aud s.ddr s.sram s.trace := h
theorem heldOf_regs {m : SMap Word} (h : Held k s) (hm : SMap.wf regReset s.regs = true → SMap.wf regReset m = true) :
    heldOf k s.pending s.life m s.live s.seqs s.banks s.arbs s.scans s.aud s.ddr s.sram s.trace :=
  ⟨h.1, h.2.1, ⟨hm h.2.2.regs, h.2.2.live, h.2.2.seqs, h.2.2.banks, h.2.2.arbs, h.2.2.scans, h.2.2.aud, h.2.2.ddr, h.2.2.sram, h.2.2.trace⟩⟩
theorem heldOf_live {m : SMap Word} (h : Held k s) (hm : SMap.wf regReset s.live = true → SMap.wf regReset m = true) :
    heldOf k s.pending s.life s.regs m s.seqs s.banks s.arbs s.scans s.aud s.ddr s.sram s.trace :=
  ⟨h.1, h.2.1, ⟨h.2.2.regs, hm h.2.2.live, h.2.2.seqs, h.2.2.banks, h.2.2.arbs, h.2.2.scans, h.2.2.aud, h.2.2.ddr, h.2.2.sram, h.2.2.trace⟩⟩
theorem heldOf_seqs {m : SMap Seq} (h : Held k s) (hm : SMap.wf (fun _ => Seq.init) s.seqs = true → SMap.wf (fun _ => Seq.init) m = true) :
    heldOf k s.pending s.life s.regs s.live m s.banks s.arbs s.scans s.aud s.ddr s.sram s.trace :=
  ⟨h.1, h.2.1, ⟨h.2.2.regs, h.2.2.live, hm h.2.2.seqs, h.2.2.banks, h.2.2.arbs, h.2.2.scans, h.2.2.aud, h.2.2.ddr, h.2.2.sram, h.2.2.trace⟩⟩
theorem heldOf_banks {m : SMap Bank} (h : Held k s) (hm : SMap.wf (fun _ => Bank.init) s.banks = true → SMap.wf (fun _ => Bank.init) m = true) :
    heldOf k s.pending s.life s.regs s.live s.seqs m s.arbs s.scans s.aud s.ddr s.sram s.trace :=
  ⟨h.1, h.2.1, ⟨h.2.2.regs, h.2.2.live, h.2.2.seqs, hm h.2.2.banks, h.2.2.arbs, h.2.2.scans, h.2.2.aud, h.2.2.ddr, h.2.2.sram, h.2.2.trace⟩⟩
theorem heldOf_arbs {m : SMap Arb} (h : Held k s) (hm : SMap.wf (fun _ => Arb.init) s.arbs = true → SMap.wf (fun _ => Arb.init) m = true) :
    heldOf k s.pending s.life s.regs s.live s.seqs s.banks m s.scans s.aud s.ddr s.sram s.trace :=
  ⟨h.1, h.2.1, ⟨h.2.2.regs, h.2.2.live, h.2.2.seqs, h.2.2.banks, hm h.2.2.arbs, h.2.2.scans, h.2.2.aud, h.2.2.ddr, h.2.2.sram, h.2.2.trace⟩⟩
theorem heldOf_scans {m : SMap (Option Scan)} (h : Held k s) (hm : SMap.wf (fun _ => none) s.scans = true → SMap.wf (fun _ => none) m = true) :
    heldOf k s.pending s.life s.regs s.live s.seqs s.banks s.arbs m s.aud s.ddr s.sram s.trace :=
  ⟨h.1, h.2.1, ⟨h.2.2.regs, h.2.2.live, h.2.2.seqs, h.2.2.banks, h.2.2.arbs, hm h.2.2.scans, h.2.2.aud, h.2.2.ddr, h.2.2.sram, h.2.2.trace⟩⟩
theorem heldOf_aud {m : SMap AudPort} (h : Held k s) (hm : SMap.wf (fun _ => AudPort.init) s.aud = true → SMap.wf (fun _ => AudPort.init) m = true) :
    heldOf k s.pending s.life s.regs s.live s.seqs s.banks s.arbs s.scans m s.ddr s.sram s.trace :=
  ⟨h.1, h.2.1, ⟨h.2.2.regs, h.2.2.live, h.2.2.seqs, h.2.2.banks, h.2.2.arbs, h.2.2.scans, hm h.2.2.aud, h.2.2.ddr, h.2.2.sram, h.2.2.trace⟩⟩
theorem heldOf_ddr {m : SMap Byte} (h : Held k s) (hm : SMap.wf ddrFill s.ddr = true → SMap.wf ddrFill m = true) :
    heldOf k s.pending s.life s.regs s.live s.seqs s.banks s.arbs s.scans s.aud m s.sram s.trace :=
  ⟨h.1, h.2.1, ⟨h.2.2.regs, h.2.2.live, h.2.2.seqs, h.2.2.banks, h.2.2.arbs, h.2.2.scans, h.2.2.aud, hm h.2.2.ddr, h.2.2.sram, h.2.2.trace⟩⟩
theorem heldOf_sram {m : SMap Byte} (h : Held k s) (hm : SMap.wf sramFill s.sram = true → SMap.wf sramFill m = true) :
    heldOf k s.pending s.life s.regs s.live s.seqs s.banks s.arbs s.scans s.aud s.ddr m s.trace :=
  ⟨h.1, h.2.1, ⟨h.2.2.regs, h.2.2.live, h.2.2.seqs, h.2.2.banks, h.2.2.arbs, h.2.2.scans, h.2.2.aud, h.2.2.ddr, hm h.2.2.sram, h.2.2.trace⟩⟩
theorem heldOf_trace {m : SMap (BitVec 64)} (h : Held k s) (hm : SMap.wf (fun _ => 0) s.trace = true → SMap.wf (fun _ => 0) m = true) :
    heldOf k s.pending s.life s.regs s.live s.seqs s.banks s.arbs s.scans s.aud s.ddr s.sram m :=
  ⟨h.1, h.2.1, ⟨h.2.2.regs, h.2.2.live, h.2.2.seqs, h.2.2.banks, h.2.2.arbs, h.2.2.scans, h.2.2.aud, h.2.2.ddr, h.2.2.sram, hm h.2.2.trace⟩⟩
theorem heldOf_liveTo {m : SMap Word} (h : Held k s) (hm : SMap.wf regReset m = true) :
    heldOf k s.pending s.life s.regs m s.seqs s.banks s.arbs s.scans s.aud s.ddr s.sram s.trace := heldOf_live h fun _ => hm

theorem held_ite {c : Prop} [Decidable c] {a b : State} (ha : Held k a) (hb : Held k b) : Held k (if c then a else b) := by
  split <;> assumption
theorem held_ite1 {c : Prop} [Decidable c] {a b : State × β} (ha : Held k a.1) (hb : Held k b.1) : Held k (if c then a else b).1 := by
  split <;> assumption
theorem held_iteV {c : Prop} [Decidable c] {a b : VecAcc} (ha : Held k a.s) (hb : Held k b.s) : Held k (if c then a else b).s := by
  split <;> assumption

theorem held_foldl {f : State → β → State} (hf : ∀ u x, Held k u → Held k (f u x)) :
    ∀ (l : List β) {s : State}, Held k s → Held k (l.foldl f s)
  | [], _, h => h
  | x :: l, _, h => held_foldl hf l (hf _ x h)
theorem held_foldl1 {f : State × γ → β → State × γ} (hf : ∀ u x, Held k u.1 → Held k (f u x).1) :
    ∀ (l : List β) {s : State × γ}, Held k s.1 → Held k (l.foldl f s).1
  | [], _, h => h
  | x :: l, _, h => held_foldl1 hf l (hf _ x h)
theorem held_foldlV {f : VecAcc → β → VecAcc} (hf : ∀ u x, Held k u.s → Held k (f u x).s) :
    ∀ (l : List β) {s : VecAcc}, Held k s.s → Held k (l.foldl f s).s
  | [], _, h => h
  | x :: l, _, h => held_foldlV hf l (hf _ x h)

theorem heldH_next (h : Held k s) : HeldH k (.next s) := ⟨fun _ e => by cases e; exact h⟩

theorem heldO_none : HeldO k none := ⟨fun _ e => nomatch e⟩
theorem heldO_some (h : Held k s) : HeldO k (some s) := ⟨fun _ e => by cases e; exact h⟩
theorem heldO_ite {c : Prop} [Decidable c] {a b : Option State} (ha : HeldO k a) (hb : HeldO k b) : HeldO k (if c then a else b) := by
  split <;> assumption
theorem heldO_use {o : Option State} (e : o = some s) (h : HeldO k o) : Held k s := h.use _ e
theorem heldO_map {o : Option β} {f : β → State} (hf : ∀ x, Held k (f x)) : HeldO k (o.map f) := by
  cases o with
  | none => exact heldO_none
  | some x => exact heldO_some (hf x)

theorem heldOP_none : HeldOP (β := β) k none := ⟨fun _ e => nomatch e⟩
theorem heldOP_some {r : State × β} (h : Held k r.1) : HeldOP k (some r) := ⟨fun _ e => by cases e; exact h⟩
theorem heldOP_ite {c : Prop} [Decidable c] {a b : Option (State × β)} (ha : HeldOP k a) (hb : HeldOP k b) :
    HeldOP k (if c then a else b) := by
  split <;> assumption
theorem heldOP_use {o : Option (State × β)} {r : State × β} (e : o = some r) (h : HeldOP k o) : Held k r.1 := h.use _ e
theorem heldOP_map {o : Option (State × β)} {f : State × β → State × γ} (h : HeldOP k o) (hf : ∀ x, Held k x.1 → Held k (f x).1) :
    HeldOP k (o.map f) := by
  cases o with
  | none => exact heldOP_none
  | some x => exact heldOP_some (hf _ (h.use _ rfl))
theorem heldOP_bind {o : Option β} {f : β → Option (State × γ)} (hf : ∀ x, HeldOP k (f x)) : HeldOP k (o.bind f) := by
  cases o with
  | none => exact heldOP_none
  | some x => exact hf x

/-- Setting registers one after the other keeps the canonical form. -/
theorem wf_foldl_set (f : β → Nat) (g : β → Word) : ∀ (l : List β) {m : SMap Word}, SMap.wf regReset m = true →
    SMap.wf regReset (l.foldl (fun m a => SMap.set regReset m (f a) (g a)) m) = true
  | [], _, h => h
  | _ :: l, _, h => wf_foldl_set f g l (SMap.wf_set h)

end Sys2Proof.Machine
end

