-- ==== Sys2Proof/Laws/Ops.lean ====
section
/-! SUPPORT. Laws/Ops.lean: each operation of Machine/Ops.lean leaves the queue, the life counter and the canonical form. -/

namespace Sys2Proof.Machine

theorem setReg_held {k : Keep} {s : State} {a : Nat} {v : Word} (hs : Held k s) : Held k (State.setReg s a v) := by
  unfold State.setReg
  repeat' first | with_reducible (first | assumption | intro _ | apply heldOf_regs | exact SMap.wf_set ‹_›) | simp only [held_mk]
theorem setF_held {k : Keep} {s : State} {f : Field} {v : Nat} (hs : Held k s) : Held k (State.setF s f v) := by
  unfold State.setF
  repeat' with_reducible (first | assumption | apply setReg_held)
theorem setFlag_held {k : Keep} {s : State} {f : Field} {b : Bool} (hs : Held k s) : Held k (State.setFlag s f b) := by
  unfold State.setFlag
  repeat' with_reducible (first | assumption | apply setF_held)
theorem count_held {k : Keep} {s : State} {a : Nat} {n : Nat} (hs : Held k s) : Held k (State.count s a n) := by
  unfold State.count
  repeat' with_reducible (first | assumption | apply setReg_held)
theorem count16_held {k : Keep} {s : State} {a : Nat} {n : Nat} (hs : Held k s) : Held k (State.count16 s a n) := by
  unfold State.count16
  repeat' with_reducible (first | assumption | apply setReg_held)
theorem setLive_held {k : Keep} {s : State} {a : Nat} {v : Word} (hs : Held k s) : Held k (State.setLive s a v) := by
  unfold State.setLive
  repeat' first | with_reducible (first | assumption | intro _ | apply heldOf_live | exact SMap.wf_set ‹_›) | simp only [held_mk]
theorem plainWrite_held {k : Keep} {s : State} {a : Nat} {v : Word} (hs : Held k s) : Held k (State.plainWrite s a v) := by
  unfold State.plainWrite
  repeat' first | with_reducible (first | assumption | apply setReg_held) | split
theorem emit_held {k : Keep} {s : State} {o : Out} (hs : Held k s) : Held k (State.emit s o) := by
  unfold State.emit
  repeat' first | with_reducible (first | assumption | apply heldOf_self) | simp only [held_mk]
theorem sessOut_held {k : Keep} {s : State} {spi : Bool} {o : Out} (hs : Held k s) : Held k (State.sessOut s spi o) := by
  unfold State.sessOut
  repeat' first | with_reducible (first | assumption | apply held_ite | apply heldOf_self | apply emit_held) | simp only [held_mk]
theorem freed_held {k : Keep} {s : State} (hs : Held k s) : Held k (State.freed s) := by
  unfold State.freed
  repeat' first | with_reducible (first | assumption | apply heldOf_self) | simp only [held_mk]
theorem irq_held {k : Keep} {s : State} {b : Nat} (hs : Held k s) : Held k (State.irq s b) := by
  unfold State.irq
  repeat' with_reducible (first | assumption | apply setReg_held)
theorem setSeq_held {k : Keep} {s : State} {k0 : Nat} {q : Seq} (hs : Held k s) : Held k (State.setSeq s k0 q) := by
  unfold State.setSeq
  repeat' first | with_reducible (first | assumption | intro _ | apply heldOf_seqs | exact SMap.wf_set ‹_›) | simp only [held_mk]
theorem setBank_held {k : Keep} {s : State} {k0 : Nat} {b : Bank} (hs : Held k s) : Held k (State.setBank s k0 b) := by
  unfold State.setBank
  repeat' first | with_reducible (first | assumption | intro _ | apply heldOf_banks | exact SMap.wf_set ‹_›) | simp only [held_mk]
theorem setPair_held {k : Keep} {s : State} {a : Nat} {v : Nat} (hs : Held k s) : Held k (State.setPair s a v) := by
  unfold State.setPair
  repeat' with_reducible (first | assumption | apply setReg_held)
theorem ddrWrite_held {k : Keep} {s : State} {a : Nat} {bs : List Byte} (hs : Held k s) : Held k (State.ddrWrite s a bs) := by
  unfold State.ddrWrite
  repeat' first | with_reducible (first | assumption | intro _ | apply heldOf_ddr | exact SMap.wf_setList ‹_›) | simp only [held_mk]

end Sys2Proof.Machine
end

