-- ==== Sys2Proof/Laws/Link.lean ====
section
/-! SUPPORT. Laws/Link.lean: each operation of Machine/Link.lean leaves the queue, the life counter and the canonical form. -/

namespace Sys2Proof.Machine

theorem freeBlocks_held {k : Keep} {s : State} {port : Nat} {cls : Nat} {n : Nat} (hs : Held k s) : Held k (State.freeBlocks s port cls n) := by
  unfold State.freeBlocks
  repeat' first | with_reducible (first | assumption | apply held_ite | apply heldOf_self | apply emit_held) | simp only [held_mk]
theorem setLanes_held {k : Keep} {s : State} {p : Nat} {f : Nat → Field} {v : Nat} (hs : Held k s) : Held k (State.setLanes s p f v) := by
  unfold State.setLanes
  repeat' with_reducible (first | assumption | intro _ | apply setF_held | apply held_foldl)
theorem countLanes_held {k : Keep} {s : State} {p : Nat} {a : Nat → Nat} (hs : Held k s) : Held k (State.countLanes s p a) := by
  unfold State.countLanes
  repeat' with_reducible (first | assumption | intro _ | apply count_held | apply held_foldl)
theorem txWake_held {k : Keep} {s : State} {p : Nat} (hs : Held k s) : Held k (State.txWake s p) := by
  unfold State.txWake
  repeat' with_reducible (first | assumption | apply held_ite | apply emit_held | apply countLanes_held | apply setLanes_held)
theorem pump_held {k : Keep} {s : State} {port : Nat} {cls : Nat} (hs : Held k s) : Held k (State.pump s port cls) := by
  unfold State.pump
  repeat' first
    | with_reducible first
      | assumption | intro _ | apply held_ite | apply heldOf_self | apply txWake_held | apply emit_held | apply freeBlocks_held
    | simp only [held_mk]
    | with_reducible apply held_foldl
theorem sendFrom_held {k : Keep} {s : State} {src : Option Nat} {port : Nat} {p : CordPkt} (hs : Held k s) : Held k (State.sendFrom s src port
    p) := by
  unfold State.sendFrom
  repeat' first
    | with_reducible (first | assumption | apply held_ite | apply heldOf_self | apply countLanes_held | apply pump_held | apply freeBlocks_held)
    | simp only [held_mk]
    | split
theorem send_held {k : Keep} {s : State} {port : Nat} {p : CordPkt} (hs : Held k s) : Held k (State.send s port p) := by
  unfold State.send
  repeat' with_reducible (first | assumption | apply sendFrom_held)
theorem ringSend_held {k : Keep} {s : State} {dest : Nat} {b : RingBody} (hs : Held k s) : Held k (State.ringSend s dest b) := by
  unfold State.ringSend
  repeat' with_reducible (first | assumption | apply held_ite | apply txWake_held | apply emit_held)
theorem sendUp_held {k : Keep} {s : State} {b : CordBody} (hs : Held k s) : Held k (State.sendUp s b) := by
  unfold State.sendUp
  repeat' with_reducible (first | assumption | apply send_held)

end Sys2Proof.Machine
end

