-- ==== Sys2Proof/Laws/Events.lean ====
section
/-! SUPPORT. Laws/Events.lean: each operation of Machine/Events.lean leaves the queue, the life counter and the canonical form. -/

namespace Sys2Proof.Machine

theorem keyAfter_held {k : Keep} {s : State} {x : Session} (hs : Held k s) : Held k (State.keyAfter s x) := by
  unfold State.keyAfter
  repeat' with_reducible (first | assumption | apply held_ite | apply sessOut_held)
theorem eventAt_held {k : Keep} {s : State} {code : Nat} {port : Nat} {pos : Nat} {detail : List Byte} {r : Recips} (hs : Held k s) : Held k
    (State.eventAt s code port pos detail r) := by
  unfold State.eventAt
  repeat' first
    | with_reducible first
      | assumption | intro _ | apply held_ite | apply heldOf_self | apply sessOut_held | apply count_held | apply keyAfter_held
    | simp only [held_mk]
    | with_reducible apply held_foldl
theorem event_held {k : Keep} {s : State} {code : Nat} {detail : List Byte} {r : Recips} (hs : Held k s) : Held k (State.event s code detail r) := by
  unfold State.event
  repeat' first
    | with_reducible (first | assumption | apply held_ite | apply heldOf_self | apply eventAt_held | apply sendUp_held)
    | simp only [held_mk]
theorem trace64_held {k : Keep} {s : State} {src : Nat} {kind : Nat} {data : Word} (hs : Held k s) : Held k (State.trace64 s src kind data) := by
  unfold State.trace64
  repeat' first
    | with_reducible first
      | assumption | intro _ | apply held_ite | apply setF_held | apply setFlag_held | apply heldOf_trace | exact SMap.wf_set ‹_›
    | simp only [held_mk]
theorem traceSeq_held {k : Keep} {s : State} {k0 : Nat} {kind : Nat} {data : Word} (hs : Held k s) : Held k (State.traceSeq s k0 kind data) := by
  unfold State.traceSeq
  repeat' with_reducible (first | assumption | apply held_ite | apply trace64_held)
theorem traceMark_held {k : Keep} {s : State} {kind : Nat} {data : Word} (hs : Held k s) : Held k (State.traceMark s kind data) := by
  unfold State.traceMark
  repeat' with_reducible (first | assumption | apply trace64_held)
theorem raiseEv_held {k : Keep} {s : State} {k0 : Nat} {n : Nat} (hs : Held k s) : Held k (State.raiseEv s k0 n) := by
  unfold State.raiseEv
  repeat' with_reducible (first | assumption | apply held_ite | apply count16_held | apply setSeq_held)
theorem raiseFsq_held {k : Keep} {s : State} {n : Nat} (hs : Held k s) : Held k (State.raiseFsq s n) := by
  unfold State.raiseFsq
  repeat' with_reducible (first | assumption | apply held_ite | apply raiseEv_held)
theorem raisePsqs_held {k : Keep} {s : State} {n : Nat} (hs : Held k s) : Held k (State.raisePsqs s n) := by
  unfold State.raisePsqs
  repeat' with_reducible (first | assumption | intro _ | apply raiseEv_held | apply held_foldl)
theorem raiseSw_held {k : Keep} {s : State} {n : Nat} (hs : Held k s) : Held k (State.raiseSw s n) := by
  unfold State.raiseSw
  repeat' with_reducible (first | assumption | apply raiseFsq_held | apply raisePsqs_held | apply irq_held | apply setReg_held)
theorem raiseSwMask_held {k : Keep} {s : State} {m : Nat} (hs : Held k s) : Held k (State.raiseSwMask s m) := by
  unfold State.raiseSwMask
  repeat' with_reducible (first | assumption | intro _ | apply held_ite | apply raiseSw_held | apply held_foldl)
theorem bankSafe_held {k : Keep} {s : State} {n : Nat} (hs : Held k s) : Held k (State.bankSafe s n) := by
  unfold State.bankSafe
  repeat' with_reducible (first | assumption | apply setBank_held | apply setFlag_held)
theorem testFault_held {k : Keep} {s : State} {n : Nat} {code : Nat} (hs : Held k s) : Held k (State.testFault s n code) := by
  unfold State.testFault
  repeat' first | with_reducible (first | assumption | apply heldOf_self) | simp only [held_mk]
theorem psqHaltSafe_held {k : Keep} {s : State} {n : Nat} (hs : Held k s) : Held k (State.psqHaltSafe s n) := by
  unfold State.psqHaltSafe
  repeat' with_reducible (first | assumption | apply setSeq_held | apply bankSafe_held | apply setFlag_held)
theorem testRegs_held {k : Keep} {s : State} (hs : Held k s) : Held k (State.testRegs s) := by
  unfold State.testRegs
  repeat' with_reducible (first | assumption | apply setFlag_held | apply setF_held | apply setReg_held)
theorem testDisarm_held {k : Keep} {s : State} (hs : Held k s) : Held k (State.testDisarm s) := by
  unfold State.testDisarm
  repeat' first | with_reducible (first | assumption | apply heldOf_self | apply testRegs_held) | simp only [held_mk]
theorem panicSet_held {k : Keep} {s : State} {b : Nat} {on : Bool} (hs : Held k s) : Held k (State.panicSet s b on) := by
  unfold State.panicSet
  repeat' first
    | with_reducible (first | assumption | apply held_ite | apply heldOf_self | apply setFlag_held | apply count_held)
    | simp only [held_mk]
theorem engRegs_held {k : Keep} {s : State} (hs : Held k s) : Held k (State.engRegs s) := by
  unfold State.engRegs
  repeat' first
    | with_reducible (first | assumption | intro _ | apply held_ite | apply setF_held | apply panicSet_held)
    | with_reducible apply held_foldl

end Sys2Proof.Machine
end

