-- ==== Sys2Proof/Laws/Answer.lean ====
section
/-! SUPPORT. Laws/Answer.lean: each operation of Machine/Answer.lean leaves the queue, the life counter and the canonical form. -/

namespace Sys2Proof.Machine

theorem answer_held {k : Keep} {s : State} {sess : Nat} {seq : Word} {status : Nat} {data : List Byte} (hs : Held k s) : Held k (State.answer s sess
    seq status data) := by
  unfold State.answer
  repeat' first | with_reducible (first | assumption | apply heldOf_self) | simp only [held_mk]
theorem rspUp_held {k : Keep} {s : State} {b : CordBody} (hs : Held k s) : Held k (State.rspUp s b) := by
  unfold State.rspUp
  repeat' first | with_reducible (first | assumption | apply held_ite | apply heldOf_self | apply sendUp_held) | simp only [held_mk]
theorem rspRelease_held {k : Keep} {s : State} (hs : Held k s) : Held k (State.rspRelease s) := by
  unfold State.rspRelease
  repeat' first
    | with_reducible (first | assumption | intro _ | apply heldOf_self | apply sendUp_held)
    | simp only [held_mk]
    | with_reducible apply held_foldl
theorem ctrlAnswer_held {k : Keep} {s : State} {seq : Word} {op : Nat} {status : Nat} {data : List Byte} (hs : Held k s) : Held k (State.ctrlAnswer s
    seq op status data) := by
  unfold State.ctrlAnswer
  repeat' first | with_reducible (first | assumption | apply heldOf_self | apply rspUp_held | apply setReg_held) | simp only [held_mk]
theorem writeDone_held {k : Keep} {s : State} {w : WriteFor} {status : Nat} {data : List Byte} (hs : Held k s) : Held k (State.writeDone s w status
    data) := by
  unfold State.writeDone
  repeat' first | with_reducible (first | assumption | apply answer_held | apply ctrlAnswer_held) | split
theorem installDone_held {k : Keep} {s : State} {kind : Nat} {status : Nat} (hs : Held k s) : Held k (State.installDone s kind status) := by
  unfold State.installDone
  repeat' with_reducible (first | assumption | apply event_held)

end Sys2Proof.Machine
end

