-- ==== Sys2Proof/Laws/Layers.lean ====
section
/-! SUPPORT. Laws/Layers.lean: each operation of Machine/Layers.lean leaves the queue, the life counter and the canonical form. -/

namespace Sys2Proof.Machine

theorem recordAdmit_held {k : Keep} {s : State} {ls : List Layer} (hs : Held k s) : Held k (State.recordAdmit s ls) := by
  unfold State.recordAdmit
  repeat' first
    | with_reducible (first | assumption | intro _ | apply held_ite | apply setReg_held)
    | simp only [held_mk]
    | with_reducible apply held_foldl
theorem damageBands_held {k : Keep} {s : State} {bs : List (Nat × Nat × Nat)} (hs : Held k s) : Held k (State.damageBands s bs) := by
  unfold State.damageBands
  repeat' first
    | with_reducible (first | assumption | intro _ | apply held_ite | apply heldOf_self | apply setReg_held | apply raiseFsq_held)
    | simp only [held_mk]
    | with_reducible apply held_foldl

end Sys2Proof.Machine
end

