-- ==== Sys2Proof/Laws/Journal.lean ====
section
/-! SUPPORT. Laws/Journal.lean: each operation of Machine/Journal.lean leaves the queue, the life counter and the canonical form. -/

namespace Sys2Proof.Machine

theorem nvjRegs_held {k : Keep} {s : State} (hs : Held k s) : Held k (State.nvjRegs s) := by
  unfold State.nvjRegs
  repeat' with_reducible (first | assumption | apply setF_held | apply setReg_held)
theorem journal_held {k : Keep} {s : State} {typ : Nat} {key : Nat} {n : Nat} (hs : Held k s) : Held k (State.journal s typ key n) := by
  unfold State.journal
  repeat' first | with_reducible (first | assumption | apply heldOf_self | apply nvjRegs_held | apply count_held) | simp only [held_mk]
theorem journalDrop_held {k : Keep} {s : State} {typ : Nat} {key : Nat} (hs : Held k s) : Held k (State.journalDrop s typ key) := by
  unfold State.journalDrop
  repeat' first | with_reducible (first | assumption | apply heldOf_self | apply nvjRegs_held) | simp only [held_mk]
theorem journalClaim_held {k : Keep} {s : State} (hs : Held k s) : Held k (State.journalClaim s) := by
  unfold State.journalClaim
  repeat' with_reducible (first | assumption | apply journal_held)
theorem journalBilling_held {k : Keep} {s : State} (hs : Held k s) : Held k (State.journalBilling s) := by
  unfold State.journalBilling
  repeat' with_reducible (first | assumption | apply journal_held)
theorem journalCkpt_held {k : Keep} {s : State} {n : Nat} (hs : Held k s) : Held k (State.journalCkpt s n) := by
  unfold State.journalCkpt
  repeat' first | with_reducible (first | assumption | intro _ | apply journal_held) | simp only [held_mk] | with_reducible apply held_foldl

end Sys2Proof.Machine
end

