-- ==== Sys2Proof/Laws/Pop.lean ====
section
/-! SUPPORT. Laws/Pop.lean: each operation of Machine/Pop.lean leaves the queue, the life counter and the canonical form. -/

namespace Sys2Proof.Machine

theorem popRegs_held {k : Keep} {s : State} (hs : Held k s) : Held k (State.popRegs s) := by
  unfold State.popRegs
  repeat' with_reducible (first | assumption | apply setFlag_held | apply setF_held | apply setReg_held | apply setPair_held)
theorem popFinal_held {k : Keep} {s : State} {p : PopPeriod} (hs : Held k s) : Held k (State.popFinal s p) := by
  unfold State.popFinal
  repeat' first
    | with_reducible (first | assumption | apply held_ite | apply heldOf_self | apply popRegs_held | apply journalBilling_held | apply count_held)
    | simp only [held_mk]
theorem popSettle_held {k : Keep} {s : State} (hs : Held k s) : Held k (State.popSettle s) := by
  unfold State.popSettle
  repeat' first
    | with_reducible (first | assumption | intro _ | apply heldOf_self | apply popFinal_held)
    | simp only [held_mk]
    | with_reducible apply held_foldl
theorem popClose_held {k : Keep} {s : State} {flags : Nat} (hs : Held k s) : Held k (State.popClose s flags) := by
  unfold State.popClose
  repeat' first | with_reducible (first | assumption | apply heldOf_self | apply popSettle_held) | simp only [held_mk] | split
theorem popOpen_held {k : Keep} {s : State} {flags : Nat} (hs : Held k s) : Held k (State.popOpen s flags) := by
  unfold State.popOpen
  repeat' first | with_reducible (first | assumption | apply heldOf_self | apply journalBilling_held | apply popRegs_held) | simp only [held_mk]
theorem popMark_held {k : Keep} {s : State} {fcnt : Nat} (hs : Held k s) : Held k (State.popMark s fcnt) := by
  unfold State.popMark
  repeat' first
    | with_reducible (first | assumption | apply held_ite | apply heldOf_self | apply popClose_held | apply popOpen_held)
    | simp only [held_mk]
    | split
theorem popTenantEnd_held {k : Keep} {s : State} {sel : Nat → Bool} (hs : Held k s) : Held k (State.popTenantEnd s sel) := by
  unfold State.popTenantEnd
  repeat' first | with_reducible (first | assumption | apply held_ite | apply heldOf_self | apply popSettle_held) | simp only [held_mk] | split
theorem popLayer_held {k : Keep} {s : State} {f : FrameRec} {g : CompGen} {l : Layer} (hs : Held k s) : Held k (State.popLayer s f g l) := by
  unfold State.popLayer
  repeat' first | with_reducible (first | assumption | apply heldOf_self) | simp only [held_mk]
theorem updFrame_held {k : Keep} {s : State} {fcnt : Nat} {f : FrameRec → FrameRec} (hs : Held k s) : Held k (State.updFrame s fcnt f) := by
  unfold State.updFrame
  repeat' first | with_reducible (first | assumption | apply heldOf_self) | simp only [held_mk]
theorem popEval_held {k : Keep} {s : State} {fcnt : Nat} (hs : Held k s) : Held k (State.popEval s fcnt) := by
  unfold State.popEval
  repeat' first
    | with_reducible (first | assumption | intro _ | apply popLayer_held | apply popSettle_held | apply updFrame_held | apply freed_held)
    | simp only [held_mk]
    | with_reducible apply held_foldl
    | split
theorem popFlipped_held {k : Keep} {s : State} {f : FrameRec} {p : Nat} {q : Nat} (hs : Held k s) : Held k (State.popFlipped s f p q) := by
  unfold State.popFlipped
  repeat' first | with_reducible (first | assumption | apply heldOf_self) | simp only [held_mk]
theorem popCheckpoint_held {k : Keep} {s : State} (hs : Held k s) : Held k (State.popCheckpoint s) := by
  unfold State.popCheckpoint
  repeat' first | with_reducible (first | assumption | apply heldOf_self | apply journalCkpt_held) | simp only [held_mk]
theorem popRestart_held {k : Keep} {s : State} (hs : Held k s) : Held k (State.popRestart s) := by
  unfold State.popRestart
  repeat' with_reducible (first | assumption | intro _ | apply popRegs_held | apply popFinal_held | apply held_foldl)
theorem popTimeSet_held {k : Keep} {s : State} (hs : Held k s) : Held k (State.popTimeSet s) := by
  unfold State.popTimeSet
  repeat' first
    | with_reducible (first | assumption | apply held_ite | apply heldOf_self | apply popClose_held | apply setFlag_held)
    | simp only [held_mk]
theorem popBoff_held {k : Keep} {s : State} (hs : Held k s) : Held k (State.popBoff s) := by
  unfold State.popBoff
  repeat' first | with_reducible (first | assumption | apply held_ite | apply heldOf_self | apply setFlag_held) | simp only [held_mk] | split
theorem popStep_held {k : Keep} {s : State} {b : Int} (hs : Held k s) : Held k (State.popStep s b) := by
  unfold State.popStep
  repeat' first
    | with_reducible (first | assumption | apply heldOf_self | apply popClose_held | apply count_held | apply popOpen_held)
    | simp only [held_mk]

end Sys2Proof.Machine
end

