-- ==== Sys2Proof/Laws/Sequencer.lean ====
section
/-! SUPPORT. Laws/Sequencer.lean: each operation of Machine/Sequencer.lean leaves the queue, the life counter and the canonical form. -/

namespace Sys2Proof.Machine

theorem setDmem_held {k : Keep} {s : State} {k0 : Nat} {a : Nat} {v : Word} (hs : Held k s) : Held k (State.setDmem s k0 a v) := by
  unfold State.setDmem
  repeat' with_reducible (first | assumption | apply setSeq_held)
theorem loadImage_held {k : Keep} {s : State} {k0 : Nat} {i : SeqImage} (hs : Held k s) : Held k (State.loadImage s k0 i) := by
  unfold State.loadImage
  repeat' first
    | with_reducible (first | assumption | apply held_ite | apply heldOf_self | apply setSeq_held | apply setFlag_held)
    | simp only [held_mk]
theorem unloadImage_held {k : Keep} {s : State} {n : Nat} (hs : Held k s) : Held k (State.unloadImage s n) := by
  unfold State.unloadImage
  repeat' with_reducible (first | assumption | apply setSeq_held | apply psqHaltSafe_held | apply setFlag_held)
theorem genRestart_held {k : Keep} {s : State} {n : Nat} (hs : Held k s) : Held k (State.genRestart s n) := by
  unfold State.genRestart
  repeat' with_reducible (first | assumption | apply setBank_held | apply setReg_held)
theorem pinStart_held {k : Keep} {s : State} {n : Nat} (hs : Held k s) : Held k (State.pinStart s n) := by
  unfold State.pinStart
  repeat' with_reducible first
    | assumption | intro _ | apply held_ite | apply setBank_held | apply setReg_held | apply setFlag_held | apply genRestart_held | apply held_foldl
theorem progStart_held {k : Keep} {s : State} {k0 : Nat} (hs : Held k s) : Held k (State.progStart s k0) := by
  unfold State.progStart
  repeat' first
    | with_reducible first
      | assumption | apply held_ite | apply heldOf_self | apply setSeq_held | apply setFlag_held | apply setReg_held | apply pinStart_held
    | simp only [held_mk]
theorem seqFault_held {k : Keep} {s : State} {k0 : Nat} {code : Nat} {w : BitVec 64} (hs : Held k s) : Held k (State.seqFault s k0 code w) := by
  unfold State.seqFault
  repeat' first
    | with_reducible first
      | assumption | apply held_ite | apply heldOf_self | apply setFlag_held | apply setReg_held | apply irq_held | apply traceSeq_held
      | apply event_held | apply testFault_held | apply psqHaltSafe_held
    | simp only [held_mk]
theorem nonvec_held {k : Keep} {s : State} {k0 : Nat} (hs : Held k s) : Held k (State.nonvec s k0) := by
  unfold State.nonvec
  repeat' with_reducible (first | assumption | apply held_ite | apply setBank_held)
theorem goTo_held {k : Keep} {s : State} {k0 : Nat} {q : Seq} {pc : Nat} (hs : Held k s) : Held k (State.goTo s k0 q pc) := by
  unfold State.goTo
  repeat' with_reducible (first | assumption | apply nonvec_held | apply setSeq_held)
theorem goNext_held {k : Keep} {s : State} {k0 : Nat} {q : Seq} (hs : Held k s) : Held k (State.goNext s k0 q) := by
  unfold State.goNext
  repeat' with_reducible (first | assumption | apply goTo_held)
theorem jumpTo_held {k : Keep} {s : State} {k0 : Nat} {q : Seq} {pc : Nat} (hs : Held k s) : Held k (State.jumpTo s k0 q pc) := by
  unfold State.jumpTo
  repeat' with_reducible (first | assumption | apply traceSeq_held | apply goTo_held)
theorem writePairs_held {k : Keep} {s : State} {n : Nat} (hs : Held k s) : Held k (State.writePairs s n) := by
  unfold State.writePairs
  repeat' with_reducible (first | assumption | intro _ | apply held_ite | apply plainWrite_held | apply held_foldl)
theorem takeStagedAdmit_held {k : Keep} {s : State} (hs : Held k s) : Held k (State.takeStagedAdmit s) := by
  unfold State.takeStagedAdmit
  repeat' first
    | with_reducible (first | assumption | intro _ | apply heldOf_self | apply setF_held | apply setReg_held)
    | simp only [held_mk]
    | with_reducible apply held_foldl
    | split
theorem imageSwitch_held {k : Keep} {s : State} {k0 : Nat} (hs : Held k s) : Held k (State.imageSwitch s k0) := by
  unfold State.imageSwitch
  repeat' first
    | with_reducible first
      | assumption | apply held_ite | apply setSeq_held | apply setFlag_held | apply progStart_held | apply unloadImage_held | apply writePairs_held
      | apply loadImage_held | apply takeStagedAdmit_held | apply testFault_held | apply psqHaltSafe_held
    | simp only [held_mk]
    | split
theorem doNop_held {k : Keep} {s : State} {k0 : Nat} {x2 : BitVec 64} (hs : Held k s) : Held k (doNop s k0 x2) := by
  unfold doNop
  repeat' with_reducible (first | assumption | apply goNext_held)
theorem doJmp_held {k : Keep} {s : State} {k0 : Nat} {w : BitVec 64} (hs : Held k s) : Held k (doJmp s k0 w) := by
  unfold doJmp
  repeat' with_reducible (first | assumption | apply jumpTo_held)
theorem doJz_held {k : Keep} {s : State} {k0 : Nat} {w : BitVec 64} (hs : Held k s) : Held k (doJz s k0 w) := by
  unfold doJz
  repeat' with_reducible (first | assumption | apply held_ite | apply jumpTo_held | apply goNext_held)
theorem doJnz_held {k : Keep} {s : State} {k0 : Nat} {w : BitVec 64} (hs : Held k s) : Held k (doJnz s k0 w) := by
  unfold doJnz
  repeat' with_reducible (first | assumption | apply held_ite | apply goNext_held | apply jumpTo_held)
theorem doCall_held {k : Keep} {s : State} {k0 : Nat} {w : BitVec 64} (hs : Held k s) : Held k (doCall s k0 w) := by
  unfold doCall
  repeat' with_reducible (first | assumption | apply jumpTo_held)
theorem doRet_held {k : Keep} {s : State} {k0 : Nat} {x2 : BitVec 64} (hs : Held k s) : Held k (doRet s k0 x2) := by
  unfold doRet
  repeat' first | with_reducible (first | assumption | apply jumpTo_held) | simp only [held_mk] | split
theorem doLoop_held {k : Keep} {s : State} {k0 : Nat} {w : BitVec 64} (hs : Held k s) : Held k (doLoop s k0 w) := by
  unfold doLoop
  repeat' with_reducible (first | assumption | apply held_ite | apply goTo_held | apply goNext_held)
theorem doEndl_held {k : Keep} {s : State} {k0 : Nat} {w : BitVec 64} (hs : Held k s) : Held k (doEndl s k0 w) := by
  unfold doEndl
  repeat' with_reducible (first | assumption | apply held_ite | apply goNext_held | apply jumpTo_held)
theorem doWait_held {k : Keep} {s : State} {k0 : Nat} {w : BitVec 64} (hs : Held k s) : Held k (doWait s k0 w) := by
  unfold doWait
  repeat' with_reducible (first | assumption | apply held_ite | apply goNext_held | apply setSeq_held | apply setBank_held)
theorem doSig_held {k : Keep} {s : State} {k0 : Nat} {w : BitVec 64} (hs : Held k s) : Held k (doSig s k0 w) := by
  unfold doSig
  repeat' with_reducible (first | assumption | apply raiseSw_held | apply goNext_held)
theorem doHalt_held {k : Keep} {s : State} {k0 : Nat} {x2 : BitVec 64} (hs : Held k s) : Held k (doHalt s k0 x2) := by
  unfold doHalt
  repeat' with_reducible (first | assumption | apply held_ite | apply traceSeq_held | apply imageSwitch_held | apply setFlag_held | apply setSeq_held)
theorem doMov_held {k : Keep} {s : State} {k0 : Nat} {w : BitVec 64} (hs : Held k s) : Held k (doMov s k0 w) := by
  unfold doMov
  repeat' with_reducible (first | assumption | apply goNext_held)
theorem scalar_held {k : Keep} {s : State} {k0 : Nat} {d : Nat} {r : Word} {c : Bool} (hs : Held k s) : Held k (State.scalar s k0 d r c) := by
  unfold State.scalar
  repeat' with_reducible (first | assumption | apply goNext_held)
theorem doAddi_held {k : Keep} {s : State} {k0 : Nat} {w : BitVec 64} (hs : Held k s) : Held k (doAddi s k0 w) := by
  unfold doAddi
  repeat' with_reducible (first | assumption | apply scalar_held)
theorem doAdd_held {k : Keep} {s : State} {k0 : Nat} {w : BitVec 64} (hs : Held k s) : Held k (doAdd s k0 w) := by
  unfold doAdd
  repeat' with_reducible (first | assumption | apply scalar_held)
theorem doSub_held {k : Keep} {s : State} {k0 : Nat} {w : BitVec 64} (hs : Held k s) : Held k (doSub s k0 w) := by
  unfold doSub
  repeat' with_reducible (first | assumption | apply scalar_held)
theorem doAnd_held {k : Keep} {s : State} {k0 : Nat} {w : BitVec 64} (hs : Held k s) : Held k (doAnd s k0 w) := by
  unfold doAnd
  repeat' with_reducible (first | assumption | apply scalar_held)
theorem doOr_held {k : Keep} {s : State} {k0 : Nat} {w : BitVec 64} (hs : Held k s) : Held k (doOr s k0 w) := by
  unfold doOr
  repeat' with_reducible (first | assumption | apply scalar_held)
theorem doXor_held {k : Keep} {s : State} {k0 : Nat} {w : BitVec 64} (hs : Held k s) : Held k (doXor s k0 w) := by
  unfold doXor
  repeat' with_reducible (first | assumption | apply scalar_held)
theorem doShl_held {k : Keep} {s : State} {k0 : Nat} {w : BitVec 64} (hs : Held k s) : Held k (doShl s k0 w) := by
  unfold doShl
  repeat' with_reducible (first | assumption | apply scalar_held)
theorem doShr_held {k : Keep} {s : State} {k0 : Nat} {w : BitVec 64} (hs : Held k s) : Held k (doShr s k0 w) := by
  unfold doShr
  repeat' with_reducible (first | assumption | apply scalar_held)
theorem doCmp_held {k : Keep} {s : State} {k0 : Nat} {w : BitVec 64} (hs : Held k s) : Held k (doCmp s k0 w) := by
  unfold doCmp
  repeat' with_reducible (first | assumption | apply scalar_held)
theorem doLd_held {k : Keep} {s : State} {k0 : Nat} {w : BitVec 64} (hs : Held k s) : Held k (doLd s k0 w) := by
  unfold doLd
  repeat' with_reducible (first | assumption | apply goNext_held)
theorem doSt_held {k : Keep} {s : State} {k0 : Nat} {w : BitVec 64} (hs : Held k s) : Held k (doSt s k0 w) := by
  unfold doSt
  repeat' with_reducible (first | assumption | apply setDmem_held | apply goNext_held)
theorem issueWord_held {k : Keep} {s : State} {id : SeqId} {w : BitVec 64} {ue : Bool} {eff : State → Nat → BitVec 64 → State} (hs : Held k s) (heff :
    ∀ u y0 y1, Held k u → Held k (eff u y0 y1)) : Held k (State.issueWord s id w ue eff) := by
  unfold State.issueWord
  repeat' first | with_reducible (first | assumption | apply heff | apply seqFault_held) | simp only [held_mk] | split
theorem issue_held {k : Keep} {s : State} {op : BitVec 6} {i : SeqInstr} {eff : State → Nat → BitVec 64 → State} (hs : Held k s) (heff : ∀ u y0 y1,
    Held k u → Held k (eff u y0 y1)) : Held k (State.issue s op i eff) := by
  unfold State.issue
  repeat' with_reducible (first | assumption | apply held_ite | apply issueWord_held)

end Sys2Proof.Machine
end

