-- ==== Sys2Proof/Laws/Frame.lean ====
section
/-! SUPPORT. Laws/Frame.lean: each operation of Machine/Frame.lean leaves the queue, the life counter and the canonical form. -/

namespace Sys2Proof.Machine

theorem setFcnt_held {k : Keep} {s : State} {n : Nat} (hs : Held k s) : Held k (State.setFcnt s n) := by
  unfold State.setFcnt
  repeat' with_reducible (first | assumption | apply setReg_held)
theorem relayOut_held {k : Keep} {s : State} {p : Nat} {k0 : CordPkt} (hs : Held k s) : Held k (State.relayOut s p k0) := by
  unfold State.relayOut
  repeat' with_reducible (first | assumption | apply ringSend_held)
theorem frameSend_held {k : Keep} {s : State} {p : Nat} {b : CordBody} (hs : Held k s) : Held k (State.frameSend s p b) := by
  unfold State.frameSend
  repeat' with_reducible (first | assumption | apply held_ite | apply send_held | apply relayOut_held)
theorem eachPort_held {k : Keep} {s : State} {mask : Nat} {f : State → Nat → State} (hs : Held k s) (hf : ∀ u y0, Held k u → Held k (f u y0)) : Held k
    (State.eachPort s mask f) := by
  unfold State.eachPort
  repeat' with_reducible (first | assumption | intro _ | apply held_ite | apply hf | apply held_foldl)
theorem setFrame_held {k : Keep} {s : State} {f : FrameRec} (hs : Held k s) : Held k (State.setFrame s f) := by
  unfold State.setFrame
  repeat' first | with_reducible (first | assumption | apply heldOf_self) | simp only [held_mk]
theorem jobsCheck_held {k : Keep} {s : State} (hs : Held k s) : Held k (State.jobsCheck s) := by
  unfold State.jobsCheck
  repeat' with_reducible (first | assumption | apply held_ite | apply raiseFsq_held | apply setFrame_held)
theorem missBand_held {k : Keep} {s : State} {p : Nat} (hs : Held k s) : Held k (State.missBand s p) := by
  unfold State.missBand
  repeat' with_reducible (first | assumption | apply setFlag_held | apply count_held)
theorem missJob_held {k : Keep} {s : State} {j : Job} (hs : Held k s) : Held k (State.missJob s j) := by
  unfold State.missJob
  repeat' with_reducible (first | assumption | apply jobsCheck_held | apply raiseFsq_held | apply missBand_held)
theorem feed_held {k : Keep} {s : State} (hs : Held k s) : Held k (State.feed s) := by
  unfold State.feed
  repeat' first | with_reducible (first | assumption | apply heldOf_self) | simp only [held_mk]
theorem bandOut_held {k : Keep} {s : State} {p : Nat} {q : Nat} {b : BandPkt} {far : Bool} (hs : Held k s) : Held k (State.bandOut s p q b far) := by
  unfold State.bandOut
  repeat' with_reducible (first | assumption | apply held_ite | apply relayOut_held | apply send_held | apply count_held)
theorem releaseOne_held {k : Keep} {s : State} {f : FrameRec} {e : Nat × Nat × Nat} (hs : Held k s) : Held k (State.releaseOne s f e).1 := by
  unfold State.releaseOne
  repeat' first | with_reducible (first | assumption | apply held_ite1 | apply heldOf_self | apply bandOut_held) | simp only [held_mk] | split
theorem releasePort_held {k : Keep} {s : State} {p : Nat} (hs : Held k s) : Held k (State.releasePort s p) := by
  unfold State.releasePort
  repeat' first
    | with_reducible (first | assumption | intro _ | apply held_ite1 | apply releaseOne_held)
    | simp only [held_mk]
    | with_reducible apply held_foldl1
theorem setHopF_held {k : Keep} {s : State} {far : Bool} {p : Nat} {hs0 : List Nat} {v : Nat} (hs : Held k s) : Held k (State.setHopF s far p hs0
    v) := by
  unfold State.setHopF
  repeat' first | with_reducible (first | assumption | apply heldOf_self) | simp only [held_mk]
theorem schedule_held {k : Keep} {s : State} {j : Job} {size : Nat} {t : Nat} {ptime : Nat} (hs : Held k s) : HeldOP k (State.schedule s j size t
    ptime) := by
  unfold State.schedule
  repeat' first
    | with_reducible (first | assumption | apply heldOP_none | apply heldOP_some | apply heldOP_ite | apply setHopF_held)
    | simp only [held_mk]
    | split
theorem schedDrop_held {k : Keep} {s : State} {j : Job} (hs : Held k s) : Held k (State.schedDrop s j) := by
  unfold State.schedDrop
  repeat' with_reducible (first | assumption | apply held_ite | apply count_held | apply setFlag_held | apply missJob_held)
theorem scheduleTaken_held {k : Keep} {s : State} {ptime : Nat} {j : Job} {t : Nat} (hs : Held k s) : Held k (State.scheduleTaken s ptime j t) := by
  unfold State.scheduleTaken
  repeat' first
    | with_reducible (first | assumption | apply heldOf_self | apply schedule_held | apply schedDrop_held | apply engRegs_held)
    | simp only [held_mk]
    | with_reducible refine heldOP_use ‹_› ?_
    | split
theorem scheduleIssued_held {k : Keep} {s : State} {f : FrameRec} {ptime : Nat} {e : Nat × Nat × Nat} (hs : Held k s) : Held k (State.scheduleIssued s
    f ptime e) := by
  unfold State.scheduleIssued
  repeat' first | with_reducible (first | assumption | apply held_ite | apply scheduleTaken_held) | split
theorem flipClose_held {k : Keep} {s : State} {f : FrameRec} (hs : Held k s) : Held k (State.flipClose s f) := by
  unfold State.flipClose
  repeat' with_reducible first
    | assumption | apply updFrame_held | apply setReg_held | apply setPair_held | apply setF_held | apply damageBands_held | apply popEval_held
    | apply raiseFsq_held
theorem flipCheck_held {k : Keep} {s : State} {fcnt : Nat} (hs : Held k s) : Held k (State.flipCheck s fcnt) := by
  unfold State.flipCheck
  repeat' first | with_reducible (first | assumption | apply held_ite | apply flipClose_held) | split
theorem pruneFrames_held {k : Keep} {s : State} (hs : Held k s) : Held k (State.pruneFrames s) := by
  unfold State.pruneFrames
  repeat' first | with_reducible (first | assumption | apply heldOf_self) | simp only [held_mk]
theorem closeUnsent_held {k : Keep} {s : State} (hs : Held k s) : Held k (State.closeUnsent s) := by
  unfold State.closeUnsent
  repeat' first
    | with_reducible (first | assumption | intro _ | apply held_ite | apply heldOf_self | apply count_held | apply damageBands_held)
    | simp only [held_mk]
    | with_reducible apply held_foldl
    | split
theorem doMark_held {k : Keep} {s : State} {k0 : Nat} {w : BitVec 64} (hs : Held k s) : Held k (doMark s k0 w) := by
  unfold doMark
  repeat' first
    | with_reducible first
      | assumption | intro _ | apply held_ite | apply heldOf_self | apply goNext_held | apply pruneFrames_held | apply closeUnsent_held
      | apply setFcnt_held | apply eachPort_held | apply frameSend_held | apply popMark_held | apply raisePsqs_held
    | simp only [held_mk]
theorem clearDmg_held {k : Keep} {s : State} {bs : List (Nat × Nat × Nat)} (hs : Held k s) : Held k (State.clearDmg s bs) := by
  unfold State.clearDmg
  repeat' first | with_reducible (first | assumption | intro _ | apply setReg_held) | simp only [held_mk] | with_reducible apply held_foldl
theorem doDamage_held {k : Keep} {s : State} {k0 : Nat} {w : BitVec 64} (hs : Held k s) : Held k (doDamage s k0 w) := by
  unfold doDamage
  repeat' first | with_reducible (first | assumption | apply heldOf_self | apply clearDmg_held | apply goNext_held) | simp only [held_mk]
theorem issueJobs_held {k : Keep} {s : State} {bs : List (Nat × Nat × Nat)} {eng : Nat} (hs : Held k s) : Held k (State.issueJobs s bs eng) := by
  unfold State.issueJobs
  repeat' first
    | with_reducible first
      | assumption | intro _ | apply held_ite | apply heldOf_self | apply count_held | apply setFrame_held | apply jobsCheck_held
      | apply damageBands_held | apply feed_held
    | simp only [held_mk]
    | with_reducible apply held_foldl
theorem doBand_held {k : Keep} {s : State} {k0 : Nat} {w : BitVec 64} (hs : Held k s) : Held k (doBand s k0 w) := by
  unfold doBand
  repeat' with_reducible (first | assumption | apply held_ite | apply goNext_held | apply setFlag_held | apply issueJobs_held)
theorem doZlist_held {k : Keep} {s : State} {k0 : Nat} {w : BitVec 64} (hs : Held k s) : Held k (doZlist s k0 w) := by
  unfold doZlist
  repeat' first
    | with_reducible first
      | assumption | intro _ | apply held_ite | apply heldOf_self | apply eachPort_held | apply damageBands_held | apply goNext_held
    | simp only [held_mk]
theorem doBudget_held {k : Keep} {s : State} {k0 : Nat} {w : BitVec 64} (hs : Held k s) : Held k (doBudget s k0 w) := by
  unfold doBudget
  repeat' with_reducible (first | assumption | apply held_ite | apply setF_held | apply setFlag_held | apply goNext_held)
theorem presentOut_held {k : Keep} {s : State} {eff : Nat} {off : Nat} (hs : Held k s) : Held k (State.presentOut s eff off) := by
  unfold State.presentOut
  repeat' first
    | with_reducible first
      | assumption | intro _ | apply setFrame_held | apply eachPort_held | apply frameSend_held | apply setHopF_held | apply scheduleIssued_held
      | apply flipCheck_held | apply releasePort_held
    | simp only [held_mk]
    | with_reducible apply held_foldl
theorem doFlip_held {k : Keep} {s : State} {k0 : Nat} {w : BitVec 64} (hs : Held k s) : Held k (doFlip s k0 w) := by
  unfold doFlip
  repeat' first
    | with_reducible (first | assumption | apply held_ite | apply heldOf_self | apply goNext_held | apply count_held | apply presentOut_held)
    | simp only [held_mk]
theorem doTestslot_held {k : Keep} {s : State} {k0 : Nat} {w : BitVec 64} (hs : Held k s) : Held k (doTestslot s k0 w) := by
  unfold doTestslot
  repeat' first
    | with_reducible first
      | assumption | intro _ | apply held_ite | apply heldOf_self | apply goNext_held | apply eachPort_held | apply frameSend_held
    | simp only [held_mk]

end Sys2Proof.Machine
end

