-- ==== Sys2Proof/Laws/Ctrl.lean ====
section
/-! SUPPORT. Laws/Ctrl.lean: each operation of Machine/Ctrl.lean leaves the queue, the life counter and the canonical form. -/

namespace Sys2Proof.Machine

theorem sendTo_held {k : Keep} {s : State} {p : Nat} {q : Nat} {b : CordBody} (hs : Held k s) : Held k (State.sendTo s p q b) := by
  unfold State.sendTo
  repeat' with_reducible (first | assumption | apply held_ite | apply relayOut_held | apply send_held)
theorem ctrlSend_held {k : Keep} {s : State} {p : Nat} {q : Nat} {op : Nat} {data : List Byte} {wcp : Option (Nat × Word)} (hs : Held k s) : Held k
    (State.ctrlSend s p q op data wcp) := by
  unfold State.ctrlSend
  repeat' first | with_reducible (first | assumption | apply heldOf_self | apply sendTo_held) | simp only [held_mk]
theorem ctrlResend_held {k : Keep} {s : State} {o : CtrlOut} (hs : Held k s) : Held k (State.ctrlResend s o) := by
  unfold State.ctrlResend
  repeat' with_reducible (first | assumption | apply sendTo_held)
theorem ctrlAll_held {k : Keep} {s : State} {op : Nat} {data : List Byte} (hs : Held k s) : Held k (State.ctrlAll s op data) := by
  unfold State.ctrlAll
  repeat' with_reducible (first | assumption | intro _ | apply ctrlSend_held | apply held_foldl)
theorem sendLampTf_held {k : Keep} {s : State} {p : Nat} {q : Nat} (hs : Held k s) : Held k (State.sendLampTf s p q) := by
  unfold State.sendLampTf
  repeat' with_reducible (first | assumption | apply ctrlSend_held)

end Sys2Proof.Machine
end

