-- ==== Sys2Proof/Laws/Src.lean ====
section
/-! SUPPORT. Laws/Src.lean: each operation of Machine/Src.lean leaves the queue, the life counter and the canonical form. -/

namespace Sys2Proof.Machine

theorem filterRegs_held {k : Keep} {s : State} (hs : Held k s) : Held k (State.filterRegs s) := by
  unfold State.filterRegs
  repeat' first
    | with_reducible (first | assumption | intro _ | apply setFlag_held | apply setF_held)
    | simp only [held_mk]
    | with_reducible apply held_foldl
theorem bindRegs_held {k : Keep} {s : State} {b : Binding} (hs : Held k s) : Held k (State.bindRegs s b) := by
  unfold State.bindRegs
  repeat' with_reducible (first | assumption | apply held_ite | apply setF_held | apply setFlag_held | apply setReg_held)
theorem addBinding_held {k : Keep} {s : State} {b : Binding} {base : Nat} (hs : Held k s) : Held k (State.addBinding s b base) := by
  unfold State.addBinding
  repeat' first | with_reducible (first | assumption | apply heldOf_self | apply filterRegs_held | apply bindRegs_held) | simp only [held_mk]
theorem endBinding_held {k : Keep} {s : State} {i : Nat} (hs : Held k s) : Held k (State.endBinding s i) := by
  unfold State.endBinding
  repeat' first
    | with_reducible (first | assumption | apply held_ite | apply heldOf_self | apply setReg_held | apply setF_held | apply filterRegs_held)
    | simp only [held_mk]
theorem updSrc_held {k : Keep} {s : State} {i : Nat} {f : Bound → Bound} (hs : Held k s) : Held k (State.updSrc s i f) := by
  unfold State.updSrc
  repeat' first | with_reducible (first | assumption | apply heldOf_self) | simp only [held_mk]
theorem copyLine_held {k : Keep} {s : State} {b : Bound} {src : Nat} {dst : Nat} {line : Nat} (hs : Held k s) : Held k (State.copyLine s b src dst
    line) := by
  unfold State.copyLine
  repeat' with_reducible (first | assumption | apply ddrWrite_held)
theorem closeFrame_held {k : Keep} {s : State} {b : Bound} (hs : Held k s) : Held k (State.closeFrame s b) := by
  unfold State.closeFrame
  repeat' first
    | with_reducible first
      | assumption | intro _ | apply held_ite | apply count_held | apply copyLine_held | apply setFlag_held | apply updSrc_held
    | simp only [held_mk]
    | with_reducible apply held_foldl
    | split
theorem storeSegs_held {k : Keep} {s : State} {b : Bound} {segs : List (Nat × Nat × List Byte)} (hs : Held k s) : Held k (State.storeSegs s b
    segs).1 := by
  unfold State.storeSegs
  repeat' first
    | with_reducible (first | assumption | intro _ | apply held_ite1 | apply ddrWrite_held)
    | simp only [held_mk]
    | with_reducible apply held_foldl1
theorem videoPacket_held {k : Keep} {s : State} {b : Bound} {leg : Nat} {seq : Nat} {ts : Nat} {marker : Bool} {segs : List (Nat × Nat × List Byte)}
    (hs : Held k s) : Held k (State.videoPacket s b leg seq ts marker segs) := by
  unfold State.videoPacket
  repeat' first
    | with_reducible first
      | assumption | apply held_ite | apply count_held | apply setFlag_held | apply updSrc_held | apply closeFrame_held | apply storeSegs_held
    | simp only [held_mk]
    | split
theorem audioPacket_held {k : Keep} {s : State} {b : Bound} {leg : Nat} {seq : Nat} {ts : Nat} {data : List Byte} (hs : Held k s) : Held k
    (State.audioPacket s b leg seq ts data) := by
  unfold State.audioPacket
  repeat' first
    | with_reducible first
      | assumption | intro _ | apply held_ite | apply count_held | apply updSrc_held | apply ddrWrite_held | apply held_foldl
    | split
theorem evSourceFrameRx_held {k : Keep} {f : SrcFrame} {s : State} (hs : Held k s) : Held k (evSourceFrameRx f s) := by
  unfold evSourceFrameRx
  repeat' first | with_reducible (first | assumption | apply held_ite | apply count_held | apply videoPacket_held | apply audioPacket_held) | split
theorem evFrameCloseTimeout_held {k : Keep} {i : Nat} {s : State} (hs : Held k s) : Held k (evFrameCloseTimeout i s) := by
  unfold evFrameCloseTimeout
  repeat' first | with_reducible (first | assumption | apply closeFrame_held) | split
theorem evNoSignal_held {k : Keep} {i : Nat} {s : State} (hs : Held k s) : Held k (evNoSignal i s) := by
  unfold evNoSignal
  repeat' first
    | with_reducible (first | assumption | apply held_ite | apply setFlag_held | apply updSrc_held | apply event_held)
    | simp only [held_mk]
    | split
theorem netLost_held {k : Keep} {s : State} (hs : Held k s) : Held k (State.netLost s) := by
  unfold State.netLost
  repeat' first
    | with_reducible (first | assumption | apply held_ite | apply heldOf_self | apply count_held | apply setFlag_held | apply setF_held)
    | simp only [held_mk]
theorem evPtpSyncTimeout_held {k : Keep} {s : State} (hs : Held k s) : Held k (evPtpSyncTimeout s) := by
  unfold evPtpSyncTimeout
  repeat' with_reducible (first | assumption | apply held_ite | apply netLost_held)
theorem handover_held {k : Keep} {s : State} (hs : Held k s) : Held k (State.handover s) := by
  unfold State.handover
  repeat' first
    | with_reducible first
      | assumption | intro _ | apply held_ite | apply setFlag_held | apply updSrc_held | apply damageBands_held | apply count_held
    | simp only [held_mk]
    | with_reducible apply held_foldl

end Sys2Proof.Machine
end

