-- ==== Sys2Proof/Laws/Compose.lean ====
section
/-! SUPPORT. Laws/Compose.lean: each operation of Machine/Compose.lean leaves the queue, the life counter and the canonical form. -/

namespace Sys2Proof.Machine

theorem litReturn_held {k : Keep} {s : State} (hs : Held k s) : Held k (State.litReturn s) := by
  unfold State.litReturn
  repeat' with_reducible (first | assumption | apply held_ite | apply setF_held | apply traceMark_held)
theorem evBandJobStart_held {k : Keep} {e : Nat} {times : List Nat} {s : State} (hs : Held k s) : Held k (evBandJobStart e times s) := by
  unfold evBandJobStart
  repeat' first
    | with_reducible first
      | assumption | intro _ | apply held_ite | apply heldOP_some | apply heldOP_ite | apply heldOf_self | apply feed_held | apply litReturn_held
      | apply jobsCheck_held | apply damageBands_held | apply missJob_held | apply schedule_held | apply schedDrop_held | apply raiseFsq_held
      | apply setFlag_held | apply count_held | apply setF_held
    | simp only [held_mk]
    | with_reducible (first | apply held_foldl | refine heldOP_use ‹_› ?_)
    | split
theorem freeEngine_held {k : Keep} {s : State} {j : Job} (hs : Held k s) : Held k (State.freeEngine s j) := by
  unfold State.freeEngine
  repeat' first | with_reducible (first | assumption | apply heldOf_self | apply engRegs_held) | simp only [held_mk]
theorem evBandJobComplete_held {k : Keep} {e : Nat} {ue : Bool} {s : State} (hs : Held k s) : Held k (evBandJobComplete e ue s) := by
  unfold evBandJobComplete
  repeat' first
    | with_reducible first
      | assumption | apply held_ite | apply heldOf_self | apply freeEngine_held | apply releasePort_held | apply missJob_held | apply jobsCheck_held
      | apply damageBands_held | apply count_held | apply updFrame_held | apply freed_held
    | simp only [held_mk]
    | split
theorem evBandDeadline_held {k : Keep} {fc : Nat} {s : State} (hs : Held k s) : Held k (evBandDeadline fc s) := by
  unfold evBandDeadline
  repeat' first
    | with_reducible first
      | assumption | intro _ | apply held_ite | apply heldOf_self | apply freeEngine_held | apply feed_held | apply missJob_held
      | apply eachPort_held | apply releasePort_held
    | simp only [held_mk]
    | with_reducible apply held_foldl
theorem evMarkSent_held {k : Keep} {s : State} (hs : Held k s) : Held k (evMarkSent s) := by
  unfold evMarkSent
  repeat' with_reducible (first | assumption | apply raiseFsq_held)
theorem evPresentTimeReached_held {k : Keep} {s : State} (hs : Held k s) : Held k (evPresentTimeReached s) := by
  unfold evPresentTimeReached
  repeat' with_reducible (first | assumption | apply raiseFsq_held)
theorem evAckWindowClose_held {k : Keep} {s : State} (hs : Held k s) : Held k (evAckWindowClose s) := by
  unfold evAckWindowClose
  repeat' first | with_reducible (first | assumption | apply held_ite | apply flipClose_held) | split
theorem evPopFrameEvalTimeout_held {k : Keep} {s : State} (hs : Held k s) : Held k (evPopFrameEvalTimeout s) := by
  unfold evPopFrameEvalTimeout
  repeat' first | with_reducible (first | assumption | apply popEval_held) | split
theorem shadowLive_wf {k : Keep} {s : State} (h : Held k s) : SMap.wf regReset s.shadowLive = true := by
  unfold State.shadowLive
  generalize shadowRegs = l
  exact wf_foldl_set (fun a => a) s.reg l h.canon.live
theorem applyGeo_held {k : Keep} {s : State} (hs : Held k s) : Held k (State.applyGeo s) := by
  unfold State.applyGeo
  repeat' first
    | with_reducible (first | assumption | intro _ | apply held_ite | apply setFlag_held | apply damageBands_held | apply sendLampTf_held)
    | with_reducible refine heldOf_liveTo ?_ (shadowLive_wf hs)
    | simp only [held_mk]
    | with_reducible apply held_foldl
theorem applyLayers_held {k : Keep} {s : State} (hs : Held k s) : Held k (State.applyLayers s) := by
  unfold State.applyLayers
  repeat' first
    | with_reducible (first | assumption | intro _ | apply heldOf_self | apply setReg_held | apply damageBands_held)
    | simp only [held_mk]
    | with_reducible apply held_foldl
theorem descApply_held {k : Keep} {s : State} (hs : Held k s) : Held k (State.descApply s) := by
  unfold State.descApply
  repeat' first
    | with_reducible first
      | assumption | apply held_ite | apply heldOf_self | apply setFlag_held | apply count_held | apply applyLayers_held | apply applyGeo_held
      | apply pruneFrames_held
    | simp only [held_mk]
theorem holdStep_held {k : Keep} {s : State} (hs : Held k s) : Held k (State.holdStep s).1 := by
  unfold State.holdStep
  repeat' first | with_reducible (first | assumption | apply held_ite1 | apply heldOf_self | apply setFcnt_held) | simp only [held_mk] | split

end Sys2Proof.Machine
end

