-- ==== Sys2Proof/Laws/Dset.lean ====
section
/-! SUPPORT. Laws/Dset.lean: each operation of Machine/Dset.lean leaves the queue, the life counter and the canonical form. -/

namespace Sys2Proof.Machine

theorem dsetStage_held {k : Keep} {s : State} {d : Dset} (hs : Held k s) : Held k (State.dsetStage s d) := by
  unfold State.dsetStage
  repeat' first
    | with_reducible (first | assumption | intro _ | apply heldOf_self | apply setSeq_held)
    | simp only [held_mk]
    | with_reducible apply held_foldl
theorem dsetCancel_held {k : Keep} {s : State} (hs : Held k s) : Held k (State.dsetCancel s) := by
  unfold State.dsetCancel
  repeat' first
    | with_reducible (first | assumption | intro _ | apply setFlag_held | apply setSeq_held)
    | simp only [held_mk]
    | with_reducible apply held_foldl
theorem switchEvent_held {k : Keep} {s : State} {k0 : Nat} (hs : Held k s) : Held k (State.switchEvent s k0) := by
  unfold State.switchEvent
  repeat' first
    | with_reducible (first | assumption | apply held_ite | apply raiseEv_held | apply setFlag_held | apply imageSwitch_held)
    | simp only [held_mk]
    | split
theorem dsetSwitch_held {k : Keep} {s : State} (hs : Held k s) : Held k (State.dsetSwitch s) := by
  unfold State.dsetSwitch
  repeat' first
    | with_reducible (first | assumption | intro _ | apply heldOf_self | apply switchEvent_held)
    | simp only [held_mk]
    | with_reducible apply held_foldl
theorem dsetNow_held {k : Keep} {s : State} {d : Dset} (hs : Held k s) : Held k (State.dsetNow s d) := by
  unfold State.dsetNow
  repeat' first
    | with_reducible (first | assumption | intro _ | apply heldOf_self | apply dsetStage_held | apply imageSwitch_held)
    | simp only [held_mk]
    | with_reducible apply held_foldl

end Sys2Proof.Machine
end

