-- ==== Sys2Proof/Laws/Hearth.lean ====
section
/-! SUPPORT. Laws/Hearth.lean: each operation of Machine/Hearth.lean leaves the queue, the life counter and the canonical form. -/

namespace Sys2Proof.Machine

theorem secLog_held {k : Keep} {s : State} {code : Nat} {detail : List Byte} (hs : Held k s) : Held k (State.secLog s code detail) := by
  unfold State.secLog
  repeat' first
    | with_reducible (first | assumption | apply held_ite | apply heldOf_self | apply setReg_held | apply setFlag_held)
    | simp only [held_mk]
theorem heaRegs_held {k : Keep} {s : State} (hs : Held k s) : Held k (State.heaRegs s) := by
  unfold State.heaRegs
  repeat' with_reducible (first | assumption | apply setFlag_held | apply setReg_held | apply setF_held)
theorem journalOwner_held {k : Keep} {s : State} (hs : Held k s) : Held k (State.journalOwner s) := by
  unfold State.journalOwner
  repeat' with_reducible (first | assumption | apply journal_held)
theorem journalKeys_held {k : Keep} {s : State} (hs : Held k s) : Held k (State.journalKeys s) := by
  unfold State.journalKeys
  repeat' with_reducible (first | assumption | apply journal_held)
theorem newOwner_held {k : Keep} {s : State} {root : List Byte} {code : Nat} (hs : Held k s) : Held k (State.newOwner s root code) := by
  unfold State.newOwner
  repeat' first
    | with_reducible (first | assumption | apply heldOf_self | apply journalOwner_held | apply heaRegs_held | apply secLog_held)
    | simp only [held_mk]
theorem keyAdd_held {k : Keep} {s : State} {k0 : List Byte} (hs : Held k s) : Held k (State.keyAdd s k0).1 := by
  unfold State.keyAdd
  repeat' first
    | with_reducible (first | assumption | apply held_ite1 | apply heldOf_self | apply secLog_held | apply journalKeys_held | apply heaRegs_held)
    | simp only [held_mk]
theorem keyRemove_held {k : Keep} {s : State} {k0 : List Byte} (hs : Held k s) : Held k (State.keyRemove s k0) := by
  unfold State.keyRemove
  repeat' first
    | with_reducible (first | assumption | apply held_ite | apply heldOf_self | apply secLog_held | apply journalKeys_held | apply heaRegs_held)
    | simp only [held_mk]
theorem sigFail_held {k : Keep} {s : State} {kind : Nat} {status : Nat} (hs : Held k s) : Held k (State.sigFail s kind status) := by
  unfold State.sigFail
  repeat' with_reducible (first | assumption | apply secLog_held | apply count_held)
theorem ownerXfer_held {k : Keep} {s : State} {o : List Byte} (hs : Held k s) : Held k (State.ownerXfer s o).1 := by
  unfold State.ownerXfer
  repeat' with_reducible (first | assumption | apply held_ite1 | apply sigFail_held | apply newOwner_held)
theorem svnRegs_held {k : Keep} {s : State} (hs : Held k s) : Held k (State.svnRegs s) := by
  unfold State.svnRegs
  repeat' with_reducible (first | assumption | apply setF_held | apply setFlag_held)
theorem blowNext_held {k : Keep} {s : State} (hs : Held k s) : Held k (State.blowNext s) := by
  unfold State.blowNext
  repeat' first
    | with_reducible (first | assumption | apply heldOf_self)
    | simp only [held_mk]
theorem svnCommit_held {k : Keep} {s : State} {v : Nat} (hs : Held k s) : Held k (State.svnCommit s v) := by
  unfold State.svnCommit
  repeat' first
    | with_reducible (first | assumption | apply held_ite | apply heldOf_self | apply blowNext_held | apply svnRegs_held | apply journal_held)
    | simp only [held_mk]
theorem blowStep_held {k : Keep} {s : State} (hs : Held k s) : Held k (State.blowStep s) := by
  unfold State.blowStep
  repeat' first
    | with_reducible (first | assumption | apply held_ite | apply heldOf_self | apply svnRegs_held | apply secLog_held)
    | simp only [held_mk]
    | split
theorem evFuseStepDone_held {k : Keep} {s : State} (hs : Held k s) : Held k (evFuseStepDone s) := by
  unfold evFuseStepDone
  repeat' with_reducible (first | assumption | apply held_ite | apply blowNext_held | apply blowStep_held)
theorem blowPending_held {k : Keep} {s : State} (hs : Held k s) : Held k (State.blowPending s) := by
  unfold State.blowPending
  repeat' first
    | with_reducible (first | assumption | intro _ | apply held_ite | apply heldOf_self | apply blowStep_held | apply svnRegs_held)
    | simp only [held_mk]
    | with_reducible apply held_foldl
theorem fwRefused_held {k : Keep} {s : State} {b : List Byte} {st : Nat} (hs : Held k s) : Held k (State.fwRefused s b st) := by
  unfold State.fwRefused
  repeat' with_reducible (first | assumption | apply held_ite | apply secLog_held | apply sigFail_held)
theorem nonceRegs_held {k : Keep} {s : State} (hs : Held k s) : Held k (State.nonceRegs s) := by
  unfold State.nonceRegs
  repeat' with_reducible (first | assumption | intro _ | apply setReg_held | apply setFlag_held | apply held_foldl)
theorem newNonce_held {k : Keep} {s : State} (hs : Held k s) : Held k (State.newNonce s) := by
  unfold State.newNonce
  repeat' first | with_reducible (first | assumption | apply heldOf_self | apply freed_held | apply nonceRegs_held) | simp only [held_mk]
theorem evNonceReq_held {k : Keep} {s : State} (hs : Held k s) : Held k (evNonceReq s) := by
  unfold evNonceReq
  repeat' with_reducible (first | assumption | apply emit_held | apply newNonce_held)
theorem evNonceExpiry_held {k : Keep} {s : State} (hs : Held k s) : Held k (evNonceExpiry s) := by
  unfold evNonceExpiry
  repeat' first | with_reducible (first | assumption | apply heldOf_self | apply nonceRegs_held) | simp only [held_mk]
theorem debugToken_held {k : Keep} {s : State} {o : List Byte} (hs : Held k s) : Held k (State.debugToken s o).1 := by
  unfold State.debugToken
  repeat' first
    | with_reducible first
      | assumption | apply held_ite1 | apply heldOf_self | apply secLog_held | apply count_held | apply sigFail_held | apply nonceRegs_held
      | apply setF_held | apply setFlag_held
    | simp only [held_mk]
theorem lockViol_held {k : Keep} {s : State} {a : Nat} {v : Word} (hs : Held k s) : Held k (State.lockViol s a v) := by
  unfold State.lockViol
  repeat' with_reducible (first | assumption | apply count_held | apply setFlag_held | apply setReg_held | apply secLog_held)
theorem sessRegs_held {k : Keep} {s : State} (hs : Held k s) : Held k (State.sessRegs s) := by
  unfold State.sessRegs
  repeat' with_reducible (first | assumption | intro _ | apply held_ite | apply setF_held | apply setFlag_held | apply held_foldl)
theorem closeSess_held {k : Keep} {s : State} {f : Session → Bool} (hs : Held k s) : Held k (State.closeSess s f) := by
  unfold State.closeSess
  repeat' first | with_reducible (first | assumption | apply heldOf_self | apply sessRegs_held) | simp only [held_mk]
theorem evDtlsClientHello_held {k : Keep} {spi : Bool} {port : Nat} {cookie : Bool} {share : Bool} {suite : Bool} {scheme : Bool} {s : State} (hs :
    Held k s) : Held k (evDtlsClientHello spi port cookie share suite scheme s) := by
  unfold evDtlsClientHello
  repeat' first
    | with_reducible (first | assumption | apply held_ite | apply heldOf_self | apply sessOut_held | apply sessRegs_held)
    | simp only [held_mk]
theorem evClientCertificate_held {k : Keep} {spi : Bool} {port : Nat} {leaf : List Byte} {proof : Bool} {s : State} (hs : Held k s) : Held k
    (evClientCertificate spi port leaf proof s) := by
  unfold evClientCertificate
  repeat' first
    | with_reducible first
      | assumption | apply held_ite | apply heldOf_self | apply sessOut_held | apply secLog_held | apply count_held | apply sessRegs_held
    | simp only [held_mk]
    | split
theorem evDtlsKeyUpdate_held {k : Keep} {id : Nat} {s : State} (hs : Held k s) : Held k (evDtlsKeyUpdate id s) := by
  unfold evDtlsKeyUpdate
  repeat' first | with_reducible (first | assumption | apply heldOf_self | apply sessOut_held) | simp only [held_mk] | split
theorem evSessionIdleTimeout_held {k : Keep} {id : Nat} {s : State} (hs : Held k s) : Held k (evSessionIdleTimeout id s) := by
  unfold evSessionIdleTimeout
  repeat' with_reducible (first | assumption | apply closeSess_held)

end Sys2Proof.Machine
end

