-- ==== Sys2Proof/Laws/LayerMsg.lean ====
section
/-! SUPPORT. Laws/LayerMsg.lean: each operation of Machine/LayerMsg.lean leaves the queue, the life counter and the canonical form. -/

namespace Sys2Proof.Machine

theorem ans_held {k : Keep} {s : State} {st : Nat} (hs : Held k s) : Held k (State.ans s st).1 := by
  unfold State.ans
  repeat' with_reducible assumption
theorem acceptDesc_held {k : Keep} {s : State} {m : SMap Word} {ks : List Nat} (hs : Held k s) : Held k (State.acceptDesc s m ks) := by
  unfold State.acceptDesc
  repeat' first | with_reducible (first | assumption | apply heldOf_self | apply recordAdmit_held) | simp only [held_mk]
theorem clearSlots_held {k : Keep} {s : State} {ks : List Nat} (hs : Held k s) : Held k (State.clearSlots s ks) := by
  unfold State.clearSlots
  repeat' with_reducible (first | assumption | apply held_ite | apply acceptDesc_held)
theorem layerSet_held {k : Keep} {s : State} {t : Nat} {slot : Nat} {cls : Nat} {d : List Word} (hs : Held k s) : Held k (State.layerSet s t slot cls
    d).1 := by
  unfold State.layerSet
  repeat' with_reducible (first | assumption | apply held_ite1 | apply ans_held | apply acceptDesc_held | apply count_held)
theorem layerClear_held {k : Keep} {s : State} {t : Nat} {slot : Nat} (hs : Held k s) : Held k (State.layerClear s t slot).1 := by
  unfold State.layerClear
  repeat' with_reducible (first | assumption | apply held_ite1 | apply ans_held | apply clearSlots_held)
theorem surfacePut_held {k : Keep} {s : State} {t : Nat} {slot : Nat} {offset : Nat} {data : List Byte} (hs : Held k s) : Held k (State.surfacePut s t
    slot offset data).1 := by
  unfold State.surfacePut
  repeat' first
    | with_reducible (first | assumption | apply held_ite1 | apply heldOf_self | apply ddrWrite_held | apply ans_held)
    | simp only [held_mk]
theorem surfaceWrite_held {k : Keep} {s : State} {sess : Nat} {seq : Word} {t : Nat} {slot : Nat} {offset : Nat} {data : List Byte} (hs : Held k s) :
    Held k (State.surfaceWrite s sess seq t slot offset data).1 := by
  unfold State.surfaceWrite
  repeat' first | with_reducible (first | assumption | apply held_ite1 | apply heldOf_self | apply surfacePut_held) | simp only [held_mk]
theorem surfaceFlip_held {k : Keep} {s : State} {t : Nat} {slot : Nat} (hs : Held k s) : Held k (State.surfaceFlip s t slot).1 := by
  unfold State.surfaceFlip
  repeat' first | with_reducible (first | assumption | apply held_ite1 | apply heldOf_self | apply ans_held) | simp only [held_mk]
theorem zlistSet_held {k : Keep} {s : State} {entry : Nat} {bs : List Byte} (hs : Held k s) : Held k (State.zlistSet s entry bs).1 := by
  unfold State.zlistSet
  repeat' first | with_reducible (first | assumption | apply held_ite1 | apply heldOf_self | apply ans_held | apply count_held) | simp only [held_mk]
theorem coefSet_held {k : Keep} {s : State} {table : Nat} {axis : Nat} {vals : List (BitVec 16)} (hs : Held k s) : Held k (State.coefSet s table axis
    vals).1 := by
  unfold State.coefSet
  repeat' first | with_reducible (first | assumption | apply held_ite1 | apply heldOf_self | apply ans_held) | simp only [held_mk]
theorem damageHint_held {k : Keep} {s : State} {t : Nat} {rects : List (Nat × Nat × Nat × Nat)} (hs : Held k s) : Held k (State.damageHint s t
    rects).1 := by
  unfold State.damageHint
  repeat' with_reducible (first | assumption | apply held_ite1 | apply ans_held | apply damageBands_held)
theorem bind_held {k : Keep} {s : State} {t : Nat} {share : Nat} {d : Sdp} (hs : Held k s) : Held k (State.bind s t share d).1 := by
  unfold State.bind
  repeat' first
    | with_reducible (first | assumption | apply held_ite1 | apply ans_held | apply addBinding_held | apply litReturn_held)
    | simp only [held_mk]
    | split
theorem unbind_held {k : Keep} {s : State} {t : Nat} {i : Nat} (hs : Held k s) : Held k (State.unbind s t i).1 := by
  unfold State.unbind
  repeat' first
    | with_reducible (first | assumption | apply held_ite | apply held_ite1 | apply ans_held | apply clearSlots_held | apply endBinding_held)
    | simp only [held_mk]
    | split
theorem tenantRegs_held {k : Keep} {s : State} {t : Nat} (hs : Held k s) : Held k (State.tenantRegs s t) := by
  unfold State.tenantRegs
  repeat' first
    | with_reducible (first | assumption | intro _ | apply setFlag_held | apply setReg_held | apply setF_held)
    | simp only [held_mk]
    | with_reducible apply held_foldl
    | split
theorem putTenant_held {k : Keep} {s : State} {t : Nat} {r : Option TenantRec} (hs : Held k s) : Held k (State.putTenant s t r) := by
  unfold State.putTenant
  repeat' first | with_reducible (first | assumption | apply heldOf_self | apply tenantRegs_held) | simp only [held_mk]
theorem protectRegs_held {k : Keep} {s : State} (hs : Held k s) : Held k (State.protectRegs s) := by
  unfold State.protectRegs
  repeat' first | with_reducible (first | assumption | apply setFlag_held | apply setF_held) | split
theorem protectMoved_held {k : Keep} {s : State} {was : Option Nat} (hs : Held k s) : Held k (State.protectMoved s was) := by
  unfold State.protectMoved
  repeat' with_reducible (first | assumption | apply held_ite | apply protectRegs_held | apply clearSlots_held)
theorem tenantSet_held {k : Keep} {s : State} {t : Nat} {r : TenantRec} (hs : Held k s) : Held k (State.tenantSet s t r).1 := by
  unfold State.tenantSet
  repeat' first
    | with_reducible first
      | assumption | intro _ | apply held_ite | apply held_ite1 | apply ans_held | apply count_held | apply putTenant_held | apply protectMoved_held
      | apply secLog_held | apply closeSess_held | apply held_foldl
    | split
theorem tenantRemove_held {k : Keep} {s : State} {t : Nat} (hs : Held k s) : Held k (State.tenantRemove s t).1 := by
  unfold State.tenantRemove
  repeat' first
    | with_reducible first
      | assumption | apply held_ite1 | apply heldOf_self | apply ans_held | apply putTenant_held | apply clearSlots_held | apply protectMoved_held
      | apply secLog_held | apply closeSess_held
    | simp only [held_mk]
    | split
theorem tenantTick_held {k : Keep} {s : State} (hs : Held k s) : Held k (State.tenantTick s) := by
  unfold State.tenantTick
  repeat' first
    | with_reducible (first | assumption | intro _ | apply held_ite | apply heldOf_self | apply endBinding_held | apply popTenantEnd_held)
    | simp only [held_mk]
    | with_reducible apply held_foldl
theorem slotAssign_held {k : Keep} {s : State} {k0 : Nat} {t : Nat} (hs : Held k s) : Held k (State.slotAssign s k0 t).1 := by
  unfold State.slotAssign
  repeat' first
    | with_reducible first
      | assumption | apply held_ite | apply held_ite1 | apply ans_held | apply setFlag_held | apply setF_held | apply popTenantEnd_held
    | split
theorem popCollect_held {k : Keep} {s : State} {t : Nat} {maxrsp : Nat} (hs : Held k s) : Held k (State.popCollect s t maxrsp).1 := by
  unfold State.popCollect
  repeat' first | with_reducible (first | assumption | apply held_ite1 | apply heldOf_self | apply ans_held | apply freed_held) | simp only [held_mk]
theorem popAck_held {k : Keep} {s : State} {t : Nat} {rseq : Nat} (hs : Held k s) : Held k (State.popAck s t rseq).1 := by
  unfold State.popAck
  repeat' first
    | with_reducible first
      | assumption | apply held_ite | apply heldOf_self | apply count_held | apply popRegs_held | apply ans_held | apply journalBilling_held
    | simp only [held_mk]
theorem stepAuth_held {k : Keep} {s : State} {o : List Byte} (hs : Held k s) : Held k (State.stepAuth s o).1 := by
  unfold State.stepAuth
  repeat' first
    | with_reducible first
      | assumption | apply held_ite1 | apply ans_held | apply count_held | apply sigFail_held | apply secLog_held | apply popStep_held
    | simp only [held_mk]
    | split

end Sys2Proof.Machine
end

