-- ==== Sys2Proof/Laws/Lamp.lean ====
section
/-! SUPPORT. Laws/Lamp.lean: each operation of Machine/Lamp.lean leaves the queue, the life counter and the canonical form. -/

namespace Sys2Proof.Machine

theorem invert_held {k : Keep} {s : State} {ks : List Nat} (hs : Held k s) : Held k (State.invert s ks) := by
  unfold State.invert
  repeat' with_reducible (first | assumption | intro _ | apply setReg_held | apply held_foldl)
theorem storeBand_held {k : Keep} {s : State} {c : List Byte} {k0 : Nat} {pixels : List Word} (hs : Held k s) : Held k (State.storeBand s c k0
    pixels) := by
  unfold State.storeBand
  repeat' first | with_reducible (first | assumption | apply heldOf_self | apply count_held) | simp only [held_mk]
theorem genPending_held {k : Keep} {s : State} (hs : Held k s) : Held k (State.genPending s) := by
  unfold State.genPending
  repeat' first | with_reducible (first | assumption | apply heldOf_self | apply setFlag_held) | simp only [held_mk]
theorem sweepRegs_held {k : Keep} {s : State} (hs : Held k s) : Held k (State.sweepRegs s) := by
  unfold State.sweepRegs
  repeat' with_reducible (first | assumption | apply setFlag_held | apply setF_held)
theorem genSwitch_held {k : Keep} {s : State} (hs : Held k s) : Held k (State.genSwitch s) := by
  unfold State.genSwitch
  repeat' first
    | with_reducible first
      | assumption | intro _ | apply held_ite | apply heldOf_self | apply setLive_held | apply setF_held | apply setFlag_held | apply sweepRegs_held
    | simp only [held_mk]
    | with_reducible apply held_foldl
theorem commit_held {k : Keep} {s : State} (hs : Held k s) : Held k (State.commit s) := by
  unfold State.commit
  repeat' first
    | with_reducible (first | assumption | apply held_ite | apply heldOf_self | apply invert_held | apply count_held | apply sweepRegs_held)
    | simp only [held_mk]
theorem evSweepDone_held {k : Keep} {s : State} (hs : Held k s) : Held k (evSweepDone s) := by
  unfold evSweepDone
  repeat' first
    | with_reducible first
      | assumption | intro _ | apply held_ite | apply heldOf_self | apply storeBand_held | apply setF_held | apply count_held
    | simp only [held_mk]
    | with_reducible apply held_foldl
    | split
theorem evSweepCommitTimeout_held {k : Keep} {s : State} (hs : Held k s) : Held k (evSweepCommitTimeout s) := by
  unfold evSweepCommitTimeout
  repeat' with_reducible (first | assumption | apply held_ite | apply commit_held)
theorem evLampSweep_held {k : Keep} {s : State} (hs : Held k s) : Held k (evLampSweep s) := by
  unfold evLampSweep
  repeat' with_reducible (first | assumption | apply held_ite | apply genPending_held)
theorem clinkerEdit_held {k : Keep} {s : State} {lamp : Nat} {st : Nat} (hs : Held k s) : HeldO k (State.clinkerEdit s lamp st) := by
  unfold State.clinkerEdit
  repeat' first
    | with_reducible first
      | assumption | apply heldO_none | apply heldO_some | apply heldO_ite | apply heldOf_self | apply setF_held | apply genPending_held
    | simp only [held_mk]
theorem clinkerEdits_held {k : Keep} {s : State} {es : List Word} (hs : Held k s) : Held k (State.clinkerEdits s es).1 := by
  unfold State.clinkerEdits
  repeat' first
    | with_reducible (first | assumption | intro _ | apply clinkerEdit_held | apply setFlag_held)
    | simp only [held_mk]
    | with_reducible (first | apply held_foldl1 | refine heldO_use ‹_› ?_)
    | split

end Sys2Proof.Machine
end

