-- ==== Sys2Proof/Laws/Storage.lean ====
section
/-! SUPPORT. Laws/Storage.lean: each operation of Machine/Storage.lean leaves the queue, the life counter and the canonical form. -/

namespace Sys2Proof.Machine

theorem setBlk_held {k : Keep} {s : State} {b : Nat} {k0 : NandBlk} (hs : Held k s) : Held k (State.setBlk s b k0) := by
  unfold State.setBlk
  repeat' first | with_reducible (first | assumption | apply heldOf_self) | simp only [held_mk]
theorem putCopy_held {k : Keep} {s : State} {kind : Nat} {c : Nat} {x : CopySt} (hs : Held k s) : Held k (State.putCopy s kind c x) := by
  unfold State.putCopy
  repeat' first | with_reducible (first | assumption | apply heldOf_self) | simp only [held_mk]
theorem putActive_held {k : Keep} {s : State} {kind : Nat} {c : Option Nat} (hs : Held k s) : Held k (State.putActive s kind c) := by
  unfold State.putActive
  repeat' first | with_reducible (first | assumption | apply heldOf_self) | simp only [held_mk]
theorem nandRegs_held {k : Keep} {s : State} (hs : Held k s) : Held k (State.nandRegs s) := by
  unfold State.nandRegs
  repeat' with_reducible (first | assumption | apply setReg_held | apply setF_held)
theorem slotRegs_held {k : Keep} {s : State} {kind : Nat} (hs : Held k s) : Held k (State.slotRegs s kind) := by
  unfold State.slotRegs
  repeat' with_reducible (first | assumption | intro _ | apply held_ite | apply setF_held | apply setFlag_held | apply held_foldl)
theorem slotRecord_held {k : Keep} {s : State} {kind : Nat} (hs : Held k s) : Held k (State.slotRecord s kind) := by
  unfold State.slotRecord
  repeat' with_reducible (first | assumption | apply nandRegs_held | apply slotRegs_held | apply journal_held)
theorem emptyCopy_held {k : Keep} {s : State} {kind : Nat} {c : Nat} (hs : Held k s) : Held k (State.emptyCopy s kind c) := by
  unfold State.emptyCopy
  repeat' with_reducible (first | assumption | apply slotRecord_held | apply putCopy_held)
theorem ashFull_held {k : Keep} {s : State} (hs : Held k s) : Held k (State.ashFull s) := by
  unfold State.ashFull
  repeat' with_reducible (first | assumption | apply held_ite | apply event_held | apply setFlag_held)
theorem retire_held {k : Keep} {s : State} {b : Nat} (hs : Held k s) : Held k (State.retire s b) := by
  unfold State.retire
  repeat' first
    | with_reducible first
      | assumption | apply held_ite | apply heldOf_self | apply ashFull_held | apply nandRegs_held | apply journal_held | apply count_held
    | simp only [held_mk]
theorem putWrite_held {k : Keep} {s : State} {w : SlotWrite} (hs : Held k s) : Held k (State.putWrite s w) := by
  unfold State.putWrite
  repeat' first | with_reducible (first | assumption | apply heldOf_self) | simp only [held_mk]
theorem writeBlk_held {k : Keep} {s : State} {w : SlotWrite} {p : Nat} (hs : Held k s) : HeldOP k (State.writeBlk s w p) := by
  unfold State.writeBlk
  repeat' first
    | with_reducible (first | assumption | apply heldOP_none | apply heldOP_some | apply heldOP_ite | apply putWrite_held | apply setBlk_held)
    | simp only [held_mk]
    | split
theorem refreshSkip_held {k : Keep} {s : State} (hs : Held k s) : Held k (State.refreshSkip s) := by
  unfold State.refreshSkip
  repeat' first
    | with_reducible (first | assumption | apply held_ite | apply heldOf_self | apply count_held)
    | simp only [held_mk]
theorem refreshStart_held {k : Keep} {s : State} (hs : Held k s) : Held k (State.refreshStart s) := by
  unfold State.refreshStart
  repeat' first
    | with_reducible (first | assumption | apply held_ite | apply heldOf_self | apply count_held | apply setBlk_held)
    | simp only [held_mk]
    | split
theorem eraseStart_held {k : Keep} {s : State} {b : Nat} {half : Bool} (hs : Held k s) : Held k (State.eraseStart s b half) := by
  unfold State.eraseStart
  repeat' first
    | with_reducible (first | assumption | apply held_ite | apply heldOf_self | apply journal_held | apply setBlk_held | apply count_held)
    | simp only [held_mk]
theorem writeOp_held {k : Keep} {s : State} {w : SlotWrite} (hs : Held k s) : HeldOP k (State.writeOp s w) := by
  unfold State.writeOp
  repeat' first
    | with_reducible (first | assumption | intro _ | apply heldOP_some | apply heldOP_ite | apply writeBlk_held)
    | refine heldOP_map ?_ ?_
    | split
theorem startOp_held {k : Keep} {s : State} {o : NandOp} (hs : Held k s) : Held k (State.startOp s o) := by
  unfold State.startOp
  repeat' first | with_reducible (first | assumption | apply heldOf_self | apply setFlag_held | apply eraseStart_held) | simp only [held_mk] | split
theorem sagHold_held {k : Keep} {s : State} (hs : Held k s) : Held k (State.sagHold s) := by
  unfold State.sagHold
  repeat' with_reducible (first | assumption | apply held_ite | apply count_held | apply setFlag_held)
theorem nandPick_held {k : Keep} {s : State} (hs : Held k s) : Held k (State.nandPick s) := by
  unfold State.nandPick
  repeat' first
    | with_reducible first
      | assumption | intro _ | apply held_ite | apply heldOP_none | apply heldOP_ite | apply heldOf_self | apply startOp_held
      | apply refreshStart_held | apply writeOp_held
    | apply heldOP_bind
    | simp only [held_mk]
    | with_reducible refine heldOP_use ‹_› ?_
    | split
theorem nandKick_held {k : Keep} {s : State} (hs : Held k s) : Held k (State.nandKick s) := by
  unfold State.nandKick
  repeat' with_reducible (first | assumption | apply held_ite | apply sagHold_held | apply nandPick_held | apply refreshSkip_held)
theorem opEnd_held {k : Keep} {s : State} (hs : Held k s) : Held k (State.opEnd s) := by
  unfold State.opEnd
  repeat' first | with_reducible (first | assumption | apply heldOf_self | apply setFlag_held) | simp only [held_mk]
theorem clearCopy_held {k : Keep} {s : State} {kind : Nat} {c : Nat} (hs : Held k s) : Held k (State.clearCopy s kind c) := by
  unfold State.clearCopy
  repeat' first
    | with_reducible (first | assumption | intro _ | apply held_ite | apply heldOf_self | apply emptyCopy_held | apply retire_held)
    | simp only [held_mk]
    | with_reducible apply held_foldl
    | split
theorem slotWrite_held {k : Keep} {s : State} {kind : Nat} {c : Nat} {data : List Byte} {cfg : Option MirrorGen} {now : Bool} {inst : Option Nat} {w :
    WriteFor} (hs : Held k s) : Held k (State.slotWrite s kind c data cfg now inst w).1 := by
  unfold State.slotWrite
  repeat' first
    | with_reducible (first | assumption | apply held_ite1 | apply heldOf_self | apply clearCopy_held | apply nandKick_held | apply setFlag_held)
    | simp only [held_mk]
theorem loadQueue_held {k : Keep} {s : State} {kind : Nat} (hs : Held k s) : Held k (State.loadQueue s kind) := by
  unfold State.loadQueue
  repeat' first | with_reducible (first | assumption | apply heldOf_self | apply nandKick_held) | simp only [held_mk]
theorem calLoadStart_held {k : Keep} {s : State} (hs : Held k s) : Held k (State.calLoadStart s) := by
  unfold State.calLoadStart
  repeat' first | with_reducible (first | assumption | apply heldOf_self | apply loadQueue_held | apply setFlag_held) | simp only [held_mk] | split
theorem clkWrite_held {k : Keep} {s : State} (hs : Held k s) : Held k (State.clkWrite s) := by
  unfold State.clkWrite
  repeat' first | with_reducible (first | assumption | apply held_ite | apply heldOf_self | apply slotWrite_held) | simp only [held_mk]
theorem writeEnd_held {k : Keep} {s : State} {w : SlotWrite} (hs : Held k s) : Held k (State.writeEnd s w) := by
  unfold State.writeEnd
  repeat' first
    | with_reducible first
      | assumption | apply held_ite | apply heldOf_self | apply putCopy_held | apply putActive_held | apply writeDone_held | apply slotRecord_held
      | apply installDone_held | apply count_held | apply setFlag_held | apply calLoadStart_held | apply clkWrite_held
    | simp only [held_mk]
    | split
theorem writeFail_held {k : Keep} {s : State} {w : SlotWrite} {st : Nat} (hs : Held k s) : Held k (State.writeFail s w st) := by
  unfold State.writeFail
  repeat' first
    | with_reducible first
      | assumption | apply held_ite | apply heldOf_self | apply writeDone_held | apply slotRegs_held | apply installDone_held | apply setFlag_held
    | simp only [held_mk]
    | split
theorem writeRetire_held {k : Keep} {s : State} {w : SlotWrite} {p : Nat} {upto : Nat} (hs : Held k s) : Held k (State.writeRetire s w p upto) := by
  unfold State.writeRetire
  repeat' with_reducible (first | assumption | apply held_ite | apply retire_held | apply writeFail_held | apply putWrite_held)
theorem writeAdvance_held {k : Keep} {s : State} {w : SlotWrite} (hs : Held k s) : Held k (State.writeAdvance s w) := by
  unfold State.writeAdvance
  repeat' with_reducible (first | assumption | apply held_ite | apply putWrite_held | apply writeEnd_held)
theorem qspiDone_held {k : Keep} {s : State} {ok : Bool} (hs : Held k s) : Held k (State.qspiDone s ok) := by
  unfold State.qspiDone
  repeat' first
    | with_reducible (first | assumption | apply held_ite | apply heldOf_self | apply putWrite_held | apply writeEnd_held)
    | simp only [held_mk]
    | split
theorem evNandEraseDone_held {k : Keep} {ok : Bool} {blank : Bool} {s : State} (hs : Held k s) : Held k (evNandEraseDone ok blank s) := by
  unfold evNandEraseDone
  repeat' first
    | with_reducible first
      | assumption | apply held_ite | apply heldOf_self | apply opEnd_held | apply journalDrop_held | apply nandKick_held | apply retire_held
      | apply setBlk_held | apply journal_held | apply count_held | apply nandRegs_held | apply sagHold_held | apply startOp_held
    | simp only [held_mk]
    | split
theorem refreshEnd_held {k : Keep} {s : State} {r : Refresh} (hs : Held k s) : Held k (State.refreshEnd s r) := by
  unfold State.refreshEnd
  repeat' first
    | with_reducible (first | assumption | apply heldOf_self | apply count_held | apply slotRecord_held | apply putCopy_held)
    | simp only [held_mk]
    | split
theorem refreshRetry_held {k : Keep} {s : State} {r : Refresh} (hs : Held k s) : Held k (State.refreshRetry s r) := by
  unfold State.refreshRetry
  repeat' first | with_reducible (first | assumption | apply heldOf_self | apply retire_held) | simp only [held_mk]
theorem evNandProgramDone_held {k : Keep} {ok : Bool} {s : State} (hs : Held k s) : Held k (evNandProgramDone ok s) := by
  unfold evNandProgramDone
  repeat' first
    | with_reducible first
      | assumption | apply held_ite | apply heldOf_self | apply opEnd_held | apply count_held | apply setBlk_held | apply retire_held
      | apply nandKick_held | apply nandRegs_held | apply putWrite_held | apply writeRetire_held | apply refreshRetry_held
    | simp only [held_mk]
    | split
theorem readCounts_held {k : Keep} {s : State} {b : Nat} {secs : List (Option Nat)} (hs : Held k s) : Held k (State.readCounts s b secs) := by
  unfold State.readCounts
  repeat' first | with_reducible (first | assumption | apply heldOf_self | apply count_held) | simp only [held_mk]
theorem markBad_held {k : Keep} {s : State} {kind : Nat} {c : Nat} (hs : Held k s) : Held k (State.markBad s kind c) := by
  unfold State.markBad
  repeat' with_reducible (first | assumption | apply slotRecord_held | apply putCopy_held)
theorem verifyDone_held {k : Keep} {s : State} {kind : Nat} {p : Nat} {secs : List (Option Nat)} (hs : Held k s) : Held k (State.verifyDone s kind p
    secs) := by
  unfold State.verifyDone
  repeat' first | with_reducible (first | assumption | apply held_ite | apply writeRetire_held | apply writeAdvance_held) | split
theorem refReadDone_held {k : Keep} {s : State} {b : Nat} {p : Nat} {secs : List (Option Nat)} (hs : Held k s) : Held k (State.refReadDone s b p
    secs) := by
  unfold State.refReadDone
  repeat' first
    | with_reducible first
      | assumption | apply held_ite | apply heldOf_self | apply refreshRetry_held | apply refreshEnd_held | apply setFlag_held | apply markBad_held
      | apply startOp_held
    | simp only [held_mk]
    | split
theorem journalScrub_held {k : Keep} {s : State} (hs : Held k s) : Held k (State.journalScrub s) := by
  unfold State.journalScrub
  repeat' with_reducible (first | assumption | apply journal_held)
theorem scrubOpen_held {k : Keep} {s : State} {now : Bool} (hs : Held k s) : Held k (State.scrubOpen s now) := by
  unfold State.scrubOpen
  repeat' first | with_reducible (first | assumption | apply heldOf_self | apply journalScrub_held | apply setFlag_held) | simp only [held_mk] | split
theorem scrubMove_held {k : Keep} {s : State} {start : Nat} {b : Nat} (hs : Held k s) : Held k (State.scrubMove s start b) := by
  unfold State.scrubMove
  repeat' first
    | with_reducible (first | assumption | apply heldOf_self | apply journalScrub_held | apply count_held | apply setFlag_held)
    | simp only [held_mk]
    | split
theorem scrubDone_held {k : Keep} {s : State} {b : Nat} {p : Nat} {secs : List (Option Nat)} (hs : Held k s) : Held k (State.scrubDone s b p
    secs) := by
  unfold State.scrubDone
  repeat' first
    | with_reducible (first | assumption | apply held_ite | apply heldOf_self | apply setFlag_held | apply markBad_held | apply scrubMove_held)
    | simp only [held_mk]
    | split
theorem scrubHot_held {k : Keep} {s : State} (hs : Held k s) : Held k (State.scrubHot s) := by
  unfold State.scrubHot
  repeat' first | with_reducible (first | assumption | apply held_ite | apply heldOf_self) | simp only [held_mk] | split
theorem evScrubTick_held {k : Keep} {s : State} (hs : Held k s) : Held k (evScrubTick s) := by
  unfold evScrubTick
  repeat' first
    | with_reducible (first | assumption | apply held_ite | apply heldOf_self | apply scrubOpen_held | apply nandKick_held)
    | simp only [held_mk]
theorem evNandScrubNow_held {k : Keep} {s : State} (hs : Held k s) : Held k (evNandScrubNow s) := by
  unfold evNandScrubNow
  repeat' first
    | with_reducible (first | assumption | apply heldOf_self | apply scrubOpen_held | apply emit_held | apply nandKick_held)
    | simp only [held_mk]
theorem evNandPaceTick_held {k : Keep} {s : State} (hs : Held k s) : Held k (evNandPaceTick s) := by
  unfold evNandPaceTick
  repeat' first | with_reducible (first | assumption | apply heldOf_self | apply nandKick_held) | simp only [held_mk]

end Sys2Proof.Machine
end

