-- ==== Sys2Proof/Laws/Claims.lean ====
section
/-! SUPPORT. Laws/Claims.lean: each operation of Machine/Claims.lean leaves the queue, the life counter and the canonical form. -/

namespace Sys2Proof.Machine

theorem healthReg_held {k : Keep} {s : State} (hs : Held k s) : Held k (State.healthReg s) := by
  unfold State.healthReg
  repeat' with_reducible (first | assumption | apply held_ite | apply setF_held)
theorem setClaim_held {k : Keep} {s : State} {c : BitVec 64} (hs : Held k s) : Held k (State.setClaim s c) := by
  unfold State.setClaim
  repeat' with_reducible (first | assumption | apply setPair_held)
theorem setSeen_held {k : Keep} {s : State} {c : BitVec 64} (hs : Held k s) : Held k (State.setSeen s c) := by
  unfold State.setSeen
  repeat' with_reducible (first | assumption | apply setPair_held)
theorem setClmState_held {k : Keep} {s : State} {n : Nat} (hs : Held k s) : Held k (State.setClmState s n) := by
  unfold State.setClmState
  repeat' with_reducible (first | assumption | apply setF_held)
theorem mirrorBind_held {k : Keep} {s : State} {bs : List Binding} (hs : Held k s) : Held k (State.mirrorBind s bs) := by
  unfold State.mirrorBind
  repeat' first
    | with_reducible (first | assumption | intro _ | apply held_ite | apply endBinding_held | apply addBinding_held)
    | simp only [held_mk]
    | with_reducible apply held_foldl
    | split
theorem takeItem_held {k : Keep} {s : State} {i : MirrorItem} (hs : Held k s) : Held k (State.takeItem s i) := by
  unfold State.takeItem
  repeat' first
    | with_reducible first
      | assumption | intro _ | apply heldOf_self | apply setReg_held | apply setF_held | apply loadImage_held | apply setSeq_held
      | apply setLive_held | apply mirrorBind_held | apply putTenant_held | apply protectRegs_held
    | simp only [held_mk]
    | with_reducible apply held_foldl
    | split
theorem takeGen_held {k : Keep} {s : State} {g : MirrorGen} (hs : Held k s) : Held k (State.takeGen s g) := by
  unfold State.takeGen
  repeat' first | with_reducible (first | assumption | intro _ | apply takeItem_held | apply held_foldl) | split
theorem sendItem_held {k : Keep} {s : State} {n : Nat} {bulk : Bool} (hs : Held k s) : Held k (State.sendItem s n bulk) := by
  unfold State.sendItem
  repeat' first | with_reducible (first | assumption | apply heldOf_self | apply ringSend_held) | simp only [held_mk]
theorem startBulk_held {k : Keep} {s : State} (hs : Held k s) : Held k (State.startBulk s) := by
  unfold State.startBulk
  repeat' first
    | with_reducible (first | assumption | intro _ | apply heldOf_self | apply sendItem_held | apply setFlag_held)
    | simp only [held_mk]
    | with_reducible apply held_foldl
theorem mirrorSince_held {k : Keep} {new : State} {old : State} {rsp : Option (Nat × Word × Rsp)} (hnew : Held k new) (hold : Held k old) : Held k
    (State.mirrorSince new old rsp) := by
  unfold State.mirrorSince
  repeat' first
    | with_reducible first
      | assumption | intro _ | apply held_ite | apply heldOf_self | apply answer_held | apply setReg_held | apply sendItem_held
    | simp only [held_mk]
    | with_reducible apply held_foldl
    | split
theorem mirrorRelease_held {k : Keep} {s : State} (hs : Held k s) : Held k (State.mirrorRelease s) := by
  unfold State.mirrorRelease
  repeat' first
    | with_reducible (first | assumption | intro _ | apply heldOf_self | apply answer_held)
    | simp only [held_mk]
    | with_reducible apply held_foldl
theorem evMirrorAckRx_held {k : Keep} {mgen : Word} {item : Nat} {s : State} (hs : Held k s) : Held k (evMirrorAckRx mgen item s) := by
  unfold evMirrorAckRx
  repeat' first
    | with_reducible (first | assumption | apply held_ite | apply heldOf_self | apply setFlag_held | apply mirrorRelease_held)
    | simp only [held_mk]
theorem evMirrorAckTimeout_held {k : Keep} {s : State} (hs : Held k s) : Held k (evMirrorAckTimeout s) := by
  unfold evMirrorAckTimeout
  repeat' first
    | with_reducible first
      | assumption | apply held_ite | apply heldOf_self | apply event_held | apply count_held | apply setFlag_held | apply mirrorRelease_held
      | apply startBulk_held
    | simp only [held_mk]
theorem evMirrorRx_held {k : Keep} {mgen : Word} {item : MirrorItem} {bulk : Bool} {s : State} (hs : Held k s) : Held k (evMirrorRx mgen item bulk
    s) := by
  unfold evMirrorRx
  repeat' first
    | with_reducible first
      | assumption | apply held_ite | apply heldOf_self | apply ringSend_held | apply setReg_held | apply setClmState_held | apply setFlag_held
      | apply takeItem_held
    | simp only [held_mk]
theorem testEnd_held {k : Keep} {s : State} {status : Nat} (hs : Held k s) : Held k (State.testEnd s status) := by
  unfold State.testEnd
  repeat' first | with_reducible (first | assumption | apply heldOf_self | apply testDisarm_held) | simp only [held_mk] | split
theorem stageReport_held {k : Keep} {s : State} {g : StageSt} {status : Nat} (hs : Held k s) : Held k (State.stageReport s g status) := by
  unfold State.stageReport
  repeat' with_reducible (first | assumption | apply held_ite | apply installDone_held)
theorem stageLost_held {k : Keep} {s : State} (hs : Held k s) : Held k (State.stageLost s) := by
  unfold State.stageLost
  repeat' first
    | with_reducible first
      | assumption | apply held_ite | apply heldOf_self | apply setFlag_held | apply setSeq_held | apply event_held | apply count_held
      | apply setF_held | apply stageReport_held
    | simp only [held_mk]
    | split
theorem dropBands_held {k : Keep} {s : State} (hs : Held k s) : Held k (State.dropBands s) := by
  unfold State.dropBands
  repeat' first | with_reducible (first | assumption | apply heldOf_self | apply engRegs_held) | simp only [held_mk]
theorem fence_held {k : Keep} {s : State} (hs : Held k s) : Held k (State.fence s) := by
  unfold State.fence
  repeat' first
    | with_reducible first
      | assumption | intro _ | apply held_ite | apply heldOf_self | apply count_held | apply setClmState_held | apply dropBands_held
      | apply setFlag_held | apply setSeq_held | apply popClose_held | apply stageLost_held | apply testEnd_held | apply answer_held
      | apply litReturn_held
    | simp only [held_mk]
    | with_reducible apply held_foldl
theorem sawClaim_held {k : Keep} {s : State} {c : BitVec 64} (hs : Held k s) : Held k (State.sawClaim s c) := by
  unfold State.sawClaim
  repeat' with_reducible (first | assumption | apply held_ite | apply setSeen_held | apply fence_held)
theorem fsqRun_held {k : Keep} {s : State} (hs : Held k s) : Held k (State.fsqRun s) := by
  unfold State.fsqRun
  repeat' first
    | with_reducible (first | assumption | intro _ | apply held_ite | apply heldOf_self | apply progStart_held | apply setDmem_held)
    | simp only [held_mk]
    | with_reducible apply held_foldl
theorem sendEnum_held {k : Keep} {s : State} {p : Nat} {q : Nat} (hs : Held k s) : Held k (State.sendEnum s p q) := by
  unfold State.sendEnum
  repeat' with_reducible (first | assumption | apply held_ite | apply ctrlSend_held)
theorem takeStart_held {k : Keep} {s : State} (hs : Held k s) : Held k (State.takeStart s) := by
  unfold State.takeStart
  repeat' first
    | with_reducible first
      | assumption | intro _ | apply held_ite | apply heldOf_self | apply fsqRun_held | apply damageBands_held | apply sendEnum_held
      | apply event_held
    | simp only [held_mk]
    | with_reducible apply held_foldl
theorem takeOver_held {k : Keep} {s : State} {c : BitVec 64} (hs : Held k s) : Held k (State.takeOver s c) := by
  unfold State.takeOver
  repeat' first
    | with_reducible first
      | assumption | apply held_ite | apply heldOf_self | apply count_held | apply setClmState_held | apply setClaim_held | apply setFlag_held
      | apply takeStart_held | apply takeGen_held | apply loadQueue_held
    | simp only [held_mk]
    | split
theorem granted_held {k : Keep} {s : State} {c : BitVec 64} (hs : Held k s) : Held k (State.granted s c) := by
  unfold State.granted
  repeat' with_reducible (first | assumption | apply held_ite | apply setClaim_held | apply takeOver_held)
theorem otherNamed_held {k : Keep} {s : State} {c : BitVec 64} (hs : Held k s) : Held k (State.otherNamed s c) := by
  unfold State.otherNamed
  repeat' with_reducible (first | assumption | apply held_ite | apply fence_held)
theorem setHolder_held {k : Keep} {s : State} {pos : Nat} (hs : Held k s) : Held k (State.setHolder s pos) := by
  unfold State.setHolder
  repeat' with_reducible (first | assumption | apply setFlag_held | apply setF_held)
theorem grantHeard_held {k : Keep} {s : State} {c : BitVec 64} {holder : Nat} (hs : Held k s) : Held k (State.grantHeard s c holder) := by
  unfold State.grantHeard
  repeat' first
    | with_reducible (first | assumption | apply held_ite | apply heldOf_self | apply setHolder_held | apply granted_held | apply otherNamed_held)
    | simp only [held_mk]
theorem evGrantRx_held {k : Keep} {c : BitVec 64} {holder : Nat} {s : State} (hs : Held k s) : Held k (evGrantRx c holder s) := by
  unfold evGrantRx
  repeat' with_reducible (first | assumption | apply held_ite | apply count_held | apply grantHeard_held)
theorem swapSend_held {k : Keep} {s : State} {r : SwapOut} (hs : Held k s) : Held k (State.swapSend s r) := by
  unfold State.swapSend
  repeat' with_reducible (first | assumption | apply held_ite | apply eventAt_held | apply ringSend_held)
theorem swapRequest_held {k : Keep} {s : State} {cause : Nat} {wcp : Option (Nat × Word)} (hs : Held k s) : Held k (State.swapRequest s cause
    wcp) := by
  unfold State.swapRequest
  repeat' first | with_reducible (first | assumption | apply heldOf_self | apply swapSend_held | apply count_held) | simp only [held_mk]
theorem swapOwner_held {k : Keep} {s : State} {wcp : Option (Nat × Word)} (hs : Held k s) : Held k (State.swapOwner s wcp).1 := by
  unfold State.swapOwner
  repeat' with_reducible (first | assumption | apply held_ite1 | apply swapRequest_held)
theorem swapAuto_held {k : Keep} {s : State} (hs : Held k s) : Held k (State.swapAuto s) := by
  unfold State.swapAuto
  repeat' first | with_reducible (first | assumption | apply held_ite | apply swapRequest_held) | simp only [held_mk] | split
theorem swapAnswered_held {k : Keep} {s : State} {cur : BitVec 64} {status : Nat} {seq : Word} (hs : Held k s) : Held k (State.swapAnswered s cur
    status seq) := by
  unfold State.swapAnswered
  repeat' first
    | with_reducible (first | assumption | apply held_ite | apply heldOf_self | apply count_held | apply setFlag_held | apply answer_held)
    | simp only [held_mk]
    | split
theorem evSwapRspRx_held {k : Keep} {cur : BitVec 64} {status : Nat} {seq : Word} {s : State} (hs : Held k s) : Held k (evSwapRspRx cur status seq
    s) := by
  unfold evSwapRspRx
  repeat' with_reducible (first | assumption | apply held_ite | apply count_held | apply swapAnswered_held)
theorem evSwapReqRetry_held {k : Keep} {s : State} (hs : Held k s) : Held k (evSwapReqRetry s) := by
  unfold evSwapReqRetry
  repeat' first
    | with_reducible (first | assumption | apply held_ite | apply heldOf_self | apply swapSend_held | apply answer_held)
    | simp only [held_mk]
    | split
theorem evClmSwapReq_held {k : Keep} {s : State} (hs : Held k s) : Held k (evClmSwapReq s) := by
  unfold evClmSwapReq
  repeat' with_reducible (first | assumption | apply swapOwner_held | apply emit_held)
theorem refSet_held {k : Keep} {s : State} {cur : BitVec 64} {top : BitVec 64} {holder : Option Nat} (hs : Held k s) : Held k (State.refSet s cur top
    holder) := by
  unfold State.refSet
  repeat' first
    | with_reducible first
      | assumption | apply heldOf_self | apply journalClaim_held | apply setSeen_held | apply setClaim_held | apply setHolder_held
    | simp only [held_mk]
    | split
theorem refHeard_held {k : Keep} {s : State} {c : BitVec 64} (hs : Held k s) : Held k (State.refHeard s c) := by
  unfold State.refHeard
  repeat' with_reducible (first | assumption | apply held_ite | apply refSet_held)
theorem refGrant_held {k : Keep} {s : State} {pos : Nat} {reason : Nat} (hs : Held k s) : Held k (State.refGrant s pos reason) := by
  unfold State.refGrant
  repeat' first
    | with_reducible (first | assumption | apply heldOf_self | apply count_held | apply refSet_held | apply ringSend_held)
    | simp only [held_mk]
theorem refStart_held {k : Keep} {s : State} (hs : Held k s) : Held k (State.refStart s) := by
  unfold State.refStart
  repeat' first
    | with_reducible (first | assumption | apply held_ite | apply heldOf_self | apply refSet_held | apply refGrant_held)
    | simp only [held_mk]
    | split
theorem refSwap_held {k : Keep} {s : State} {r : SwapIn} (hs : Held k s) : Held k (State.refSwap s r) := by
  unfold State.refSwap
  repeat' first
    | with_reducible (first | assumption | apply held_ite | apply heldOf_self | apply ringSend_held | apply refGrant_held | apply setFlag_held)
    | simp only [held_mk]
    | split
theorem refLoss_held {k : Keep} {s : State} (hs : Held k s) : Held k (State.refLoss s) := by
  unfold State.refLoss
  repeat' first
    | with_reducible (first | assumption | apply held_ite | apply heldOf_self | apply refGrant_held | apply setFlag_held | apply count_held)
    | simp only [held_mk]
    | split
theorem refQuiet_held {k : Keep} {s : State} (hs : Held k s) : Held k (State.refQuiet s) := by
  unfold State.refQuiet
  repeat' first | with_reducible (first | assumption | apply held_ite | apply heldOf_self) | simp only [held_mk]
theorem refInbox_held {k : Keep} {s : State} {rs : List SwapIn} (hs : Held k s) : Held k (State.refInbox s rs) := by
  unfold State.refInbox
  repeat' first | with_reducible (first | assumption | apply heldOf_self) | simp only [held_mk]
theorem evRefereeEvaluation_held {k : Keep} {swaps : List SwapIn} {s : State} (hs : Held k s) : Held k (evRefereeEvaluation swaps s) := by
  unfold evRefereeEvaluation
  repeat' first
    | with_reducible first
      | assumption | intro _ | apply held_ite | apply heldOf_self | apply refQuiet_held | apply refStart_held | apply refLoss_held
      | apply refSwap_held | apply refInbox_held
    | simp only [held_mk]
    | with_reducible apply held_foldl
theorem evRefereeStartupWait_held {k : Keep} {s : State} (hs : Held k s) : Held k (evRefereeStartupWait s) := by
  unfold evRefereeStartupWait
  repeat' with_reducible (first | assumption | apply held_ite | apply refStart_held)
theorem refHb_held {k : Keep} {s : State} {h0 : Heartbeat} (hs : Held k s) : Held k (State.refHb s h0) := by
  unfold State.refHb
  repeat' first | with_reducible (first | assumption | apply held_ite | apply heldOf_self | apply refHeard_held) | simp only [held_mk]
theorem evHeartbeatTimer_held {k : Keep} {s : State} (hs : Held k s) : Held k (evHeartbeatTimer s) := by
  unfold evHeartbeatTimer
  repeat' with_reducible (first | assumption | apply held_ite | apply ringSend_held | apply healthReg_held | apply swapAuto_held | apply eventAt_held)
theorem evHeartbeatTimeout_held {k : Keep} {referee : Bool} {s : State} (hs : Held k s) : Held k (evHeartbeatTimeout referee s) := by
  unfold evHeartbeatTimeout
  repeat' with_reducible (first | assumption | apply held_ite | apply setFlag_held | apply count_held)
theorem refHbHeard_held {k : Keep} {s : State} {h0 : Heartbeat} (hs : Held k s) : Held k (State.refHbHeard s h0) := by
  unfold State.refHbHeard
  repeat' first
    | with_reducible first
      | assumption | apply held_ite | apply heldOf_self | apply setFlag_held | apply setHolder_held | apply granted_held | apply otherNamed_held
      | apply setClmState_held
    | simp only [held_mk]
theorem partHbHeard_held {k : Keep} {s : State} {h0 : Heartbeat} (hs : Held k s) : Held k (State.partHbHeard s h0) := by
  unfold State.partHbHeard
  repeat' first
    | with_reducible first
      | assumption | apply held_ite | apply heldOf_self | apply setF_held | apply setFlag_held | apply otherNamed_held | apply setHolder_held
      | apply setClmState_held | apply startBulk_held | apply swapAuto_held
    | simp only [held_mk]
theorem evHeartbeatRx_held {k : Keep} {h0 : Heartbeat} {s : State} (hs : Held k s) : Held k (evHeartbeatRx h0 s) := by
  unfold evHeartbeatRx
  repeat' with_reducible first
    | assumption | apply held_ite | apply refHb_held | apply count_held | apply refHbHeard_held | apply partHbHeard_held | apply healthReg_held

end Sys2Proof.Machine
end

