-- ==== Sys2Proof/Laws/Board.lean ====
section
/-! SUPPORT. Laws/Board.lean: each operation of Machine/Board.lean leaves the queue, the life counter and the canonical form. -/

namespace Sys2Proof.Machine

theorem setSensorBad_held {k : Keep} {s : State} {n : Nat} {b : Bool} (hs : Held k s) : Held k (State.setSensorBad s n b) := by
  unfold State.setSensorBad
  repeat' first | with_reducible (first | assumption | apply heldOf_self) | simp only [held_mk]
theorem readingFails_held {k : Keep} {s : State} {n : Nat} (hs : Held k s) : Held k (State.readingFails s n) := by
  unfold State.readingFails
  repeat' first
    | with_reducible (first | assumption | apply heldOf_self | apply setFlag_held | apply count_held | apply setSensorBad_held)
    | simp only [held_mk]
theorem readingGood_held {k : Keep} {s : State} {n : Nat} {v : Int} (hs : Held k s) : Held k (State.readingGood s n v) := by
  unfold State.readingGood
  repeat' first
    | with_reducible (first | assumption | apply held_ite | apply heldOf_self | apply setF_held | apply setSensorBad_held | apply setFlag_held)
    | simp only [held_mk]
theorem readSensor_held {k : Keep} {s : State} {n : Nat} {raw : Option Nat} (hs : Held k s) : Held k (State.readSensor s n raw) := by
  unfold State.readSensor
  repeat' first
    | with_reducible (first | assumption | apply held_ite | apply heldOf_self | apply readingFails_held | apply readingGood_held)
    | simp only [held_mk]
    | split
theorem newCeil_held {k : Keep} {s : State} (hs : Held k s) : Held k (State.newCeil s) := by
  unfold State.newCeil
  repeat' with_reducible (first | assumption | apply held_ite | apply raisePsqs_held | apply genPending_held | apply setF_held)
theorem setCeilTherm_held {k : Keep} {s : State} {c : Nat} (hs : Held k s) : Held k (State.setCeilTherm s c) := by
  unfold State.setCeilTherm
  repeat' with_reducible (first | assumption | apply held_ite | apply newCeil_held | apply setF_held)
theorem newTeff_held {k : Keep} {s : State} (hs : Held k s) : Held k (State.newTeff s) := by
  unfold State.newTeff
  repeat' with_reducible (first | assumption | apply held_ite | apply setFlag_held | apply setF_held | apply newCeil_held | apply genPending_held)
theorem evLampTempCycle_held {k : Keep} {raws : List (Option Nat)} {s : State} (hs : Held k s) : Held k (evLampTempCycle raws s) := by
  unfold evLampTempCycle
  repeat' first
    | with_reducible first
      | assumption | intro _ | apply held_ite | apply heldOf_self | apply readSensor_held | apply raisePsqs_held | apply newTeff_held
      | apply ringSend_held
    | simp only [held_mk]
    | with_reducible apply held_foldl
theorem evTempReadingRx_held {k : Keep} {pos : Nat} {temps : List Nat} {loc : Nat} {valid : Nat} {s : State} (hs : Held k s) : Held k (evTempReadingRx
    pos temps loc valid s) := by
  unfold evTempReadingRx
  repeat' first
    | with_reducible first
      | assumption | intro _ | apply held_ite | apply heldOf_self | apply setFlag_held | apply setF_held | apply setSensorBad_held
    | simp only [held_mk]
    | with_reducible apply held_foldl
    | split
theorem evTempRingTimeout_held {k : Keep} {n : Nat} {s : State} (hs : Held k s) : Held k (evTempRingTimeout n s) := by
  unfold evTempRingTimeout
  repeat' with_reducible (first | assumption | apply held_ite | apply setFlag_held | apply setSensorBad_held)
theorem newSetpoint_held {k : Keep} {s : State} {v : Nat} (hs : Held k s) : Held k (State.newSetpoint s v) := by
  unfold State.newSetpoint
  repeat' with_reducible (first | assumption | apply held_ite | apply raisePsqs_held | apply setF_held)
theorem pmbWrite_held {k : Keep} {s : State} {ack : Bool} (hs : Held k s) : Held k (State.pmbWrite s ack) := by
  unfold State.pmbWrite
  repeat' first
    | with_reducible (first | assumption | apply held_ite | apply heldOf_self | apply setFlag_held | apply emit_held | apply count_held)
    | simp only [held_mk]
    | split
theorem becomeMaster_held {k : Keep} {s : State} {mode : Option Nat} {ack : Bool} (hs : Held k s) : Held k (State.becomeMaster s mode ack) := by
  unfold State.becomeMaster
  repeat' first | with_reducible (first | assumption | apply heldOf_self | apply newSetpoint_held | apply pmbWrite_held) | simp only [held_mk]
theorem masterStep_held {k : Keep} {s : State} {own : Nat} (hs : Held k s) : Held k (State.masterStep s own).1 := by
  unfold State.masterStep
  repeat' first
    | with_reducible first
      | assumption | apply held_ite | apply held_ite1 | apply heldOf_self | apply setFlag_held | apply count_held | apply newSetpoint_held
    | simp only [held_mk]
theorem evHeadroomWindowEnd_held {k : Keep} {mode : Option Nat} {acks : List Bool} {s : State} (hs : Held k s) : Held k (evHeadroomWindowEnd mode acks
    s) := by
  unfold evHeadroomWindowEnd
  repeat' first
    | with_reducible first
      | assumption | apply held_ite | apply heldOf_self | apply setF_held | apply count_held | apply setFlag_held | apply becomeMaster_held
      | apply masterStep_held | apply pmbWrite_held | apply ringSend_held
    | simp only [held_mk]
theorem evSupplyVoteRx_held {k : Keep} {pos : Nat} {vote : Nat} {masterSet : Bool} {pmbEn : Bool} {vsag : Bool} {setpoint : Nat} {fails : Nat} {s :
    State} (hs : Held k s) : Held k (evSupplyVoteRx pos vote masterSet pmbEn vsag setpoint fails s) := by
  unfold evSupplyVoteRx
  repeat' first
    | with_reducible (first | assumption | apply held_ite | apply heldOf_self | apply setFlag_held | apply newSetpoint_held)
    | simp only [held_mk]
theorem putBright_held {k : Keep} {s : State} {v : Nat} (hs : Held k s) : Held k (State.putBright s v) := by
  unfold State.putBright
  repeat' with_reducible (first | assumption | apply held_ite | apply genPending_held | apply setF_held)
theorem setBright_held {k : Keep} {s : State} {v : Nat} (hs : Held k s) : Held k (State.setBright s v) := by
  unfold State.setBright
  repeat' with_reducible (first | assumption | apply held_ite | apply setF_held | apply putBright_held)
theorem rampDue_held {k : Keep} {s : State} (hs : Held k s) : Held k (State.rampDue s) := by
  unfold State.rampDue
  repeat' first
    | with_reducible (first | assumption | apply held_ite | apply heldOf_self | apply setFlag_held | apply putBright_held)
    | simp only [held_mk]
theorem rampFlip_held {k : Keep} {s : State} (hs : Held k s) : Held k (State.rampFlip s) := by
  unfold State.rampFlip
  repeat' first | with_reducible (first | assumption | apply held_ite | apply heldOf_self) | simp only [held_mk]
theorem evRampStep_held {k : Keep} {s : State} (hs : Held k s) : Held k (evRampStep s) := by
  unfold evRampStep
  repeat' first
    | with_reducible (first | assumption | apply held_ite | apply heldOf_self | apply genPending_held | apply setF_held | apply setFlag_held)
    | simp only [held_mk]
theorem evLampBright_held {k : Keep} {v : Nat} {s : State} (hs : Held k s) : Held k (evLampBright v s) := by
  unfold evLampBright
  repeat' with_reducible (first | assumption | apply held_ite | apply emit_held | apply setBright_held)
end Sys2Proof.Machine
end

