-- ==== Sys2Proof/Laws/Tile.lean ====
section
/-! SUPPORT. Laws/Tile.lean: each operation of Machine/Tile.lean leaves the queue, the life counter and the canonical form. -/

namespace Sys2Proof.Machine

theorem setPos_held {k : Keep} {s : State} (hs : Held k s) : Held k (State.setPos s) := by
  unfold State.setPos
  repeat' with_reducible (first | assumption | apply setF_held)
theorem takeCf_held {k : Keep} {s : State} {port : Nat} {relay : Bool} (hs : Held k s) : Held k (State.takeCf s port relay) := by
  unfold State.takeCf
  repeat' first | with_reducible (first | assumption | apply held_ite | apply heldOf_self | apply setPos_held | apply setF_held) | simp only [held_mk]
theorem dropStale_held {k : Keep} {s : State} {claim : BitVec 64} {port : Nat} {cls : Nat} (hs : Held k s) : Held k (State.dropStale s claim port
    cls) := by
  unfold State.dropStale
  repeat' first
    | with_reducible (first | assumption | intro _ | apply held_ite | apply heldOf_self | apply emit_held | apply freeBlocks_held)
    | simp only [held_mk]
    | with_reducible apply held_foldl
    | split
theorem claimRaise_held {k : Keep} {s : State} {port : Nat} {relay : Bool} {claim : BitVec 64} (hs : Held k s) : Held k (State.claimRaise s port relay
    claim) := by
  unfold State.claimRaise
  repeat' first
    | with_reducible first
      | assumption | intro _ | apply heldOf_self | apply setReg_held | apply setFlag_held | apply dropStale_held | apply takeCf_held
      | apply testDisarm_held
    | simp only [held_mk]
    | with_reducible apply held_foldl
theorem tileHdr_held {k : Keep} {s : State} {r : CordRx} {own : Bool} (hs : Held k s) : Held k (State.tileHdr s r own).1 := by
  unfold State.tileHdr
  repeat' with_reducible (first | assumption | apply held_ite | apply held_ite1 | apply count_held | apply claimRaise_held | apply takeCf_held)
theorem tileOwn_held {k : Keep} {s : State} {r : CordRx} {b : CordBody} (hs : Held k s) : Held k (State.tileOwn s r b).1 := by
  unfold State.tileOwn
  repeat' with_reducible (first | assumption | apply tileHdr_held | apply freeBlocks_held)
theorem evCutThroughForward_held {k : Keep} {r : CordRx} {b : CordBody} {s : State} (hs : Held k s) : Held k (evCutThroughForward r b s) := by
  unfold evCutThroughForward
  repeat' first
    | with_reducible first
      | assumption | apply held_ite | apply freeBlocks_held | apply tileHdr_held | apply count_held | apply emit_held | apply sendFrom_held
    | simp only [held_mk]
    | split
theorem frameClose_held {k : Keep} {s : State} {f : TileFrame} {result : Nat} {n : Nat} (hs : Held k s) : Held k (State.frameClose s f result n) := by
  unfold State.frameClose
  repeat' first | with_reducible (first | assumption | apply heldOf_self | apply setReg_held | apply sendUp_held) | simp only [held_mk]
theorem flipBands_held {k : Keep} {s : State} {ks : List Nat} (hs : Held k s) : Held k (State.flipBands s ks) := by
  unfold State.flipBands
  repeat' first | with_reducible (first | assumption | apply heldOf_self | apply invert_held | apply sweepRegs_held) | simp only [held_mk]
theorem syncPulse_held {k : Keep} {s : State} (hs : Held k s) : Held k (State.syncPulse s) := by
  unfold State.syncPulse
  repeat' with_reducible (first | assumption | apply held_ite | apply emit_held)
theorem evPtimeReached_held {k : Keep} {s : State} (hs : Held k s) : Held k (evPtimeReached s) := by
  unfold evPtimeReached
  repeat' first
    | with_reducible first
      | assumption | apply held_ite | apply rampFlip_held | apply syncPulse_held | apply commit_held | apply flipBands_held | apply frameClose_held
      | apply raisePsqs_held
    | simp only [held_mk]
    | split
theorem switchLate_held {k : Keep} {s : State} (hs : Held k s) : Held k (State.switchLate s) := by
  unfold State.switchLate
  repeat' first | with_reducible (first | assumption | apply frameClose_held | apply genSwitch_held) | split
theorem evGenSwitchTimeout_held {k : Keep} {s : State} (hs : Held k s) : Held k (evGenSwitchTimeout s) := by
  unfold evGenSwitchTimeout
  repeat' first | with_reducible (first | assumption | apply held_ite | apply heldOf_self | apply switchLate_held) | simp only [held_mk]
theorem markAccept_held {k : Keep} {s : State} {r : CordRx} {fcnt : Nat} {fper : Nat} {ntiles : Nat} (hs : Held k s) : Held k (State.markAccept s r
    fcnt fper ntiles).1 := by
  unfold State.markAccept
  repeat' first
    | with_reducible first
      | assumption | apply held_ite1 | apply heldOf_self | apply tileHdr_held | apply count_held | apply frameClose_held | apply genSwitch_held
      | apply commit_held | apply setPos_held | apply setF_held | apply raisePsqs_held
    | simp only [held_mk]
    | split
theorem evPresentRx_held {k : Keep} {r : CordRx} {fcnt : Nat} {ptime : Nat} {count : List Nat} {s : State} (hs : Held k s) : Held k (evPresentRx r
    fcnt ptime count s) := by
  unfold evPresentRx
  repeat' first
    | with_reducible (first | assumption | apply held_ite | apply heldOf_self | apply tileHdr_held | apply count_held | apply frameClose_held)
    | simp only [held_mk]
    | split
theorem evBandRx_held {k : Keep} {r : CordRx} {b : BandPkt} {fits : Bool} {s : State} (hs : Held k s) : Held k (evBandRx r b fits s) := by
  unfold evBandRx
  repeat' first
    | with_reducible first
      | assumption | apply held_ite | apply heldOf_self | apply tileOwn_held | apply count_held | apply litReturn_held | apply setFlag_held
    | simp only [held_mk]
    | split
theorem evBandCorrectionDone_held {k : Keep} {s : State} (hs : Held k s) : Held k (evBandCorrectionDone s) := by
  unfold evBandCorrectionDone
  repeat' first | with_reducible (first | assumption | apply held_ite | apply heldOf_self | apply storeBand_held) | simp only [held_mk] | split
theorem evTestslotRx_held {k : Keep} {r : CordRx} {fcnt : Nat} {tstart : Nat} {len : Nat} {s : State} (hs : Held k s) : Held k (evTestslotRx r fcnt
    tstart len s) := by
  unfold evTestslotRx
  repeat' first
    | with_reducible (first | assumption | apply held_ite | apply heldOf_self | apply tileHdr_held | apply count_held | apply testRegs_held)
    | simp only [held_mk]
    | split
theorem ctrlTake_held {k : Keep} {s : State} {seq : Word} {op : Nat} {f : State → State × Option (Nat × List Byte)} (hs : Held k s) (hf : ∀ u , Held k
    u → Held k (f u ).1) : Held k (State.ctrlTake s seq op f) := by
  unfold State.ctrlTake
  repeat' first
    | with_reducible (first | assumption | apply held_ite | apply hf | apply rspUp_held | apply ctrlAnswer_held)
    | simp only [held_mk]
    | split
theorem ctrlReq_held {k : Keep} {s : State} {r : CordRx} {seq : Word} {op : Nat} {data : List Byte} {f : State → State × Option (Nat × List Byte)} (hs
    : Held k s) (hf : ∀ u , Held k u → Held k (f u ).1) : Held k (State.ctrlReq s r seq op data f) := by
  unfold State.ctrlReq
  repeat' with_reducible (first | assumption | apply held_ite | apply tileOwn_held | apply ctrlTake_held)

end Sys2Proof.Machine
end

