-- ==== Sys2Proof/Laws/Time.lean ====
section
/-! SUPPORT. Laws/Time.lean: each operation of Machine/Time.lean leaves the queue, the life counter and the canonical form. -/

namespace Sys2Proof.Machine

theorem setFcorr_held {k : Keep} {s : State} {v : Int} (hs : Held k s) : Held k (State.setFcorr s v) := by
  unfold State.setFcorr
  repeat' first | with_reducible (first | assumption | apply held_ite | apply heldOf_self | apply setReg_held) | simp only [held_mk]
theorem carryRatio_held {k : Keep} {s : State} {toLane : Bool} (hs : Held k s) : Held k (State.carryRatio s toLane) := by
  unfold State.carryRatio
  repeat' with_reducible (first | assumption | apply setFcorr_held)
theorem evOcxoStop_held {k : Keep} {s : State} (hs : Held k s) : Held k (evOcxoStop s) := by
  unfold evOcxoStop
  repeat' with_reducible (first | assumption | apply held_ite | apply count_held | apply setFlag_held | apply carryRatio_held)
theorem evOcxoGlitch_held {k : Keep} {s : State} (hs : Held k s) : Held k (evOcxoGlitch s) := by
  unfold evOcxoGlitch
  repeat' with_reducible (first | assumption | apply held_ite | apply count_held)
theorem evOcxoRateCheck_held {k : Keep} {ratio : Int} {s : State} (hs : Held k s) : Held k (evOcxoRateCheck ratio s) := by
  unfold evOcxoRateCheck
  repeat' first
    | with_reducible (first | assumption | apply held_ite | apply heldOf_self | apply setFlag_held | apply count_held)
    | simp only [held_mk]
theorem evOcxoRequalified_held {k : Keep} {s : State} (hs : Held k s) : Held k (evOcxoRequalified s) := by
  unfold evOcxoRequalified
  repeat' with_reducible (first | assumption | apply held_ite | apply carryRatio_held | apply setFlag_held)
theorem evOcxoWarmChange_held {k : Keep} {warm : Bool} {s : State} (hs : Held k s) : Held k (evOcxoWarmChange warm s) := by
  unfold evOcxoWarmChange
  repeat' first | with_reducible (first | assumption | apply heldOf_self | apply setFlag_held) | simp only [held_mk]
theorem setRefIn_held {k : Keep} {s : State} {i : Nat} {r : RefIn} (hs : Held k s) : Held k (State.setRefIn s i r) := by
  unfold State.setRefIn
  repeat' first | with_reducible (first | assumption | apply heldOf_self) | simp only [held_mk]
theorem qualify_held {k : Keep} {s : State} {i : Nat} (hs : Held k s) : Held k (State.qualify s i) := by
  unfold State.qualify
  repeat' with_reducible (first | assumption | apply setF_held | apply setRefIn_held)
theorem refLost_held {k : Keep} {s : State} {i : Nat} (hs : Held k s) : Held k (State.refLost s i) := by
  unfold State.refLost
  repeat' first
    | with_reducible (first | assumption | apply held_ite | apply heldOf_self | apply setF_held | apply setRefIn_held)
    | simp only [held_mk]
theorem groupLock_held {k : Keep} {s : State} (hs : Held k s) : Held k (State.groupLock s) := by
  unfold State.groupLock
  repeat' with_reducible (first | assumption | apply setFlag_held)
theorem steer_held {k : Keep} {s : State} (hs : Held k s) : Held k (State.steer s) := by
  unfold State.steer
  repeat' first
    | with_reducible first
      | assumption | apply held_ite | apply heldOf_self | apply groupLock_held | apply setFlag_held | apply setReg_held | apply setFcorr_held
    | simp only [held_mk]
theorem evSyncEdge_held {k : Keep} {i : Nat} {s : State} (hs : Held k s) : Held k (evSyncEdge i s) := by
  unfold evSyncEdge
  repeat' with_reducible first
    | assumption | apply held_ite | apply count_held | apply setRefIn_held | apply setReg_held | apply qualify_held | apply steer_held
theorem evSyncStop_held {k : Keep} {i : Nat} {s : State} (hs : Held k s) : Held k (evSyncStop i s) := by
  unfold evSyncStop
  repeat' with_reducible (first | assumption | apply refLost_held | apply count_held)
theorem evSyncRateCheck_held {k : Keep} {i : Nat} {dev : Int} {s : State} (hs : Held k s) : Held k (evSyncRateCheck i dev s) := by
  unfold evSyncRateCheck
  repeat' with_reducible (first | assumption | apply held_ite | apply refLost_held | apply count_held)
theorem evRefQualified_held {k : Keep} {i : Nat} {s : State} (hs : Held k s) : Held k (evRefQualified i s) := by
  unfold evRefQualified
  repeat' with_reducible (first | assumption | apply held_ite | apply setF_held)
theorem epochFix_held {k : Keep} {s : State} (hs : Held k s) : Held k (State.epochFix s) := by
  unfold State.epochFix
  repeat' first | with_reducible (first | assumption | apply held_ite | apply heldOf_self | apply setFlag_held) | simp only [held_mk]
theorem moveWtb_held {k : Keep} {s : State} {d : Int} (hs : Held k s) : Held k (State.moveWtb s d) := by
  unfold State.moveWtb
  repeat' first
    | with_reducible (first | assumption | intro _ | apply heldOf_self | apply setRefIn_held)
    | simp only [held_mk]
    | with_reducible apply held_foldl
theorem epochSync_held {k : Keep} {s : State} (hs : Held k s) : Held k (State.epochSync s) := by
  unfold State.epochSync
  repeat' with_reducible (first | assumption | apply held_ite | apply moveWtb_held)
theorem epochNetSet_held {k : Keep} {s : State} (hs : Held k s) : Held k (State.epochNetSet s) := by
  unfold State.epochNetSet
  repeat' first
    | with_reducible first
      | assumption | apply held_ite | apply heldOf_self | apply moveWtb_held | apply epochSync_held | apply setPair_held | apply setLive_held
    | simp only [held_mk]
theorem epochCheck_held {k : Keep} {s : State} (hs : Held k s) : Held k (State.epochCheck s) := by
  unfold State.epochCheck
  repeat' with_reducible (first | assumption | apply held_ite | apply epochFix_held)
theorem epochStart_held {k : Keep} {s : State} (hs : Held k s) : Held k (State.epochStart s) := by
  unfold State.epochStart
  repeat' with_reducible (first | assumption | apply held_ite | apply epochFix_held)
theorem evEpochTimeout_held {k : Keep} {s : State} (hs : Held k s) : Held k (evEpochTimeout s) := by
  unfold evEpochTimeout
  repeat' with_reducible (first | assumption | apply held_ite | apply epochFix_held)
theorem holdover_held {k : Keep} {s : State} (h : Held k s) : Held k (State.holdover s) := by
  have key : ∀ t, Held k t → Held k { t.setReg REF_HOLD 0 with tim := { (t.setReg REF_HOLD 0).tim with holdAt := some (t.setReg REF_HOLD 0).wtb } } := by
    intro t ht
    simp only [held_mk]
    exact heldOf_self (setReg_held ht)
  exact key _ (held_ite h (setFcorr_held h))
theorem select_held {k : Keep} {s : State} {k0 : Nat} (hs : Held k s) : Held k (State.select s k0) := by
  unfold State.select
  repeat' first
    | with_reducible first
      | assumption | apply held_ite | apply heldOf_self | apply setF_held | apply count_held | apply event_held | apply raiseFsq_held
      | apply setFlag_held | apply holdover_held | apply setRefIn_held | apply epochSync_held
    | simp only [held_mk]
theorem evRefEvaluation_held {k : Keep} {s : State} (hs : Held k s) : Held k (evRefEvaluation s) := by
  unfold evRefEvaluation
  repeat' first
    | with_reducible first
      | assumption | intro _ | apply held_ite | apply heldOf_self | apply refLost_held | apply qualify_held | apply select_held
      | apply epochCheck_held | apply setReg_held | apply steer_held
    | simp only [held_mk]
    | with_reducible apply held_foldl
    | split
theorem netValidWrite_held {k : Keep} {s : State} {lost : State → State} {b : Bool} (hs : Held k s) (hlost : ∀ u , Held k u → Held k (lost u )) : Held
    k (State.netValidWrite s lost b) := by
  unfold State.netValidWrite
  repeat' with_reducible first
    | assumption | apply held_ite | apply hlost | apply setFlag_held | apply qualify_held | apply popTimeSet_held | apply epochCheck_held
    | apply epochNetSet_held
theorem evNtoffWrite_held {k : Keep} {hi : Word} {s : State} (hs : Held k s) : Held k (evNtoffWrite hi s) := by
  unfold evNtoffWrite
  repeat' with_reducible (first | assumption | apply held_ite | apply setReg_held | apply setLive_held)
theorem evPpsOutPulse_held {k : Keep} {s : State} (hs : Held k s) : Held k (evPpsOutPulse s) := by
  unfold evPpsOutPulse
  repeat' with_reducible (first | assumption | apply held_ite | apply emit_held)
theorem setTimRun_held {k : Keep} {s : State} {c : Nat} {r : Option TimRun} (hs : Held k s) : Held k (State.setTimRun s c r) := by
  unfold State.setTimRun
  repeat' first | with_reducible (first | assumption | apply heldOf_self) | simp only [held_mk]
theorem timStart_held {k : Keep} {s : State} {c : Nat} (hs : Held k s) : Held k (State.timStart s c) := by
  unfold State.timStart
  repeat' with_reducible (first | assumption | apply held_ite | apply setFlag_held | apply setTimRun_held)
theorem timArm_held {k : Keep} {s : State} {c : Nat} {v : Word} (hs : Held k s) : Held k (State.timArm s c v) := by
  unfold State.timArm
  repeat' with_reducible (first | assumption | apply held_ite | apply plainWrite_held | apply timStart_held)
theorem timAbort_held {k : Keep} {s : State} {m : Nat} (hs : Held k s) : Held k (State.timAbort s m) := by
  unfold State.timAbort
  repeat' with_reducible (first | assumption | intro _ | apply held_ite | apply setFlag_held | apply setTimRun_held | apply held_foldl)
theorem timDone_held {k : Keep} {s : State} {c : Nat} {r : TimRun} {tmo : Bool} {ws : List Word} (hs : Held k s) : Held k (State.timDone s c r tmo
    ws) := by
  unfold State.timDone
  repeat' with_reducible (first | assumption | intro _ | apply setReg_held | apply setTimRun_held | apply setFlag_held | apply held_foldl)
theorem latencyDone_held {k : Keep} {s : State} {c : Nat} {r : TimRun} {tmo : Bool} (hs : Held k s) : Held k (State.latencyDone s c r tmo) := by
  unfold State.latencyDone
  repeat' with_reducible (first | assumption | apply held_ite | apply freed_held | apply timDone_held)
theorem evTimStamp_held {k : Keep} {c : Nat} {start : Bool} {stop : Bool} {s : State} (hs : Held k s) : Held k (evTimStamp c start stop s) := by
  unfold evTimStamp
  repeat' first | with_reducible (first | assumption | apply held_ite | apply setTimRun_held | apply latencyDone_held) | simp only [held_mk] | split
theorem evTimTimeout_held {k : Keep} {c : Nat} {s : State} (hs : Held k s) : Held k (evTimTimeout c s) := by
  unfold evTimTimeout
  repeat' first | with_reducible (first | assumption | apply held_ite | apply latencyDone_held) | split
theorem evTimGateEnd_held {k : Keep} {c : Nat} {s : State} (hs : Held k s) : Held k (evTimGateEnd c s) := by
  unfold evTimGateEnd
  repeat' first | with_reducible (first | assumption | apply held_ite | apply freed_held | apply timDone_held) | simp only [held_mk] | split
/-- A nominal ns leaves the queue and the memories; the life counter goes on (R436). -/
theorem oneNs_held {k : Keep} {s : State} (h : Held k s) : Held ⟨k.queue, s.oneNs.life⟩ s.oneNs := by
  unfold State.oneNs
  dsimp only
  generalize (if 1000000000 ≤ s.tim.lifeFrac + 32768 then (s.life + 1) % 2 ^ 48 else s.life) = l
  simp only [held_mk]
  exact ⟨h.1, rfl, h.2.2⟩

end Sys2Proof.Machine
end

