-- ==== Sys2Proof/Laws/Cord.lean ====
section
/-! SUPPORT. Laws/Cord.lean: each operation of Machine/Cord.lean leaves the queue, the life counter and the canonical form. -/

namespace Sys2Proof.Machine

theorem setPortStep_held {k : Keep} {s : State} {p : Nat} {k0 : Nat} (hs : Held k s) : Held k (State.setPortStep s p k0) := by
  unfold State.setPortStep
  repeat' with_reducible (first | assumption | apply held_ite | apply setF_held)
theorem setHopAuth_held {k : Keep} {s : State} {p : Nat} {a : HopAuth} (hs : Held k s) : Held k (State.setHopAuth s p a) := by
  unfold State.setHopAuth
  repeat' first | with_reducible (first | assumption | apply heldOf_self) | simp only [held_mk]
theorem clearPort_held {k : Keep} {s : State} {p : Nat} (hs : Held k s) : Held k (State.clearPort s p) := by
  unfold State.clearPort
  repeat' first
    | with_reducible (first | assumption | intro _ | apply heldOf_self | apply freeBlocks_held | apply count_held)
    | simp only [held_mk]
    | with_reducible apply held_foldl
    | split
theorem evHopTrained_held {k : Keep} {p : Nat} {width2 : Bool} {s : State} (hs : Held k s) : Held k (evHopTrained p width2 s) := by
  unfold evHopTrained
  repeat' with_reducible first
    | assumption | apply held_ite | apply setPortStep_held | apply setHopAuth_held | apply setFlag_held | apply healthReg_held
theorem resync_held {k : Keep} {s : State} (hs : Held k s) : Held k (State.resync s) := by
  unfold State.resync
  repeat' first | with_reducible (first | assumption | apply heldOf_self | apply setFlag_held) | simp only [held_mk]
theorem ringClose_held {k : Keep} {s : State} (hs : Held k s) : Held k (State.ringClose s) := by
  unfold State.ringClose
  repeat' with_reducible (first | assumption | apply held_ite | apply setFlag_held)
theorem hopKeyed_held {k : Keep} {s : State} {h0 : HopHello} (hs : Held k s) : Held k (State.hopKeyed s h0) := by
  unfold State.hopKeyed
  repeat' first
    | with_reducible first
      | assumption | apply held_ite | apply heldOf_self | apply setHopAuth_held | apply clearPort_held | apply setPortStep_held
      | apply ringClose_held | apply setFlag_held | apply resync_held | apply sendEnum_held
    | simp only [held_mk]
theorem hopFailed_held {k : Keep} {s : State} {h0 : HopHello} (hs : Held k s) : Held k (State.hopFailed s h0) := by
  unfold State.hopFailed
  repeat' with_reducible (first | assumption | apply held_ite | apply setHopAuth_held | apply count_held | apply secLog_held)
theorem evHopHelloRx_held {k : Keep} {h0 : HopHello} {s : State} (hs : Held k s) : Held k (evHopHelloRx h0 s) := by
  unfold evHopHelloRx
  repeat' with_reducible (first | assumption | apply held_ite | apply hopFailed_held | apply setFlag_held | apply hopKeyed_held)
theorem evHopAuthRetry_held {k : Keep} {p : Nat} {s : State} (hs : Held k s) : Held k (evHopAuthRetry p s) := by
  unfold evHopAuthRetry
  repeat' with_reducible (first | assumption | apply held_ite | apply setHopAuth_held)
theorem evPortDNoPartner_held {k : Keep} {p : Nat} {e : CordEnd} {s : State} (hs : Held k s) : Held k (evPortDNoPartner p e s) := by
  unfold evPortDNoPartner
  repeat' first
    | with_reducible (first | assumption | apply held_ite | apply heldOf_self | apply setFlag_held | apply setF_held | apply eventAt_held)
    | simp only [held_mk]
    | split
theorem evStepUpEval_held {k : Keep} {p : Nat} {k0 : Nat} {ok : List Bool} {s : State} (hs : Held k s) : Held k (evStepUpEval p k0 ok s) := by
  unfold evStepUpEval
  repeat' with_reducible (first | assumption | intro _ | apply held_ite | apply setPortStep_held | apply setF_held | apply held_foldl)
theorem evLinkLost_held {k : Keep} {p : Nat} {s : State} (hs : Held k s) : Held k (evLinkLost p s) := by
  unfold evLinkLost
  repeat' first
    | with_reducible first
      | assumption | apply held_ite | apply heldOf_self | apply setHopAuth_held | apply clearPort_held | apply setPortStep_held | apply count_held
      | apply setFlag_held | apply resync_held | apply healthReg_held
    | simp only [held_mk]
theorem evBerCheck_held {k : Keep} {p : Nat} {errs : Nat} {s : State} (hs : Held k s) : Held k (evBerCheck p errs s) := by
  unfold evBerCheck
  repeat' first
    | with_reducible (first | assumption | apply held_ite | apply heldOf_self | apply count_held | apply setPortStep_held)
    | simp only [held_mk]
theorem evCreditRx_held {k : Keep} {p : Nat} {cls : Nat} {freed : Nat} {s : State} (hs : Held k s) : Held k (evCreditRx p cls freed s) := by
  unfold evCreditRx
  repeat' first | with_reducible (first | assumption | apply heldOf_self | apply pump_held) | simp only [held_mk]
theorem evStarve_held {k : Keep} {p : Nat} {cls : Nat} {s : State} (hs : Held k s) : Held k (evStarve p cls s) := by
  unfold evStarve
  repeat' with_reducible (first | assumption | apply held_ite | apply setFlag_held | apply count_held)
theorem probe_held {k : Keep} {s : State} {p : Nat} (hs : Held k s) : Held k (State.probe s p) := by
  unfold State.probe
  repeat' first | with_reducible (first | assumption | apply held_ite | apply heldOf_self | apply emit_held) | simp only [held_mk]
theorem evProbeTimer_held {k : Keep} {s : State} (hs : Held k s) : Held k (evProbeTimer s) := by
  unfold evProbeTimer
  repeat' with_reducible (first | assumption | apply held_ite | apply probe_held)
theorem evProbeRx_held {k : Keep} {p : Nat} {id : Nat} {s : State} (hs : Held k s) : Held k (evProbeRx p id s) := by
  unfold evProbeRx
  repeat' with_reducible (first | assumption | apply held_ite | apply emit_held | apply send_held)
theorem evEchoRx_held {k : Keep} {p : Nat} {id : Nat} {s : State} (hs : Held k s) : Held k (evEchoRx p id s) := by
  unfold evEchoRx
  repeat' first | with_reducible (first | assumption | apply heldOf_self) | simp only [held_mk]
theorem timeChannel_held {k : Keep} {s : State} {p : Nat} (hs : Held k s) : Held k (State.timeChannel s p) := by
  unfold State.timeChannel
  repeat' with_reducible (first | assumption | intro _ | apply setFlag_held | apply setReg_held | apply held_foldl)
theorem timeFollow_held {k : Keep} {s : State} (hs : Held k s) : Held k (State.timeFollow s) := by
  unfold State.timeFollow
  repeat' first
    | with_reducible (first | assumption | apply held_ite | apply heldOf_self | apply moveWtb_held | apply setFcorr_held | apply setFlag_held)
    | simp only [held_mk]
theorem evTimeRspRx_held {k : Keep} {r : CordRx} {id : Nat} {t2fr : Nat} {t3fr : Nat} {t2ns : Nat} {t3ns : Nat} {s : State} (hs : Held k s) : Held k
    (evTimeRspRx r id t2fr t3fr t2ns t3ns s) := by
  unfold evTimeRspRx
  repeat' first
    | with_reducible first
      | assumption | apply held_ite | apply heldOf_self | apply count_held | apply freeBlocks_held | apply setF_held | apply timeFollow_held
      | apply timeChannel_held
    | simp only [held_mk]
    | split
theorem senderUp_held {k : Keep} {s : State} {r : CordRx} {b : CordBody} (hs : Held k s) : Held k (State.senderUp s r b).1 := by
  unfold State.senderUp
  repeat' with_reducible first
    | assumption | apply held_ite | apply held_ite1 | apply freeBlocks_held | apply count_held | apply sawClaim_held | apply ringSend_held
theorem ackFault_held {k : Keep} {s : State} {p : Nat} {q : Nat} {a : AckPkt} (hs : Held k s) : Held k (State.ackFault s p q a) := by
  unfold State.ackFault
  repeat' with_reducible (first | assumption | apply held_ite | apply eventAt_held | apply count_held | apply setFlag_held)
theorem ackTake_held {k : Keep} {s : State} {p : Nat} {q : Nat} {a : AckPkt} (hs : Held k s) : Held k (State.ackTake s p q a) := by
  unfold State.ackTake
  repeat' first
    | with_reducible first
      | assumption | apply held_ite | apply ackFault_held | apply setFlag_held | apply updFrame_held | apply popFlipped_held | apply flipCheck_held
    | simp only [held_mk]
    | split
theorem evAckRx_held {k : Keep} {r : CordRx} {a : AckPkt} {s : State} (hs : Held k s) : Held k (evAckRx r a s) := by
  unfold evAckRx
  repeat' with_reducible (first | assumption | apply held_ite | apply senderUp_held | apply ackTake_held)
theorem eventTake_held {k : Keep} {s : State} {p : Nat} {q : Nat} {code : Nat} {data : List Byte} (hs : Held k s) : Held k (State.eventTake s p q code
    data) := by
  unfold State.eventTake
  repeat' first
    | with_reducible (first | assumption | apply held_ite | apply heldOf_self | apply eventAt_held | apply damageBands_held)
    | simp only [held_mk]
theorem evEnum_held {k : Keep} {r : CordRx} {seq : Word} {pos : Nat} {s : State} (hs : Held k s) : Held k (evEnum r seq pos s) := by
  unfold evEnum
  repeat' with_reducible first
    | assumption | intro _ | apply held_ite | apply tileHdr_held | apply freeBlocks_held | apply ctrlTake_held | apply setPos_held | apply setF_held
theorem evRateStep_held {k : Keep} {r : CordRx} {seq : Word} {data : List Byte} {s : State} (hs : Held k s) : Held k (evRateStep r seq data s) := by
  unfold evRateStep
  repeat' first | with_reducible (first | assumption | intro _ | apply heldOf_self | apply ctrlReq_held) | simp only [held_mk]
theorem evStatus_held {k : Keep} {r : CordRx} {seq : Word} {s : State} (hs : Held k s) : Held k (evStatus r seq s) := by
  unfold evStatus
  repeat' with_reducible (first | assumption | intro _ | apply ctrlReq_held)
theorem evCtrlAttest_held {k : Keep} {r : CordRx} {seq : Word} {nonce : List Byte} {s : State} (hs : Held k s) : Held k (evCtrlAttest r seq nonce
    s) := by
  unfold evCtrlAttest
  repeat' with_reducible (first | assumption | intro _ | apply ctrlReq_held | apply freed_held)
theorem evOwnerSet_held {k : Keep} {r : CordRx} {seq : Word} {root : List Byte} {s : State} (hs : Held k s) : Held k (evOwnerSet r seq root s) := by
  unfold evOwnerSet
  repeat' with_reducible (first | assumption | intro _ | apply held_ite1 | apply ctrlReq_held | apply newOwner_held)
theorem evCtrlKeySet_held {k : Keep} {r : CordRx} {seq : Word} {add : Bool} {key : List Byte} {s : State} (hs : Held k s) : Held k (evCtrlKeySet r seq
    add key s) := by
  unfold evCtrlKeySet
  repeat' with_reducible (first | assumption | intro _ | apply held_ite1 | apply ctrlReq_held | apply keyAdd_held | apply keyRemove_held)
theorem evCtrlOwnerXfer_held {k : Keep} {r : CordRx} {seq : Word} {obj : List Byte} {s : State} (hs : Held k s) : Held k (evCtrlOwnerXfer r seq obj
    s) := by
  unfold evCtrlOwnerXfer
  repeat' with_reducible (first | assumption | intro _ | apply ctrlReq_held | apply ownerXfer_held)
theorem evCtrlDebugNonce_held {k : Keep} {r : CordRx} {seq : Word} {s : State} (hs : Held k s) : Held k (evCtrlDebugNonce r seq s) := by
  unfold evCtrlDebugNonce
  repeat' with_reducible (first | assumption | intro _ | apply ctrlReq_held | apply newNonce_held)
theorem evCtrlDebugToken_held {k : Keep} {r : CordRx} {seq : Word} {obj : List Byte} {s : State} (hs : Held k s) : Held k (evCtrlDebugToken r seq obj
    s) := by
  unfold evCtrlDebugToken
  repeat' with_reducible (first | assumption | intro _ | apply ctrlReq_held | apply debugToken_held)
theorem ctrlClose_held {k : Keep} {s : State} {p : Nat} {q : Nat} {seq : Word} {op : Nat} (hs : Held k s) : Held k (State.ctrlClose s p q seq
    op).1 := by
  unfold State.ctrlClose
  repeat' first | with_reducible (first | assumption | apply heldOf_self) | simp only [held_mk] | split
theorem enumTake_held {k : Keep} {s : State} {p : Nat} {q : Nat} {d : List Byte} (hs : Held k s) : Held k (State.enumTake s p q d) := by
  unfold State.enumTake
  repeat' first
    | with_reducible first
      | assumption | intro _ | apply held_ite | apply heldOf_self | apply ctrlResend_held | apply setReg_held | apply damageBands_held
      | apply sendLampTf_held | apply setF_held | apply sendEnum_held
    | simp only [held_mk]
    | with_reducible apply held_foldl
theorem statusTake_held {k : Keep} {s : State} {p : Nat} {q : Nat} {d : List Byte} (hs : Held k s) : Held k (State.statusTake s p q d) := by
  unfold State.statusTake
  repeat' with_reducible (first | assumption | apply setF_held | apply setReg_held)
theorem evCtrlReqRetry_held {k : Keep} {p : Nat} {q : Nat} {seq : Word} {s : State} (hs : Held k s) : Held k (evCtrlReqRetry p q seq s) := by
  unfold evCtrlReqRetry
  repeat' first
    | with_reducible (first | assumption | apply held_ite | apply heldOf_self | apply ctrlResend_held | apply eventAt_held | apply answer_held)
    | simp only [held_mk]
    | split
theorem ringMark_held {k : Keep} {s : State} {r : CordRx} {ntiles : Nat} (hs : Held k s) : Held k (State.ringMark s r ntiles) := by
  unfold State.ringMark
  repeat' first
    | with_reducible first
      | assumption | apply held_ite | apply heldOf_self | apply freeBlocks_held | apply count_held | apply setF_held | apply setFlag_held
    | simp only [held_mk]
theorem evRingOkTimeout_held {k : Keep} {p : Nat} {s : State} (hs : Held k s) : Held k (evRingOkTimeout p s) := by
  unfold evRingOkTimeout
  repeat' with_reducible (first | assumption | apply setFlag_held)
theorem ringMembers_held {k : Keep} {s : State} (hs : Held k s) : Held k (State.ringMembers s) := by
  unfold State.ringMembers
  repeat' with_reducible (first | assumption | apply setF_held)
theorem evRingHelloTimer_held {k : Keep} {s : State} (hs : Held k s) : Held k (evRingHelloTimer s) := by
  unfold evRingHelloTimer
  repeat' with_reducible (first | assumption | apply held_ite | apply ringSend_held)
theorem evRingHelloRx_held {k : Keep} {h0 : RingHello} {s : State} (hs : Held k s) : Held k (evRingHelloRx h0 s) := by
  unfold evRingHelloRx
  repeat' first
    | with_reducible first
      | assumption | apply held_ite | apply heldOf_self | apply ringMembers_held | apply event_held | apply setFlag_held | apply setF_held
    | simp only [held_mk]
theorem ringForm_held {k : Keep} {s : State} {isOpen : Bool} (hs : Held k s) : Held k (State.ringForm s isOpen) := by
  unfold State.ringForm
  repeat' with_reducible (first | assumption | apply held_ite | apply ringMembers_held | apply setF_held | apply setFlag_held)
theorem evRingFormStable_held {k : Keep} {s : State} (hs : Held k s) : Held k (evRingFormStable s) := by
  unfold evRingFormStable
  repeat' with_reducible (first | assumption | apply held_ite | apply ringForm_held)
theorem evRingFormTimeout_held {k : Keep} {s : State} (hs : Held k s) : Held k (evRingFormTimeout s) := by
  unfold evRingFormTimeout
  repeat' with_reducible (first | assumption | apply held_ite | apply ringForm_held)
theorem evSourcePortLinkChange_held {k : Keep} {p : Nat} {link : Bool} {fec : Bool} {s : State} (hs : Held k s) : Held k (evSourcePortLinkChange p
    link fec s) := by
  unfold evSourcePortLinkChange
  repeat' with_reducible (first | assumption | apply held_ite | apply setFlag_held | apply healthReg_held)

end Sys2Proof.Machine
end

