-- ==== Sys2Proof/Laws/Lanes.lean ====
section
/-! SUPPORT. Laws/Lanes.lean: each operation of Machine/Lanes.lean leaves the queue, the life counter and the canonical form. -/

namespace Sys2Proof.Machine

theorem laneEntries_held {k : Keep} {s : State} (hs : Held k s) : Held k (State.laneEntries s) := by
  unfold State.laneEntries
  repeat' with_reducible (first | assumption | intro _ | apply setF_held | apply held_foldl)
theorem laneUses_held {k : Keep} {s : State} (hs : Held k s) : Held k (State.laneUses s) := by
  unfold State.laneUses
  repeat' with_reducible (first | assumption | intro _ | apply held_ite | apply setF_held | apply setLanes_held | apply held_foldl)
theorem setScan_held {k : Keep} {s : State} {l : Nat} {x : Option Scan} (hs : Held k s) : Held k (State.setScan s l x) := by
  unfold State.setScan
  repeat' first | with_reducible (first | assumption | intro _ | apply heldOf_scans | exact SMap.wf_set ‹_›) | simp only [held_mk]
theorem scanEnd_held {k : Keep} {s : State} {l : Nat} (hs : Held k s) : Held k (State.scanEnd s l) := by
  unfold State.scanEnd
  repeat' with_reducible (first | assumption | apply setFlag_held | apply setScan_held)
theorem scanLost_held {k : Keep} {s : State} {l : Nat} (hs : Held k s) : Held k (State.scanLost s l) := by
  unfold State.scanLost
  repeat' with_reducible (first | assumption | apply held_ite | apply setFlag_held | apply scanEnd_held)
theorem scanPoint_held {k : Keep} {s : State} {l : Nat} {x : Scan} (hs : Held k s) : Held k (State.scanPoint s l x) := by
  unfold State.scanPoint
  repeat' with_reducible (first | assumption | apply setF_held | apply setReg_held | apply setFlag_held | apply setScan_held)
theorem evEscanStart_held {k : Keep} {l : Nat} {w : Word} {s : State} (hs : Held k s) : Held k (evEscanStart l w s) := by
  unfold evEscanStart
  repeat' with_reducible first
    | assumption | apply held_ite | apply emit_held | apply plainWrite_held | apply setFlag_held | apply scanEnd_held | apply setScan_held
    | apply scanPoint_held | apply setReg_held
theorem evEscanAbort_held {k : Keep} {l : Nat} {s : State} (hs : Held k s) : Held k (evEscanAbort l s) := by
  unfold evEscanAbort
  repeat' with_reducible (first | assumption | apply emit_held | apply setFlag_held | apply setScan_held)
theorem evEscanPointDone_held {k : Keep} {l : Nat} {errs : Nat} {s : State} (hs : Held k s) : Held k (evEscanPointDone l errs s) := by
  unfold evEscanPointDone
  repeat' first
    | with_reducible (first | assumption | apply held_ite | apply setF_held | apply setReg_held | apply scanEnd_held | apply scanPoint_held)
    | simp only [held_mk]
    | split
theorem evEscanTimeout_held {k : Keep} {l : Nat} {s : State} (hs : Held k s) : Held k (evEscanTimeout l s) := by
  unfold evEscanTimeout
  repeat' with_reducible (first | assumption | apply held_ite | apply setFlag_held | apply scanEnd_held)
theorem laneTrain_held {k : Keep} {s : State} {l : Nat} {r : Nat} (hs : Held k s) : Held k (State.laneTrain s l r) := by
  unfold State.laneTrain
  repeat' first
    | with_reducible (first | assumption | apply held_ite | apply heldOf_self | apply setF_held | apply scanLost_held | apply setFlag_held)
    | simp only [held_mk]
theorem laneOff_held {k : Keep} {s : State} {l : Nat} (hs : Held k s) : Held k (State.laneOff s l) := by
  unfold State.laneOff
  repeat' with_reducible (first | assumption | apply setF_held | apply scanLost_held)
theorem laneSync_held {k : Keep} {s : State} {p : Nat} (hs : Held k s) : Held k (State.laneSync s p) := by
  unfold State.laneSync
  repeat' with_reducible (first | assumption | intro _ | apply held_ite | apply laneOff_held | apply laneTrain_held | apply held_foldl)
theorem evHopTrainedLanes_held {k : Keep} {p : Nat} {width2 : Bool} {s : State} (hs : Held k s) : Held k (evHopTrainedLanes p width2 s) := by
  unfold evHopTrainedLanes
  repeat' with_reducible (first | assumption | apply laneSync_held | apply evHopTrained_held)
theorem evHopHelloLanes_held {k : Keep} {h0 : HopHello} {s : State} (hs : Held k s) : Held k (evHopHelloLanes h0 s) := by
  unfold evHopHelloLanes
  repeat' with_reducible (first | assumption | apply laneSync_held | apply evHopHelloRx_held)
theorem evStepUpLanes_held {k : Keep} {p : Nat} {k0 : Nat} {ok : List Bool} {s : State} (hs : Held k s) : Held k (evStepUpLanes p k0 ok s) := by
  unfold evStepUpLanes
  repeat' with_reducible (first | assumption | apply held_ite | apply laneSync_held | apply evStepUpEval_held)
theorem evBerCheckLanes_held {k : Keep} {p : Nat} {errs : Nat} {s : State} (hs : Held k s) : Held k (evBerCheckLanes p errs s) := by
  unfold evBerCheckLanes
  repeat' with_reducible (first | assumption | apply laneSync_held | apply evBerCheck_held)
theorem evLinkLostLanes_held {k : Keep} {p : Nat} {s : State} (hs : Held k s) : Held k (evLinkLostLanes p s) := by
  unfold evLinkLostLanes
  repeat' with_reducible (first | assumption | apply laneSync_held | apply evLinkLost_held)
theorem evSourceLinkLanes_held {k : Keep} {p : Nat} {link : Bool} {fec : Bool} {s : State} (hs : Held k s) : Held k (evSourceLinkLanes p link fec
    s) := by
  unfold evSourceLinkLanes
  repeat' with_reducible first
    | assumption | apply held_ite | apply setFlag_held | apply evSourcePortLinkChange_held | apply laneTrain_held | apply laneOff_held
theorem evLaneTxSleep_held {k : Keep} {p : Nat} {s : State} (hs : Held k s) : Held k (evLaneTxSleep p s) := by
  unfold evLaneTxSleep
  repeat' with_reducible (first | assumption | apply held_ite | apply setLanes_held | apply emit_held)
theorem evLaneScheduledWake_held {k : Keep} {p : Nat} {s : State} (hs : Held k s) : Held k (evLaneScheduledWake p s) := by
  unfold evLaneScheduledWake
  repeat' with_reducible (first | assumption | apply txWake_held)
theorem evLaneKeepaliveWake_held {k : Keep} {p : Nat} {s : State} (hs : Held k s) : Held k (evLaneKeepaliveWake p s) := by
  unfold evLaneKeepaliveWake
  repeat' with_reducible (first | assumption | apply txWake_held)
theorem evLaneWakeDone_held {k : Keep} {p : Nat} {s : State} (hs : Held k s) : Held k (evLaneWakeDone p s) := by
  unfold evLaneWakeDone
  repeat' with_reducible (first | assumption | apply held_ite | apply pump_held | apply setLanes_held)
theorem evLaneRxSleep_held {k : Keep} {p : Nat} {s : State} (hs : Held k s) : Held k (evLaneRxSleep p s) := by
  unfold evLaneRxSleep
  repeat' with_reducible (first | assumption | apply held_ite | apply setLanes_held)
theorem evLaneRxRelock_held {k : Keep} {p : Nat} {s : State} (hs : Held k s) : Held k (evLaneRxRelock p s) := by
  unfold evLaneRxRelock
  repeat' with_reducible (first | assumption | apply held_ite | apply countLanes_held | apply setLanes_held)
theorem evRelockfail_held {k : Keep} {p : Nat} {s : State} (hs : Held k s) : Held k (evRelockfail p s) := by
  unfold evRelockfail
  repeat' with_reducible (first | assumption | apply held_ite | apply evLinkLostLanes_held | apply countLanes_held)
theorem evLaneSleepTimeout_held {k : Keep} {p : Nat} {s : State} (hs : Held k s) : Held k (evLaneSleepTimeout p s) := by
  unfold evLaneSleepTimeout
  repeat' with_reducible (first | assumption | apply held_ite | apply evLinkLostLanes_held)
theorem laneSelect_held {k : Keep} {s : State} {c : Option Nat} (hs : Held k s) : Held k (State.laneSelect s c) := by
  unfold State.laneSelect
  repeat' with_reducible (first | assumption | apply setFlag_held | apply laneEntries_held | apply setF_held)
theorem laneInstalled_held {k : Keep} {s : State} (hs : Held k s) : Held k (State.laneInstalled s) := by
  unfold State.laneInstalled
  repeat' first | with_reducible (first | assumption | apply heldOf_self | apply laneSelect_held | apply setFlag_held) | simp only [held_mk]

end Sys2Proof.Machine
end

