-- ==== Sys2Proof/Laws/Staging.lean ====
section
/-! SUPPORT. Laws/Staging.lean: each operation of Machine/Staging.lean leaves the queue, the life counter and the canonical form. -/

namespace Sys2Proof.Machine

theorem ashStop_held {k : Keep} {s : State} (hs : Held k s) : Held k (State.ashStop s) := by
  unfold State.ashStop
  repeat' first
    | with_reducible (first | assumption | intro _ | apply held_ite | apply writeFail_held)
    | with_reducible apply held_foldl
theorem confirmPump_held {k : Keep} {s : State} (hs : Held k s) : Held k (State.confirmPump s) := by
  unfold State.confirmPump
  repeat' first
    | with_reducible (first | assumption | intro _ | apply held_ite | apply heldOf_self | apply ctrlAnswer_held)
    | simp only [held_mk]
    | with_reducible apply held_foldl
    | split
theorem stagePump_held {k : Keep} {s : State} (hs : Held k s) : Held k (State.stagePump s) := by
  unfold State.stagePump
  repeat' with_reducible (first | assumption | apply confirmPump_held | apply ashStop_held)
theorem evStage_held {k : Keep} {r : CordRx} {seq : Word} {kind : Nat} {len : Nat} {digest : List Byte} {s : State} (hs : Held k s) : Held k (evStage
    r seq kind len digest s) := by
  unfold evStage
  repeat' first | with_reducible (first | assumption | intro _ | apply held_ite1 | apply heldOf_self | apply ctrlReq_held) | simp only [held_mk]
theorem stageWrite_held {k : Keep} {s : State} {g : TileStage} {seq : Word} (hs : Held k s) : Held k (State.stageWrite s g seq).1 := by
  unfold State.stageWrite
  repeat' with_reducible (first | assumption | apply held_ite1 | apply slotWrite_held)
theorem evStageData_held {k : Keep} {r : CordRx} {seq : Word} {offset : Nat} {chunk : List Byte} {s : State} (hs : Held k s) : Held k (evStageData r
    seq offset chunk s) := by
  unfold evStageData
  repeat' first
    | with_reducible (first | assumption | intro _ | apply held_ite1 | apply heldOf_self | apply ctrlReq_held | apply stageWrite_held)
    | simp only [held_mk]
    | split
theorem evConfirm_held {k : Keep} {r : CordRx} {seq : Word} {s : State} (hs : Held k s) : Held k (evConfirm r seq s) := by
  unfold evConfirm
  repeat' first
    | with_reducible (first | assumption | intro _ | apply held_ite1 | apply heldOf_self | apply ctrlReq_held)
    | simp only [held_mk]
    | split
theorem evArm_held {k : Keep} {r : CordRx} {seq : Word} {f : Nat} {s : State} (hs : Held k s) : Held k (evArm r seq f s) := by
  unfold evArm
  repeat' first | with_reducible (first | assumption | intro _ | apply heldOf_self | apply ctrlReq_held) | simp only [held_mk] | split
theorem evCancel_held {k : Keep} {r : CordRx} {seq : Word} {s : State} (hs : Held k s) : Held k (evCancel r seq s) := by
  unfold evCancel
  repeat' first | with_reducible (first | assumption | intro _ | apply heldOf_self | apply ctrlReq_held) | simp only [held_mk]
theorem switchRecord_held {k : Keep} {s : State} (hs : Held k s) : Held k (State.switchRecord s) := by
  unfold State.switchRecord
  repeat' first
    | with_reducible (first | assumption | apply held_ite | apply heldOf_self | apply slotRecord_held | apply putActive_held)
    | simp only [held_mk]
    | split
theorem stageSwitch_held {k : Keep} {s : State} {fcnt : Nat} (hs : Held k s) : Held k (State.stageSwitch s fcnt) := by
  unfold State.stageSwitch
  repeat' first
    | with_reducible first
      | assumption | apply held_ite | apply heldOf_self | apply switchRecord_held | apply calLoadStart_held | apply putActive_held
      | apply dsetSwitch_held | apply dsetStage_held
    | simp only [held_mk]
    | split
theorem stageTo_held {k : Keep} {s : State} {p : Nat} {q : Nat} {kind : Nat} {bs : List Byte} (hs : Held k s) : Held k (State.stageTo s p q kind
    bs) := by
  unfold State.stageTo
  repeat' with_reducible (first | assumption | intro _ | apply ctrlSend_held | apply held_foldl)
theorem stageRegs_held {k : Keep} {s : State} {state : Nat} (hs : Held k s) : Held k (State.stageRegs s state) := by
  unfold State.stageRegs
  repeat' first | with_reducible (first | assumption | apply setF_held | apply setReg_held) | simp only [held_mk] | split
theorem stageBegin_held {k : Keep} {s : State} {kind : Nat} {frame : Nat} {bs : List Byte} {tiles : List (Nat × Nat)} (hs : Held k s) : Held k
    (State.stageBegin s kind frame bs tiles) := by
  unfold State.stageBegin
  repeat' first
    | with_reducible (first | assumption | intro _ | apply heldOf_self | apply stageRegs_held | apply stageTo_held)
    | simp only [held_mk]
    | with_reducible apply held_foldl
theorem updStage_held {k : Keep} {s : State} {p : Nat} {q : Nat} {f : StageTile → StageTile} (hs : Held k s) : Held k (State.updStage s p q f) := by
  unfold State.updStage
  repeat' first | with_reducible (first | assumption | apply heldOf_self) | simp only [held_mk]
theorem stageCancel_held {k : Keep} {s : State} (hs : Held k s) : Held k (State.stageCancel s) := by
  unfold State.stageCancel
  repeat' first
    | with_reducible first
      | assumption | intro _ | apply held_ite | apply heldOf_self | apply ctrlSend_held | apply setFlag_held | apply setSeq_held | apply event_held
      | apply count_held | apply stageRegs_held | apply stageReport_held
    | simp only [held_mk]
    | with_reducible apply held_foldl
    | split
theorem evStageConfirmDeadline_held {k : Keep} {s : State} (hs : Held k s) : Held k (evStageConfirmDeadline s) := by
  unfold evStageConfirmDeadline
  repeat' first
    | with_reducible first
      | assumption | intro _ | apply held_ite | apply heldOf_self | apply stageRegs_held | apply ctrlSend_held | apply stageCancel_held
    | simp only [held_mk]
    | with_reducible apply held_foldl
    | split
theorem evStageArmDeadline_held {k : Keep} {s : State} (hs : Held k s) : Held k (evStageArmDeadline s) := by
  unfold evStageArmDeadline
  repeat' first
    | with_reducible (first | assumption | apply held_ite | apply heldOf_self | apply stageRegs_held | apply stageCancel_held)
    | simp only [held_mk]
    | split
theorem stageMarked_held {k : Keep} {s : State} (hs : Held k s) : Held k (State.stageMarked s) := by
  unfold State.stageMarked
  repeat' first | with_reducible (first | assumption | apply held_ite | apply heldOf_self | apply stageRegs_held) | simp only [held_mk] | split
theorem evStageVerify_held {k : Keep} {s : State} (hs : Held k s) : Held k (evStageVerify s) := by
  unfold evStageVerify
  repeat' first
    | with_reducible first
      | assumption | intro _ | apply held_ite | apply heldOf_self | apply count_held | apply ctrlSend_held | apply stageReport_held
    | simp only [held_mk]
    | with_reducible apply held_foldl
    | split
theorem catchUp_held {k : Keep} {s : State} {g : StageSt} {p : Nat} {q : Nat} (hs : Held k s) : Held k (State.catchUp s g p q) := by
  unfold State.catchUp
  repeat' with_reducible (first | assumption | apply held_ite | apply updStage_held | apply stageTo_held | apply count_held)
theorem stageDone_held {k : Keep} {s : State} (hs : Held k s) : Held k (State.stageDone s) := by
  unfold State.stageDone
  repeat' first
    | with_reducible (first | assumption | apply held_ite | apply heldOf_self | apply count_held | apply stageReport_held)
    | simp only [held_mk]
    | split
theorem stageStatus_held {k : Keep} {s : State} {p : Nat} {q : Nat} {d : List Byte} (hs : Held k s) : Held k (State.stageStatus s p q d) := by
  unfold State.stageStatus
  repeat' first
    | with_reducible (first | assumption | apply held_ite | apply stageDone_held | apply updStage_held | apply catchUp_held)
    | simp only [held_mk]
    | split
theorem stageConfirm_held {k : Keep} {s : State} {p : Nat} {q : Nat} {d : List Byte} (hs : Held k s) : Held k (State.stageConfirm s p q d) := by
  unfold State.stageConfirm
  repeat' first
    | with_reducible first
      | assumption | apply held_ite | apply stageRegs_held | apply updStage_held | apply ctrlSend_held | apply stageTo_held | apply count_held
    | simp only [held_mk]
    | split
theorem stageArmed_held {k : Keep} {s : State} {p : Nat} {q : Nat} {status : Nat} (hs : Held k s) : Held k (State.stageArmed s p q status) := by
  unfold State.stageArmed
  repeat' with_reducible (first | assumption | apply updStage_held)
theorem fsqSwitch_held {k : Keep} {s : State} (hs : Held k s) : Held k (State.fsqSwitch s) := by
  unfold State.fsqSwitch
  repeat' first | with_reducible (first | assumption | apply held_ite | apply heldOf_self | apply switchEvent_held) | simp only [held_mk] | split
theorem fsqSwitched_held {k : Keep} {s : State} (hs : Held k s) : Held k (State.fsqSwitched s) := by
  unfold State.fsqSwitched
  repeat' first | with_reducible (first | assumption | apply held_ite | apply heldOf_self | apply stageRegs_held) | simp only [held_mk] | split
theorem haltSwitched_held {k : Keep} {s : State} (hs : Held k s) : Held k (State.haltSwitched s) := by
  unfold State.haltSwitched
  repeat' with_reducible (first | assumption | apply fsqSwitched_held | apply switchRecord_held)
theorem evSwitchTimeout_held {k : Keep} {s : State} (hs : Held k s) : Held k (evSwitchTimeout s) := by
  unfold evSwitchTimeout
  repeat' first
    | with_reducible first
      | assumption | apply held_ite | apply heldOf_self | apply dsetCancel_held | apply setFlag_held | apply setSeq_held | apply stageRegs_held
      | apply event_held | apply stageReport_held
    | simp only [held_mk]
    | split
theorem stageEvent_held {k : Keep} {s : State} {p : Nat} {q : Nat} {code : Nat} (hs : Held k s) : Held k (State.stageEvent s p q code) := by
  unfold State.stageEvent
  repeat' with_reducible (first | assumption | apply held_ite | apply ctrlSend_held | apply updStage_held)
theorem evEventRx_held {k : Keep} {r : CordRx} {eseq : Word} {code : Nat} {data : List Byte} {s : State} (hs : Held k s) : Held k (evEventRx r eseq
    code data s) := by
  unfold evEventRx
  repeat' with_reducible (first | assumption | apply held_ite | apply senderUp_held | apply stageEvent_held | apply eventTake_held)

end Sys2Proof.Machine
end

