-- ==== Sys2Proof/Laws/Power.lean ====
section
/-! SUPPORT. Laws/Power.lean: each operation of Machine/Power.lean leaves the queue, the life counter and the canonical form. -/

namespace Sys2Proof.Machine

theorem traceKept_held {k : Keep} {t : State} {s : State} (ht : Held k t) (hs : Held k s) : Held k (State.traceKept t s) := by
  unfold State.traceKept
  repeat' first
    | with_reducible (first | assumption | intro _ | apply setF_held | apply setFlag_held | apply traceMark_held)
    | exact hs.canon.trace
    | with_reducible apply heldOf_trace
    | simp only [held_mk]
theorem fullReset_held {k : Keep} {s : State} {ember : Bool} {sram : Bool} {cause : Nat} (hs : Held k s) : Held k (State.fullReset s ember sram
    cause) := by
  unfold State.fullReset
  repeat' first
    | with_reducible (first | assumption | apply held_ite | apply setFlag_held | apply setF_held | apply traceKept_held)
    | exact ⟨hs.1, hs.2.1, ⟨SMap.wfFrom_filter _ hs.canon.regs, rfl, rfl, rfl, rfl, rfl, rfl, rfl, rfl, rfl⟩⟩
theorem leaveReset_held {k : Keep} {s : State} (hs : Held k s) : Held k (State.leaveReset s) := by
  unfold State.leaveReset
  repeat' first | with_reducible (first | assumption | apply held_ite | apply heldOf_self) | simp only [held_mk]
/-- POWER_ON leaves the queue and the canonical form; only with VDD_EMB off before does the life counter change (R436, R445). -/
theorem evPowerOn_held {k : Keep} {s : State} {embOff : Bool} (hs : Held k s) :
    Held ⟨k.queue, if embOff then (s.pwr.lifeCell + 32768) % 2 ^ 48 else k.life⟩ (evPowerOn embOff s) := by
  have h := fullReset_held (ember := embOff) (sram := true) (cause := 0) hs
  cases embOff
  · exact count_held h
  · exact count_held (k := ⟨k.queue, _⟩) ⟨h.1, rfl, h.2.2⟩
theorem evPowerGood_held {k : Keep} {s : State} (hs : Held k s) : Held k (evPowerGood s) := by
  unfold evPowerGood
  repeat' first | with_reducible (first | assumption | apply heldOf_self | apply leaveReset_held) | simp only [held_mk]
theorem evRstNAssert_held {k : Keep} {s : State} (hs : Held k s) : Held k (evRstNAssert s) := by
  unfold evRstNAssert
  repeat' first | with_reducible (first | assumption | apply heldOf_self | apply fullReset_held) | simp only [held_mk]
theorem evRstNRelease_held {k : Keep} {s : State} (hs : Held k s) : Held k (evRstNRelease s) := by
  unfold evRstNRelease
  repeat' first | with_reducible (first | assumption | apply heldOf_self | apply leaveReset_held) | simp only [held_mk]
theorem railLost_held {k : Keep} {s : State} {life : Nat} (hs : Held k s) : Held ⟨k.queue, life⟩ (State.railLost s life) := ⟨hs.1, rfl, hs.2.2⟩
/-- SUPPLY_RESET leaves the queue and the canonical form; only with Ember's own rail does the life counter change (R436). -/
theorem evSupplyReset_held {k : Keep} {r : Nat} {s : State} (hs : Held k s) :
    Held ⟨k.queue, if r = 2 then (s.pwr.lifeCell + 32768) % 2 ^ 48 else k.life⟩ (evSupplyReset r s) := by
  have h := count_held (a := SUP_N_RESET r) (n := 1) (fullReset_held (ember := r == 2) (sram := r == 1) (cause := 2 + r) hs)
  unfold evSupplyReset
  by_cases c : 4 ≤ r ∨ (r = 3 ∧ s.flag SUP_STAT_VMON_OFF)
  · have e : r ≠ 2 := by rcases c with h | ⟨h, _⟩ <;> omega
    rw [if_pos c, if_neg e]
    exact hs
  · rw [if_neg c, hs.lifeEq]
    exact railLost_held h
theorem closeRecords_held {k : Keep} {s : State} (hs : Held k s) : Held k (State.closeRecords s) := by
  unfold State.closeRecords
  repeat' first
    | with_reducible first
      | assumption | apply held_ite | apply heldOf_self | apply popCheckpoint_held | apply journalClaim_held | apply journalScrub_held
    | simp only [held_mk]
theorem evVsagWarnAssert_held {k : Keep} {r : Nat} {s : State} (hs : Held k s) : Held k (evVsagWarnAssert r s) := by
  unfold evVsagWarnAssert
  repeat' with_reducible first
    | assumption | apply held_ite | apply setF_held | apply count_held | apply sagHold_held | apply closeRecords_held | apply healthReg_held
    | apply raisePsqs_held | apply raiseFsq_held | apply irq_held | apply setFlag_held
theorem vsagClear_held {k : Keep} {s : State} (hs : Held k s) : Held k (State.vsagClear s) := by
  unfold State.vsagClear
  repeat' with_reducible first
    | assumption | apply held_ite | apply blowNext_held | apply nandKick_held | apply healthReg_held | apply irq_held | apply setFlag_held | apply setF_held
theorem evSupThresholdMove_held {k : Keep} {s : State} (hs : Held k s) : Held k (evSupThresholdMove s) := by
  unfold evSupThresholdMove
  repeat' with_reducible (first | assumption | apply setF_held)
theorem evLifeCellWrite_held {k : Keep} {s : State} (hs : Held k s) : Held k (evLifeCellWrite s) := by
  unfold evLifeCellWrite
  repeat' first | with_reducible (first | assumption | apply held_ite | apply heldOf_self | apply setReg_held) | simp only [held_mk]
theorem evXtalFail_held {k : Keep} {s : State} (hs : Held k s) : Held k (evXtalFail s) := by
  unfold evXtalFail
  repeat' with_reducible (first | assumption | apply setFlag_held)
theorem evXtalRecovered_held {k : Keep} {s : State} (hs : Held k s) : Held k (evXtalRecovered s) := by
  unfold evXtalRecovered
  repeat' with_reducible (first | assumption | apply setFlag_held)
theorem evBankedEntry_held {k : Keep} {s : State} (hs : Held k s) : Held k (evBankedEntry s) := by
  unfold evBankedEntry
  repeat' with_reducible (first | assumption | apply held_ite | apply setF_held | apply traceMark_held)
theorem linkOff_held {k : Keep} {s : State} {p : Nat} (hs : Held k s) : Held k (State.linkOff s p) := by
  unfold State.linkOff
  repeat' first
    | with_reducible first
      | assumption | apply held_ite | apply heldOf_self | apply setHopAuth_held | apply clearPort_held | apply setPortStep_held | apply setFlag_held
      | apply laneSync_held
    | simp only [held_mk]
theorem smoulder_held {k : Keep} {s : State} {therm : Bool} (hs : Held k s) : Held k (State.smoulder s therm) := by
  unfold State.smoulder
  repeat' with_reducible first
    | assumption | intro _ | apply held_ite | apply psqHaltSafe_held | apply traceMark_held | apply closeRecords_held | apply linkOff_held
    | apply evSourceLinkLanes_held | apply setFlag_held | apply count_held | apply setF_held | apply held_foldl
theorem evEmbSmoulder_held {k : Keep} {s : State} (hs : Held k s) : Held k (evEmbSmoulder s) := by
  unfold evEmbSmoulder
  repeat' with_reducible (first | assumption | apply emit_held | apply smoulder_held)
theorem psqResume_held {k : Keep} {s : State} {n : Nat} (hs : Held k s) : Held k (State.psqResume s n) := by
  unfold State.psqResume
  repeat' with_reducible (first | assumption | apply held_ite | apply setFlag_held | apply progStart_held)
theorem ceilTherm_held {k : Keep} {s : State} (hs : Held k s) : Held k (State.ceilTherm s) := by
  unfold State.ceilTherm
  repeat' with_reducible (first | assumption | apply setCeilTherm_held)
theorem thermLevel_held {k : Keep} {s : State} {l : Nat} (hs : Held k s) : Held k (State.thermLevel s l) := by
  unfold State.thermLevel
  repeat' first
    | with_reducible first
      | assumption | intro _ | apply held_ite | apply setF_held | apply ceilTherm_held | apply raiseFsq_held | apply setFlag_held
      | apply setDmem_held
    | simp only [held_mk]
    | with_reducible apply held_foldl
theorem thermEnforce_held {k : Keep} {s : State} {l : Nat} (hs : Held k s) : Held k (State.thermEnforce s l) := by
  unfold State.thermEnforce
  repeat' with_reducible (first | assumption | apply held_ite | apply count_held | apply setF_held | apply thermLevel_held)
theorem thermRequest_held {k : Keep} {s : State} (hs : Held k s) : Held k (State.thermRequest s) := by
  unfold State.thermRequest
  repeat' with_reducible (first | assumption | apply event_held | apply count_held | apply setF_held)
theorem thermMove_held {k : Keep} {s : State} {t : Int} (hs : Held k s) : Held k (State.thermMove s t) := by
  unfold State.thermMove
  repeat' with_reducible first
    | assumption | apply held_ite | apply count_held | apply healthReg_held | apply thermEnforce_held | apply setFlag_held | apply setF_held
    | apply thermRequest_held
theorem evDieTempRead_held {k : Keep} {xs : List Int} {s : State} (hs : Held k s) : Held k (evDieTempRead xs s) := by
  unfold evDieTempRead
  repeat' first
    | with_reducible first
      | assumption | intro _ | apply held_ite | apply heldOf_self | apply setF_held | apply count_held | apply setFlag_held | apply thermMove_held
      | apply smoulder_held
    | simp only [held_mk]
    | with_reducible apply held_foldl
theorem evThermGraceExpiry_held {k : Keep} {s : State} (hs : Held k s) : Held k (evThermGraceExpiry s) := by
  unfold evThermGraceExpiry
  repeat' with_reducible (first | assumption | apply held_ite | apply thermEnforce_held)
theorem evThermStepExpiry_held {k : Keep} {s : State} (hs : Held k s) : Held k (evThermStepExpiry s) := by
  unfold evThermStepExpiry
  repeat' with_reducible (first | assumption | apply held_ite | apply thermLevel_held)
theorem evThermReleaseExpiry_held {k : Keep} {s : State} (hs : Held k s) : Held k (evThermReleaseExpiry s) := by
  unfold evThermReleaseExpiry
  repeat' with_reducible (first | assumption | apply held_ite | apply thermLevel_held | apply setF_held)
theorem wake_held {k : Keep} {s : State} {src : Nat} (hs : Held k s) : Held k (State.wake s src) := by
  unfold State.wake
  repeat' first
    | with_reducible first
      | assumption | intro _ | apply held_ite | apply heldOf_self | apply count_held | apply setF_held | apply traceMark_held | apply setFlag_held
      | apply thermEnforce_held | apply psqResume_held | apply event_held | apply rampDue_held
    | simp only [held_mk]
    | with_reducible apply held_foldl
theorem evWakeN_held {k : Keep} {s : State} (hs : Held k s) : Held k (evWakeN s) := by
  unfold evWakeN
  repeat' with_reducible (first | assumption | apply wake_held)
theorem evWakeSignal_held {k : Keep} {sl02 : Bool} {s : State} (hs : Held k s) : Held k (evWakeSignal sl02 s) := by
  unfold evWakeSignal
  repeat' with_reducible (first | assumption | apply held_ite | apply wake_held)
theorem evWakeSpi_held {k : Keep} {s : State} (hs : Held k s) : Held k (evWakeSpi s) := by
  unfold evWakeSpi
  repeat' with_reducible (first | assumption | apply wake_held)
theorem evWakeAlarm_held {k : Keep} {s : State} (hs : Held k s) : Held k (evWakeAlarm s) := by
  unfold evWakeAlarm
  repeat' with_reducible (first | assumption | apply held_ite | apply wake_held)
theorem evWakeTherm_held {k : Keep} {s : State} (hs : Held k s) : Held k (evWakeTherm s) := by
  unfold evWakeTherm
  repeat' with_reducible (first | assumption | apply wake_held)
theorem goDormant_held {k : Keep} {s : State} {m : Nat} (hs : Held k s) : Held k (State.goDormant s m) := by
  unfold State.goDormant
  repeat' with_reducible (first | assumption | apply setF_held)
theorem evDormantPortSignal_held {k : Keep} {p : Nat} {s : State} (hs : Held k s) : Held k (evDormantPortSignal p s) := by
  unfold evDormantPortSignal
  repeat' with_reducible (first | assumption | apply setF_held)
theorem evHopTrainedRow_held {k : Keep} {p : Nat} {width2 : Bool} {s : State} (hs : Held k s) : Held k (evHopTrainedRow p width2 s) := by
  unfold evHopTrainedRow
  repeat' with_reducible (first | assumption | apply held_ite | apply evHopTrainedLanes_held)
theorem evCtrlPower_held {k : Keep} {r : CordRx} {seq : Word} {state : Nat} {fcnt : Nat} {s : State} (hs : Held k s) : Held k (evCtrlPower r seq state
    fcnt s) := by
  unfold evCtrlPower
  repeat' first | with_reducible (first | assumption | intro _ | apply held_ite1 | apply heldOf_self | apply ctrlReq_held) | simp only [held_mk]
theorem dormMark_held {k : Keep} {s : State} {ports : Nat} {fcnt : Nat} (hs : Held k s) : Held k (State.dormMark s ports fcnt) := by
  unfold State.dormMark
  repeat' first | with_reducible (first | assumption | apply held_ite | apply heldOf_self | apply goDormant_held) | simp only [held_mk] | split
theorem powerMark_held {k : Keep} {s : State} {fcnt : Nat} (hs : Held k s) : Held k (State.powerMark s fcnt) := by
  unfold State.powerMark
  repeat' first
    | with_reducible (first | assumption | apply held_ite | apply heldOf_self | apply smoulder_held | apply goDormant_held)
    | simp only [held_mk]
    | split
theorem evMarkRx_held {k : Keep} {r : CordRx} {fcnt : Nat} {fper : Nat} {ntiles : Nat} {s : State} (hs : Held k s) : Held k (evMarkRx r fcnt fper
    ntiles s) := by
  unfold evMarkRx
  repeat' with_reducible first
    | assumption | apply held_ite | apply markAccept_held | apply powerMark_held | apply stageSwitch_held | apply ringMark_held | apply dormMark_held

end Sys2Proof.Machine
end

