-- ==== Sys2Proof/Laws/Kiln.lean ====
section
/-! SUPPORT. Laws/Kiln.lean: each operation of Machine/Kiln.lean leaves the queue, the life counter and the canonical form. -/

namespace Sys2Proof.Machine

theorem kilnLeave_held {k : Keep} {s : State} {c : Nat} {i : Nat} (hs : Held k s) : Held k (State.kilnLeave s c i) := by
  unfold State.kilnLeave
  repeat' with_reducible (first | assumption | apply held_ite | apply setFlag_held)
theorem kilnBegin_held {k : Keep} {s : State} (hs : Held k s) : Held k (State.kilnBegin s) := by
  unfold State.kilnBegin
  repeat' first
    | with_reducible (first | assumption | apply heldOf_self | apply setF_held | apply count_held | apply setFlag_held)
    | simp only [held_mk]
theorem kilnTrigger_held {k : Keep} {s : State} (hs : Held k s) : Held k (State.kilnTrigger s) := by
  unfold State.kilnTrigger
  repeat' with_reducible (first | assumption | apply held_ite | apply setFlag_held | apply kilnBegin_held)
theorem kilnFill_held {k : Keep} {s : State} {k0 : Nat} (hs : Held k s) : Held k (State.kilnFill s k0) := by
  unfold State.kilnFill
  repeat' first | with_reducible (first | assumption | apply heldOf_self) | simp only [held_mk]
theorem kilnEnd_held {k : Keep} {s : State} (hs : Held k s) : Held k (State.kilnEnd s) := by
  unfold State.kilnEnd
  repeat' first
    | with_reducible first
      | assumption | apply held_ite | apply heldOf_self | apply kilnFill_held | apply kilnLeave_held | apply setFlag_held | apply setF_held
      | apply kilnBegin_held
    | simp only [held_mk]
    | split
theorem evKilnRunStart_held {k : Keep} {s : State} (hs : Held k s) : Held k (evKilnRunStart s) := by
  unfold evKilnRunStart
  repeat' with_reducible (first | assumption | apply kilnTrigger_held)
theorem evKilnRun_held {k : Keep} {s : State} (hs : Held k s) : Held k (evKilnRun s) := by
  unfold evKilnRun
  repeat' with_reducible (first | assumption | apply emit_held | apply kilnTrigger_held)
theorem kilnTemp_held {k : Keep} {s : State} (hs : Held k s) : Held k (State.kilnTemp s) := by
  unfold State.kilnTemp
  repeat' with_reducible (first | assumption | apply held_ite | apply kilnTrigger_held)
theorem kilnGo_held {k : Keep} {s : State} {r : KilnRun} (hs : Held k s) : Held k (State.kilnGo s r) := by
  unfold State.kilnGo
  repeat' first | with_reducible (first | assumption | apply heldOf_self | apply kilnLeave_held | apply kilnEnd_held) | simp only [held_mk] | split
theorem kilnResult_held {k : Keep} {s : State} {r : KilnRun} {a : Int} {b : Int} (hs : Held k s) : Held k (State.kilnResult s r a b) := by
  unfold State.kilnResult
  repeat' first
    | with_reducible (first | assumption | apply held_ite | apply heldOf_self | apply setFlag_held | apply count_held)
    | simp only [held_mk]
theorem evKilnMeasurementDone_held {k : Keep} {m : KilnPair} {s : State} (hs : Held k s) : Held k (evKilnMeasurementDone m s) := by
  unfold evKilnMeasurementDone
  repeat' first | with_reducible (first | assumption | apply held_ite | apply kilnGo_held | apply count_held | apply kilnResult_held) | split
theorem evKilnRunTimeout_held {k : Keep} {s : State} (hs : Held k s) : Held k (evKilnRunTimeout s) := by
  unfold evKilnRunTimeout
  repeat' first | with_reducible (first | assumption | apply kilnEnd_held | apply count_held) | split
theorem evKilnTargetUpdate_held {k : Keep} {s : State} (hs : Held k s) : Held k (evKilnTargetUpdate s) := by
  unfold evKilnTargetUpdate
  repeat' first | with_reducible (first | assumption | apply heldOf_self) | simp only [held_mk]
theorem evKilnTrimStep_held {k : Keep} {s : State} (hs : Held k s) : Held k (evKilnTrimStep s) := by
  unfold evKilnTrimStep
  repeat' first | with_reducible (first | assumption | apply heldOf_self) | simp only [held_mk]
theorem evDieTempReadRow_held {k : Keep} {xs : List Int} {s : State} (hs : Held k s) : Held k (evDieTempReadRow xs s) := by
  unfold evDieTempReadRow
  repeat' first | with_reducible (first | assumption | apply heldOf_self | apply evDieTempRead_held | apply kilnTemp_held) | simp only [held_mk]
theorem evAgeingMeasure_held {k : Keep} {degs : List (Option Int)} {s : State} (hs : Held k s) : Held k (evAgeingMeasure degs s) := by
  unfold evAgeingMeasure
  repeat' first
    | with_reducible (first | assumption | intro _ | apply held_ite | apply setFlag_held | apply setF_held | apply count_held | apply held_foldl)
    | split
theorem evLaneMarginScan_held {k : Keep} {lane : Nat} {left : Nat} {right : Nat} {top : Nat} {bottom : Nat} {s : State} (hs : Held k s) : Held k
    (evLaneMarginScan lane left right top bottom s) := by
  unfold evLaneMarginScan
  repeat' first | with_reducible (first | assumption | apply heldOf_self) | simp only [held_mk]
theorem evPinDriftMeasure_held {k : Keep} {ds : List (Nat × Int)} {s : State} (hs : Held k s) : Held k (evPinDriftMeasure ds s) := by
  unfold evPinDriftMeasure
  repeat' first | with_reducible (first | assumption | apply heldOf_self) | simp only [held_mk]
theorem evEqhUpdate_held {k : Keep} {s : State} (hs : Held k s) : Held k (evEqhUpdate s) := by
  unfold evEqhUpdate
  repeat' first | with_reducible (first | assumption | apply held_ite | apply heldOf_self | apply setReg_held) | simp only [held_mk]
theorem evHeadroomWindowEndRow_held {k : Keep} {mode : Option Nat} {acks : List Bool} {s : State} (hs : Held k s) : Held k (evHeadroomWindowEndRow
    mode acks s) := by
  unfold evHeadroomWindowEndRow
  repeat' first | with_reducible (first | assumption | apply held_ite | apply heldOf_self | apply evHeadroomWindowEnd_held) | simp only [held_mk]
theorem avsWrite_held {k : Keep} {s : State} {mv : Nat} {ack : Bool} (hs : Held k s) : Held k (State.avsWrite s mv ack) := by
  unfold State.avsWrite
  repeat' first
    | with_reducible first
      | assumption | apply held_ite | apply heldOf_self | apply setF_held | apply count_held | apply emit_held | apply setFlag_held
    | simp only [held_mk]
theorem planAvs_held {k : Keep} {s : State} {ack : Bool} (hs : Held k s) : Held k (State.planAvs s ack) := by
  unfold State.planAvs
  repeat' with_reducible (first | assumption | apply held_ite | apply avsWrite_held)
theorem planPins_held {k : Keep} {s : State} (hs : Held k s) : Held k (State.planPins s) := by
  unfold State.planPins
  repeat' first
    | with_reducible (first | assumption | intro _ | apply held_ite | apply heldOf_self | apply setFlag_held)
    | simp only [held_mk]
    | with_reducible apply held_foldl
theorem downshift_held {k : Keep} {s : State} {p : Nat} (hs : Held k s) : Held k (State.downshift s p) := by
  unfold State.downshift
  repeat' with_reducible (first | assumption | apply held_ite | apply count_held | apply laneSync_held | apply setPortStep_held)
theorem planLanes_held {k : Keep} {s : State} (hs : Held k s) : Held k (State.planLanes s) := by
  unfold State.planLanes
  repeat' first
    | with_reducible (first | assumption | intro _ | apply held_ite | apply event_held | apply setFlag_held | apply downshift_held)
    | simp only [held_mk]
    | with_reducible apply held_foldl
    | split
theorem planReserve_held {k : Keep} {s : State} (hs : Held k s) : Held k (State.planReserve s) := by
  unfold State.planReserve
  repeat' with_reducible (first | assumption | apply held_ite | apply setFlag_held | apply setF_held | apply genPending_held)
theorem planHistory_held {k : Keep} {s : State} {was : State} (hs : Held k s) (hwas : Held k was) : Held k (State.planHistory s was) := by
  unfold State.planHistory
  repeat' first | with_reducible (first | assumption | apply heldOf_self | apply count_held | apply journal_held) | simp only [held_mk]
theorem plan_held {k : Keep} {s : State} {ack : Bool} (hs : Held k s) : Held k (State.plan s ack) := by
  unfold State.plan
  repeat' with_reducible first
    | assumption | apply freed_held | apply planHistory_held | apply planReserve_held | apply planLanes_held | apply planPins_held
    | apply planAvs_held
theorem planDue_held {k : Keep} {s : State} {ack : Bool} (hs : Held k s) : Held k (State.planDue s ack) := by
  unfold State.planDue
  repeat' first | with_reducible (first | assumption | apply held_ite | apply heldOf_self | apply plan_held) | simp only [held_mk]
theorem evMarginPlan_held {k : Keep} {ack : Bool} {s : State} (hs : Held k s) : Held k (evMarginPlan ack s) := by
  unfold evMarginPlan
  repeat' with_reducible (first | assumption | apply planDue_held)
theorem evPlanNow_held {k : Keep} {ack : Bool} {s : State} (hs : Held k s) : Held k (evPlanNow ack s) := by
  unfold evPlanNow
  repeat' with_reducible (first | assumption | apply emit_held | apply planDue_held)
theorem evAvsRetry_held {k : Keep} {ack : Bool} {s : State} (hs : Held k s) : Held k (evAvsRetry ack s) := by
  unfold evAvsRetry
  repeat' first | with_reducible (first | assumption | apply avsWrite_held) | split

end Sys2Proof.Machine
end

