-- ==== Sys2Proof/Laws/Pin.lean ====
section
/-! SUPPORT. Laws/Pin.lean: each operation of Machine/Pin.lean leaves the queue, the life counter and the canonical form. -/

namespace Sys2Proof.Machine

theorem takeBit_held {k : Keep} {s : State} {n : Nat} {p : Nat} (hs : Held k s) : Held k (State.takeBit s n p).1 := by
  unfold State.takeBit
  repeat' first
    | with_reducible (first | assumption | apply held_ite1 | apply setFlag_held | apply count_held | apply setBank_held)
    | simp only [held_mk]
    | split
theorem mapSelect_held {k : Keep} {s : State} {n : Nat} {entry : Nat} (hs : Held k s) : Held k (State.mapSelect s n entry) := by
  unfold State.mapSelect
  repeat' with_reducible (first | assumption | apply held_ite | apply setBank_held | apply setFlag_held | apply setF_held)
theorem genStep_held {k : Keep} {s : State} {n : Nat} (hs : Held k s) : Held k (State.genStep s n) := by
  unfold State.genStep
  repeat' with_reducible (first | assumption | apply held_ite | apply setBank_held | apply setF_held | apply genRestart_held | apply setFlag_held)
theorem capFull_held {k : Keep} {s : State} {n : Nat} (hs : Held k s) : Held k (State.capFull s n) := by
  unfold State.capFull
  repeat' with_reducible (first | assumption | apply setFlag_held | apply raiseEv_held)
theorem capWord_held {k : Keep} {s : State} {n : Nat} {w : Word} {fabric : Bool} (hs : Held k s) : Held k (State.capWord s n w fabric) := by
  unfold State.capWord
  repeat' with_reducible first
    | assumption | apply held_ite | apply count_held | apply ddrWrite_held | apply setF_held | apply setBank_held | apply capFull_held
    | apply setFlag_held
theorem capPair_held {k : Keep} {s : State} {n : Nat} {a : Word} {b : Word} {fabric : Bool} (hs : Held k s) : Held k (State.capPair s n a b
    fabric) := by
  unfold State.capPair
  repeat' with_reducible (first | assumption | apply held_ite | apply capFull_held | apply setBank_held | apply capWord_held)
theorem applySetting_held {k : Keep} {s : State} {n : Nat} {x2 : PinSetting} (hs : Held k s) : Held k (State.applySetting s n x2) := by
  unfold State.applySetting
  repeat' first
    | with_reducible first
      | assumption | apply held_ite | apply setReg_held | apply mapSelect_held | apply setFlag_held | apply setF_held | apply setBank_held
    | simp only [held_mk]
    | split
theorem applyPend_held {k : Keep} {s : State} {n : Nat} (hs : Held k s) : Held k (State.applyPend s n) := by
  unfold State.applyPend
  repeat' first
    | with_reducible (first | assumption | intro _ | apply applySetting_held | apply setBank_held)
    | simp only [held_mk]
    | with_reducible apply held_foldl
theorem VecAcc_drivePin_held {k : Keep} {a : VecAcc} {p : Nat} {d : Bool} {r : Bool} {on : Bool} (ha : Held k a.s) : Held k (VecAcc.drivePin a p d r
    on).s := by
  unfold VecAcc.drivePin
  repeat' with_reducible assumption
theorem VecAcc_off_held {k : Keep} {a : VecAcc} {p : Nat} (ha : Held k a.s) : Held k (VecAcc.off a p).s := by
  unfold VecAcc.off
  repeat' with_reducible assumption
theorem VecAcc_cmp_held {k : Keep} {a : VecAcc} {p : Nat} {pass : Bool} (ha : Held k a.s) : Held k (VecAcc.cmp a p pass).s := by
  unfold VecAcc.cmp
  repeat' with_reducible assumption
theorem VecAcc_pin_held {k : Keep} {a : VecAcc} {n : Nat} {ts : Nat} {p : Nat} {sym : Nat} {kd : VecKind} {data : BitVec 32} {smp : PinSample} (ha :
    Held k a.s) : Held k (VecAcc.pin a n ts p sym kd data smp).s := by
  unfold VecAcc.pin
  repeat' first
    | with_reducible first
      | assumption | apply heldOP_none | apply heldOP_some | apply heldOP_ite | apply held_iteV | apply takeBit_held | apply VecAcc_drivePin_held
      | apply VecAcc_off_held | apply VecAcc_cmp_held
    | simp only [held_mk]
    | with_reducible refine heldOP_use ‹_› ?_
    | split
theorem recordFails_held {k : Keep} {s : State} {n : Nat} {fails : BitVec 32} (hs : Held k s) : Held k (State.recordFails s n fails) := by
  unfold State.recordFails
  repeat' with_reducible first
    | assumption | intro _ | apply held_ite | apply count16_held | apply count_held | apply setReg_held | apply held_foldl
theorem countVector_held {k : Keep} {s : State} {n : Nat} (hs : Held k s) : Held k (State.countVector s n) := by
  unfold State.countVector
  repeat' with_reducible (first | assumption | apply setReg_held)
theorem headroom_held {k : Keep} {s : State} {n : Nat} {compared : BitVec 32} {fails : BitVec 32} (hs : Held k s) : Held k (State.headroom s n
    compared fails) := by
  unfold State.headroom
  repeat' first | with_reducible (first | assumption | apply held_ite | apply heldOf_self) | simp only [held_mk]
theorem vector_held {k : Keep} {s : State} {n : Nat} {ts : Nat} {lit : Nat} {kd : VecKind} {smp : PinSample} (hs : Held k s) : Held k (State.vector s
    n ts lit kd smp).1 := by
  unfold State.vector
  repeat' with_reducible first
    | assumption | intro _ | apply held_ite | apply VecAcc_pin_held | apply setBank_held | apply count_held | apply headroom_held
    | apply recordFails_held | apply capWord_held | apply capPair_held | apply genStep_held | apply emit_held | apply countVector_held
    | apply held_foldlV
theorem vectors_held {k : Keep} {n ts lit : Nat} {kd : VecKind} (j : Nat) (l : List PinSample) (r : State × Bool) (h : Held k r.1) :
    Held k (State.vectors n ts lit kd j l r).1 := by
  induction j generalizing l r with
  | zero => exact h
  | succ j ih =>
    cases l with
    | nil => exact ih [] _ (vector_held h)
    | cons x xs => exact ih xs _ (vector_held h)
theorem stall_held {k : Keep} {s : State} {n : Nat} (hs : Held k s) : Held k (State.stall s n) := by
  unfold State.stall
  repeat' with_reducible (first | assumption | apply held_ite | apply traceSeq_held | apply raiseEv_held | apply count_held)
theorem vecInstr_held {k : Keep} {s : State} {k0 : Nat} {w : BitVec 64} {kd : VecKind} {smps : List PinSample} (hs : Held k s) : Held k
    (State.vecInstr s k0 w kd smps) := by
  unfold State.vecInstr
  repeat' with_reducible first
    | assumption | apply held_ite | apply goNext_held | apply applyPend_held | apply stall_held | apply setFlag_held | apply setBank_held
    | apply vectors_held | apply raiseEv_held | apply setSeq_held
theorem doVec_held {k : Keep} {smps : List PinSample} {s : State} {k0 : Nat} {w : BitVec 64} (hs : Held k s) : Held k (doVec smps s k0 w) := by
  unfold doVec
  repeat' with_reducible (first | assumption | apply vecInstr_held)
theorem doVstr_held {k : Keep} {smps : List PinSample} {s : State} {k0 : Nat} {w : BitVec 64} (hs : Held k s) : Held k (doVstr smps s k0 w) := by
  unfold doVstr
  repeat' with_reducible (first | assumption | apply vecInstr_held)
theorem doVgen_held {k : Keep} {smps : List PinSample} {s : State} {k0 : Nat} {w : BitVec 64} (hs : Held k s) : Held k (doVgen smps s k0 w) := by
  unfold doVgen
  repeat' with_reducible (first | assumption | apply vecInstr_held)
theorem queueSetting_held {k : Keep} {s : State} {k0 : Nat} {x : PinSetting} (hs : Held k s) : Held k (State.queueSetting s k0 x) := by
  unfold State.queueSetting
  repeat' with_reducible (first | assumption | apply setBank_held | apply goNext_held)
theorem doTset_held {k : Keep} {s : State} {k0 : Nat} {w : BitVec 64} (hs : Held k s) : Held k (doTset s k0 w) := by
  unfold doTset
  repeat' with_reducible (first | assumption | apply queueSetting_held)
theorem doPeriod_held {k : Keep} {s : State} {k0 : Nat} {w : BitVec 64} (hs : Held k s) : Held k (doPeriod s k0 w) := by
  unfold doPeriod
  repeat' with_reducible (first | assumption | apply queueSetting_held)
theorem doMap_held {k : Keep} {s : State} {k0 : Nat} {w : BitVec 64} (hs : Held k s) : Held k (doMap s k0 w) := by
  unfold doMap
  repeat' with_reducible (first | assumption | apply queueSetting_held)
theorem doCapt_held {k : Keep} {s : State} {k0 : Nat} {w : BitVec 64} (hs : Held k s) : Held k (doCapt s k0 w) := by
  unfold doCapt
  repeat' with_reducible (first | assumption | apply queueSetting_held)
theorem doTrig_held {k : Keep} {s : State} {k0 : Nat} {w : BitVec 64} (hs : Held k s) : Held k (doTrig s k0 w) := by
  unfold doTrig
  repeat' with_reducible (first | assumption | apply queueSetting_held)
theorem doLine_held {k : Keep} {s : State} {k0 : Nat} {w : BitVec 64} (hs : Held k s) : Held k (doLine s k0 w) := by
  unfold doLine
  repeat' with_reducible (first | assumption | apply queueSetting_held)

end Sys2Proof.Machine
end

