-- ==== Sys2Proof/Laws/TestSites.lean ====
section
/-! SUPPORT. Laws/TestSites.lean: each operation of Machine/TestSites.lean leaves the queue, the life counter and the canonical form. -/

namespace Sys2Proof.Machine

theorem winOpen_held {k : Keep} {s : State} {fcnt : Nat} {run : Option ArmedRun} (hs : Held k s) : Held k (State.winOpen s fcnt run) := by
  unfold State.winOpen
  repeat' first | with_reducible (first | assumption | apply heldOf_self | apply testRegs_held) | simp only [held_mk]
theorem candidate_held {k : Keep} {s : State} {lamp : Nat} {st : Nat} (hs : Held k s) : Held k (State.candidate s lamp st) := by
  unfold State.candidate
  repeat' first
    | with_reducible first
      | assumption | apply held_ite | apply heldOf_self | apply clinkerEdit_held | apply clkWrite_held | apply count_held | apply setFlag_held
    | simp only [held_mk]
    | with_reducible refine heldO_use ‹_› ?_
    | split
theorem candidates_held {k : Keep} {s : State} {seen : List (Nat × Bool)} {fs : List (Nat × Nat)} (hs : Held k s) : Held k (State.candidates s seen
    fs) := by
  unfold State.candidates
  repeat' first
    | with_reducible (first | assumption | intro _ | apply heldOf_self | apply candidate_held)
    | simp only [held_mk]
    | with_reducible apply held_foldl
theorem testEv8_held {k : Keep} {s : State} (hs : Held k s) : Held k (State.testEv8 s) := by
  unfold State.testEv8
  repeat' first
    | with_reducible (first | assumption | intro _ | apply heldOf_self | apply raiseFsq_held)
    | simp only [held_mk]
    | with_reducible apply held_foldl
    | split
theorem stageQuiet_held {k : Keep} {s : State} (hs : Held k s) : Held k (State.stageQuiet s) := by
  unfold State.stageQuiet
  repeat' first | with_reducible (first | assumption | apply heldOf_self) | simp only [held_mk]
theorem stageBack_held {k : Keep} {s : State} {r : TestRun} (hs : Held k s) : Held k (State.stageBack s r) := by
  unfold State.stageBack
  repeat' first | with_reducible (first | assumption | apply heldOf_self | apply freed_held | apply stageQuiet_held | apply stageBegin_held) | simp only [held_mk]
theorem testCheck_held {k : Keep} {s : State} (hs : Held k s) : Held k (State.testCheck s) := by
  unfold State.testCheck
  repeat' first | with_reducible (first | assumption | apply held_ite | apply stageBack_held | apply testEnd_held) | simp only [held_mk] | split
theorem testTake_held {k : Keep} {s : State} {p : Nat} {q : Nat} {f : TestResPkt} (hs : Held k s) : Held k (State.testTake s p q f) := by
  unfold State.testTake
  repeat' first
    | with_reducible first
      | assumption | apply held_ite | apply heldOf_self | apply count_held | apply testRegs_held | apply testCheck_held | apply testEv8_held
    | simp only [held_mk]
    | split
theorem winClose_held {k : Keep} {s : State} {aborted : Bool} (hs : Held k s) : Held k (State.winClose s aborted) := by
  unfold State.winClose
  repeat' first
    | with_reducible first
      | assumption | intro _ | apply held_ite | apply heldOf_self | apply testRegs_held | apply setFlag_held | apply candidates_held
      | apply count_held | apply sendUp_held | apply testTake_held
    | simp only [held_mk]
    | with_reducible apply held_foldl
    | split
theorem mailbox_held {k : Keep} {s : State} {n : Nat} {d : List Byte} (hs : Held k s) : Held k (State.mailbox s n d) := by
  unfold State.mailbox
  repeat' first | with_reducible (first | assumption | intro _ | apply setDmem_held) | simp only [held_mk] | with_reducible apply held_foldl
theorem armRun_held {k : Keep} {s : State} {d : List Byte} (hs : Held k s) : Held k (State.armRun s d) := by
  unfold State.armRun
  repeat' first
    | with_reducible first
      | assumption | intro _ | apply held_ite | apply heldOf_self | apply mailbox_held | apply raiseSw_held | apply testRegs_held
      | apply winOpen_held
    | simp only [held_mk]
    | with_reducible apply held_foldl
theorem testHdr_held {k : Keep} {s : State} {r : CordRx} {d : List Byte} (hs : Held k s) : Held k (State.testHdr s r d).1 := by
  unfold State.testHdr
  repeat' with_reducible (first | assumption | apply held_ite1 | apply tileOwn_held | apply tileHdr_held)
theorem testPacket_held {k : Keep} {s : State} {r : CordRx} {d : List Byte} {op : Nat} {f : State → State} (hs : Held k s) (hf : ∀ u , Held k u → Held
    k (f u )) : Held k (State.testPacket s r d op f) := by
  unfold State.testPacket
  repeat' with_reducible (first | assumption | apply held_ite | apply hf | apply testHdr_held | apply count_held)
theorem evTestOpArm_held {k : Keep} {r : CordRx} {d : List Byte} {s : State} (hs : Held k s) : Held k (evTestOpArm r d s) := by
  unfold evTestOpArm
  repeat' with_reducible (first | assumption | intro _ | apply testPacket_held | apply armRun_held)
theorem dropFragments_held {k : Keep} {s : State} (hs : Held k s) : Held k (State.dropFragments s) := by
  unfold State.dropFragments
  repeat' first | with_reducible (first | assumption | apply heldOf_self) | simp only [held_mk]
theorem abortRun_held {k : Keep} {s : State} {runid : Nat} (hs : Held k s) : Held k (State.abortRun s runid) := by
  unfold State.abortRun
  repeat' first
    | with_reducible first
      | assumption | apply held_ite | apply heldOf_self | apply dropFragments_held | apply winClose_held | apply testRegs_held
    | simp only [held_mk]
    | split
theorem evTestOpAbort_held {k : Keep} {r : CordRx} {d : List Byte} {s : State} (hs : Held k s) : Held k (evTestOpAbort r d s) := by
  unfold evTestOpAbort
  repeat' with_reducible (first | assumption | intro _ | apply testPacket_held | apply abortRun_held)
theorem evTestOpResend_held {k : Keep} {r : CordRx} {d : List Byte} {s : State} (hs : Held k s) : Held k (evTestOpResend r d s) := by
  unfold evTestOpResend
  repeat' with_reducible (first | assumption | intro _ | apply testPacket_held | apply sendUp_held | apply count_held | apply held_foldl)
theorem evTestWindowOpen_held {k : Keep} {s : State} (hs : Held k s) : Held k (evTestWindowOpen s) := by
  unfold evTestWindowOpen
  repeat' first
    | with_reducible first
      | assumption | apply held_ite | apply heldOf_self | apply count_held | apply testRegs_held | apply raisePsqs_held | apply winClose_held
      | apply winOpen_held
    | simp only [held_mk]
    | split
theorem evTestWindowClose_held {k : Keep} {s : State} (hs : Held k s) : Held k (evTestWindowClose s) := by
  unfold evTestWindowClose
  repeat' with_reducible (first | assumption | apply held_ite | apply winClose_held)
theorem evFullTestPoll_held {k : Keep} {s : State} (hs : Held k s) : Held k (evFullTestPoll s) := by
  unfold evFullTestPoll
  repeat' first | with_reducible (first | assumption | apply held_ite | apply winClose_held) | split
theorem evFullTestLimit_held {k : Keep} {s : State} (hs : Held k s) : Held k (evFullTestLimit s) := by
  unfold evFullTestLimit
  repeat' with_reducible (first | assumption | apply held_ite | apply winClose_held)
theorem testSend_held {k : Keep} {s : State} {r : TestRun} {op : Nat} (hs : Held k s) : Held k (State.testSend s r op) := by
  unfold State.testSend
  repeat' first
    | with_reducible (first | assumption | intro _ | apply held_ite | apply frameSend_held)
    | simp only [held_mk]
    | with_reducible apply held_foldl
theorem testArm_held {k : Keep} {s : State} {r : TestRun} (hs : Held k s) : Held k (State.testArm s r) := by
  unfold State.testArm
  repeat' with_reducible (first | assumption | apply held_ite | apply testSend_held | apply armRun_held)
theorem testRun_held {k : Keep} {s : State} {runid : Word} {full : Bool} {ports : Nat} {sites : List (BitVec 64)} {d : List Byte} {image : List Byte}
    {loc : Bool} (hs : Held k s) : Held k (State.testRun s runid full ports sites d image loc).1 := by
  unfold State.testRun
  repeat' first
    | with_reducible first
      | assumption | apply held_ite1 | apply heldOf_self | apply testRegs_held | apply freed_held | apply stageQuiet_held | apply stageBegin_held
      | apply testArm_held
    | simp only [held_mk]
theorem testAbort_held {k : Keep} {s : State} {runid : Word} (hs : Held k s) : Held k (State.testAbort s runid).1 := by
  unfold State.testAbort
  repeat' first
    | with_reducible first
      | assumption | apply held_ite | apply held_ite1 | apply heldOf_self | apply testEnd_held | apply stageCancel_held | apply testSend_held
      | apply abortRun_held
    | simp only [held_mk]
    | split
theorem testAck_held {k : Keep} {s : State} {runid : Word} (hs : Held k s) : Held k (State.testAck s runid).1 := by
  unfold State.testAck
  repeat' first | with_reducible (first | assumption | apply held_ite1 | apply heldOf_self) | simp only [held_mk]
theorem doTestslotRow_held {k : Keep} {s : State} {k0 : Nat} {w : BitVec 64} (hs : Held k s) : Held k (doTestslotRow s k0 w) := by
  unfold doTestslotRow
  repeat' first
    | with_reducible (first | assumption | apply held_ite | apply heldOf_self | apply doTestslot_held | apply testRegs_held)
    | simp only [held_mk]
    | split
theorem evTestResRx_held {k : Keep} {r : CordRx} {f : TestResPkt} {s : State} (hs : Held k s) : Held k (evTestResRx r f s) := by
  unfold evTestResRx
  repeat' with_reducible (first | assumption | apply held_ite | apply senderUp_held | apply testTake_held)
theorem testAsk_held {k : Keep} {s : State} {r : TestRun} {x : SiteRec} (hs : Held k s) : Held k (State.testAsk s r x) := by
  unfold State.testAsk
  repeat' first | with_reducible (first | assumption | apply held_ite | apply heldOf_self | apply sendTo_held) | simp only [held_mk]
theorem evTestCollectTimeout_held {k : Keep} {s : State} (hs : Held k s) : Held k (evTestCollectTimeout s) := by
  unfold evTestCollectTimeout
  repeat' first
    | with_reducible (first | assumption | intro _ | apply held_ite | apply heldOf_self | apply raiseFsq_held | apply testAsk_held)
    | simp only [held_mk]
    | with_reducible apply held_foldl
    | split
theorem testRetry_held {k : Keep} {s : State} {p : Nat} {q : Nat} (hs : Held k s) : Held k (State.testRetry s p q) := by
  unfold State.testRetry
  repeat' first
    | with_reducible first
      | assumption | apply held_ite | apply heldOf_self | apply testAsk_held | apply testRegs_held | apply testCheck_held | apply testEv8_held
      | apply count_held
    | simp only [held_mk]
    | split
theorem evCtrlReqRetryRow_held {k : Keep} {p : Nat} {q : Nat} {seq : Option Word} {s : State} (hs : Held k s) : Held k (evCtrlReqRetryRow p q seq
    s) := by
  unfold evCtrlReqRetryRow
  repeat' first | with_reducible (first | assumption | apply held_ite | apply evCtrlReqRetry_held | apply testRetry_held) | split
theorem evRunTimeout_held {k : Keep} {s : State} (hs : Held k s) : Held k (evRunTimeout s) := by
  unfold evRunTimeout
  repeat' first | with_reducible (first | assumption | apply held_ite | apply testEnd_held) | split
theorem testStaged_held {k : Keep} {s : State} (hs : Held k s) : Held k (State.testStaged s) := by
  unfold State.testStaged
  repeat' first
    | with_reducible (first | assumption | apply held_ite | apply heldOf_self | apply testEnd_held | apply testSend_held | apply stageBack_held)
    | simp only [held_mk]
    | split

end Sys2Proof.Machine
end

