-- ==== Sys2Proof/Laws/SeqEvents.lean ====
section
/-! SUPPORT. Laws/SeqEvents.lean: each operation of Machine/SeqEvents.lean leaves the queue, the life counter and the canonical form. -/

namespace Sys2Proof.Machine

theorem resume_held {k : Keep} {s : State} {k0 : Nat} {q : Seq} {z : Bool} (hs : Held k s) : Held k (State.resume s k0 q z) := by
  unfold State.resume
  repeat' with_reducible (first | assumption | apply goNext_held)
theorem evWaitResume_held {k : Keep} {id : SeqId} {s : State} (hs : Held k s) : Held k (evWaitResume id s) := by
  unfold evWaitResume
  repeat' first | with_reducible (first | assumption | apply held_ite | apply traceSeq_held | apply resume_held) | simp only [held_mk] | split
theorem evWaitTimeout_held {k : Keep} {id : SeqId} {s : State} (hs : Held k s) : Held k (evWaitTimeout id s) := by
  unfold evWaitTimeout
  repeat' first | with_reducible (first | assumption | apply held_ite | apply resume_held) | simp only [held_mk] | split
theorem fsqStart_held {k : Keep} {s : State} (hs : Held k s) : Held k (State.fsqStart s).1 := by
  unfold State.fsqStart
  repeat' with_reducible (first | assumption | apply held_ite1 | apply fsqRun_held)
theorem vddpRead_held {k : Keep} {s : State} {n : Nat} {mv : Nat} (hs : Held k s) : Held k (State.vddpRead s n mv) := by
  unfold State.vddpRead
  repeat' with_reducible (first | assumption | apply setF_held | apply setBank_held)
theorem psqStart_held {k : Keep} {s : State} {n : Nat} {mv : Nat} (hs : Held k s) : Held k (State.psqStart s n mv).1 := by
  unfold State.psqStart
  repeat' with_reducible (first | assumption | apply held_ite1 | apply vddpRead_held | apply setFlag_held | apply progStart_held)
theorem psqStop_held {k : Keep} {s : State} {n : Nat} (hs : Held k s) : Held k (State.psqStop s n) := by
  unfold State.psqStop
  repeat' with_reducible (first | assumption | apply held_ite | apply psqHaltSafe_held | apply bankSafe_held)
theorem evFsqStart_held {k : Keep} {s : State} (hs : Held k s) : Held k (evFsqStart s) := by
  unfold evFsqStart
  repeat' with_reducible (first | assumption | apply held_ite | apply emit_held | apply fsqStart_held)
theorem evPsqStart_held {k : Keep} {n : Nat} {mv : Nat} {s : State} (hs : Held k s) : Held k (evPsqStart n mv s) := by
  unfold evPsqStart
  repeat' with_reducible (first | assumption | apply psqStart_held | apply emit_held)
theorem evPsqStop_held {k : Keep} {n : Nat} {s : State} (hs : Held k s) : Held k (evPsqStop n s) := by
  unfold evPsqStop
  repeat' with_reducible (first | assumption | apply emit_held | apply psqStop_held)
theorem evVddpFail_held {k : Keep} {n : Nat} {mv : Nat} {s : State} (hs : Held k s) : Held k (evVddpFail n mv s) := by
  unfold evVddpFail
  repeat' first
    | with_reducible first
      | assumption | apply held_ite | apply heldOf_self | apply vddpRead_held | apply setFlag_held | apply psqHaltSafe_held | apply testFault_held
      | apply event_held
    | simp only [held_mk]
theorem swevWrite_held {k : Keep} {s : State} {v : Word} (hs : Held k s) : Held k (State.swevWrite s v) := by
  unfold State.swevWrite
  repeat' with_reducible (first | assumption | apply setReg_held | apply raiseSwMask_held)
theorem evSwevRaise_held {k : Keep} {mask : Nat} {s : State} (hs : Held k s) : Held k (evSwevRaise mask s) := by
  unfold evSwevRaise
  repeat' with_reducible (first | assumption | apply emit_held | apply swevWrite_held)
theorem evSwevPendClear_held {k : Keep} {mask : Nat} {s : State} (hs : Held k s) : Held k (evSwevPendClear mask s) := by
  unfold evSwevPendClear
  repeat' with_reducible (first | assumption | apply emit_held | apply swevWrite_held)
theorem ddataNext_held {k : Keep} {s : State} {n : Nat} (hs : Held k s) : Held k (State.ddataNext s n) := by
  unfold State.ddataNext
  repeat' with_reducible (first | assumption | apply setF_held)
theorem ddataRead_held {k : Keep} {s : State} {n : Nat} (hs : Held k s) : Held k (State.ddataRead s n).1 := by
  unfold State.ddataRead
  repeat' with_reducible (first | assumption | apply ddataNext_held)
theorem ddataWrite_held {k : Keep} {s : State} {n : Nat} {v : Word} (hs : Held k s) : Held k (State.ddataWrite s n v) := by
  unfold State.ddataWrite
  repeat' with_reducible (first | assumption | apply ddataNext_held | apply setDmem_held)
theorem evDmemAccess_held {k : Keep} {n : Nat} {w : Option Word} {s : State} (hs : Held k s) : Held k (evDmemAccess n w s) := by
  unfold evDmemAccess
  repeat' first | with_reducible (first | assumption | apply ddataRead_held | apply emit_held | apply ddataWrite_held) | simp only [held_mk] | split
theorem cdataRead_held {k : Keep} {s : State} {n : Nat} (hs : Held k s) : Held k (State.cdataRead s n).1 := by
  unfold State.cdataRead
  repeat' with_reducible (first | assumption | apply setF_held)
theorem evCaptureRead_held {k : Keep} {n : Nat} {s : State} (hs : Held k s) : Held k (evCaptureRead n s) := by
  unfold evCaptureRead
  repeat' with_reducible (first | assumption | apply cdataRead_held | apply emit_held)
theorem evLineTimerWrite_held {k : Keep} {n : Nat} {v : Word} {s : State} (hs : Held k s) : Held k (evLineTimerWrite n v s) := by
  unfold evLineTimerWrite
  repeat' with_reducible (first | assumption | apply emit_held | apply plainWrite_held)
theorem evLineTick_held {k : Keep} {n : Nat} {s : State} (hs : Held k s) : Held k (evLineTick n s) := by
  unfold evLineTick
  repeat' with_reducible (first | assumption | apply held_ite | apply raiseEv_held)
theorem evTrigInEdge_held {k : Keep} {n : Nat} {s : State} (hs : Held k s) : Held k (evTrigInEdge n s) := by
  unfold evTrigInEdge
  repeat' with_reducible (first | assumption | apply held_ite | apply raiseEv_held)
theorem evPinEdge_held {k : Keep} {p : Nat} {rising : Bool} {s : State} (hs : Held k s) : Held k (evPinEdge p rising s) := by
  unfold evPinEdge
  repeat' first
    | with_reducible (first | assumption | intro _ | apply held_ite | apply evTimStamp_held | apply raiseEv_held)
    | simp only [held_mk]
    | with_reducible apply held_foldl
theorem pinWrite_held {k : Keep} {s : State} {a : Nat} {v : Word} (hs : Held k s) : Held k (State.pinWrite s a v).1 := by
  unfold State.pinWrite
  repeat' with_reducible (first | assumption | apply held_ite1 | apply plainWrite_held | apply bankSafe_held)
theorem evPinConfigWrite_held {k : Keep} {o : Nat} {v : Word} {s : State} (hs : Held k s) : Held k (evPinConfigWrite o v s) := by
  unfold evPinConfigWrite
  repeat' with_reducible (first | assumption | apply pinWrite_held | apply emit_held)
theorem evCompGcommit_held {k : Keep} {s : State} (hs : Held k s) : Held k (evCompGcommit s) := by
  unfold evCompGcommit
  repeat' with_reducible (first | assumption | apply held_ite | apply emit_held | apply setFlag_held)
theorem fullDamage_held {k : Keep} {s : State} (hs : Held k s) : Held k (State.fullDamage s) := by
  unfold State.fullDamage
  repeat' with_reducible (first | assumption | apply damageBands_held)
theorem evCompFulldmg_held {k : Keep} {s : State} (hs : Held k s) : Held k (evCompFulldmg s) := by
  unfold evCompFulldmg
  repeat' with_reducible (first | assumption | apply held_ite | apply emit_held | apply fullDamage_held)
theorem dmgWrite_held {k : Keep} {s : State} {a : Nat} {v : Word} {sources : Word} (hs : Held k s) : Held k (State.dmgWrite s a v sources) := by
  unfold State.dmgWrite
  repeat' first
    | with_reducible (first | assumption | apply held_ite | apply heldOf_self | apply setReg_held | apply raiseFsq_held)
    | simp only [held_mk]
theorem evDamageMapWrite_held {k : Keep} {p : Nat} {q : Nat} {j : Nat} {v : Word} {sources : Word} {s : State} (hs : Held k s) : Held k
    (evDamageMapWrite p q j v sources s) := by
  unfold evDamageMapWrite
  repeat' with_reducible (first | assumption | apply held_ite | apply emit_held | apply dmgWrite_held)
theorem evSurfaceWriteRelease_held {k : Keep} {s : State} (hs : Held k s) : Held k (evSurfaceWriteRelease s) := by
  unfold evSurfaceWriteRelease
  repeat' first | with_reducible (first | assumption | apply heldOf_self | apply surfacePut_held | apply answer_held) | simp only [held_mk] | split

end Sys2Proof.Machine
end

