-- ==== Sys2Proof/Laws/CamAudio.lean ====
section
/-! SUPPORT. Laws/CamAudio.lean: each operation of Machine/CamAudio.lean leaves the queue, the life counter and the canonical form. -/

namespace Sys2Proof.Machine

theorem panicCe_held {k : Keep} {s : State} {e : Nat} {n : Nat} (hs : Held k s) : Held k (State.panicCe s e n) := by
  unfold State.panicCe
  repeat' with_reducible (first | assumption | apply held_ite | apply panicSet_held)
theorem panicAud_held {k : Keep} {s : State} {n : Nat} (hs : Held k s) : Held k (State.panicAud s n) := by
  unfold State.panicAud
  repeat' with_reducible (first | assumption | apply held_ite | apply panicSet_held)
theorem panicRead_held {k : Keep} {s : State} {r : BusReq} (hs : Held k s) : Held k (State.panicRead s r) := by
  unfold State.panicRead
  repeat' first
    | with_reducible (first | assumption | intro _ | apply held_ite | apply freed_held | apply panicCe_held | apply panicAud_held)
    | with_reducible apply held_foldl
theorem evBandJobStartRow_held {k : Keep} {e : Nat} {times : List Nat} {s : State} (hs : Held k s) : Held k (evBandJobStartRow e times s) := by
  unfold evBandJobStartRow
  repeat' with_reducible (first | assumption | apply held_ite | apply evBandJobStart_held | apply panicCe_held | apply panicSet_held)
theorem decErr_held {k : Keep} {s : State} {addr : Nat} {req : Nat} {write : Bool} (hs : Held k s) : Held k (State.decErr s addr req write) := by
  unfold State.decErr
  repeat' with_reducible (first | assumption | apply setReg_held | apply setFlag_held | apply count_held)
theorem camCfgWrite_held {k : Keep} {s : State} {v : Word} (hs : Held k s) : Held k (State.camCfgWrite s v).1 := by
  unfold State.camCfgWrite
  repeat' with_reducible first
    | assumption | apply held_ite1 | apply plainWrite_held | apply setBank_held | apply setFlag_held | apply bankSafe_held
theorem evCamEnable_held {k : Keep} {v : Word} {s : State} (hs : Held k s) : Held k (evCamEnable v s) := by
  unfold evCamEnable
  repeat' with_reducible (first | assumption | apply camCfgWrite_held | apply emit_held)
theorem camCommit_held {k : Keep} {s : State} (hs : Held k s) : Held k (State.camCommit s) := by
  unfold State.camCommit
  repeat' first | with_reducible (first | assumption | apply held_ite | apply heldOf_self | apply setFlag_held) | simp only [held_mk]
theorem evPcommit_held {k : Keep} {s : State} (hs : Held k s) : Held k (evPcommit s) := by
  unfold evPcommit
  repeat' with_reducible (first | assumption | apply emit_held | apply camCommit_held)
theorem camParams_held {k : Keep} {s : State} {nack : Option Nat} (hs : Held k s) : Held k (State.camParams s nack) := by
  unfold State.camParams
  repeat' first
    | with_reducible (first | assumption | intro _ | apply held_ite | apply heldOf_self | apply emit_held | apply setFlag_held | apply count_held)
    | simp only [held_mk]
    | with_reducible apply held_foldl
theorem evCamFrameStart_held {k : Keep} {nack : Option Nat} {s : State} (hs : Held k s) : Held k (evCamFrameStart nack s) := by
  unfold evCamFrameStart
  repeat' first
    | with_reducible (first | assumption | apply held_ite | apply heldOf_self | apply camParams_held | apply setFlag_held)
    | simp only [held_mk]
theorem camStore_held {k : Keep} {s : State} {a : Nat} {bs : List Byte} (hs : Held k s) : Held k (State.camStore s a bs) := by
  unfold State.camStore
  repeat' with_reducible (first | assumption | apply held_ite | apply ddrWrite_held | apply decErr_held)
theorem camStats_held {k : Keep} {s : State} {lines : List (List Nat)} (hs : Held k s) : Held k (State.camStats s lines) := by
  unfold State.camStats
  repeat' first
    | with_reducible (first | assumption | intro _ | apply setReg_held | apply count_held)
    | simp only [held_mk]
    | with_reducible apply held_foldl
theorem camShape_held {k : Keep} {s : State} {f : Field} {a : Nat} {n : Nat} (hs : Held k s) : Held k (State.camShape s f a n) := by
  unfold State.camShape
  repeat' with_reducible (first | assumption | apply held_ite | apply setFlag_held | apply count_held)
theorem evCamFrameEnd_held {k : Keep} {lines : List (List Nat)} {took : Bool} {s : State} (hs : Held k s) : Held k (evCamFrameEnd lines took s) := by
  unfold evCamFrameEnd
  repeat' first
    | with_reducible first
      | assumption | intro _ | apply held_ite | apply heldOf_self | apply camStore_held | apply setFlag_held | apply count_held | apply camShape_held
      | apply setF_held | apply camStats_held | apply irq_held
    | simp only [held_mk]
    | with_reducible apply held_foldl
theorem setAud_held {k : Keep} {s : State} {n : Nat} {p : AudPort} (hs : Held k s) : Held k (State.setAud s n p) := by
  unfold State.setAud
  repeat' first
    | with_reducible (first | assumption | intro _ | apply setFlag_held | apply setF_held | apply heldOf_aud | exact SMap.wf_set ‹_›)
    | simp only [held_mk]
theorem audBlock_held {k : Keep} {s : State} {n : Nat} {lim : Nat} {chans : Nat} {fs : List AudFrame} (hs : Held k s) : Held k (State.audBlock s n lim
    chans fs) := by
  unfold State.audBlock
  repeat' with_reducible (first | assumption | apply held_ite | apply count_held | apply setAud_held | apply setFlag_held | apply panicAud_held)
theorem evAudio_held {k : Keep} {r : CordRx} {data : List Byte} {s : State} (hs : Held k s) : Held k (evAudio r data s) := by
  unfold evAudio
  repeat' with_reducible (first | assumption | apply held_ite | apply tileHdr_held | apply audBlock_held)
theorem audFeed_held {k : Keep} {s : State} {before : Bound} {ts : Nat} {bytes : Nat} (hs : Held k s) : Held k (State.audFeed s before ts bytes) := by
  unfold State.audFeed
  repeat' first
    | with_reducible (first | assumption | intro _ | apply held_ite | apply setAud_held | apply audBlock_held)
    | simp only [held_mk]
    | with_reducible apply held_foldl
theorem evSourceFrameRxRow_held {k : Keep} {f : SrcFrame} {s : State} (hs : Held k s) : Held k (evSourceFrameRxRow f s) := by
  unfold evSourceFrameRxRow
  repeat' first | with_reducible (first | assumption | apply held_ite | apply evSourceFrameRx_held | apply audFeed_held) | simp only [held_mk] | split
theorem evAudioBlockDue_held {k : Keep} {ts : Nat} {s : State} (hs : Held k s) : Held k (evAudioBlockDue ts s) := by
  unfold evAudioBlockDue
  repeat' first
    | with_reducible (first | assumption | intro _ | apply held_ite | apply eachPort_held | apply frameSend_held)
    | simp only [held_mk]
    | split
theorem audStop_held {k : Keep} {s : State} {n : Nat} (hs : Held k s) : Held k (State.audStop s n) := by
  unfold State.audStop
  repeat' with_reducible (first | assumption | apply held_ite | apply panicSet_held | apply setFlag_held)
theorem audGap_held {k : Keep} {s : State} {n : Nat} {p : AudPort} {buf : List AudFrame} {den : Nat} (hs : Held k s) : Held k (State.audGap s n p buf
    den) := by
  unfold State.audGap
  repeat' with_reducible (first | assumption | apply held_ite | apply count_held | apply emit_held | apply setFlag_held | apply setAud_held)
theorem evAudioFrameBoundary_held {k : Keep} {n : Nat} {ue : Bool} {s : State} (hs : Held k s) : Held k (evAudioFrameBoundary n ue s) := by
  unfold evAudioFrameBoundary
  repeat' first
    | with_reducible first
      | assumption | apply held_ite | apply setFlag_held | apply count_held | apply emit_held | apply setAud_held | apply audGap_held
      | apply audStop_held | apply panicAud_held | apply freed_held
    | simp only [held_mk]
    | split
theorem audCfgWrite_held {k : Keep} {s : State} {n : Nat} {v : Word} (hs : Held k s) : Held k (State.audCfgWrite s n v).1 := by
  unfold State.audCfgWrite
  repeat' with_reducible first
    | assumption | apply held_ite | apply held_ite1 | apply setF_held | apply plainWrite_held | apply setFlag_held | apply audStop_held
    | apply panicAud_held | apply setAud_held
theorem evAudCfgWrite_held {k : Keep} {n : Nat} {v : Word} {s : State} (hs : Held k s) : Held k (evAudCfgWrite n v s) := by
  unfold evAudCfgWrite
  repeat' with_reducible (first | assumption | apply held_ite | apply emit_held | apply audCfgWrite_held)

end Sys2Proof.Machine
end

