-- ==== Sys2Proof/Laws/Startup.lean ====
section
/-! SUPPORT. Laws/Startup.lean: each operation of Machine/Startup.lean leaves the queue, the life counter and the canonical form. -/

namespace Sys2Proof.Machine

theorem evStrapSample_held {k : Keep} {balls : Nat} {s : State} (hs : Held k s) : Held k (evStrapSample balls s) := by
  unfold evStrapSample
  repeat' with_reducible first
    | assumption | intro _ | apply held_ite | apply setReg_held | apply setFlag_held | apply setF_held | apply laneUses_held | apply held_foldl
theorem recoveryEnter_held {k : Keep} {s : State} (hs : Held k s) : Held k (State.recoveryEnter s) := by
  unfold State.recoveryEnter
  repeat' first
    | with_reducible (first | assumption | intro _ | apply heldOf_self | apply bankSafe_held | apply count_held)
    | simp only [held_mk]
    | with_reducible apply held_foldl
theorem recoveryExit_held {k : Keep} {s : State} (hs : Held k s) : Held k (State.recoveryExit s) := by
  unfold State.recoveryExit
  repeat' with_reducible (first | assumption | apply leaveReset_held | apply fullReset_held)
theorem fwSelect_held {k : Keep} {s : State} (hs : Held k s) : HeldO k (State.fwSelect s) := by
  unfold State.fwSelect
  repeat' first
    | with_reducible first
      | assumption | intro _ | apply held_ite | apply heldOf_self | apply setF_held | apply event_held | apply setFlag_held | apply slotRecord_held
      | apply putActive_held
    | apply heldO_map
    | simp only [held_mk]
theorem replay_held {k : Keep} {s : State} {crc : Bool} (hs : Held k s) : Held k (State.replay s crc) := by
  unfold State.replay
  repeat' first
    | with_reducible first
      | assumption | intro _ | apply held_ite | apply setFlag_held | apply count_held | apply svnRegs_held | apply heaRegs_held | apply nvjRegs_held
      | apply setReg_held | apply popRegs_held | apply protectRegs_held | apply tenantRegs_held | apply setSeen_held | apply setClaim_held
      | apply setClmState_held | apply setHolder_held
    | simp only [held_mk]
    | with_reducible apply held_foldl
    | split
theorem laneBoot_held {k : Keep} {s : State} (hs : Held k s) : Held k (State.laneBoot s) := by
  unfold State.laneBoot
  repeat' with_reducible (first | assumption | apply held_ite | apply laneSelect_held | apply setF_held | apply setFlag_held | apply healthReg_held)
theorem nandStart_held {k : Keep} {s : State} {d : NandDev} (hs : Held k s) : Held k (State.nandStart s d) := by
  unfold State.nandStart
  repeat' first
    | with_reducible first
      | assumption | intro _ | apply held_ite | apply heldOf_self | apply setFlag_held | apply setF_held | apply journal_held | apply ashFull_held
      | apply slotRegs_held | apply nandRegs_held | apply nandKick_held
    | simp only [held_mk]
    | with_reducible apply held_foldl
theorem loadStart_held {k : Keep} {s : State} {kind : Nat} (hs : Held k s) : Held k (State.loadStart s kind) := by
  unfold State.loadStart
  repeat' first
    | with_reducible first
      | assumption | apply held_ite | apply calLoadStart_held | apply loadQueue_held | apply setFlag_held | apply slotRecord_held
      | apply putActive_held
    | simp only [held_mk]
    | split
theorem stokerStart_held {k : Keep} {s : State} {d : NandDev} (hs : Held k s) : Held k (State.stokerStart s d) := by
  unfold State.stokerStart
  repeat' with_reducible first
    | assumption | apply held_ite | apply nandStart_held | apply rampDue_held | apply loadStart_held | apply healthReg_held | apply epochStart_held
    | apply popRestart_held | apply kilnTrigger_held
theorem evKindling_held {k : Keep} {selftest : Bool} {crc : Bool} {d : NandDev} {ms : Nat} {s : State} (hs : Held k s) : Held k (evKindling selftest
    crc d ms s) := by
  unfold evKindling
  repeat' first
    | with_reducible first
      | assumption | apply held_ite | apply heldOf_self | apply recoveryEnter_held | apply nandStart_held | apply setFlag_held | apply laneBoot_held
      | apply blowPending_held | apply replay_held | apply fwSelect_held | apply setF_held | apply stokerStart_held
    | simp only [held_mk]
    | with_reducible refine heldO_use ‹_› ?_
    | split
theorem evDdrTraining_held {k : Keep} {ok : Bool} {s : State} (hs : Held k s) : Held k (evDdrTraining ok s) := by
  unfold evDdrTraining
  repeat' first
    | with_reducible (first | assumption | intro _ | apply held_ite | apply setFlag_held | apply healthReg_held)
    | exact rfl
    | with_reducible apply heldOf_ddr
    | simp only [held_mk]
theorem sysCtrlWrite_held {k : Keep} {s : State} {v : Word} (hs : Held k s) : Held k (State.sysCtrlWrite s v).1 := by
  unfold State.sysCtrlWrite
  repeat' first
    | with_reducible first
      | assumption | intro _ | apply held_ite | apply held_ite1 | apply heldOf_self | apply lockViol_held | apply setFlag_held | apply setF_held
      | apply setReg_held
    | simp only [held_mk]
    | with_reducible apply held_foldl
theorem evRemap_held {k : Keep} {v : Bool} {s : State} (hs : Held k s) : Held k (evRemap v s) := by
  unfold evRemap
  repeat' with_reducible (first | assumption | apply sysCtrlWrite_held | apply emit_held)
theorem evRemapLock_held {k : Keep} {s : State} (hs : Held k s) : Held k (evRemapLock s) := by
  unfold evRemapLock
  repeat' with_reducible (first | assumption | apply sysCtrlWrite_held | apply emit_held)
theorem evRecovery_held {k : Keep} {s : State} (hs : Held k s) : Held k (evRecovery s) := by
  unfold evRecovery
  repeat' with_reducible (first | assumption | apply sysCtrlWrite_held | apply emit_held)
theorem fwInstall_held {k : Keep} {s : State} {img : List Byte} {inst : Option Nat} {w : WriteFor} (hs : Held k s) : Held k (State.fwInstall s img
    inst w).1 := by
  unfold State.fwInstall
  repeat' with_reducible (first | assumption | apply held_ite1 | apply fwRefused_held | apply slotWrite_held | apply setFlag_held)
theorem evFwData_held {k : Keep} {r : CordRx} {seq : Word} {offset : Nat} {chunk : List Byte} {last : Bool} {s : State} (hs : Held k s) : Held k
    (evFwData r seq offset chunk last s) := by
  unfold evFwData
  repeat' first
    | with_reducible (first | assumption | intro _ | apply held_ite1 | apply heldOf_self | apply ctrlReq_held | apply fwInstall_held)
    | simp only [held_mk]
theorem pauseBegin_held {k : Keep} {s : State} {slot : Nat} {img : List Byte} (hs : Held k s) : Held k (State.pauseBegin s slot img) := by
  unfold State.pauseBegin
  repeat' first | with_reducible (first | assumption | apply heldOf_self | apply setF_held) | simp only [held_mk]
theorem activateNow_held {k : Keep} {s : State} {slot : Nat} (hs : Held k s) : Held k (State.activateNow s slot) := by
  unfold State.activateNow
  repeat' first
    | with_reducible (first | assumption | apply heldOf_self | apply count_held | apply setFlag_held | apply pauseBegin_held)
    | simp only [held_mk]
theorem fwActivate_held {k : Keep} {s : State} {slot : Nat} (hs : Held k s) : Held k (State.fwActivate s slot).1 := by
  unfold State.fwActivate
  repeat' first
    | with_reducible (first | assumption | apply held_ite1 | apply heldOf_self | apply fwRefused_held | apply activateNow_held)
    | simp only [held_mk]
theorem commitNow_held {k : Keep} {s : State} (hs : Held k s) : Held k (State.commitNow s) := by
  unfold State.commitNow
  repeat' first
    | with_reducible first
      | assumption | apply heldOf_self | apply setFlag_held | apply slotRecord_held | apply putActive_held | apply svnCommit_held | apply count_held
    | simp only [held_mk]
theorem fwCommit_held {k : Keep} {s : State} (hs : Held k s) : Held k (State.fwCommit s) := by
  unfold State.fwCommit
  repeat' first | with_reducible (first | assumption | apply held_ite | apply heldOf_self | apply commitNow_held) | simp only [held_mk]
theorem evFwCommit_held {k : Keep} {s : State} (hs : Held k s) : Held k (evFwCommit s) := by
  unfold evFwCommit
  repeat' with_reducible (first | assumption | apply emit_held | apply fwCommit_held)
theorem fwRevert_held {k : Keep} {s : State} (hs : Held k s) : Held k (State.fwRevert s) := by
  unfold State.fwRevert
  repeat' first
    | with_reducible first
      | assumption | apply held_ite | apply heldOf_self | apply setFlag_held | apply pauseBegin_held | apply event_held | apply count_held
    | simp only [held_mk]
theorem evFwTrialTimeout_held {k : Keep} {s : State} (hs : Held k s) : Held k (evFwTrialTimeout s) := by
  unfold evFwTrialTimeout
  repeat' with_reducible (first | assumption | apply held_ite | apply fwRevert_held)
theorem evFwCtrlAbandon_held {k : Keep} {s : State} (hs : Held k s) : Held k (evFwCtrlAbandon s) := by
  unfold evFwCtrlAbandon
  repeat' with_reducible (first | assumption | apply emit_held | apply fwRevert_held)
theorem evFirmwareFault_held {k : Keep} {s : State} (hs : Held k s) : Held k (evFirmwareFault s) := by
  unfold evFirmwareFault
  repeat' with_reducible (first | assumption | apply fwRevert_held)
theorem fwResume_held {k : Keep} {s : State} (hs : Held k s) : Held k (State.fwResume s) := by
  unfold State.fwResume
  repeat' first | with_reducible (first | assumption | apply held_ite | apply commitNow_held | apply activateNow_held) | split
theorem evVsagWarnClear_held {k : Keep} {ack : Bool} {s : State} (hs : Held k s) : Held k (evVsagWarnClear ack s) := by
  unfold evVsagWarnClear
  repeat' first
    | with_reducible (first | assumption | apply held_ite | apply heldOf_self | apply fwResume_held | apply vsagClear_held | apply plan_held)
    | simp only [held_mk]

end Sys2Proof.Machine
end

