-- ==== Sys2Proof/Laws/StoreEv.lean ====
section
/-! SUPPORT. Laws/StoreEv.lean: each operation of Machine/StoreEv.lean leaves the queue, the life counter and the canonical form. -/

namespace Sys2Proof.Machine

theorem loaded_held {k : Keep} {s : State} {kind : Nat} {x : CopySt} (hs : Held k s) : Held k (State.loaded s kind x) := by
  unfold State.loaded
  repeat' first
    | with_reducible first
      | assumption | apply held_ite | apply heldOf_self | apply dsetNow_held | apply genPending_held | apply setF_held | apply takeStart_held
      | apply takeGen_held
    | simp only [held_mk]
    | split
theorem loadNone_held {k : Keep} {s : State} {kind : Nat} (hs : Held k s) : Held k (State.loadNone s kind) := by
  unfold State.loadNone
  repeat' first
    | with_reducible (first | assumption | apply held_ite | apply heldOf_self | apply setFlag_held | apply switchLate_held | apply takeStart_held)
    | simp only [held_mk]
    | split
theorem loadDone_held {k : Keep} {s : State} {kind : Nat} {secs : List (Option Nat)} (hs : Held k s) : Held k (State.loadDone s kind secs) := by
  unfold State.loadDone
  repeat' first
    | with_reducible first
      | assumption | apply held_ite | apply heldOf_self | apply loaded_held | apply setFlag_held | apply putCopy_held | apply putActive_held
      | apply slotRecord_held | apply loadNone_held
    | simp only [held_mk]
    | split
theorem evNandReadDone_held {k : Keep} {secs : List (Option Nat)} {s : State} (hs : Held k s) : Held k (evNandReadDone secs s) := by
  unfold evNandReadDone
  repeat' first
    | with_reducible first
      | assumption | apply readCounts_held | apply opEnd_held | apply verifyDone_held | apply loadDone_held | apply scrubDone_held
      | apply refReadDone_held | apply stagePump_held | apply nandKick_held | apply scrubHot_held | apply nandRegs_held
    | simp only [held_mk]
    | split
theorem evNandEraseDoneRow_held {k : Keep} {ok : Bool} {blank : Bool} {s : State} (hs : Held k s) : Held k (evNandEraseDoneRow ok blank s) := by
  unfold evNandEraseDoneRow
  repeat' with_reducible (first | assumption | apply stagePump_held | apply evNandEraseDone_held)
theorem evNandProgramDoneRow_held {k : Keep} {ok : Bool} {s : State} (hs : Held k s) : Held k (evNandProgramDoneRow ok s) := by
  unfold evNandProgramDoneRow
  repeat' with_reducible (first | assumption | apply stagePump_held | apply evNandProgramDone_held)
theorem evNandPaceTickRow_held {k : Keep} {s : State} (hs : Held k s) : Held k (evNandPaceTickRow s) := by
  unfold evNandPaceTickRow
  repeat' with_reducible (first | assumption | apply stagePump_held | apply evNandPaceTick_held)
theorem evScrubTickRow_held {k : Keep} {s : State} (hs : Held k s) : Held k (evScrubTickRow s) := by
  unfold evScrubTickRow
  repeat' with_reducible (first | assumption | apply stagePump_held | apply evScrubTick_held)
theorem evNandScrubNowRow_held {k : Keep} {s : State} (hs : Held k s) : Held k (evNandScrubNowRow s) := by
  unfold evNandScrubNowRow
  repeat' with_reducible (first | assumption | apply stagePump_held | apply evNandScrubNow_held)
theorem evCalLoadDone_held {k : Keep} {s : State} (hs : Held k s) : Held k (evCalLoadDone s) := by
  unfold evCalLoadDone
  repeat' first
    | with_reducible first
      | assumption | apply held_ite | apply heldOf_self | apply setF_held | apply setFlag_held | apply clkWrite_held | apply sweepRegs_held
      | apply genPending_held | apply event_held | apply switchLate_held
    | simp only [held_mk]
    | split
theorem evQspiWriteDone_held {k : Keep} {ok : Bool} {s : State} (hs : Held k s) : Held k (evQspiWriteDone ok s) := by
  unfold evQspiWriteDone
  repeat' first
    | with_reducible first
      | assumption | apply held_ite | apply nandKick_held | apply qspiDone_held | apply laneInstalled_held | apply recoveryExit_held
    | simp only [held_mk]
    | split
theorem evCfgSlotWrite_held {k : Keep} {s : State} (hs : Held k s) : Held k (evCfgSlotWrite s) := by
  unfold evCfgSlotWrite
  repeat' first | with_reducible (first | assumption | apply held_ite | apply slotWrite_held) | simp only [held_mk] | split

end Sys2Proof.Machine
end

