-- ==== Sys2Proof/Laws/Relay.lean ====
section
/-! SUPPORT. Laws/Relay.lean: each operation of Machine/Relay.lean leaves the queue, the life counter and the canonical form. -/

namespace Sys2Proof.Machine

theorem rspTake_held {k : Keep} {s : State} {p : Nat} {q : Nat} {seq : Word} {op : Nat} {status : Nat} {data : List Byte} (hs : Held k s) : Held k
    (State.rspTake s p q seq op status data) := by
  unfold State.rspTake
  repeat' first
    | with_reducible first
      | assumption | apply held_ite | apply ctrlClose_held | apply enumTake_held | apply stageStatus_held | apply statusTake_held
      | apply stageConfirm_held | apply stageArmed_held | apply answer_held | apply testStaged_held
    | simp only [held_mk]
    | split
theorem evCtrlRspRx_held {k : Keep} {r : CordRx} {seq : Word} {op : Nat} {status : Nat} {data : List Byte} {s : State} (hs : Held k s) : Held k
    (evCtrlRspRx r seq op status data s) := by
  unfold evCtrlRspRx
  repeat' with_reducible (first | assumption | apply held_ite | apply senderUp_held | apply rspTake_held)
theorem evRelayRx_held {k : Keep} {port : Nat} {dir : Nat} {pkt : CordPkt} {s : State} (hs : Held k s) : Held k (evRelayRx port dir pkt s) := by
  unfold evRelayRx
  repeat' first
    | with_reducible first
      | assumption | apply held_ite | apply send_held | apply sawClaim_held | apply count_held | apply ackTake_held | apply stageEvent_held
      | apply eventTake_held | apply rspTake_held | apply testTake_held
    | simp only [held_mk]
    | split
theorem evLampTfRequest_held {k : Keep} {r : CordRx} {seq : Word} {tf : Nat} {s : State} (hs : Held k s) : Held k (evLampTfRequest r seq tf s) := by
  unfold evLampTfRequest
  repeat' with_reducible first
    | assumption | intro _ | apply held_ite | apply held_ite1 | apply ctrlReq_held | apply setF_held | apply genPending_held
theorem evBrightnessRequest_held {k : Keep} {r : CordRx} {seq : Word} {bright : Nat} {s : State} (hs : Held k s) : Held k (evBrightnessRequest r seq
    bright s) := by
  unfold evBrightnessRequest
  repeat' with_reducible (first | assumption | intro _ | apply held_ite1 | apply ctrlReq_held | apply setBright_held)
theorem evClinkerMapRequest_held {k : Keep} {r : CordRx} {seq : Word} {es : List Word} {s : State} (hs : Held k s) : Held k (evClinkerMapRequest r seq
    es s) := by
  unfold evClinkerMapRequest
  repeat' with_reducible first
    | assumption | intro _ | apply held_ite | apply held_ite1 | apply ctrlReq_held | apply clinkerEdits_held | apply clkWrite_held
theorem clkeWrite_held {k : Keep} {s : State} {v : Word} (hs : Held k s) : Held k (State.clkeWrite s v).1 := by
  unfold State.clkeWrite
  repeat' first
    | with_reducible first
      | assumption | apply held_ite1 | apply clinkerEdit_held | apply clkWrite_held | apply setFlag_held | refine heldO_use ‹_› ?_
    | split
theorem evLampClkeRow_held {k : Keep} {v : Word} {s : State} (hs : Held k s) : Held k (evLampClkeRow v s) := by
  unfold evLampClkeRow
  repeat' with_reducible (first | assumption | apply clkeWrite_held | apply emit_held)
theorem evLampSweepRow_held {k : Keep} {s : State} (hs : Held k s) : Held k (evLampSweepRow s) := by
  unfold evLampSweepRow
  repeat' with_reducible (first | assumption | apply emit_held | apply evLampSweep_held)

end Sys2Proof.Machine
end

