-- ==== Sys2Proof/Laws/Debug.lean ====
section
/-! SUPPORT. Laws/Debug.lean: each operation of Machine/Debug.lean leaves the queue, the life counter and the canonical form. -/

namespace Sys2Proof.Machine

theorem effMark_held {k : Keep} {s : State} {k0 : Nat} {w : BitVec 64} (hs : Held k s) : Held k (effMark s k0 w) := by
  unfold effMark
  repeat' first
    | with_reducible first
      | assumption | apply held_ite | apply doMark_held | apply testStaged_held | apply dormMark_held | apply stageMarked_held
    | simp only [held_mk]
    | split
theorem effHalt_held {k : Keep} {s : State} {k0 : Nat} {w : BitVec 64} (hs : Held k s) : Held k (effHalt s k0 w) := by
  unfold effHalt
  repeat' with_reducible (first | assumption | apply held_ite | apply doHalt_held | apply testStaged_held | apply haltSwitched_held)
theorem effScalar_held {k : Keep} {op : Nat} {x1 : State} {x2 : Nat} {x3 : BitVec 64} (hx1 : Held k x1) : Held k (effScalar op x1 x2 x3) := by
  unfold effScalar
  repeat' first
    | with_reducible first
      | assumption | apply doJmp_held | apply doJz_held | apply doJnz_held | apply doCall_held | apply doRet_held | apply doLoop_held
      | apply doEndl_held | apply doWait_held | apply doSig_held | apply effHalt_held | apply doMov_held | apply doAddi_held | apply doAdd_held
      | apply doSub_held | apply doAnd_held | apply doOr_held | apply doXor_held | apply doShl_held | apply doShr_held | apply doCmp_held
      | apply doLd_held | apply doSt_held | apply doNop_held
    | split
theorem effFsq_held {k : Keep} {op : Nat} {x1 : State} {x2 : Nat} {x3 : BitVec 64} (hx1 : Held k x1) : Held k (effFsq op x1 x2 x3) := by
  unfold effFsq
  repeat' first
    | with_reducible first
      | assumption | apply effMark_held | apply doDamage_held | apply doBand_held | apply doZlist_held | apply doBudget_held | apply doFlip_held
      | apply doTestslotRow_held | apply effScalar_held
    | split
theorem stokerBack_held {k : Keep} {s : State} (hs : Held k s) : Held k (State.stokerBack s) := by
  unfold State.stokerBack
  repeat' first
    | with_reducible first
      | assumption | apply held_ite | apply heldOf_self | apply switchRecord_held | apply stagePump_held | apply rspRelease_held
      | apply popCheckpoint_held | apply swapAuto_held | apply nandKick_held
    | simp only [held_mk]
theorem fsqStep_held {k : Keep} {s : State} {ue : Bool} (hs : Held k s) : Held k (State.fsqStep s ue) := by
  unfold State.fsqStep
  repeat' with_reducible (first | assumption | intro _ | apply held_ite | apply issueWord_held | apply effFsq_held)
theorem haltWrite_held {k : Keep} {s : State} {v : Word} {ue : Bool} (hs : Held k s) : Held k (State.haltWrite s v ue).1 := by
  unfold State.haltWrite
  repeat' with_reducible first
    | assumption | intro _ | apply held_ite | apply held_ite1 | apply lockViol_held | apply setF_held | apply stokerBack_held | apply psqStop_held
    | apply fsqStep_held | apply held_foldl
theorem haltRow_held {k : Keep} {s : State} {v : Word} {ue : Bool} (hs : Held k s) : Held k (State.haltRow s v ue) := by
  unfold State.haltRow
  repeat' with_reducible (first | assumption | apply haltWrite_held | apply emit_held)
theorem evStkHalt_held {k : Keep} {on : Bool} {s : State} (hs : Held k s) : Held k (evStkHalt on s) := by
  unfold evStkHalt
  repeat' with_reducible (first | assumption | apply haltRow_held)
theorem evStkStep_held {k : Keep} {s : State} (hs : Held k s) : Held k (evStkStep s) := by
  unfold evStkStep
  repeat' with_reducible (first | assumption | apply haltRow_held)
theorem evFsqHalt_held {k : Keep} {on : Bool} {s : State} (hs : Held k s) : Held k (evFsqHalt on s) := by
  unfold evFsqHalt
  repeat' with_reducible (first | assumption | apply haltRow_held)
theorem evFsqStep_held {k : Keep} {ue : Bool} {s : State} (hs : Held k s) : Held k (evFsqStep ue s) := by
  unfold evFsqStep
  repeat' with_reducible (first | assumption | apply haltRow_held)
theorem evPsqHalt_held {k : Keep} {mask : Nat} {s : State} (hs : Held k s) : Held k (evPsqHalt mask s) := by
  unfold evPsqHalt
  repeat' with_reducible (first | assumption | apply haltRow_held)
theorem swMsg_held {k : Keep} {s : State} {v : Word} (hs : Held k s) : Held k (State.swMsg s v) := by
  unfold State.swMsg
  repeat' with_reducible (first | assumption | apply held_ite | apply trace64_held)
theorem evTraceSwmsg_held {k : Keep} {v : Word} {s : State} (hs : Held k s) : Held k (evTraceSwmsg v s) := by
  unfold evTraceSwmsg
  repeat' with_reducible (first | assumption | apply emit_held | apply swMsg_held)
theorem traceClrcnt_held {k : Keep} {s : State} (hs : Held k s) : Held k (State.traceClrcnt s) := by
  unfold State.traceClrcnt
  repeat' with_reducible (first | assumption | apply setReg_held)
theorem traceEmpty_held {k : Keep} {s : State} (hs : Held k s) : Held k (State.traceEmpty s) := by
  unfold State.traceEmpty
  repeat' first
    | with_reducible (first | assumption | intro _ | apply setFlag_held | apply setF_held)
    | exact rfl
    | with_reducible apply heldOf_trace
    | simp only [held_mk]
theorem traceCtrlWrite_held {k : Keep} {s : State} {v : Word} (hs : Held k s) : Held k (State.traceCtrlWrite s v).1 := by
  unfold State.traceCtrlWrite
  repeat' first
    | with_reducible first
      | assumption | intro _ | apply held_ite | apply held_ite1 | apply plainWrite_held | apply traceEmpty_held | apply traceClrcnt_held
      | apply traceMark_held
    | simp only [held_mk]
    | with_reducible apply held_foldl
theorem traceCtrlRow_held {k : Keep} {s : State} {v : Word} (hs : Held k s) : Held k (State.traceCtrlRow s v) := by
  unfold State.traceCtrlRow
  repeat' with_reducible (first | assumption | apply traceCtrlWrite_held | apply emit_held)
theorem evTraceEnable_held {k : Keep} {stk : Bool} {seq : Bool} {s : State} (hs : Held k s) : Held k (evTraceEnable stk seq s) := by
  unfold evTraceEnable
  repeat' with_reducible (first | assumption | apply traceCtrlRow_held)
theorem evTraceClear_held {k : Keep} {s : State} (hs : Held k s) : Held k (evTraceClear s) := by
  unfold evTraceClear
  repeat' with_reducible (first | assumption | apply traceCtrlRow_held)
theorem traceRead_held {k : Keep} {s : State} {high : Bool} (hs : Held k s) : Held k (State.traceRead s high).1 := by
  unfold State.traceRead
  repeat' first | with_reducible (first | assumption | apply held_ite1 | apply heldOf_self | apply setF_held) | simp only [held_mk]
theorem evTraceRdataRead_held {k : Keep} {high : Bool} {s : State} (hs : Held k s) : Held k (evTraceRdataRead high s) := by
  unfold evTraceRdataRead
  repeat' with_reducible (first | assumption | apply traceRead_held | apply emit_held)
theorem jtagSelect_held {k : Keep} {s : State} {code : Nat} {ok : Bool} (hs : Held k s) : Held k (State.jtagSelect s code ok) := by
  unfold State.jtagSelect
  repeat' first | with_reducible (first | assumption | apply heldOf_self) | simp only [held_mk]
theorem jtagDrive_held {k : Keep} {s : State} {code : Nat} (hs : Held k s) : Held k (State.jtagDrive s code) := by
  unfold State.jtagDrive
  repeat' with_reducible (first | assumption | apply held_ite | apply jtagSelect_held | apply count_held)
theorem shiftOut_held {k : Keep} {s : State} {balls : Nat} (hs : Held k s) : Held k (State.shiftOut s balls) := by
  unfold State.shiftOut
  repeat' with_reducible (first | assumption | apply held_ite | apply emit_held)
theorem evTapReset_held {k : Keep} {s : State} (hs : Held k s) : Held k (evTapReset s) := by
  unfold evTapReset
  repeat' with_reducible (first | assumption | apply jtagSelect_held)
theorem evIdcode_held {k : Keep} {s : State} (hs : Held k s) : Held k (evIdcode s) := by
  unfold evIdcode
  repeat' with_reducible (first | assumption | apply shiftOut_held | apply jtagSelect_held)
theorem evSamplePreload_held {k : Keep} {balls : Nat} {s : State} (hs : Held k s) : Held k (evSamplePreload balls s) := by
  unfold evSamplePreload
  repeat' with_reducible (first | assumption | apply shiftOut_held | apply jtagSelect_held)
theorem evExtest_held {k : Keep} {balls : Nat} {s : State} (hs : Held k s) : Held k (evExtest balls s) := by
  unfold evExtest
  repeat' with_reducible (first | assumption | apply shiftOut_held | apply jtagDrive_held)
theorem evClamp_held {k : Keep} {s : State} (hs : Held k s) : Held k (evClamp s) := by
  unfold evClamp
  repeat' with_reducible (first | assumption | apply shiftOut_held | apply jtagDrive_held)
theorem evHighz_held {k : Keep} {s : State} (hs : Held k s) : Held k (evHighz s) := by
  unfold evHighz
  repeat' with_reducible (first | assumption | apply shiftOut_held | apply jtagSelect_held)
theorem evBypass_held {k : Keep} {s : State} (hs : Held k s) : Held k (evBypass s) := by
  unfold evBypass
  repeat' with_reducible (first | assumption | apply shiftOut_held | apply jtagSelect_held)

end Sys2Proof.Machine
end

