-- ==== Sys2Proof/Laws/Ddr.lean ====
section
/-! SUPPORT. Laws/Ddr.lean: each operation of Machine/Ddr.lean leaves the queue, the life counter and the canonical form. -/

namespace Sys2Proof.Machine

theorem setDdrSub_held {k : Keep} {s : State} {k0 : Nat} {d : DdrSub} (hs : Held k s) : Held k (State.setDdrSub s k0 d) := by
  unfold State.setDdrSub
  repeat' first | with_reducible (first | assumption | apply heldOf_self | apply setFlag_held) | simp only [held_mk]
theorem ddrIssue_held {k : Keep} {s : State} {r : BusReq} (hs : Held k s) : Held k (State.ddrIssue s r) := by
  unfold State.ddrIssue
  repeat' with_reducible (first | assumption | apply held_ite | apply setDdrSub_held | apply count_held | apply emit_held | apply ddrWrite_held)
theorem ddrDrain_held {k : Keep} {s : State} {k0 : Nat} (hs : Held k s) : Held k (State.ddrDrain s k0) := by
  unfold State.ddrDrain
  repeat' first
    | with_reducible (first | assumption | intro _ | apply held_ite | apply ddrIssue_held | apply setDdrSub_held)
    | simp only [held_mk]
    | with_reducible apply held_foldl
theorem storeMem_held {k : Keep} {s : State} (hs : Held k s) : Held k (State.storeMem s) := by
  unfold State.storeMem
  repeat' first | with_reducible (first | assumption | apply nandKick_held | apply writeFail_held) | split
theorem ueOutcome_held {k : Keep} {s : State} {r : BusReq} (hs : Held k s) : Held k (State.ueOutcome s r) := by
  unfold State.ueOutcome
  repeat' with_reducible first
    | assumption | apply held_ite | apply emit_held | apply evBandJobComplete_held | apply storeMem_held | apply evMirrorAckTimeout_held
theorem ddrRequest_held {k : Keep} {s : State} {r : BusReq} (hs : Held k s) : Held k (State.ddrRequest s r) := by
  unfold State.ddrRequest
  repeat' with_reducible (first | assumption | apply held_ite | apply ueOutcome_held | apply setDdrSub_held | apply ddrIssue_held)
theorem ceAt_held {k : Keep} {s : State} {a : Nat} (hs : Held k s) : Held k (State.ceAt s a) := by
  unfold State.ceAt
  repeat' with_reducible (first | assumption | apply setReg_held | apply setFlag_held | apply count_held)
theorem ueAt_held {k : Keep} {s : State} {a : Nat} {req : Nat} (hs : Held k s) : Held k (State.ueAt s a req) := by
  unfold State.ueAt
  repeat' with_reducible (first | assumption | apply setReg_held | apply setFlag_held | apply count_held)
theorem ddrDeliver_held {k : Keep} {s : State} {r : BusReq} (hs : Held k s) : Held k (State.ddrDeliver s r) := by
  unfold State.ddrDeliver
  repeat' with_reducible (first | assumption | apply held_ite | apply emit_held | apply ddrWrite_held)
theorem evDdrRequest_held {k : Keep} {r : BusReq} {s : State} (hs : Held k s) : Held k (evDdrRequest r s) := by
  unfold evDdrRequest
  repeat' with_reducible (first | assumption | apply held_ite | apply ddrRequest_held | apply decErr_held)
theorem evDdrReadData_held {k : Keep} {r : BusReq} {bits : Nat} {s : State} (hs : Held k s) : Held k (evDdrReadData r bits s) := by
  unfold evDdrReadData
  repeat' with_reducible first
    | assumption | apply held_ite | apply panicRead_held | apply ddrDeliver_held | apply ceAt_held | apply ueOutcome_held | apply ueAt_held
theorem evDdrRefresh_held {k : Keep} {s : State} (hs : Held k s) : Held k (evDdrRefresh s) := by
  unfold evDdrRefresh
  repeat' with_reducible assumption
theorem evDdrMr4Poll_held {k : Keep} {x2 : Bool} {s : State} (hs : Held k s) : Held k (evDdrMr4Poll x2 s) := by
  unfold evDdrMr4Poll
  repeat' with_reducible (first | assumption | apply held_ite | apply setFlag_held)
theorem evDqsAdjust_held {k : Keep} {s : State} (hs : Held k s) : Held k (evDqsAdjust s) := by
  unfold evDqsAdjust
  repeat' with_reducible assumption
theorem ddrRetrain_held {k : Keep} {s : State} {ks : List Nat} (hs : Held k s) : Held k (State.ddrRetrain s ks) := by
  unfold State.ddrRetrain
  repeat' first
    | with_reducible first
      | assumption | intro _ | apply heldOf_self | apply setDdrSub_held | apply irq_held | apply count_held | apply setFlag_held | apply event_held
      | apply healthReg_held
    | simp only [held_mk]
    | with_reducible apply held_foldl
theorem evDdrRetryAck_held {k : Keep} {k0 : Nat} {s : State} (hs : Held k s) : Held k (evDdrRetryAck k0 s) := by
  unfold evDdrRetryAck
  repeat' with_reducible (first | assumption | apply held_ite | apply setDdrSub_held | apply ddrDrain_held | apply count_held)
theorem evDdrAlert_held {k : Keep} {k0 : Nat} {s : State} (hs : Held k s) : Held k (evDdrAlert k0 s) := by
  unfold evDdrAlert
  repeat' with_reducible (first | assumption | apply held_ite | apply count_held | apply ddrRetrain_held | apply setDdrSub_held)
theorem evDdrAlertDeassert_held {k : Keep} {k0 : Nat} {s : State} (hs : Held k s) : Held k (evDdrAlertDeassert k0 s) := by
  unfold evDdrAlertDeassert
  repeat' with_reducible (first | assumption | apply held_ite | apply setDdrSub_held)
theorem ddrReplay_held {k : Keep} {s : State} {k0 : Nat} (hs : Held k s) : Held k (State.ddrReplay s k0) := by
  unfold State.ddrReplay
  repeat' with_reducible (first | assumption | apply setDdrSub_held | apply ddrDrain_held)
theorem evDdrRecovExpiry_held {k : Keep} {k0 : Nat} {s : State} (hs : Held k s) : Held k (evDdrRecovExpiry k0 s) := by
  unfold evDdrRecovExpiry
  repeat' with_reducible (first | assumption | apply held_ite | apply ddrReplay_held)
theorem evDdrRetrainDone_held {k : Keep} {k0 : Nat} {ok : Bool} {s : State} (hs : Held k s) : Held k (evDdrRetrainDone k0 ok s) := by
  unfold evDdrRetrainDone
  repeat' first
    | with_reducible first
      | assumption | intro _ | apply held_ite | apply ddrReplay_held | apply setDdrSub_held | apply ueOutcome_held | apply setFlag_held
    | simp only [held_mk]
    | with_reducible apply held_foldl
theorem ddrRetrainWrite_held {k : Keep} {s : State} (hs : Held k s) : Held k (State.ddrRetrainWrite s) := by
  unfold State.ddrRetrainWrite
  repeat' with_reducible (first | assumption | apply held_ite | apply ddrRetrain_held)
theorem evDdrRetrain_held {k : Keep} {s : State} (hs : Held k s) : Held k (evDdrRetrain s) := by
  unfold evDdrRetrain
  repeat' with_reducible (first | assumption | apply emit_held | apply ddrRetrainWrite_held)
theorem ddrScrubWrite_held {k : Keep} {s : State} (hs : Held k s) : Held k (State.ddrScrubWrite s) := by
  unfold State.ddrScrubWrite
  repeat' first | with_reducible (first | assumption | apply held_ite | apply heldOf_self) | simp only [held_mk]
theorem evDdrScrubNow_held {k : Keep} {s : State} (hs : Held k s) : Held k (evDdrScrubNow s) := by
  unfold evDdrScrubNow
  repeat' with_reducible (first | assumption | apply emit_held | apply ddrScrubWrite_held)
theorem evPatrolScrub_held {k : Keep} {bits : Nat} {s : State} (hs : Held k s) : Held k (evPatrolScrub bits s) := by
  unfold evPatrolScrub
  repeat' first
    | with_reducible first
      | assumption | apply held_ite | apply heldOf_self | apply ceAt_held | apply freed_held | apply ueAt_held | apply count_held
    | simp only [held_mk]

end Sys2Proof.Machine
end

