-- ==== Sys2Proof/Laws/Arb.lean ====
section
/-! SUPPORT. Laws/Arb.lean: each operation of Machine/Arb.lean leaves the queue, the life counter and the canonical form. -/

namespace Sys2Proof.Machine

theorem setArb_held {k : Keep} {s : State} {a : Nat} {x : Arb} (hs : Held k s) : Held k (State.setArb s a x) := by
  unfold State.setArb
  repeat' first
    | with_reducible (first | assumption | intro _ | apply setFlag_held | apply setF_held | apply heldOf_arbs | exact SMap.wf_set ‹_›)
    | simp only [held_mk]
    | split
theorem arbPark_held {k : Keep} {s : State} {a : Nat} {lost : Nat} (hs : Held k s) : Held k (State.arbPark s a lost) := by
  unfold State.arbPark
  repeat' with_reducible (first | assumption | apply count_held | apply setArb_held)
theorem arbDecide_held {k : Keep} {s : State} {a : Nat} (hs : Held k s) : Held k (State.arbDecide s a) := by
  unfold State.arbDecide
  repeat' first
    | with_reducible (first | assumption | apply held_ite | apply arbPark_held | apply setArb_held | apply count_held)
    | simp only [held_mk]
    | split
theorem arbArrive_held {k : Keep} {s : State} {a : Nat} {r : BusReq} (hs : Held k s) : Held k (State.arbArrive s a r) := by
  unfold State.arbArrive
  repeat' with_reducible (first | assumption | apply held_ite | apply setArb_held | apply arbDecide_held)
theorem arbResume_held {k : Keep} {s : State} {a : Nat} (hs : Held k s) : Held k (State.arbResume s a) := by
  unfold State.arbResume
  repeat' with_reducible (first | assumption | apply held_ite | apply arbDecide_held)

end Sys2Proof.Machine
end

