-- ==== Sys2Proof/Laws/Bus.lean ====
section
/-! SUPPORT. Laws/Bus.lean: each operation of Machine/Bus.lean leaves the queue, the life counter and the canonical form. -/

namespace Sys2Proof.Machine

theorem clearCounts_held {k : Keep} {s : State} {lo : Nat} {hi : Nat} (hs : Held k s) : Held k (State.clearCounts s lo hi) := by
  unfold State.clearCounts
  repeat' first
    | with_reducible (first | assumption | intro _)
    | exact SMap.wfFrom_filter _ ‹_›
    | with_reducible apply heldOf_regs
    | simp only [held_mk]
theorem clearBlock_held {k : Keep} {s : State} {b : Nat} (hs : Held k s) : Held k (State.clearBlock s b) := by
  unfold State.clearBlock
  repeat' with_reducible (first | assumption | apply clearCounts_held)
theorem clearBank_held {k : Keep} {s : State} {n : Nat} (hs : Held k s) : Held k (State.clearBank s n) := by
  unfold State.clearBank
  repeat' with_reducible (first | assumption | apply setReg_held | apply clearCounts_held)
theorem unbus_held {k : Keep} {s : State} (hs : Held k s) : Held k (State.unbus s).1 := by
  unfold State.unbus
  repeat' first | with_reducible (first | assumption | apply heldOf_self) | simp only [held_mk] | split
theorem fabCommit_held {k : Keep} {s : State} (hs : Held k s) : Held k (State.fabCommit s) := by
  unfold State.fabCommit
  repeat' with_reducible (first | assumption | intro _ | apply setF_held | apply held_foldl)
theorem evFabCommit_held {k : Keep} {s : State} (hs : Held k s) : Held k (evFabCommit s) := by
  unfold evFabCommit
  repeat' with_reducible (first | assumption | apply emit_held | apply fabCommit_held)
theorem policyWrite_held {k : Keep} {s : State} {v : Word} (hs : Held k s) : Held k (State.policyWrite s v).1 := by
  unfold State.policyWrite
  repeat' with_reducible (first | assumption | apply held_ite | apply held_ite1 | apply lockViol_held | apply plainWrite_held | apply setFlag_held)
theorem refCfgWrite_held {k : Keep} {s : State} {v : Word} (hs : Held k s) : Held k (State.refCfgWrite s v) := by
  unfold State.refCfgWrite
  repeat' with_reducible first
    | assumption | intro _ | apply held_ite | apply plainWrite_held | apply refLost_held | apply carryRatio_held | apply setFlag_held
    | apply held_foldl
theorem pcfgWrite_held {k : Keep} {s : State} {p : Nat} {v : Word} (hs : Held k s) : Held k (State.pcfgWrite s p v) := by
  unfold State.pcfgWrite
  repeat' with_reducible first
    | assumption | apply held_ite | apply plainWrite_held | apply healthReg_held | apply laneSync_held | apply linkOff_held
theorem lampWrite_held {k : Keep} {s : State} {a : Nat} {v : Word} (hs : Held k s) : Held k (State.lampWrite s a v) := by
  unfold State.lampWrite
  repeat' with_reducible (first | assumption | apply held_ite | apply plainWrite_held | apply genPending_held)
theorem embPwrWrite_held {k : Keep} {s : State} {v : Word} (hs : Held k s) : Held k (State.embPwrWrite s v) := by
  unfold State.embPwrWrite
  repeat' with_reducible (first | assumption | apply held_ite | apply plainWrite_held | apply smoulder_held)
theorem psqCtrlWrite_held {k : Keep} {s : State} {n : Nat} {v : Word} {c : RegCtx} (hs : Held k s) : Held k (State.psqCtrlWrite s n v c).1 := by
  unfold State.psqCtrlWrite
  repeat' with_reducible first
    | assumption | apply held_ite | apply held_ite1 | apply psqStop_held | apply psqStart_held | apply setFlag_held | apply vddpRead_held
    | apply clearBank_held
theorem escanWrite_held {k : Keep} {s : State} {l : Nat} {v : Word} (hs : Held k s) : Held k (State.escanWrite s l v).1 := by
  unfold State.escanWrite
  repeat' with_reducible first
    | assumption | apply held_ite | apply held_ite1 | apply plainWrite_held | apply unbus_held | apply evEscanAbort_held | apply evEscanStart_held
theorem ctrlWrite_held {k : Keep} {s : State} {b : Nat} {v : Word} {c : RegCtx} (hs : Held k s) : Held k (State.ctrlWrite s b v c).1 := by
  unfold State.ctrlWrite
  repeat' first
    | with_reducible first
      | assumption | apply held_ite | apply held_ite1 | apply newNonce_held | apply fabCommit_held | apply ddrRetrainWrite_held
      | apply ddrScrubWrite_held | apply fsqStart_held | apply fullDamage_held | apply setFlag_held | apply genPending_held | apply unbus_held
      | apply evNandScrubNowRow_held | apply kilnTrigger_held | apply setF_held | apply planDue_held | apply plainWrite_held | apply camCommit_held
      | apply popCheckpoint_held | apply fwCommit_held | apply fwRevert_held
    | simp only [held_mk]
    | split
theorem blockCtrl_held {k : Keep} {s : State} {b : Nat} {v : Word} {c : RegCtx} (hs : Held k s) : Held k (State.blockCtrl s b v c).1 := by
  unfold State.blockCtrl
  repeat' with_reducible (first | assumption | apply held_ite1 | apply ctrlWrite_held | apply clearBlock_held)
theorem specialWrite_held {k : Keep} {s : State} {a : Nat} {v : Word} {c : RegCtx} (hs : Held k s) : HeldOP k (State.specialWrite s a v c) := by
  unfold State.specialWrite
  repeat' first
    | with_reducible first
      | assumption | intro _ | apply held_ite | apply held_ite1 | apply heldOP_none | apply heldOP_some | apply heldOP_ite | apply clearBlock_held
      | apply blockCtrl_held | apply sysCtrlWrite_held | apply embPwrWrite_held | apply plainWrite_held | apply setLive_held | apply policyWrite_held
      | apply arbResume_held | apply swevWrite_held | apply dmgWrite_held | apply pcfgWrite_held | apply swapOwner_held | apply clkeWrite_held
      | apply setBright_held | apply lampWrite_held | apply clearCounts_held | apply psqCtrlWrite_held | apply ddataWrite_held | apply pinWrite_held
      | apply timAbort_held | apply timArm_held | apply refCfgWrite_held | apply setReg_held | apply evNtoffWrite_held | apply netValidWrite_held
      | apply netLost_held | apply ceilTherm_held | apply camCfgWrite_held | apply audCfgWrite_held | apply traceCtrlWrite_held
      | apply haltWrite_held | apply swMsg_held | apply escanWrite_held
    | simp only [held_mk]
    | split
theorem regWrite_held {k : Keep} {s : State} {a : Nat} {v : Word} {c : RegCtx} (hs : Held k s) : Held k (State.regWrite s a v c).1 := by
  unfold State.regWrite
  repeat' first
    | with_reducible first
      | assumption | apply held_ite1 | apply heldOf_self | apply setDmem_held | apply specialWrite_held | apply plainWrite_held
    | simp only [held_mk]
    | with_reducible refine heldOP_use ‹_› ?_
    | split
theorem plainRead_held {k : Keep} {s : State} {a : Nat} (hs : Held k s) : Held k (State.plainRead s a).1 := by
  unfold State.plainRead
  repeat' first | with_reducible (first | assumption | apply held_ite | apply heldOf_self | apply freed_held) | simp only [held_mk] | split
theorem regRead_held {k : Keep} {s : State} {a : Nat} (hs : Held k s) : Held k (State.regRead s a).1 := by
  unfold State.regRead
  repeat' with_reducible first
    | assumption | apply held_ite1 | apply traceRead_held | apply cdataRead_held | apply ddataRead_held | apply plainRead_held
theorem evRegisterWrite_held {k : Keep} {a : Nat} {v : Word} {c : RegCtx} {s : State} (hs : Held k s) : Held k (evRegisterWrite a v c s) := by
  unfold evRegisterWrite
  repeat' with_reducible (first | assumption | apply regWrite_held | apply emit_held)
theorem readRow_held {k : Keep} {s : State} {a : Nat} (hs : Held k s) : Held k (State.readRow s a) := by
  unfold State.readRow
  repeat' with_reducible (first | assumption | apply regRead_held | apply emit_held)
theorem evLatchingReadLo_held {k : Keep} {a : Nat} {s : State} (hs : Held k s) : Held k (evLatchingReadLo a s) := by
  unfold evLatchingReadLo
  repeat' with_reducible (first | assumption | apply readRow_held)
theorem evTimResRead_held {k : Keep} {c : Nat} {k0 : Nat} {s : State} (hs : Held k s) : Held k (evTimResRead c k0 s) := by
  unfold evTimResRead
  repeat' with_reducible (first | assumption | apply readRow_held)
theorem evClrcnt_held {k : Keep} {x : ClrTarget} {s : State} (hs : Held k s) : Held k (evClrcnt x s) := by
  unfold evClrcnt
  repeat' first
    | with_reducible first
      | assumption | apply held_ite | apply emit_held | apply clearBank_held | apply clearCounts_held | apply clearBlock_held | apply setF_held
    | simp only [held_mk]
    | split
theorem evNetValidWrite_held {k : Keep} {v : Bool} {s : State} (hs : Held k s) : Held k (evNetValidWrite v s) := by
  unfold evNetValidWrite
  repeat' with_reducible first
    | assumption | intro _ | apply held_ite | apply emit_held | apply setFlag_held | apply netValidWrite_held | apply netLost_held
theorem evTimArm_held {k : Keep} {c : Nat} {v : Word} {s : State} (hs : Held k s) : Held k (evTimArm c v s) := by
  unfold evTimArm
  repeat' with_reducible (first | assumption | apply regWrite_held | apply emit_held)
theorem evTimAbort_held {k : Keep} {m : Nat} {s : State} (hs : Held k s) : Held k (evTimAbort m s) := by
  unfold evTimAbort
  repeat' with_reducible (first | assumption | apply emit_held | apply timAbort_held)
theorem evBoffEval_held {k : Keep} {s : State} (hs : Held k s) : Held k (evBoffEval s) := by
  unfold evBoffEval
  repeat' with_reducible (first | assumption | apply held_ite | apply popBoff_held)
theorem evPopCheckpoint_held {k : Keep} {s : State} (hs : Held k s) : Held k (evPopCheckpoint s) := by
  unfold evPopCheckpoint
  repeat' first | with_reducible (first | assumption | apply held_ite | apply heldOf_self | apply popCheckpoint_held) | simp only [held_mk]
theorem evPopCkpt_held {k : Keep} {s : State} (hs : Held k s) : Held k (evPopCkpt s) := by
  unfold evPopCkpt
  repeat' with_reducible (first | assumption | apply held_ite | apply emit_held | apply popCheckpoint_held)

end Sys2Proof.Machine
end

