-- ==== Sys2Proof/Laws/Fabric.lean ====
section
/-! SUPPORT. Laws/Fabric.lean: each operation of Machine/Fabric.lean leaves the queue, the life counter and the canonical form. -/

namespace Sys2Proof.Machine

theorem busAccess_held {k : Keep} {s : State} {arb : Nat} {r : BusReq} (hs : Held k s) : Held k (State.busAccess s arb r) := by
  unfold State.busAccess
  repeat' first
    | with_reducible first
      | assumption | intro _ | apply held_ite | apply ddrRequest_held | apply emit_held | apply regWrite_held | apply readRow_held
      | apply heldOf_sram | exact SMap.wf_setList ‹_›
    | simp only [held_mk]
theorem busDefault_held {k : Keep} {s : State} {r : BusReq} (hs : Held k s) : Held k (State.busDefault s r) := by
  unfold State.busDefault
  repeat' with_reducible (first | assumption | apply held_ite | apply emit_held | apply decErr_held)
theorem evBusRequest_held {k : Keep} {r : BusReq} {s : State} (hs : Held k s) : Held k (evBusRequest r s) := by
  unfold evBusRequest
  repeat' first | with_reducible (first | assumption | apply arbArrive_held | apply busDefault_held) | split
theorem evTransferLastBeat_held {k : Keep} {a : Nat} {s : State} (hs : Held k s) : Held k (evTransferLastBeat a s) := by
  unfold evTransferLastBeat
  repeat' first
    | with_reducible (first | assumption | apply held_ite | apply arbDecide_held | apply busAccess_held | apply setArb_held)
    | simp only [held_mk]
    | split
theorem evRequestWithdraw_held {k : Keep} {a : Nat} {s : State} (hs : Held k s) : Held k (evRequestWithdraw a s) := by
  unfold evRequestWithdraw
  repeat' first | with_reducible (first | assumption | apply arbDecide_held | apply count_held | apply setArb_held) | simp only [held_mk] | split
theorem evDbgap_held {k : Keep} {write : Bool} {addr : Nat} {data : List Byte} {bytes : Nat} {c : RegCtx} {s : State} (hs : Held k s) : Held k
    (evDbgap write addr data bytes c s) := by
  unfold evDbgap
  repeat' first
    | with_reducible first
      | assumption | apply held_ite | apply jtagSelect_held | apply emit_held | apply busDefault_held | apply regWrite_held | apply busAccess_held
    | simp only [held_mk]
    | split

end Sys2Proof.Machine
end

