-- ==== Sys2Proof/Laws/Wcp.lean ====
section
/-! SUPPORT. Laws/Wcp.lean: each operation of Machine/Wcp.lean leaves the queue, the life counter and the canonical form. -/

namespace Sys2Proof.Machine

theorem updSess_held {k : Keep} {s : State} {id : Nat} {f : Session → Session} (hs : Held k s) : Held k (State.updSess s id f) := by
  unfold State.updSess
  repeat' first | with_reducible (first | assumption | apply heldOf_self) | simp only [held_mk]
theorem rep_held {k : Keep} {s : State} {st : Nat} (hs : Held k s) : Held k (State.rep s st).1 := by
  unfold State.rep
  repeat' with_reducible assumption
theorem Ans_rep_held {k : Keep} {a : Ans} (ha : Held k a.1) : Held k (Ans.rep a).1 := by
  unfold Ans.rep
  repeat' with_reducible assumption
theorem repOf_held {k : Keep} {a : State × Nat} (ha : Held k a.1) : Held k (repOf a).1 := by
  unfold repOf
  repeat' with_reducible assumption
theorem release_held {k : Keep} {s : State} {id : Nat} {h0 : Nat} (hs : Held k s) : Held k (State.release s id h0) := by
  unfold State.release
  repeat' with_reducible (first | assumption | apply updSess_held)
theorem uploadOpen_held {k : Keep} {s : State} {x : Session} {kind : Nat} {len : Nat} {digest : List Byte} (hs : Held k s) : Held k (State.uploadOpen
    s x kind len digest).1 := by
  unfold State.uploadOpen
  repeat' with_reducible (first | assumption | apply held_ite1 | apply rep_held | apply updSess_held)
theorem uploadData_held {k : Keep} {s : State} {x : Session} {h0 : Nat} {off : Nat} {data : List Byte} (hs : Held k s) : Held k (State.uploadData s x
    h0 off data).1 := by
  unfold State.uploadData
  repeat' first | with_reducible (first | assumption | apply held_ite1 | apply rep_held | apply updSess_held) | simp only [held_mk] | split
theorem drvAccept_held {k : Keep} {s : State} {o : List Byte} (hs : Held k s) : Held k (State.drvAccept s o).1 := by
  unfold State.drvAccept
  repeat' with_reducible (first | assumption | apply held_ite1 | apply sigFail_held)
theorem kindCheck_held {k : Keep} {s : State} {kind : Nat} {bs : List Byte} (hs : Held k s) : Held k (State.kindCheck s kind bs).1 := by
  unfold State.kindCheck
  repeat' with_reducible (first | assumption | apply held_ite1 | apply drvAccept_held | apply fwRefused_held)
theorem uploadClose_held {k : Keep} {s : State} {x : Session} {h0 : Nat} (hs : Held k s) : Held k (State.uploadClose s x h0).1 := by
  unfold State.uploadClose
  repeat' first
    | with_reducible (first | assumption | apply held_ite1 | apply rep_held | apply release_held | apply kindCheck_held | apply updSess_held)
    | simp only [held_mk]
    | split
theorem evUploadTimeout_held {k : Keep} {id : Nat} {h0 : Nat} {s : State} (hs : Held k s) : Held k (evUploadTimeout id h0 s) := by
  unfold evUploadTimeout
  repeat' with_reducible (first | assumption | apply release_held)
theorem fprogStage_held {k : Keep} {s : State} {f : Fprog} {bs : List Byte} {frame : Nat} (hs : Held k s) : Held k (State.fprogStage s f bs
    frame) := by
  unfold State.fprogStage
  repeat' first | with_reducible (first | assumption | apply heldOf_self | apply stageBegin_held | apply setSeq_held) | simp only [held_mk]
theorem fprogNow_held {k : Keep} {s : State} {f : Fprog} (hs : Held k s) : Held k (State.fprogNow s f) := by
  unfold State.fprogNow
  repeat' first
    | with_reducible (first | assumption | apply heldOf_self | apply setSeq_held | apply imageSwitch_held | apply recordAdmit_held)
    | simp only [held_mk]
theorem fprogLoad_held {k : Keep} {s : State} {bs : List Byte} (hs : Held k s) : Held k (State.fprogLoad s bs).1 := by
  unfold State.fprogLoad
  repeat' first | with_reducible (first | assumption | apply held_ite1 | apply count_held | apply fprogStage_held | apply fprogNow_held) | split
theorem dsetLoad_held {k : Keep} {s : State} {o : List Byte} (hs : Held k s) : Held k (State.dsetLoad s o).1 := by
  unfold State.dsetLoad
  repeat' first
    | with_reducible first
      | assumption | apply held_ite | apply held_ite1 | apply drvAccept_held | apply dsetNow_held | apply dsetSwitch_held | apply dsetStage_held
    | split
theorem progLoad_held {k : Keep} {s : State} {x : Session} {h0 : Nat} (hs : Held k s) : Held k (State.progLoad s x h0).1 := by
  unfold State.progLoad
  repeat' first
    | with_reducible (first | assumption | apply held_ite1 | apply rep_held | apply fprogLoad_held | apply dsetLoad_held | apply release_held)
    | simp only [held_mk]
    | split
theorem wcpStage_held {k : Keep} {s : State} {x : Session} {h0 : Nat} {f : Nat} {ports : Nat} {sites : List (BitVec 64)} (hs : Held k s) : Held k
    (State.wcpStage s x h0 f ports sites).1 := by
  unfold State.wcpStage
  repeat' first
    | with_reducible first
      | assumption | apply held_ite1 | apply rep_held | apply release_held | apply count_held | apply fprogStage_held | apply stageBegin_held
    | simp only [held_mk]
    | split
theorem seqStart_held {k : Keep} {s : State} {mask : Nat} {vddp : List Nat} (hs : Held k s) : Held k (State.seqStart s mask vddp).1 := by
  unfold State.seqStart
  repeat' first
    | with_reducible (first | assumption | intro _ | apply held_ite1 | apply fsqStart_held | apply psqStart_held)
    | simp only [held_mk]
    | with_reducible apply held_foldl1
theorem seqStop_held {k : Keep} {s : State} {mask : Nat} (hs : Held k s) : Held k (State.seqStop s mask) := by
  unfold State.seqStop
  repeat' with_reducible (first | assumption | intro _ | apply held_ite | apply psqStop_held | apply held_foldl)
theorem statusRead_held {k : Keep} {s : State} {item : Nat} {index : Nat} {port : Nat} {pos : Nat} {maxrsp : Nat} (hs : Held k s) : Held k
    (State.statusRead s item index port pos maxrsp).1 := by
  unfold State.statusRead
  repeat' first | with_reducible (first | assumption | apply rep_held) | split
theorem toTiles_held {k : Keep} {s : State} {op : Nat} {data : List Byte} (hs : Held k s) : Held k (State.toTiles s op data) := by
  unfold State.toTiles
  repeat' with_reducible (first | assumption | apply held_ite | apply ctrlAll_held)
theorem ownerInstall_held {k : Keep} {s : State} {root : List Byte} (hs : Held k s) : Held k (State.ownerInstall s root).1 := by
  unfold State.ownerInstall
  repeat' with_reducible (first | assumption | apply held_ite1 | apply toTiles_held | apply newOwner_held)
theorem ownerXferAll_held {k : Keep} {s : State} {o : List Byte} (hs : Held k s) : Held k (State.ownerXferAll s o).1 := by
  unfold State.ownerXferAll
  repeat' with_reducible (first | assumption | apply held_ite1 | apply ownerXfer_held | apply toTiles_held)
theorem keySet_held {k : Keep} {s : State} {k0 : List Byte} (hs : Held k s) : Held k (State.keySet s k0).1 := by
  unfold State.keySet
  repeat' with_reducible (first | assumption | apply held_ite1 | apply rep_held | apply keyAdd_held | apply toTiles_held)
theorem keyUnset_held {k : Keep} {s : State} {k0 : List Byte} (hs : Held k s) : Held k (State.keyUnset s k0).1 := by
  unfold State.keyUnset
  repeat' with_reducible (first | assumption | apply held_ite1 | apply rep_held | apply toTiles_held | apply keyRemove_held)
theorem refcredSet_held {k : Keep} {s : State} {d : List Byte} (hs : Held k s) : Held k (State.refcredSet s d).1 := by
  unfold State.refcredSet
  repeat' first
    | with_reducible first
      | assumption | apply held_ite1 | apply heldOf_self | apply rep_held | apply secLog_held | apply journalKeys_held | apply heaRegs_held
      | apply closeSess_held
    | simp only [held_mk]
theorem factoryReset_held {k : Keep} {s : State} {id : Nat} (hs : Held k s) : Held k (State.factoryReset s id) := by
  unfold State.factoryReset
  repeat' first
    | with_reducible first
      | assumption | intro _ | apply endBinding_held | apply putTenant_held | apply setReg_held | apply journalKeys_held | apply journalOwner_held
      | apply popRegs_held | apply heaRegs_held | apply protectRegs_held | apply emptyCopy_held | apply journalBilling_held | apply secLog_held
      | apply updSess_held | apply closeSess_held
    | exact SMap.wf_clear ‹_›
    | with_reducible apply heldOf_regs
    | simp only [held_mk]
    | with_reducible apply held_foldl
theorem askTile_held {k : Keep} {s : State} {x : Session} {seq : Word} {p : Nat} {q : Nat} {op : Nat} {data : List Byte} (hs : Held k s) : Held k
    (State.askTile s x seq p q op data).1 := by
  unfold State.askTile
  repeat' with_reducible (first | assumption | apply held_ite1 | apply ctrlSend_held | apply rep_held)
theorem readWords_held {k : Keep} {s : State} {a n : Nat} (hs : Held k s) : Held k (State.readWords s a n).1 := by
  induction n generalizing s a with
  | zero => exact hs
  | succ n ih =>
    unfold State.readWords
    split
    · exact hs
    · dsimp only
      split
      · exact ih (regRead_held hs)
      · exact regRead_held hs
theorem writeWords_held {k : Keep} {s : State} {ctx : RegCtx} {l : List (Nat × Word)} (hs : Held k s) : Held k (State.writeWords s ctx l).1 := by
  induction l generalizing s with
  | nil => exact hs
  | cons e es ih =>
    unfold State.writeWords
    split
    · exact hs
    · dsimp only
      split
      · exact ih (regWrite_held hs)
      · exact regWrite_held hs
theorem wcpRegRead_held {k : Keep} {s : State} {a : Nat} {count : Nat} {maxrsp : Nat} (hs : Held k s) : Held k (State.wcpRegRead s a count
    maxrsp).1 := by
  unfold State.wcpRegRead
  repeat' first | with_reducible (first | assumption | apply held_ite1 | apply rep_held | apply readWords_held) | simp only [held_mk] | split
theorem wcpRegWrite_held {k : Keep} {s : State} {es : List (Nat × Word)} {ctx : RegCtx} (hs : Held k s) : Held k (State.wcpRegWrite s es ctx).1 := by
  unfold State.wcpRegWrite
  repeat' first | with_reducible (first | assumption | apply held_ite1 | apply rep_held | apply writeWords_held) | simp only [held_mk] | split
theorem cordPower_held {k : Keep} {s : State} {ports : Nat} {fcnt : Nat} (hs : Held k s) : Held k (State.cordPower s ports fcnt) := by
  unfold State.cordPower
  repeat' first
    | with_reducible (first | assumption | intro _ | apply held_ite | apply heldOf_self | apply ctrlSend_held)
    | simp only [held_mk]
    | with_reducible apply held_foldl
theorem cordWake_held {k : Keep} {s : State} {ports : Nat} (hs : Held k s) : Held k (State.cordWake s ports) := by
  unfold State.cordWake
  repeat' first | with_reducible (first | assumption | apply heldOf_self | apply setF_held) | simp only [held_mk]
theorem fromReferee_held {k : Keep} {s : State} {t : State} (hs : Held k s) (ht : Held k t) : Held k (State.fromReferee s t).1 := by
  unfold State.fromReferee
  repeat' with_reducible (first | assumption | apply held_ite | apply rep_held)
theorem wcpDo_held {k : Keep} {s : State} {x : Session} {seq : Word} {maxrsp : Nat} {r : WcpReq} (hs : Held k s) : Held k (State.wcpDo s x seq maxrsp
    r).1 := by
  unfold State.wcpDo
  repeat' first
    | with_reducible first
      | assumption | apply held_ite | apply held_ite1 | apply heldOf_self | apply rep_held | apply uploadOpen_held | apply uploadData_held
      | apply uploadClose_held | apply progLoad_held | apply wcpStage_held | apply repOf_held | apply seqStart_held | apply seqStop_held
      | apply Ans_rep_held | apply bind_held | apply unbind_held | apply layerSet_held | apply layerClear_held | apply surfaceWrite_held
      | apply release_held | apply surfaceFlip_held | apply zlistSet_held | apply coefSet_held | apply askTile_held | apply damageHint_held
      | apply statusRead_held | apply tenantSet_held | apply tenantRemove_held | apply slotAssign_held | apply ownerInstall_held
      | apply ownerXferAll_held | apply keySet_held | apply keyUnset_held | apply refcredSet_held | apply stepAuth_held | apply newNonce_held
      | apply debugToken_held | apply factoryReset_held | apply testRun_held | apply testAbort_held | apply testAck_held | apply popCollect_held
      | apply popAck_held | apply fwInstall_held | apply fwActivate_held | apply fwRevert_held | apply slotWrite_held | apply smoulder_held
      | apply cordPower_held | apply cordWake_held | apply swapOwner_held | apply fromReferee_held | apply refHbHeard_held | apply grantHeard_held
      | apply swapAnswered_held | apply wcpRegRead_held | apply wcpRegWrite_held
    | simp only [held_mk]
    | split

end Sys2Proof.Machine
end

