-- ==== Sys2Proof/Laws/WcpQueue.lean ====
section
/-! SUPPORT. Laws/WcpQueue.lean: each operation of Machine/WcpQueue.lean leaves the queue, the life counter and the canonical form. -/

namespace Sys2Proof.Machine

theorem evSpiWrite_held {k : Keep} {whole : Bool} {data : List Byte} {s : State} (hs : Held k s) : Held k (evSpiWrite whole data s) := by
  unfold evSpiWrite
  repeat' first | with_reducible (first | assumption | apply held_ite | apply heldOf_self) | simp only [held_mk]
theorem evSpiRead_held {k : Keep} {s : State} (hs : Held k s) : Held k (evSpiRead s) := by
  unfold evSpiRead
  repeat' first | with_reducible (first | assumption | apply heldOf_self | apply emit_held) | simp only [held_mk] | split
theorem spiTake_held {k : Keep} {s : State} {spi : Bool} (hs : Held k s) : Held k (State.spiTake s spi) := by
  unfold State.spiTake
  repeat' first | with_reducible (first | assumption | apply held_ite | apply heldOf_self) | simp only [held_mk]
theorem reply_held {k : Keep} {s : State} {x : Session} {seq : Word} {r : Rsp} (hs : Held k s) : Held k (State.reply s x seq r) := by
  unfold State.reply
  repeat' with_reducible (first | assumption | apply keyAfter_held | apply sessOut_held | apply updSess_held)
theorem replyOr_held {k : Keep} {s : State} {x : Session} {seq : Word} {r : Rsp} (hs : Held k s) : Held k (State.replyOr s x seq r) := by
  unfold State.replyOr
  repeat' first | with_reducible (first | assumption | apply held_ite | apply heldOf_self | apply reply_held) | simp only [held_mk]
theorem replyRelease_held {k : Keep} {s : State} (hs : Held k s) : Held k (State.replyRelease s) := by
  unfold State.replyRelease
  repeat' first
    | with_reducible (first | assumption | intro _ | apply heldOf_self | apply reply_held)
    | simp only [held_mk]
    | with_reducible apply held_foldl
    | split
theorem leave_held {k : Keep} {s : State} {x : Session} {w : WaitReq} {r : Rsp} (hs : Held k s) : Held k (State.leave s x w r) := by
  unfold State.leave
  repeat' first
    | with_reducible first
      | assumption | apply held_ite | apply updSess_held | apply reply_held | apply closeSess_held | apply recoveryExit_held
    | simp only [held_mk]
    | split
theorem turn_held {k : Keep} {s : State} {x : Session} {w : WaitReq} (hs : Held k s) : Held k (State.turn s x w) := by
  unfold State.turn
  repeat' first
    | with_reducible first
      | assumption | apply held_ite | apply heldOf_self | apply updSess_held | apply answer_held | apply count_held | apply wcpDo_held
      | apply mirrorSince_held
    | simp only [held_mk]
    | split
theorem settleN_held {k : Keep} {n : Nat} {s : State} (hs : Held k s) : Held k (State.settleN n s) := by
  induction n generalizing s with
  | zero => exact hs
  | succ n ih =>
    unfold State.settleN
    split
    · exact hs
    · split
      · exact ih (leave_held hs)
      · split
        · exact ih (turn_held hs)
        · exact hs
theorem settle_held {k : Keep} {s : State} (hs : Held k s) : Held k (State.settle s) := by
  unfold State.settle
  repeat' with_reducible (first | assumption | apply held_ite | apply replyRelease_held | apply settleN_held)
theorem arrive_held {k : Keep} {s : State} {x : Session} {h0 : WcpHdr} {r : WcpReq} (hs : Held k s) : Held k (State.arrive s x h0 r) := by
  unfold State.arrive
  repeat' first
    | with_reducible (first | assumption | apply held_ite | apply heldOf_self | apply count_held | apply replyOr_held | apply updSess_held)
    | simp only [held_mk]
    | split
theorem wcp_held {k : Keep} {s : State} {h0 : WcpHdr} {r : WcpReq} (hs : Held k s) : Held k (State.wcp s h0 r) := by
  unfold State.wcp
  repeat' first
    | with_reducible first
      | assumption | apply held_ite | apply updSess_held | apply spiTake_held | apply sessOut_held | apply settle_held | apply arrive_held
    | simp only [held_mk]
    | split
theorem evActivationPauseEnd_held {k : Keep} {s : State} (hs : Held k s) : Held k (evActivationPauseEnd s) := by
  unfold evActivationPauseEnd
  repeat' first
    | with_reducible (first | assumption | apply held_ite | apply heldOf_self | apply settle_held | apply stokerBack_held)
    | simp only [held_mk]

end Sys2Proof.Machine
end

