-- ==== Sys2Proof/Laws/Tick.lean ====
section
/-! SUPPORT. Laws/Tick.lean: each operation of Machine/Tick.lean leaves the queue, the life counter and the canonical form. -/

namespace Sys2Proof.Machine

theorem tickLoad_held {k : Keep} {s : State} (hs : Held k s) : Held k (State.tickLoad s) := by
  unfold State.tickLoad
  repeat' first
    | with_reducible (first | assumption | intro _ | apply held_ite | apply heldOf_self | apply setLive_held)
    | simp only [held_mk]
    | with_reducible apply held_foldl
theorem tickRaise_held {k : Keep} {s : State} (hs : Held k s) : Held k (State.tickRaise s) := by
  unfold State.tickRaise
  repeat' with_reducible (first | assumption | apply held_ite | apply holdStep_held | apply raiseFsq_held | apply fsqSwitch_held)
theorem evFrameTick_held {k : Keep} {s : State} (hs : Held k s) : Held k (evFrameTick s) := by
  unfold evFrameTick
  repeat' first
    | with_reducible first
      | assumption | apply held_ite | apply heldOf_self | apply tenantTick_held | apply descApply_held | apply handover_held | apply tickLoad_held
      | apply syncPulse_held | apply mirrorSince_held | apply tickRaise_held
    | simp only [held_mk]

end Sys2Proof.Machine
end

