-- ==== Sys2Proof/Laws/Exec.lean ====
section
/-! SUPPORT. Laws/Exec.lean: every command leaves the queue and the canonical form, and all but POWER_ON and SUPPLY_RESET the life counter. -/

namespace Sys2Proof.Machine

/-! ### ExecPower -/
theorem execPowerOn_held {k : Keep} {s : State} {embOff : Bool} (hs : Held k s) :
    HeldH ⟨k.queue, if embOff then (s.pwr.lifeCell + 32768) % 2 ^ 48 else k.life⟩ (execPowerOn embOff s) := heldH_next (evPowerOn_held hs)
theorem execPowerGood_held {k : Keep} {s : State} (hs : Held k s) : HeldH k (execPowerGood s) := by
  unfold execPowerGood
  repeat' with_reducible (first | assumption | apply heldH_next | apply evPowerGood_held)
theorem execRstNAssert_held {k : Keep} {s : State} (hs : Held k s) : HeldH k (execRstNAssert s) := by
  unfold execRstNAssert
  repeat' with_reducible (first | assumption | apply heldH_next | apply evRstNAssert_held)
theorem execRstNRelease_held {k : Keep} {s : State} (hs : Held k s) : HeldH k (execRstNRelease s) := by
  unfold execRstNRelease
  repeat' with_reducible (first | assumption | apply heldH_next | apply evRstNRelease_held)
theorem execStrapSample_held {k : Keep} {balls : Nat} {s : State} (hs : Held k s) : HeldH k (execStrapSample balls s) := by
  unfold execStrapSample
  repeat' with_reducible (first | assumption | apply heldH_next | apply evStrapSample_held)
theorem execKindling_held {k : Keep} {selftest : Bool} {crc : Bool} {nand : NandDev} {ms : Nat} {s : State} (hs : Held k s) : HeldH k (execKindling
    selftest crc nand ms s) := by
  unfold execKindling
  repeat' with_reducible (first | assumption | apply heldH_next | apply evKindling_held)
theorem execDdrTraining_held {k : Keep} {ok : Bool} {s : State} (hs : Held k s) : HeldH k (execDdrTraining ok s) := by
  unfold execDdrTraining
  repeat' with_reducible (first | assumption | apply heldH_next | apply evDdrTraining_held)
theorem execRecovery_held {k : Keep} {s : State} (hs : Held k s) : HeldH k (execRecovery s) := by
  unfold execRecovery
  repeat' with_reducible (first | assumption | apply heldH_next | apply evRecovery_held)
theorem execBankedEntry_held {k : Keep} {s : State} (hs : Held k s) : HeldH k (execBankedEntry s) := by
  unfold execBankedEntry
  repeat' with_reducible (first | assumption | apply heldH_next | apply evBankedEntry_held)
theorem execEmbSmoulder_held {k : Keep} {s : State} (hs : Held k s) : HeldH k (execEmbSmoulder s) := by
  unfold execEmbSmoulder
  repeat' with_reducible (first | assumption | apply heldH_next | apply evEmbSmoulder_held)
theorem execWakeN_held {k : Keep} {s : State} (hs : Held k s) : HeldH k (execWakeN s) := by
  unfold execWakeN
  repeat' with_reducible (first | assumption | apply heldH_next | apply evWakeN_held)
theorem execWakeSignal_held {k : Keep} {sl02 : Bool} {s : State} (hs : Held k s) : HeldH k (execWakeSignal sl02 s) := by
  unfold execWakeSignal
  repeat' with_reducible (first | assumption | apply heldH_next | apply evWakeSignal_held)
theorem execWakeSpi_held {k : Keep} {s : State} (hs : Held k s) : HeldH k (execWakeSpi s) := by
  unfold execWakeSpi
  repeat' with_reducible (first | assumption | apply heldH_next | apply evWakeSpi_held)
theorem execWakeAlarm_held {k : Keep} {s : State} (hs : Held k s) : HeldH k (execWakeAlarm s) := by
  unfold execWakeAlarm
  repeat' with_reducible (first | assumption | apply heldH_next | apply evWakeAlarm_held)
theorem execWakeTherm_held {k : Keep} {s : State} (hs : Held k s) : HeldH k (execWakeTherm s) := by
  unfold execWakeTherm
  repeat' with_reducible (first | assumption | apply heldH_next | apply evWakeTherm_held)
theorem execVsagWarnAssert_held {k : Keep} {rail : Nat} {s : State} (hs : Held k s) : HeldH k (execVsagWarnAssert rail s) := by
  unfold execVsagWarnAssert
  repeat' with_reducible (first | assumption | apply heldH_next | apply evVsagWarnAssert_held)
theorem execVsagWarnClear_held {k : Keep} {ack : Bool} {s : State} (hs : Held k s) : HeldH k (execVsagWarnClear ack s) := by
  unfold execVsagWarnClear
  repeat' with_reducible (first | assumption | apply heldH_next | apply settle_held | apply evVsagWarnClear_held)
theorem execSupplyReset_held {k : Keep} {rail : Nat} {s : State} (hs : Held k s) :
    HeldH ⟨k.queue, if rail = 2 then (s.pwr.lifeCell + 32768) % 2 ^ 48 else k.life⟩ (execSupplyReset rail s) := heldH_next (evSupplyReset_held hs)
theorem execSupThresholdMove_held {k : Keep} {s : State} (hs : Held k s) : HeldH k (execSupThresholdMove s) := by
  unfold execSupThresholdMove
  repeat' with_reducible (first | assumption | apply heldH_next | apply evSupThresholdMove_held)
theorem execLifeCellWrite_held {k : Keep} {s : State} (hs : Held k s) : HeldH k (execLifeCellWrite s) := by
  unfold execLifeCellWrite
  repeat' with_reducible (first | assumption | apply heldH_next | apply evLifeCellWrite_held)
theorem execXtalFail_held {k : Keep} {s : State} (hs : Held k s) : HeldH k (execXtalFail s) := by
  unfold execXtalFail
  repeat' with_reducible (first | assumption | apply heldH_next | apply evXtalFail_held)
theorem execDieTempRead_held {k : Keep} {temps : List Int} {s : State} (hs : Held k s) : HeldH k (execDieTempRead temps s) := by
  unfold execDieTempRead
  repeat' with_reducible (first | assumption | apply heldH_next | apply evDieTempReadRow_held)
theorem execThermGraceExpiry_held {k : Keep} {s : State} (hs : Held k s) : HeldH k (execThermGraceExpiry s) := by
  unfold execThermGraceExpiry
  repeat' with_reducible (first | assumption | apply heldH_next | apply evThermGraceExpiry_held)
theorem execThermStepExpiry_held {k : Keep} {s : State} (hs : Held k s) : HeldH k (execThermStepExpiry s) := by
  unfold execThermStepExpiry
  repeat' with_reducible (first | assumption | apply heldH_next | apply evThermStepExpiry_held)
theorem execThermReleaseExpiry_held {k : Keep} {s : State} (hs : Held k s) : HeldH k (execThermReleaseExpiry s) := by
  unfold execThermReleaseExpiry
  repeat' with_reducible (first | assumption | apply heldH_next | apply evThermReleaseExpiry_held)
theorem execXtalRecovered_held {k : Keep} {s : State} (hs : Held k s) : HeldH k (execXtalRecovered s) := by
  unfold execXtalRecovered
  repeat' with_reducible (first | assumption | apply heldH_next | apply evXtalRecovered_held)
/-! ### ExecBus -/
theorem execRegisterWrite_held {k : Keep} {addr : Nat} {value : Word} {ctx : RegCtx} {s : State} (hs : Held k s) : HeldH k (execRegisterWrite addr
    value ctx s) := by
  unfold execRegisterWrite
  repeat' with_reducible (first | assumption | apply heldH_next | apply settle_held | apply evRegisterWrite_held)
theorem execClrcnt_held {k : Keep} {target : ClrTarget} {s : State} (hs : Held k s) : HeldH k (execClrcnt target s) := by
  unfold execClrcnt
  repeat' with_reducible (first | assumption | apply heldH_next | apply evClrcnt_held)
theorem execBusRequest_held {k : Keep} {req : BusReq} {s : State} (hs : Held k s) : HeldH k (execBusRequest req s) := by
  unfold execBusRequest
  repeat' with_reducible (first | assumption | apply heldH_next | apply settle_held | apply evBusRequest_held)
theorem execTransferLastBeat_held {k : Keep} {target : Nat} {s : State} (hs : Held k s) : HeldH k (execTransferLastBeat target s) := by
  unfold execTransferLastBeat
  repeat' with_reducible (first | assumption | apply heldH_next | apply settle_held | apply evTransferLastBeat_held)
theorem execRequestWithdraw_held {k : Keep} {target : Nat} {s : State} (hs : Held k s) : HeldH k (execRequestWithdraw target s) := by
  unfold execRequestWithdraw
  repeat' with_reducible (first | assumption | apply heldH_next | apply evRequestWithdraw_held)
theorem execFabCommit_held {k : Keep} {s : State} (hs : Held k s) : HeldH k (execFabCommit s) := by
  unfold execFabCommit
  repeat' with_reducible (first | assumption | apply heldH_next | apply evFabCommit_held)
theorem execRemap_held {k : Keep} {value : Bool} {s : State} (hs : Held k s) : HeldH k (execRemap value s) := by
  unfold execRemap
  repeat' with_reducible (first | assumption | apply heldH_next | apply evRemap_held)
theorem execRemapLock_held {k : Keep} {s : State} (hs : Held k s) : HeldH k (execRemapLock s) := by
  unfold execRemapLock
  repeat' with_reducible (first | assumption | apply heldH_next | apply evRemapLock_held)
theorem execLatchingReadLo_held {k : Keep} {addr : Nat} {s : State} (hs : Held k s) : HeldH k (execLatchingReadLo addr s) := by
  unfold execLatchingReadLo
  repeat' with_reducible (first | assumption | apply heldH_next | apply evLatchingReadLo_held)
/-! ### ExecSeq -/
theorem execNop_held {k : Keep} {i : SeqInstr} {s : State} (hs : Held k s) : HeldH k (execNop i s) := by
  unfold execNop
  repeat' with_reducible (first | assumption | intro _ | apply heldH_next | apply issue_held | apply doNop_held)
theorem execJmp_held {k : Keep} {i : SeqInstr} {s : State} (hs : Held k s) : HeldH k (execJmp i s) := by
  unfold execJmp
  repeat' with_reducible (first | assumption | intro _ | apply heldH_next | apply issue_held | apply doJmp_held)
theorem execJz_held {k : Keep} {i : SeqInstr} {s : State} (hs : Held k s) : HeldH k (execJz i s) := by
  unfold execJz
  repeat' with_reducible (first | assumption | intro _ | apply heldH_next | apply issue_held | apply doJz_held)
theorem execJnz_held {k : Keep} {i : SeqInstr} {s : State} (hs : Held k s) : HeldH k (execJnz i s) := by
  unfold execJnz
  repeat' with_reducible (first | assumption | intro _ | apply heldH_next | apply issue_held | apply doJnz_held)
theorem execCall_held {k : Keep} {i : SeqInstr} {s : State} (hs : Held k s) : HeldH k (execCall i s) := by
  unfold execCall
  repeat' with_reducible (first | assumption | intro _ | apply heldH_next | apply issue_held | apply doCall_held)
theorem execRet_held {k : Keep} {i : SeqInstr} {s : State} (hs : Held k s) : HeldH k (execRet i s) := by
  unfold execRet
  repeat' with_reducible (first | assumption | intro _ | apply heldH_next | apply issue_held | apply doRet_held)
theorem execLoop_held {k : Keep} {i : SeqInstr} {s : State} (hs : Held k s) : HeldH k (execLoop i s) := by
  unfold execLoop
  repeat' with_reducible (first | assumption | intro _ | apply heldH_next | apply issue_held | apply doLoop_held)
theorem execEndl_held {k : Keep} {i : SeqInstr} {s : State} (hs : Held k s) : HeldH k (execEndl i s) := by
  unfold execEndl
  repeat' with_reducible (first | assumption | intro _ | apply heldH_next | apply issue_held | apply doEndl_held)
theorem execWait_held {k : Keep} {i : SeqInstr} {s : State} (hs : Held k s) : HeldH k (execWait i s) := by
  unfold execWait
  repeat' with_reducible (first | assumption | intro _ | apply heldH_next | apply issue_held | apply doWait_held)
theorem execWaitResume_held {k : Keep} {q : SeqId} {s : State} (hs : Held k s) : HeldH k (execWaitResume q s) := by
  unfold execWaitResume
  repeat' with_reducible (first | assumption | apply heldH_next | apply evWaitResume_held)
theorem execWaitTimeout_held {k : Keep} {q : SeqId} {s : State} (hs : Held k s) : HeldH k (execWaitTimeout q s) := by
  unfold execWaitTimeout
  repeat' with_reducible (first | assumption | apply heldH_next | apply evWaitTimeout_held)
theorem execSig_held {k : Keep} {i : SeqInstr} {s : State} (hs : Held k s) : HeldH k (execSig i s) := by
  unfold execSig
  repeat' with_reducible (first | assumption | intro _ | apply heldH_next | apply issue_held | apply doSig_held)
theorem execHalt_held {k : Keep} {i : SeqInstr} {s : State} (hs : Held k s) : HeldH k (execHalt i s) := by
  unfold execHalt
  repeat' with_reducible (first | assumption | intro _ | apply heldH_next | apply issue_held | apply effHalt_held)
theorem execMov_held {k : Keep} {i : SeqInstr} {s : State} (hs : Held k s) : HeldH k (execMov i s) := by
  unfold execMov
  repeat' with_reducible (first | assumption | intro _ | apply heldH_next | apply issue_held | apply doMov_held)
theorem execAddi_held {k : Keep} {i : SeqInstr} {s : State} (hs : Held k s) : HeldH k (execAddi i s) := by
  unfold execAddi
  repeat' with_reducible (first | assumption | intro _ | apply heldH_next | apply issue_held | apply doAddi_held)
theorem execAdd_held {k : Keep} {i : SeqInstr} {s : State} (hs : Held k s) : HeldH k (execAdd i s) := by
  unfold execAdd
  repeat' with_reducible (first | assumption | intro _ | apply heldH_next | apply issue_held | apply doAdd_held)
theorem execSub_held {k : Keep} {i : SeqInstr} {s : State} (hs : Held k s) : HeldH k (execSub i s) := by
  unfold execSub
  repeat' with_reducible (first | assumption | intro _ | apply heldH_next | apply issue_held | apply doSub_held)
theorem execAnd_held {k : Keep} {i : SeqInstr} {s : State} (hs : Held k s) : HeldH k (execAnd i s) := by
  unfold execAnd
  repeat' with_reducible (first | assumption | intro _ | apply heldH_next | apply issue_held | apply doAnd_held)
theorem execOr_held {k : Keep} {i : SeqInstr} {s : State} (hs : Held k s) : HeldH k (execOr i s) := by
  unfold execOr
  repeat' with_reducible (first | assumption | intro _ | apply heldH_next | apply issue_held | apply doOr_held)
theorem execXor_held {k : Keep} {i : SeqInstr} {s : State} (hs : Held k s) : HeldH k (execXor i s) := by
  unfold execXor
  repeat' with_reducible (first | assumption | intro _ | apply heldH_next | apply issue_held | apply doXor_held)
theorem execShl_held {k : Keep} {i : SeqInstr} {s : State} (hs : Held k s) : HeldH k (execShl i s) := by
  unfold execShl
  repeat' with_reducible (first | assumption | intro _ | apply heldH_next | apply issue_held | apply doShl_held)
theorem execShr_held {k : Keep} {i : SeqInstr} {s : State} (hs : Held k s) : HeldH k (execShr i s) := by
  unfold execShr
  repeat' with_reducible (first | assumption | intro _ | apply heldH_next | apply issue_held | apply doShr_held)
theorem execCmp_held {k : Keep} {i : SeqInstr} {s : State} (hs : Held k s) : HeldH k (execCmp i s) := by
  unfold execCmp
  repeat' with_reducible (first | assumption | intro _ | apply heldH_next | apply issue_held | apply doCmp_held)
theorem execLd_held {k : Keep} {i : SeqInstr} {s : State} (hs : Held k s) : HeldH k (execLd i s) := by
  unfold execLd
  repeat' with_reducible (first | assumption | intro _ | apply heldH_next | apply issue_held | apply doLd_held)
theorem execSt_held {k : Keep} {i : SeqInstr} {s : State} (hs : Held k s) : HeldH k (execSt i s) := by
  unfold execSt
  repeat' with_reducible (first | assumption | intro _ | apply heldH_next | apply issue_held | apply doSt_held)
theorem execSwitchTimeout_held {k : Keep} {s : State} (hs : Held k s) : HeldH k (execSwitchTimeout s) := by
  unfold execSwitchTimeout
  repeat' with_reducible (first | assumption | apply heldH_next | apply testStaged_held | apply evSwitchTimeout_held)
theorem execFsqStart_held {k : Keep} {s : State} (hs : Held k s) : HeldH k (execFsqStart s) := by
  unfold execFsqStart
  repeat' with_reducible (first | assumption | apply heldH_next | apply evFsqStart_held)
theorem execPsqStart_held {k : Keep} {n : Nat} {mv : Nat} {s : State} (hs : Held k s) : HeldH k (execPsqStart n mv s) := by
  unfold execPsqStart
  repeat' with_reducible (first | assumption | apply heldH_next | apply evPsqStart_held)
theorem execPsqStop_held {k : Keep} {n : Nat} {s : State} (hs : Held k s) : HeldH k (execPsqStop n s) := by
  unfold execPsqStop
  repeat' with_reducible (first | assumption | apply heldH_next | apply evPsqStop_held)
theorem execSwevRaise_held {k : Keep} {mask : Nat} {s : State} (hs : Held k s) : HeldH k (execSwevRaise mask s) := by
  unfold execSwevRaise
  repeat' with_reducible (first | assumption | apply heldH_next | apply evSwevRaise_held)
theorem execSwevPendClear_held {k : Keep} {mask : Nat} {s : State} (hs : Held k s) : HeldH k (execSwevPendClear mask s) := by
  unfold execSwevPendClear
  repeat' with_reducible (first | assumption | apply heldH_next | apply evSwevPendClear_held)
theorem execDmemAccess_held {k : Keep} {n : Nat} {value : Option Word} {s : State} (hs : Held k s) : HeldH k (execDmemAccess n value s) := by
  unfold execDmemAccess
  repeat' with_reducible (first | assumption | apply heldH_next | apply evDmemAccess_held)
/-! ### ExecFrame -/
theorem execMark_held {k : Keep} {i : SeqInstr} {s : State} (hs : Held k s) : HeldH k (execMark i s) := by
  unfold execMark
  repeat' with_reducible (first | assumption | intro _ | apply heldH_next | apply issue_held | apply effMark_held)
theorem execMarkSent_held {k : Keep} {s : State} (hs : Held k s) : HeldH k (execMarkSent s) := by
  unfold execMarkSent
  repeat' with_reducible (first | assumption | apply heldH_next | apply evMarkSent_held)
theorem execDamage_held {k : Keep} {i : SeqInstr} {s : State} (hs : Held k s) : HeldH k (execDamage i s) := by
  unfold execDamage
  repeat' with_reducible (first | assumption | intro _ | apply heldH_next | apply issue_held | apply doDamage_held)
theorem execBand_held {k : Keep} {i : SeqInstr} {s : State} (hs : Held k s) : HeldH k (execBand i s) := by
  unfold execBand
  repeat' with_reducible (first | assumption | intro _ | apply heldH_next | apply issue_held | apply doBand_held)
theorem execZlist_held {k : Keep} {i : SeqInstr} {s : State} (hs : Held k s) : HeldH k (execZlist i s) := by
  unfold execZlist
  repeat' with_reducible (first | assumption | intro _ | apply heldH_next | apply issue_held | apply doZlist_held)
theorem execBudget_held {k : Keep} {i : SeqInstr} {s : State} (hs : Held k s) : HeldH k (execBudget i s) := by
  unfold execBudget
  repeat' with_reducible (first | assumption | intro _ | apply heldH_next | apply issue_held | apply doBudget_held)
theorem execFlip_held {k : Keep} {i : SeqInstr} {s : State} (hs : Held k s) : HeldH k (execFlip i s) := by
  unfold execFlip
  repeat' with_reducible (first | assumption | intro _ | apply heldH_next | apply issue_held | apply doFlip_held)
theorem execTestslot_held {k : Keep} {i : SeqInstr} {s : State} (hs : Held k s) : HeldH k (execTestslot i s) := by
  unfold execTestslot
  repeat' with_reducible (first | assumption | intro _ | apply heldH_next | apply issue_held | apply doTestslotRow_held)
theorem execFrameTick_held {k : Keep} {s : State} (hs : Held k s) : HeldH k (execFrameTick s) := by
  unfold execFrameTick
  repeat' with_reducible (first | assumption | apply heldH_next | apply settle_held | apply evFrameTick_held)
theorem execBandJobStart_held {k : Keep} {engine : Nat} {times : List Nat} {s : State} (hs : Held k s) : HeldH k (execBandJobStart engine times
    s) := by
  unfold execBandJobStart
  repeat' with_reducible (first | assumption | apply heldH_next | apply evBandJobStartRow_held)
theorem execBandJobComplete_held {k : Keep} {engine : Nat} {ue : Bool} {s : State} (hs : Held k s) : HeldH k (execBandJobComplete engine ue s) := by
  unfold execBandJobComplete
  repeat' with_reducible (first | assumption | apply heldH_next | apply evBandJobComplete_held)
theorem execBandDeadline_held {k : Keep} {fcnt : Nat} {s : State} (hs : Held k s) : HeldH k (execBandDeadline fcnt s) := by
  unfold execBandDeadline
  repeat' with_reducible (first | assumption | apply heldH_next | apply evBandDeadline_held)
theorem execPresentTimeReached_held {k : Keep} {s : State} (hs : Held k s) : HeldH k (execPresentTimeReached s) := by
  unfold execPresentTimeReached
  repeat' with_reducible (first | assumption | apply heldH_next | apply evPresentTimeReached_held)
theorem execAckRx_held {k : Keep} {rx : CordRx} {ack : AckPkt} {s : State} (hs : Held k s) : HeldH k (execAckRx rx ack s) := by
  unfold execAckRx
  repeat' with_reducible (first | assumption | apply heldH_next | apply evAckRx_held)
theorem execAckWindowClose_held {k : Keep} {s : State} (hs : Held k s) : HeldH k (execAckWindowClose s) := by
  unfold execAckWindowClose
  repeat' with_reducible (first | assumption | apply heldH_next | apply evAckWindowClose_held)
theorem execCompGcommit_held {k : Keep} {s : State} (hs : Held k s) : HeldH k (execCompGcommit s) := by
  unfold execCompGcommit
  repeat' with_reducible (first | assumption | apply heldH_next | apply evCompGcommit_held)
theorem execCompFulldmg_held {k : Keep} {s : State} (hs : Held k s) : HeldH k (execCompFulldmg s) := by
  unfold execCompFulldmg
  repeat' with_reducible (first | assumption | apply heldH_next | apply evCompFulldmg_held)
theorem execDamageMapWrite_held {k : Keep} {port : Nat} {pos : Nat} {word : Nat} {value : Word} {sources : Word} {s : State} (hs : Held k s) : HeldH k
    (execDamageMapWrite port pos word value sources s) := by
  unfold execDamageMapWrite
  repeat' with_reducible (first | assumption | apply heldH_next | apply evDamageMapWrite_held)
theorem execSurfaceWriteRelease_held {k : Keep} {s : State} (hs : Held k s) : HeldH k (execSurfaceWriteRelease s) := by
  unfold execSurfaceWriteRelease
  repeat' with_reducible (first | assumption | apply heldH_next | apply settle_held | apply evSurfaceWriteRelease_held)
/-! ### ExecPin -/
theorem execVec_held {k : Keep} {i : SeqInstr} {smps : List PinSample} {s : State} (hs : Held k s) : HeldH k (execVec i smps s) := by
  unfold execVec
  repeat' with_reducible (first | assumption | intro _ | apply heldH_next | apply issue_held | apply doVec_held)
theorem execVstr_held {k : Keep} {i : SeqInstr} {smps : List PinSample} {s : State} (hs : Held k s) : HeldH k (execVstr i smps s) := by
  unfold execVstr
  repeat' with_reducible (first | assumption | intro _ | apply heldH_next | apply issue_held | apply doVstr_held)
theorem execVgen_held {k : Keep} {i : SeqInstr} {smps : List PinSample} {s : State} (hs : Held k s) : HeldH k (execVgen i smps s) := by
  unfold execVgen
  repeat' with_reducible (first | assumption | intro _ | apply heldH_next | apply issue_held | apply doVgen_held)
theorem execTset_held {k : Keep} {i : SeqInstr} {s : State} (hs : Held k s) : HeldH k (execTset i s) := by
  unfold execTset
  repeat' with_reducible (first | assumption | intro _ | apply heldH_next | apply issue_held | apply doTset_held)
theorem execPeriod_held {k : Keep} {i : SeqInstr} {s : State} (hs : Held k s) : HeldH k (execPeriod i s) := by
  unfold execPeriod
  repeat' with_reducible (first | assumption | intro _ | apply heldH_next | apply issue_held | apply doPeriod_held)
theorem execMap_held {k : Keep} {i : SeqInstr} {s : State} (hs : Held k s) : HeldH k (execMap i s) := by
  unfold execMap
  repeat' with_reducible (first | assumption | intro _ | apply heldH_next | apply issue_held | apply doMap_held)
theorem execCapt_held {k : Keep} {i : SeqInstr} {s : State} (hs : Held k s) : HeldH k (execCapt i s) := by
  unfold execCapt
  repeat' with_reducible (first | assumption | intro _ | apply heldH_next | apply issue_held | apply doCapt_held)
theorem execTrig_held {k : Keep} {i : SeqInstr} {s : State} (hs : Held k s) : HeldH k (execTrig i s) := by
  unfold execTrig
  repeat' with_reducible (first | assumption | intro _ | apply heldH_next | apply issue_held | apply doTrig_held)
theorem execLine_held {k : Keep} {i : SeqInstr} {s : State} (hs : Held k s) : HeldH k (execLine i s) := by
  unfold execLine
  repeat' with_reducible (first | assumption | intro _ | apply heldH_next | apply issue_held | apply doLine_held)
theorem execCaptureRead_held {k : Keep} {n : Nat} {s : State} (hs : Held k s) : HeldH k (execCaptureRead n s) := by
  unfold execCaptureRead
  repeat' with_reducible (first | assumption | apply heldH_next | apply evCaptureRead_held)
theorem execLineTimerWrite_held {k : Keep} {n : Nat} {value : Word} {s : State} (hs : Held k s) : HeldH k (execLineTimerWrite n value s) := by
  unfold execLineTimerWrite
  repeat' with_reducible (first | assumption | apply heldH_next | apply evLineTimerWrite_held)
theorem execLineTick_held {k : Keep} {n : Nat} {s : State} (hs : Held k s) : HeldH k (execLineTick n s) := by
  unfold execLineTick
  repeat' with_reducible (first | assumption | apply heldH_next | apply evLineTick_held)
theorem execTrigInEdge_held {k : Keep} {n : Nat} {s : State} (hs : Held k s) : HeldH k (execTrigInEdge n s) := by
  unfold execTrigInEdge
  repeat' with_reducible (first | assumption | apply heldH_next | apply evTrigInEdge_held)
theorem execPinEdge_held {k : Keep} {pin : Nat} {rising : Bool} {s : State} (hs : Held k s) : HeldH k (execPinEdge pin rising s) := by
  unfold execPinEdge
  repeat' with_reducible (first | assumption | apply heldH_next | apply evPinEdge_held)
theorem execPinConfigWrite_held {k : Keep} {offset : Nat} {value : Word} {s : State} (hs : Held k s) : HeldH k (execPinConfigWrite offset value
    s) := by
  unfold execPinConfigWrite
  repeat' with_reducible (first | assumption | apply heldH_next | apply evPinConfigWrite_held)
theorem execVddpFail_held {k : Keep} {n : Nat} {mv : Nat} {s : State} (hs : Held k s) : HeldH k (execVddpFail n mv s) := by
  unfold execVddpFail
  repeat' with_reducible (first | assumption | apply heldH_next | apply evVddpFail_held)
/-! ### ExecSource -/
theorem execSourceFrameRx_held {k : Keep} {frame : SrcFrame} {s : State} (hs : Held k s) : HeldH k (execSourceFrameRx frame s) := by
  unfold execSourceFrameRx
  repeat' with_reducible (first | assumption | apply heldH_next | apply evSourceFrameRxRow_held)
theorem execFrameCloseTimeout_held {k : Keep} {stream : Nat} {s : State} (hs : Held k s) : HeldH k (execFrameCloseTimeout stream s) := by
  unfold execFrameCloseTimeout
  repeat' with_reducible (first | assumption | apply heldH_next | apply evFrameCloseTimeout_held)
theorem execNoSignal_held {k : Keep} {stream : Nat} {s : State} (hs : Held k s) : HeldH k (execNoSignal stream s) := by
  unfold execNoSignal
  repeat' with_reducible (first | assumption | apply heldH_next | apply evNoSignal_held)
theorem execSourcePortLinkChange_held {k : Keep} {port : Nat} {link : Bool} {fec : Bool} {s : State} (hs : Held k s) : HeldH k
    (execSourcePortLinkChange port link fec s) := by
  unfold execSourcePortLinkChange
  repeat' with_reducible (first | assumption | apply heldH_next | apply evSourceLinkLanes_held)
/-! ### ExecTime -/
theorem execPtpSyncTimeout_held {k : Keep} {s : State} (hs : Held k s) : HeldH k (execPtpSyncTimeout s) := by
  unfold execPtpSyncTimeout
  repeat' with_reducible (first | assumption | apply heldH_next | apply evPtpSyncTimeout_held)
theorem execSyncEdge_held {k : Keep} {input : Nat} {s : State} (hs : Held k s) : HeldH k (execSyncEdge input s) := by
  unfold execSyncEdge
  repeat' with_reducible (first | assumption | apply heldH_next | apply evSyncEdge_held)
theorem execSyncStop_held {k : Keep} {input : Nat} {s : State} (hs : Held k s) : HeldH k (execSyncStop input s) := by
  unfold execSyncStop
  repeat' with_reducible (first | assumption | apply heldH_next | apply evSyncStop_held)
theorem execSyncRateCheck_held {k : Keep} {input : Nat} {dev : Int} {s : State} (hs : Held k s) : HeldH k (execSyncRateCheck input dev s) := by
  unfold execSyncRateCheck
  repeat' with_reducible (first | assumption | apply heldH_next | apply evSyncRateCheck_held)
theorem execOcxoStop_held {k : Keep} {s : State} (hs : Held k s) : HeldH k (execOcxoStop s) := by
  unfold execOcxoStop
  repeat' with_reducible (first | assumption | apply heldH_next | apply evOcxoStop_held)
theorem execOcxoRateCheck_held {k : Keep} {ratio : Int} {s : State} (hs : Held k s) : HeldH k (execOcxoRateCheck ratio s) := by
  unfold execOcxoRateCheck
  repeat' with_reducible (first | assumption | apply heldH_next | apply evOcxoRateCheck_held)
theorem execOcxoRequalified_held {k : Keep} {s : State} (hs : Held k s) : HeldH k (execOcxoRequalified s) := by
  unfold execOcxoRequalified
  repeat' with_reducible (first | assumption | apply heldH_next | apply evOcxoRequalified_held)
theorem execRefQualified_held {k : Keep} {ref : Nat} {s : State} (hs : Held k s) : HeldH k (execRefQualified ref s) := by
  unfold execRefQualified
  repeat' with_reducible (first | assumption | apply heldH_next | apply evRefQualified_held)
theorem execRefEvaluation_held {k : Keep} {s : State} (hs : Held k s) : HeldH k (execRefEvaluation s) := by
  unfold execRefEvaluation
  repeat' with_reducible (first | assumption | apply heldH_next | apply evRefEvaluation_held)
theorem execEpochTimeout_held {k : Keep} {s : State} (hs : Held k s) : HeldH k (execEpochTimeout s) := by
  unfold execEpochTimeout
  repeat' with_reducible (first | assumption | apply heldH_next | apply evEpochTimeout_held)
theorem execNetValidWrite_held {k : Keep} {value : Bool} {s : State} (hs : Held k s) : HeldH k (execNetValidWrite value s) := by
  unfold execNetValidWrite
  repeat' with_reducible (first | assumption | apply heldH_next | apply evNetValidWrite_held)
theorem execNtoffWrite_held {k : Keep} {hi : Word} {s : State} (hs : Held k s) : HeldH k (execNtoffWrite hi s) := by
  unfold execNtoffWrite
  repeat' with_reducible (first | assumption | apply heldH_next | apply evNtoffWrite_held)
theorem execPpsOutPulse_held {k : Keep} {s : State} (hs : Held k s) : HeldH k (execPpsOutPulse s) := by
  unfold execPpsOutPulse
  repeat' with_reducible (first | assumption | apply heldH_next | apply evPpsOutPulse_held)
theorem execTimArm_held {k : Keep} {channel : Nat} {value : Word} {s : State} (hs : Held k s) : HeldH k (execTimArm channel value s) := by
  unfold execTimArm
  repeat' with_reducible (first | assumption | apply heldH_next | apply evTimArm_held)
theorem execTimAbort_held {k : Keep} {mask : Nat} {s : State} (hs : Held k s) : HeldH k (execTimAbort mask s) := by
  unfold execTimAbort
  repeat' with_reducible (first | assumption | apply heldH_next | apply evTimAbort_held)
theorem execTimStamp_held {k : Keep} {channel : Nat} {start : Bool} {stop : Bool} {s : State} (hs : Held k s) : HeldH k (execTimStamp channel start
    stop s) := by
  unfold execTimStamp
  repeat' with_reducible (first | assumption | apply heldH_next | apply evTimStamp_held)
theorem execTimTimeout_held {k : Keep} {channel : Nat} {s : State} (hs : Held k s) : HeldH k (execTimTimeout channel s) := by
  unfold execTimTimeout
  repeat' with_reducible (first | assumption | apply heldH_next | apply evTimTimeout_held)
theorem execTimGateEnd_held {k : Keep} {channel : Nat} {s : State} (hs : Held k s) : HeldH k (execTimGateEnd channel s) := by
  unfold execTimGateEnd
  repeat' with_reducible (first | assumption | apply heldH_next | apply evTimGateEnd_held)
theorem execTimResRead_held {k : Keep} {channel : Nat} {word : Nat} {s : State} (hs : Held k s) : HeldH k (execTimResRead channel word s) := by
  unfold execTimResRead
  repeat' with_reducible (first | assumption | apply heldH_next | apply evTimResRead_held)
theorem execOcxoWarmChange_held {k : Keep} {warm : Bool} {s : State} (hs : Held k s) : HeldH k (execOcxoWarmChange warm s) := by
  unfold execOcxoWarmChange
  repeat' with_reducible (first | assumption | apply heldH_next | apply evOcxoWarmChange_held)
theorem execOcxoGlitch_held {k : Keep} {s : State} (hs : Held k s) : HeldH k (execOcxoGlitch s) := by
  unfold execOcxoGlitch
  repeat' with_reducible (first | assumption | apply heldH_next | apply evOcxoGlitch_held)
/-! ### ExecCord -/
theorem execHopTrained_held {k : Keep} {port : Nat} {width2 : Bool} {s : State} (hs : Held k s) : HeldH k (execHopTrained port width2 s) := by
  unfold execHopTrained
  repeat' with_reducible (first | assumption | apply heldH_next | apply evHopTrainedRow_held)
theorem execHopHelloRx_held {k : Keep} {hello : HopHello} {s : State} (hs : Held k s) : HeldH k (execHopHelloRx hello s) := by
  unfold execHopHelloRx
  repeat' with_reducible (first | assumption | apply heldH_next | apply evHopHelloLanes_held)
theorem execHopAuthRetry_held {k : Keep} {port : Nat} {s : State} (hs : Held k s) : HeldH k (execHopAuthRetry port s) := by
  unfold execHopAuthRetry
  repeat' with_reducible (first | assumption | apply heldH_next | apply evHopAuthRetry_held)
theorem execPortDNoPartner_held {k : Keep} {port : Nat} {cordEnd : CordEnd} {s : State} (hs : Held k s) : HeldH k (execPortDNoPartner port cordEnd
    s) := by
  unfold execPortDNoPartner
  repeat' with_reducible (first | assumption | apply heldH_next | apply evPortDNoPartner_held)
theorem execStepUpEval_held {k : Keep} {port : Nat} {step : Nat} {ok : List Bool} {s : State} (hs : Held k s) : HeldH k (execStepUpEval port step ok
    s) := by
  unfold execStepUpEval
  repeat' with_reducible (first | assumption | apply heldH_next | apply evStepUpLanes_held)
theorem execLinkLost_held {k : Keep} {port : Nat} {s : State} (hs : Held k s) : HeldH k (execLinkLost port s) := by
  unfold execLinkLost
  repeat' with_reducible (first | assumption | apply heldH_next | apply evLinkLostLanes_held)
theorem execBerCheck_held {k : Keep} {port : Nat} {errs : Nat} {s : State} (hs : Held k s) : HeldH k (execBerCheck port errs s) := by
  unfold execBerCheck
  repeat' with_reducible (first | assumption | apply heldH_next | apply evBerCheckLanes_held)
theorem execStarve_held {k : Keep} {port : Nat} {cls : Nat} {s : State} (hs : Held k s) : HeldH k (execStarve port cls s) := by
  unfold execStarve
  repeat' with_reducible (first | assumption | apply heldH_next | apply evStarve_held)
theorem execCreditRx_held {k : Keep} {port : Nat} {cls : Nat} {freed : Nat} {s : State} (hs : Held k s) : HeldH k (execCreditRx port cls freed
    s) := by
  unfold execCreditRx
  repeat' with_reducible (first | assumption | apply heldH_next | apply evCreditRx_held)
theorem execProbeTimer_held {k : Keep} {s : State} (hs : Held k s) : HeldH k (execProbeTimer s) := by
  unfold execProbeTimer
  repeat' with_reducible (first | assumption | apply heldH_next | apply evProbeTimer_held)
theorem execProbeRx_held {k : Keep} {port : Nat} {id : Nat} {s : State} (hs : Held k s) : HeldH k (execProbeRx port id s) := by
  unfold execProbeRx
  repeat' with_reducible (first | assumption | apply heldH_next | apply evProbeRx_held)
theorem execEchoRx_held {k : Keep} {port : Nat} {id : Nat} {s : State} (hs : Held k s) : HeldH k (execEchoRx port id s) := by
  unfold execEchoRx
  repeat' with_reducible (first | assumption | apply heldH_next | apply evEchoRx_held)
theorem execTimeRspRx_held {k : Keep} {rx : CordRx} {id : Nat} {t2fr : Nat} {t3fr : Nat} {t2ns : Nat} {t3ns : Nat} {s : State} (hs : Held k s) : HeldH
    k (execTimeRspRx rx id t2fr t3fr t2ns t3ns s) := by
  unfold execTimeRspRx
  repeat' with_reducible (first | assumption | apply heldH_next | apply evTimeRspRx_held)
theorem execEventRx_held {k : Keep} {rx : CordRx} {eseq : Word} {code : Nat} {data : List Byte} {s : State} (hs : Held k s) : HeldH k (execEventRx rx
    eseq code data s) := by
  unfold execEventRx
  repeat' with_reducible (first | assumption | apply heldH_next | apply evEventRx_held)
theorem execCtrlRspRx_held {k : Keep} {rx : CordRx} {seq : Word} {op : Nat} {status : Nat} {data : List Byte} {s : State} (hs : Held k s) : HeldH k
    (execCtrlRspRx rx seq op status data s) := by
  unfold execCtrlRspRx
  repeat' with_reducible (first | assumption | apply heldH_next | apply settle_held | apply evCtrlRspRx_held)
theorem execCtrlReqRetry_held {k : Keep} {port : Nat} {pos : Nat} {seq : Option Word} {s : State} (hs : Held k s) : HeldH k (execCtrlReqRetry port pos
    seq s) := by
  unfold execCtrlReqRetry
  repeat' with_reducible (first | assumption | apply heldH_next | apply settle_held | apply evCtrlReqRetryRow_held)
theorem execRingOkTimeout_held {k : Keep} {port : Nat} {s : State} (hs : Held k s) : HeldH k (execRingOkTimeout port s) := by
  unfold execRingOkTimeout
  repeat' with_reducible (first | assumption | apply heldH_next | apply evRingOkTimeout_held)
theorem execCutThroughForward_held {k : Keep} {rx : CordRx} {body : CordBody} {s : State} (hs : Held k s) : HeldH k (execCutThroughForward rx body
    s) := by
  unfold execCutThroughForward
  repeat' with_reducible (first | assumption | apply heldH_next | apply evCutThroughForward_held)
theorem execDormantPortSignal_held {k : Keep} {port : Nat} {s : State} (hs : Held k s) : HeldH k (execDormantPortSignal port s) := by
  unfold execDormantPortSignal
  repeat' with_reducible (first | assumption | apply heldH_next | apply evDormantPortSignal_held)
/-! ### ExecTile -/
theorem execMarkRx_held {k : Keep} {rx : CordRx} {fcnt : Nat} {fper : Nat} {ntiles : Nat} {s : State} (hs : Held k s) : HeldH k (execMarkRx rx fcnt
    fper ntiles s) := by
  unfold execMarkRx
  repeat' with_reducible (first | assumption | apply heldH_next | apply evMarkRx_held)
theorem execPresentRx_held {k : Keep} {rx : CordRx} {fcnt : Nat} {ptime : Nat} {count : List Nat} {s : State} (hs : Held k s) : HeldH k (execPresentRx
    rx fcnt ptime count s) := by
  unfold execPresentRx
  repeat' with_reducible (first | assumption | apply heldH_next | apply evPresentRx_held)
theorem execBandRx_held {k : Keep} {rx : CordRx} {band : BandPkt} {fits : Bool} {s : State} (hs : Held k s) : HeldH k (execBandRx rx band fits
    s) := by
  unfold execBandRx
  repeat' with_reducible (first | assumption | apply heldH_next | apply evBandRx_held)
theorem execBandCorrectionDone_held {k : Keep} {s : State} (hs : Held k s) : HeldH k (execBandCorrectionDone s) := by
  unfold execBandCorrectionDone
  repeat' with_reducible (first | assumption | apply heldH_next | apply evBandCorrectionDone_held)
theorem execPtimeReached_held {k : Keep} {s : State} (hs : Held k s) : HeldH k (execPtimeReached s) := by
  unfold execPtimeReached
  repeat' with_reducible (first | assumption | apply heldH_next | apply evPtimeReached_held)
theorem execTestslotRx_held {k : Keep} {rx : CordRx} {fcnt : Nat} {tstart : Nat} {len : Nat} {s : State} (hs : Held k s) : HeldH k (execTestslotRx rx
    fcnt tstart len s) := by
  unfold execTestslotRx
  repeat' with_reducible (first | assumption | apply heldH_next | apply evTestslotRx_held)
theorem execEnum_held {k : Keep} {rx : CordRx} {seq : Word} {pos : Nat} {s : State} (hs : Held k s) : HeldH k (execEnum rx seq pos s) := by
  unfold execEnum
  repeat' with_reducible (first | assumption | apply heldH_next | apply evEnum_held)
theorem execRateStep_held {k : Keep} {rx : CordRx} {seq : Word} {data : List Byte} {s : State} (hs : Held k s) : HeldH k (execRateStep rx seq data
    s) := by
  unfold execRateStep
  repeat' with_reducible (first | assumption | apply heldH_next | apply evRateStep_held)
theorem execStatus_held {k : Keep} {rx : CordRx} {seq : Word} {s : State} (hs : Held k s) : HeldH k (execStatus rx seq s) := by
  unfold execStatus
  repeat' with_reducible (first | assumption | apply heldH_next | apply evStatus_held)
theorem execCtrlAttest_held {k : Keep} {rx : CordRx} {seq : Word} {nonce : List Byte} {s : State} (hs : Held k s) : HeldH k (execCtrlAttest rx seq
    nonce s) := by
  unfold execCtrlAttest
  repeat' with_reducible (first | assumption | apply heldH_next | apply evCtrlAttest_held)
theorem execOwnerSet_held {k : Keep} {rx : CordRx} {seq : Word} {root : List Byte} {s : State} (hs : Held k s) : HeldH k (execOwnerSet rx seq root
    s) := by
  unfold execOwnerSet
  repeat' with_reducible (first | assumption | apply heldH_next | apply evOwnerSet_held)
theorem execCtrlKeySet_held {k : Keep} {rx : CordRx} {seq : Word} {add : Bool} {key : List Byte} {s : State} (hs : Held k s) : HeldH k (execCtrlKeySet
    rx seq add key s) := by
  unfold execCtrlKeySet
  repeat' with_reducible (first | assumption | apply heldH_next | apply evCtrlKeySet_held)
theorem execCtrlOwnerXfer_held {k : Keep} {rx : CordRx} {seq : Word} {obj : SignedObj} {s : State} (hs : Held k s) : HeldH k (execCtrlOwnerXfer rx seq
    obj s) := by
  unfold execCtrlOwnerXfer
  repeat' with_reducible (first | assumption | apply heldH_next | apply evCtrlOwnerXfer_held)
theorem execCtrlDebugNonce_held {k : Keep} {rx : CordRx} {seq : Word} {s : State} (hs : Held k s) : HeldH k (execCtrlDebugNonce rx seq s) := by
  unfold execCtrlDebugNonce
  repeat' with_reducible (first | assumption | apply heldH_next | apply evCtrlDebugNonce_held)
theorem execCtrlDebugToken_held {k : Keep} {rx : CordRx} {seq : Word} {obj : SignedObj} {s : State} (hs : Held k s) : HeldH k (execCtrlDebugToken rx
    seq obj s) := by
  unfold execCtrlDebugToken
  repeat' with_reducible (first | assumption | apply heldH_next | apply evCtrlDebugToken_held)
theorem execCtrlPower_held {k : Keep} {rx : CordRx} {seq : Word} {state : Nat} {fcnt : Nat} {s : State} (hs : Held k s) : HeldH k (execCtrlPower rx
    seq state fcnt s) := by
  unfold execCtrlPower
  repeat' with_reducible (first | assumption | apply heldH_next | apply evCtrlPower_held)
theorem execStage_held {k : Keep} {rx : CordRx} {seq : Word} {kind : Nat} {len : Nat} {digest : List Byte} {s : State} (hs : Held k s) : HeldH k
    (execStage rx seq kind len digest s) := by
  unfold execStage
  repeat' with_reducible (first | assumption | apply heldH_next | apply evStage_held)
theorem execStageData_held {k : Keep} {rx : CordRx} {seq : Word} {offset : Nat} {chunk : List Byte} {s : State} (hs : Held k s) : HeldH k
    (execStageData rx seq offset chunk s) := by
  unfold execStageData
  repeat' with_reducible (first | assumption | apply heldH_next | apply evStageData_held)
theorem execConfirm_held {k : Keep} {rx : CordRx} {seq : Word} {s : State} (hs : Held k s) : HeldH k (execConfirm rx seq s) := by
  unfold execConfirm
  repeat' with_reducible (first | assumption | apply heldH_next | apply evConfirm_held)
theorem execArm_held {k : Keep} {rx : CordRx} {seq : Word} {frame : Nat} {s : State} (hs : Held k s) : HeldH k (execArm rx seq frame s) := by
  unfold execArm
  repeat' with_reducible (first | assumption | apply heldH_next | apply evArm_held)
theorem execCancel_held {k : Keep} {rx : CordRx} {seq : Word} {s : State} (hs : Held k s) : HeldH k (execCancel rx seq s) := by
  unfold execCancel
  repeat' with_reducible (first | assumption | apply heldH_next | apply evCancel_held)
theorem execFwData_held {k : Keep} {rx : CordRx} {seq : Word} {offset : Nat} {chunk : List Byte} {last : Bool} {s : State} (hs : Held k s) : HeldH k
    (execFwData rx seq offset chunk last s) := by
  unfold execFwData
  repeat' with_reducible (first | assumption | apply heldH_next | apply evFwData_held)
/-! ### ExecAudio -/
theorem execAudio_held {k : Keep} {rx : CordRx} {data : List Byte} {s : State} (hs : Held k s) : HeldH k (execAudio rx data s) := by
  unfold execAudio
  repeat' with_reducible (first | assumption | apply heldH_next | apply evAudio_held)
theorem execAudioBlockDue_held {k : Keep} {timestamp : Nat} {s : State} (hs : Held k s) : HeldH k (execAudioBlockDue timestamp s) := by
  unfold execAudioBlockDue
  repeat' with_reducible (first | assumption | apply heldH_next | apply evAudioBlockDue_held)
theorem execCamEnable_held {k : Keep} {value : Word} {s : State} (hs : Held k s) : HeldH k (execCamEnable value s) := by
  unfold execCamEnable
  repeat' with_reducible (first | assumption | apply heldH_next | apply evCamEnable_held)
theorem execCamFrameStart_held {k : Keep} {nack : Option Nat} {s : State} (hs : Held k s) : HeldH k (execCamFrameStart nack s) := by
  unfold execCamFrameStart
  repeat' with_reducible (first | assumption | apply heldH_next | apply evCamFrameStart_held)
theorem execCamFrameEnd_held {k : Keep} {lines : List (List Nat)} {took : Bool} {s : State} (hs : Held k s) : HeldH k (execCamFrameEnd lines took
    s) := by
  unfold execCamFrameEnd
  repeat' with_reducible (first | assumption | apply heldH_next | apply evCamFrameEnd_held)
theorem execPcommit_held {k : Keep} {s : State} (hs : Held k s) : HeldH k (execPcommit s) := by
  unfold execPcommit
  repeat' with_reducible (first | assumption | apply heldH_next | apply evPcommit_held)
theorem execAudioFrameBoundary_held {k : Keep} {port : Nat} {ue : Bool} {s : State} (hs : Held k s) : HeldH k (execAudioFrameBoundary port ue s) := by
  unfold execAudioFrameBoundary
  repeat' with_reducible (first | assumption | apply heldH_next | apply evAudioFrameBoundary_held)
theorem execAudCfgWrite_held {k : Keep} {port : Nat} {value : Word} {s : State} (hs : Held k s) : HeldH k (execAudCfgWrite port value s) := by
  unfold execAudCfgWrite
  repeat' with_reducible (first | assumption | apply heldH_next | apply evAudCfgWrite_held)
/-! ### ExecLamp -/
theorem execLampTempCycle_held {k : Keep} {raws : List (Option Nat)} {s : State} (hs : Held k s) : HeldH k (execLampTempCycle raws s) := by
  unfold execLampTempCycle
  repeat' with_reducible (first | assumption | apply heldH_next | apply evLampTempCycle_held)
theorem execTempReadingRx_held {k : Keep} {pos : Nat} {temps : List Nat} {loc : Nat} {valid : Nat} {s : State} (hs : Held k s) : HeldH k
    (execTempReadingRx pos temps loc valid s) := by
  unfold execTempReadingRx
  repeat' with_reducible (first | assumption | apply heldH_next | apply evTempReadingRx_held)
theorem execTempRingTimeout_held {k : Keep} {sensor : Nat} {s : State} (hs : Held k s) : HeldH k (execTempRingTimeout sensor s) := by
  unfold execTempRingTimeout
  repeat' with_reducible (first | assumption | apply heldH_next | apply evTempRingTimeout_held)
theorem execGenSwitchTimeout_held {k : Keep} {s : State} (hs : Held k s) : HeldH k (execGenSwitchTimeout s) := by
  unfold execGenSwitchTimeout
  repeat' with_reducible (first | assumption | apply heldH_next | apply evGenSwitchTimeout_held)
theorem execSweepDone_held {k : Keep} {s : State} (hs : Held k s) : HeldH k (execSweepDone s) := by
  unfold execSweepDone
  repeat' with_reducible (first | assumption | apply heldH_next | apply evSweepDone_held)
theorem execSweepCommitTimeout_held {k : Keep} {s : State} (hs : Held k s) : HeldH k (execSweepCommitTimeout s) := by
  unfold execSweepCommitTimeout
  repeat' with_reducible (first | assumption | apply heldH_next | apply evSweepCommitTimeout_held)
theorem execLampSweep_held {k : Keep} {s : State} (hs : Held k s) : HeldH k (execLampSweep s) := by
  unfold execLampSweep
  repeat' with_reducible (first | assumption | apply heldH_next | apply evLampSweepRow_held)
theorem execCalLoadDone_held {k : Keep} {s : State} (hs : Held k s) : HeldH k (execCalLoadDone s) := by
  unfold execCalLoadDone
  repeat' with_reducible (first | assumption | apply heldH_next | apply evCalLoadDone_held)
theorem execLampClke_held {k : Keep} {value : Word} {s : State} (hs : Held k s) : HeldH k (execLampClke value s) := by
  unfold execLampClke
  repeat' with_reducible (first | assumption | apply heldH_next | apply evLampClkeRow_held)
theorem execLampBright_held {k : Keep} {value : Nat} {s : State} (hs : Held k s) : HeldH k (execLampBright value s) := by
  unfold execLampBright
  repeat' with_reducible (first | assumption | apply heldH_next | apply evLampBright_held)
theorem execRampStep_held {k : Keep} {s : State} (hs : Held k s) : HeldH k (execRampStep s) := by
  unfold execRampStep
  repeat' with_reducible (first | assumption | apply heldH_next | apply evRampStep_held)
theorem execHeadroomWindowEnd_held {k : Keep} {mode : Option Nat} {acks : List Bool} {s : State} (hs : Held k s) : HeldH k (execHeadroomWindowEnd mode
    acks s) := by
  unfold execHeadroomWindowEnd
  repeat' with_reducible (first | assumption | apply heldH_next | apply evHeadroomWindowEndRow_held)
theorem execSupplyVoteRx_held {k : Keep} {pos : Nat} {vote : Nat} {masterSet : Bool} {pmbEn : Bool} {vsag : Bool} {setpoint : Nat} {fails : Nat} {s :
    State} (hs : Held k s) : HeldH k (execSupplyVoteRx pos vote masterSet pmbEn vsag setpoint fails s) := by
  unfold execSupplyVoteRx
  repeat' with_reducible (first | assumption | apply heldH_next | apply evSupplyVoteRx_held)
theorem execBrightnessRequest_held {k : Keep} {rx : CordRx} {seq : Word} {bright : Nat} {s : State} (hs : Held k s) : HeldH k (execBrightnessRequest
    rx seq bright s) := by
  unfold execBrightnessRequest
  repeat' with_reducible (first | assumption | apply heldH_next | apply evBrightnessRequest_held)
theorem execLampTfRequest_held {k : Keep} {rx : CordRx} {seq : Word} {tf : Nat} {s : State} (hs : Held k s) : HeldH k (execLampTfRequest rx seq tf
    s) := by
  unfold execLampTfRequest
  repeat' with_reducible (first | assumption | apply heldH_next | apply evLampTfRequest_held)
theorem execClinkerMapRequest_held {k : Keep} {rx : CordRx} {seq : Word} {entries : List Word} {s : State} (hs : Held k s) : HeldH k
    (execClinkerMapRequest rx seq entries s) := by
  unfold execClinkerMapRequest
  repeat' with_reducible (first | assumption | apply heldH_next | apply evClinkerMapRequest_held)
/-! ### ExecTest -/
theorem execTestOpArm_held {k : Keep} {rx : CordRx} {data : List Byte} {s : State} (hs : Held k s) : HeldH k (execTestOpArm rx data s) := by
  unfold execTestOpArm
  repeat' with_reducible (first | assumption | apply heldH_next | apply evTestOpArm_held)
theorem execTestOpAbort_held {k : Keep} {rx : CordRx} {data : List Byte} {s : State} (hs : Held k s) : HeldH k (execTestOpAbort rx data s) := by
  unfold execTestOpAbort
  repeat' with_reducible (first | assumption | apply heldH_next | apply evTestOpAbort_held)
theorem execTestOpResend_held {k : Keep} {rx : CordRx} {data : List Byte} {s : State} (hs : Held k s) : HeldH k (execTestOpResend rx data s) := by
  unfold execTestOpResend
  repeat' with_reducible (first | assumption | apply heldH_next | apply evTestOpResend_held)
theorem execTestWindowOpen_held {k : Keep} {s : State} (hs : Held k s) : HeldH k (execTestWindowOpen s) := by
  unfold execTestWindowOpen
  repeat' with_reducible (first | assumption | apply heldH_next | apply evTestWindowOpen_held)
theorem execTestWindowClose_held {k : Keep} {s : State} (hs : Held k s) : HeldH k (execTestWindowClose s) := by
  unfold execTestWindowClose
  repeat' with_reducible (first | assumption | apply heldH_next | apply evTestWindowClose_held)
theorem execFullTestPoll_held {k : Keep} {s : State} (hs : Held k s) : HeldH k (execFullTestPoll s) := by
  unfold execFullTestPoll
  repeat' with_reducible (first | assumption | apply heldH_next | apply evFullTestPoll_held)
theorem execFullTestLimit_held {k : Keep} {s : State} (hs : Held k s) : HeldH k (execFullTestLimit s) := by
  unfold execFullTestLimit
  repeat' with_reducible (first | assumption | apply heldH_next | apply evFullTestLimit_held)
theorem execTestResRx_held {k : Keep} {rx : CordRx} {res : TestResPkt} {s : State} (hs : Held k s) : HeldH k (execTestResRx rx res s) := by
  unfold execTestResRx
  repeat' with_reducible (first | assumption | apply heldH_next | apply evTestResRx_held)
theorem execTestCollectTimeout_held {k : Keep} {s : State} (hs : Held k s) : HeldH k (execTestCollectTimeout s) := by
  unfold execTestCollectTimeout
  repeat' with_reducible (first | assumption | apply heldH_next | apply evTestCollectTimeout_held)
theorem execRunTimeout_held {k : Keep} {s : State} (hs : Held k s) : HeldH k (execRunTimeout s) := by
  unfold execRunTimeout
  repeat' with_reducible (first | assumption | apply heldH_next | apply evRunTimeout_held)
/-! ### ExecClaim -/
theorem execHeartbeatTimer_held {k : Keep} {s : State} (hs : Held k s) : HeldH k (execHeartbeatTimer s) := by
  unfold execHeartbeatTimer
  repeat' with_reducible (first | assumption | apply heldH_next | apply evHeartbeatTimer_held)
theorem execHeartbeatTimeout_held {k : Keep} {referee : Bool} {s : State} (hs : Held k s) : HeldH k (execHeartbeatTimeout referee s) := by
  unfold execHeartbeatTimeout
  repeat' with_reducible (first | assumption | apply heldH_next | apply settle_held | apply evHeartbeatTimeout_held)
theorem execHeartbeatRx_held {k : Keep} {hb : Heartbeat} {s : State} (hs : Held k s) : HeldH k (execHeartbeatRx hb s) := by
  unfold execHeartbeatRx
  repeat' with_reducible (first | assumption | apply heldH_next | apply settle_held | apply evHeartbeatRx_held)
theorem execRefereeEvaluation_held {k : Keep} {swaps : List SwapIn} {s : State} (hs : Held k s) : HeldH k (execRefereeEvaluation swaps s) := by
  unfold execRefereeEvaluation
  repeat' with_reducible (first | assumption | apply heldH_next | apply settle_held | apply evRefereeEvaluation_held)
theorem execRefereeStartupWait_held {k : Keep} {s : State} (hs : Held k s) : HeldH k (execRefereeStartupWait s) := by
  unfold execRefereeStartupWait
  repeat' with_reducible (first | assumption | apply heldH_next | apply settle_held | apply evRefereeStartupWait_held)
theorem execGrantRx_held {k : Keep} {claim : BitVec 64} {holder : Nat} {s : State} (hs : Held k s) : HeldH k (execGrantRx claim holder s) := by
  unfold execGrantRx
  repeat' with_reducible (first | assumption | apply heldH_next | apply settle_held | apply evGrantRx_held)
theorem execSwapRspRx_held {k : Keep} {cur : BitVec 64} {status : Nat} {seq : Word} {s : State} (hs : Held k s) : HeldH k (execSwapRspRx cur status
    seq s) := by
  unfold execSwapRspRx
  repeat' with_reducible (first | assumption | apply heldH_next | apply settle_held | apply evSwapRspRx_held)
theorem execSwapReqRetry_held {k : Keep} {s : State} (hs : Held k s) : HeldH k (execSwapReqRetry s) := by
  unfold execSwapReqRetry
  repeat' with_reducible (first | assumption | apply heldH_next | apply settle_held | apply evSwapReqRetry_held)
theorem execClmSwapReq_held {k : Keep} {s : State} (hs : Held k s) : HeldH k (execClmSwapReq s) := by
  unfold execClmSwapReq
  repeat' with_reducible (first | assumption | apply heldH_next | apply evClmSwapReq_held)
theorem execMirrorRx_held {k : Keep} {mgen : Word} {item : MirrorItem} {bulk : Bool} {s : State} (hs : Held k s) : HeldH k (execMirrorRx mgen item
    bulk s) := by
  unfold execMirrorRx
  repeat' with_reducible (first | assumption | apply heldH_next | apply evMirrorRx_held)
theorem execMirrorAckRx_held {k : Keep} {mgen : Word} {item : Nat} {s : State} (hs : Held k s) : HeldH k (execMirrorAckRx mgen item s) := by
  unfold execMirrorAckRx
  repeat' with_reducible (first | assumption | apply heldH_next | apply settle_held | apply evMirrorAckRx_held)
theorem execMirrorAckTimeout_held {k : Keep} {s : State} (hs : Held k s) : HeldH k (execMirrorAckTimeout s) := by
  unfold execMirrorAckTimeout
  repeat' with_reducible (first | assumption | apply heldH_next | apply settle_held | apply evMirrorAckTimeout_held)
theorem execRelayRx_held {k : Keep} {port : Nat} {dir : Nat} {pkt : CordPkt} {s : State} (hs : Held k s) : HeldH k (execRelayRx port dir pkt s) := by
  unfold execRelayRx
  repeat' with_reducible (first | assumption | apply heldH_next | apply settle_held | apply evRelayRx_held)
theorem execRingHelloTimer_held {k : Keep} {s : State} (hs : Held k s) : HeldH k (execRingHelloTimer s) := by
  unfold execRingHelloTimer
  repeat' with_reducible (first | assumption | apply heldH_next | apply evRingHelloTimer_held)
theorem execRingHelloRx_held {k : Keep} {hello : RingHello} {s : State} (hs : Held k s) : HeldH k (execRingHelloRx hello s) := by
  unfold execRingHelloRx
  repeat' with_reducible (first | assumption | apply heldH_next | apply evRingHelloRx_held)
theorem execRingFormStable_held {k : Keep} {s : State} (hs : Held k s) : HeldH k (execRingFormStable s) := by
  unfold execRingFormStable
  repeat' with_reducible (first | assumption | apply heldH_next | apply evRingFormStable_held)
theorem execRingFormTimeout_held {k : Keep} {s : State} (hs : Held k s) : HeldH k (execRingFormTimeout s) := by
  unfold execRingFormTimeout
  repeat' with_reducible (first | assumption | apply heldH_next | apply evRingFormTimeout_held)
/-! ### ExecHearth -/
theorem execDtlsClientHello_held {k : Keep} {spi : Bool} {port : Nat} {cookie : Bool} {share : Bool} {suite : Bool} {scheme : Bool} {s : State} (hs :
    Held k s) : HeldH k (execDtlsClientHello spi port cookie share suite scheme s) := by
  unfold execDtlsClientHello
  repeat' with_reducible (first | assumption | apply heldH_next | apply evDtlsClientHello_held | apply spiTake_held)
theorem execDtlsKeyUpdate_held {k : Keep} {session : Nat} {s : State} (hs : Held k s) : HeldH k (execDtlsKeyUpdate session s) := by
  unfold execDtlsKeyUpdate
  repeat' with_reducible (first | assumption | apply heldH_next | apply evDtlsKeyUpdate_held)
theorem execSessionIdleTimeout_held {k : Keep} {session : Nat} {s : State} (hs : Held k s) : HeldH k (execSessionIdleTimeout session s) := by
  unfold execSessionIdleTimeout
  repeat' with_reducible (first | assumption | apply heldH_next | apply evSessionIdleTimeout_held)
theorem execNonceReq_held {k : Keep} {s : State} (hs : Held k s) : HeldH k (execNonceReq s) := by
  unfold execNonceReq
  repeat' with_reducible (first | assumption | apply heldH_next | apply evNonceReq_held)
theorem execNonceExpiry_held {k : Keep} {s : State} (hs : Held k s) : HeldH k (execNonceExpiry s) := by
  unfold execNonceExpiry
  repeat' with_reducible (first | assumption | apply heldH_next | apply evNonceExpiry_held)
theorem execFuseStepDone_held {k : Keep} {s : State} (hs : Held k s) : HeldH k (execFuseStepDone s) := by
  unfold execFuseStepDone
  repeat' with_reducible (first | assumption | apply heldH_next | apply evFuseStepDone_held)
theorem execClientCertificate_held {k : Keep} {spi : Bool} {port : Nat} {leaf : List Byte} {proof : Bool} {s : State} (hs : Held k s) : HeldH k
    (execClientCertificate spi port leaf proof s) := by
  unfold execClientCertificate
  repeat' with_reducible (first | assumption | apply heldH_next | apply evClientCertificate_held | apply spiTake_held)
/-! ### ExecPop -/
theorem execBoffEval_held {k : Keep} {s : State} (hs : Held k s) : HeldH k (execBoffEval s) := by
  unfold execBoffEval
  repeat' with_reducible (first | assumption | apply heldH_next | apply evBoffEval_held)
theorem execPopFrameEvalTimeout_held {k : Keep} {s : State} (hs : Held k s) : HeldH k (execPopFrameEvalTimeout s) := by
  unfold execPopFrameEvalTimeout
  repeat' with_reducible (first | assumption | apply heldH_next | apply evPopFrameEvalTimeout_held)
theorem execPopCheckpoint_held {k : Keep} {s : State} (hs : Held k s) : HeldH k (execPopCheckpoint s) := by
  unfold execPopCheckpoint
  repeat' with_reducible (first | assumption | apply heldH_next | apply evPopCheckpoint_held)
theorem execPopCkpt_held {k : Keep} {s : State} (hs : Held k s) : HeldH k (execPopCkpt s) := by
  unfold execPopCkpt
  repeat' with_reducible (first | assumption | apply heldH_next | apply evPopCkpt_held)
/-! ### ExecStore -/
theorem execNandEraseDone_held {k : Keep} {ok : Bool} {blank : Bool} {s : State} (hs : Held k s) : HeldH k (execNandEraseDone ok blank s) := by
  unfold execNandEraseDone
  repeat' with_reducible (first | assumption | apply heldH_next | apply settle_held | apply evNandEraseDoneRow_held)
theorem execNandProgramDone_held {k : Keep} {ok : Bool} {s : State} (hs : Held k s) : HeldH k (execNandProgramDone ok s) := by
  unfold execNandProgramDone
  repeat' with_reducible (first | assumption | apply heldH_next | apply settle_held | apply evNandProgramDoneRow_held)
theorem execNandReadDone_held {k : Keep} {secs : List (Option Nat)} {s : State} (hs : Held k s) : HeldH k (execNandReadDone secs s) := by
  unfold execNandReadDone
  repeat' with_reducible (first | assumption | apply heldH_next | apply settle_held | apply evNandReadDone_held)
theorem execNandPaceTick_held {k : Keep} {s : State} (hs : Held k s) : HeldH k (execNandPaceTick s) := by
  unfold execNandPaceTick
  repeat' with_reducible (first | assumption | apply heldH_next | apply evNandPaceTickRow_held)
theorem execScrubTick_held {k : Keep} {s : State} (hs : Held k s) : HeldH k (execScrubTick s) := by
  unfold execScrubTick
  repeat' with_reducible (first | assumption | apply heldH_next | apply evScrubTickRow_held)
theorem execNandScrubNow_held {k : Keep} {s : State} (hs : Held k s) : HeldH k (execNandScrubNow s) := by
  unfold execNandScrubNow
  repeat' with_reducible (first | assumption | apply heldH_next | apply evNandScrubNowRow_held)
theorem execQspiWriteDone_held {k : Keep} {ok : Bool} {s : State} (hs : Held k s) : HeldH k (execQspiWriteDone ok s) := by
  unfold execQspiWriteDone
  repeat' with_reducible (first | assumption | apply heldH_next | apply settle_held | apply evQspiWriteDone_held)
theorem execCfgSlotWrite_held {k : Keep} {s : State} (hs : Held k s) : HeldH k (execCfgSlotWrite s) := by
  unfold execCfgSlotWrite
  repeat' with_reducible (first | assumption | apply heldH_next | apply evCfgSlotWrite_held)
/-! ### ExecDdr -/
theorem execDdrRequest_held {k : Keep} {req : BusReq} {s : State} (hs : Held k s) : HeldH k (execDdrRequest req s) := by
  unfold execDdrRequest
  repeat' with_reducible (first | assumption | apply heldH_next | apply evDdrRequest_held)
theorem execDdrReadData_held {k : Keep} {req : BusReq} {bits : Nat} {s : State} (hs : Held k s) : HeldH k (execDdrReadData req bits s) := by
  unfold execDdrReadData
  repeat' with_reducible (first | assumption | apply heldH_next | apply evDdrReadData_held)
theorem execDdrRefresh_held {k : Keep} {s : State} (hs : Held k s) : HeldH k (execDdrRefresh s) := by
  unfold execDdrRefresh
  repeat' with_reducible (first | assumption | apply heldH_next | apply evDdrRefresh_held)
theorem execDdrMr4Poll_held {k : Keep} {x2 : Bool} {s : State} (hs : Held k s) : HeldH k (execDdrMr4Poll x2 s) := by
  unfold execDdrMr4Poll
  repeat' with_reducible (first | assumption | apply heldH_next | apply evDdrMr4Poll_held)
theorem execDqsAdjust_held {k : Keep} {s : State} (hs : Held k s) : HeldH k (execDqsAdjust s) := by
  unfold execDqsAdjust
  repeat' with_reducible (first | assumption | apply heldH_next | apply evDqsAdjust_held)
theorem execDdrRetryAck_held {k : Keep} {subch : Nat} {s : State} (hs : Held k s) : HeldH k (execDdrRetryAck subch s) := by
  unfold execDdrRetryAck
  repeat' with_reducible (first | assumption | apply heldH_next | apply evDdrRetryAck_held)
theorem execDdrAlert_held {k : Keep} {subch : Nat} {s : State} (hs : Held k s) : HeldH k (execDdrAlert subch s) := by
  unfold execDdrAlert
  repeat' with_reducible (first | assumption | apply heldH_next | apply evDdrAlert_held)
theorem execDdrAlertDeassert_held {k : Keep} {subch : Nat} {s : State} (hs : Held k s) : HeldH k (execDdrAlertDeassert subch s) := by
  unfold execDdrAlertDeassert
  repeat' with_reducible (first | assumption | apply heldH_next | apply evDdrAlertDeassert_held)
theorem execDdrRecovExpiry_held {k : Keep} {subch : Nat} {s : State} (hs : Held k s) : HeldH k (execDdrRecovExpiry subch s) := by
  unfold execDdrRecovExpiry
  repeat' with_reducible (first | assumption | apply heldH_next | apply evDdrRecovExpiry_held)
theorem execDdrRetrainDone_held {k : Keep} {subch : Nat} {ok : Bool} {s : State} (hs : Held k s) : HeldH k (execDdrRetrainDone subch ok s) := by
  unfold execDdrRetrainDone
  repeat' with_reducible (first | assumption | apply heldH_next | apply evDdrRetrainDone_held)
theorem execDdrRetrain_held {k : Keep} {s : State} (hs : Held k s) : HeldH k (execDdrRetrain s) := by
  unfold execDdrRetrain
  repeat' with_reducible (first | assumption | apply heldH_next | apply evDdrRetrain_held)
theorem execDdrScrubNow_held {k : Keep} {s : State} (hs : Held k s) : HeldH k (execDdrScrubNow s) := by
  unfold execDdrScrubNow
  repeat' with_reducible (first | assumption | apply heldH_next | apply evDdrScrubNow_held)
theorem execPatrolScrub_held {k : Keep} {bits : Nat} {s : State} (hs : Held k s) : HeldH k (execPatrolScrub bits s) := by
  unfold execPatrolScrub
  repeat' with_reducible (first | assumption | apply heldH_next | apply evPatrolScrub_held)
/-! ### ExecLane -/
theorem execEscanStart_held {k : Keep} {lane : Nat} {value : Word} {s : State} (hs : Held k s) : HeldH k (execEscanStart lane value s) := by
  unfold execEscanStart
  repeat' with_reducible (first | assumption | apply heldH_next | apply evEscanStart_held)
theorem execEscanAbort_held {k : Keep} {lane : Nat} {s : State} (hs : Held k s) : HeldH k (execEscanAbort lane s) := by
  unfold execEscanAbort
  repeat' with_reducible (first | assumption | apply heldH_next | apply evEscanAbort_held)
theorem execEscanPointDone_held {k : Keep} {lane : Nat} {errs : Nat} {s : State} (hs : Held k s) : HeldH k (execEscanPointDone lane errs s) := by
  unfold execEscanPointDone
  repeat' with_reducible (first | assumption | apply heldH_next | apply evEscanPointDone_held)
theorem execEscanTimeout_held {k : Keep} {lane : Nat} {s : State} (hs : Held k s) : HeldH k (execEscanTimeout lane s) := by
  unfold execEscanTimeout
  repeat' with_reducible (first | assumption | apply heldH_next | apply evEscanTimeout_held)
theorem execLaneTxSleep_held {k : Keep} {port : Nat} {s : State} (hs : Held k s) : HeldH k (execLaneTxSleep port s) := by
  unfold execLaneTxSleep
  repeat' with_reducible (first | assumption | apply heldH_next | apply evLaneTxSleep_held)
theorem execLaneScheduledWake_held {k : Keep} {port : Nat} {s : State} (hs : Held k s) : HeldH k (execLaneScheduledWake port s) := by
  unfold execLaneScheduledWake
  repeat' with_reducible (first | assumption | apply heldH_next | apply evLaneScheduledWake_held)
theorem execLaneKeepaliveWake_held {k : Keep} {port : Nat} {s : State} (hs : Held k s) : HeldH k (execLaneKeepaliveWake port s) := by
  unfold execLaneKeepaliveWake
  repeat' with_reducible (first | assumption | apply heldH_next | apply evLaneKeepaliveWake_held)
theorem execLaneWakeDone_held {k : Keep} {port : Nat} {s : State} (hs : Held k s) : HeldH k (execLaneWakeDone port s) := by
  unfold execLaneWakeDone
  repeat' with_reducible (first | assumption | apply heldH_next | apply evLaneWakeDone_held)
theorem execLaneRxSleep_held {k : Keep} {port : Nat} {s : State} (hs : Held k s) : HeldH k (execLaneRxSleep port s) := by
  unfold execLaneRxSleep
  repeat' with_reducible (first | assumption | apply heldH_next | apply evLaneRxSleep_held)
theorem execLaneRxRelock_held {k : Keep} {port : Nat} {s : State} (hs : Held k s) : HeldH k (execLaneRxRelock port s) := by
  unfold execLaneRxRelock
  repeat' with_reducible (first | assumption | apply heldH_next | apply evLaneRxRelock_held)
theorem execRelockfail_held {k : Keep} {port : Nat} {s : State} (hs : Held k s) : HeldH k (execRelockfail port s) := by
  unfold execRelockfail
  repeat' with_reducible (first | assumption | apply heldH_next | apply evRelockfail_held)
theorem execLaneSleepTimeout_held {k : Keep} {port : Nat} {s : State} (hs : Held k s) : HeldH k (execLaneSleepTimeout port s) := by
  unfold execLaneSleepTimeout
  repeat' with_reducible (first | assumption | apply heldH_next | apply evLaneSleepTimeout_held)
/-! ### ExecKiln -/
theorem execKilnRunStart_held {k : Keep} {s : State} (hs : Held k s) : HeldH k (execKilnRunStart s) := by
  unfold execKilnRunStart
  repeat' with_reducible (first | assumption | apply heldH_next | apply evKilnRunStart_held)
theorem execKilnMeasurementDone_held {k : Keep} {result : KilnPair} {s : State} (hs : Held k s) : HeldH k (execKilnMeasurementDone result s) := by
  unfold execKilnMeasurementDone
  repeat' with_reducible (first | assumption | apply heldH_next | apply evKilnMeasurementDone_held)
theorem execKilnRunTimeout_held {k : Keep} {s : State} (hs : Held k s) : HeldH k (execKilnRunTimeout s) := by
  unfold execKilnRunTimeout
  repeat' with_reducible (first | assumption | apply heldH_next | apply evKilnRunTimeout_held)
theorem execKilnRun_held {k : Keep} {s : State} (hs : Held k s) : HeldH k (execKilnRun s) := by
  unfold execKilnRun
  repeat' with_reducible (first | assumption | apply heldH_next | apply evKilnRun_held)
theorem execKilnTargetUpdate_held {k : Keep} {s : State} (hs : Held k s) : HeldH k (execKilnTargetUpdate s) := by
  unfold execKilnTargetUpdate
  repeat' with_reducible (first | assumption | apply heldH_next | apply evKilnTargetUpdate_held)
theorem execKilnTrimStep_held {k : Keep} {s : State} (hs : Held k s) : HeldH k (execKilnTrimStep s) := by
  unfold execKilnTrimStep
  repeat' with_reducible (first | assumption | apply heldH_next | apply evKilnTrimStep_held)
theorem execAgeingMeasure_held {k : Keep} {degs : List (Option Int)} {s : State} (hs : Held k s) : HeldH k (execAgeingMeasure degs s) := by
  unfold execAgeingMeasure
  repeat' with_reducible (first | assumption | apply heldH_next | apply evAgeingMeasure_held)
theorem execLaneMarginScan_held {k : Keep} {lane : Nat} {left : Nat} {right : Nat} {top : Nat} {bottom : Nat} {s : State} (hs : Held k s) : HeldH k
    (execLaneMarginScan lane left right top bottom s) := by
  unfold execLaneMarginScan
  repeat' with_reducible (first | assumption | apply heldH_next | apply evLaneMarginScan_held)
theorem execPinDriftMeasure_held {k : Keep} {drifts : List (Nat × Int)} {s : State} (hs : Held k s) : HeldH k (execPinDriftMeasure drifts s) := by
  unfold execPinDriftMeasure
  repeat' with_reducible (first | assumption | apply heldH_next | apply evPinDriftMeasure_held)
theorem execEqhUpdate_held {k : Keep} {s : State} (hs : Held k s) : HeldH k (execEqhUpdate s) := by
  unfold execEqhUpdate
  repeat' with_reducible (first | assumption | apply heldH_next | apply evEqhUpdate_held)
theorem execMarginPlan_held {k : Keep} {ack : Bool} {s : State} (hs : Held k s) : HeldH k (execMarginPlan ack s) := by
  unfold execMarginPlan
  repeat' with_reducible (first | assumption | apply heldH_next | apply evMarginPlan_held)
theorem execPlanNow_held {k : Keep} {ack : Bool} {s : State} (hs : Held k s) : HeldH k (execPlanNow ack s) := by
  unfold execPlanNow
  repeat' with_reducible (first | assumption | apply heldH_next | apply evPlanNow_held)
theorem execAvsRetry_held {k : Keep} {ack : Bool} {s : State} (hs : Held k s) : HeldH k (execAvsRetry ack s) := by
  unfold execAvsRetry
  repeat' with_reducible (first | assumption | apply heldH_next | apply evAvsRetry_held)
/-! ### ExecFirmware -/
theorem execFwCommit_held {k : Keep} {s : State} (hs : Held k s) : HeldH k (execFwCommit s) := by
  unfold execFwCommit
  repeat' with_reducible (first | assumption | apply heldH_next | apply evFwCommit_held)
theorem execFwTrialTimeout_held {k : Keep} {s : State} (hs : Held k s) : HeldH k (execFwTrialTimeout s) := by
  unfold execFwTrialTimeout
  repeat' with_reducible (first | assumption | apply heldH_next | apply evFwTrialTimeout_held)
theorem execFwCtrlAbandon_held {k : Keep} {s : State} (hs : Held k s) : HeldH k (execFwCtrlAbandon s) := by
  unfold execFwCtrlAbandon
  repeat' with_reducible (first | assumption | apply heldH_next | apply evFwCtrlAbandon_held)
theorem execActivationPauseEnd_held {k : Keep} {s : State} (hs : Held k s) : HeldH k (execActivationPauseEnd s) := by
  unfold execActivationPauseEnd
  repeat' with_reducible (first | assumption | apply heldH_next | apply evActivationPauseEnd_held)
theorem execStageConfirmDeadline_held {k : Keep} {s : State} (hs : Held k s) : HeldH k (execStageConfirmDeadline s) := by
  unfold execStageConfirmDeadline
  repeat' with_reducible (first | assumption | apply heldH_next | apply testStaged_held | apply evStageConfirmDeadline_held)
theorem execStageArmDeadline_held {k : Keep} {s : State} (hs : Held k s) : HeldH k (execStageArmDeadline s) := by
  unfold execStageArmDeadline
  repeat' with_reducible (first | assumption | apply heldH_next | apply testStaged_held | apply evStageArmDeadline_held)
theorem execStageVerify_held {k : Keep} {s : State} (hs : Held k s) : HeldH k (execStageVerify s) := by
  unfold execStageVerify
  repeat' with_reducible (first | assumption | apply heldH_next | apply testStaged_held | apply evStageVerify_held)
theorem execFirmwareFault_held {k : Keep} {s : State} (hs : Held k s) : HeldH k (execFirmwareFault s) := by
  unfold execFirmwareFault
  repeat' with_reducible (first | assumption | apply heldH_next | apply evFirmwareFault_held)
/-! ### ExecSession -/
theorem execSpiWrite_held {k : Keep} {whole : Bool} {data : List Byte} {s : State} (hs : Held k s) : HeldH k (execSpiWrite whole data s) := by
  unfold execSpiWrite
  repeat' with_reducible (first | assumption | apply heldH_next | apply evSpiWrite_held)
theorem execSpiRead_held {k : Keep} {s : State} (hs : Held k s) : HeldH k (execSpiRead s) := by
  unfold execSpiRead
  repeat' with_reducible (first | assumption | apply heldH_next | apply evSpiRead_held)
theorem execInfo_held {k : Keep} {hdr : WcpHdr} {s : State} (hs : Held k s) : HeldH k (execInfo hdr s) := by
  unfold execInfo
  repeat' with_reducible (first | assumption | apply heldH_next | apply wcp_held)
theorem execPing_held {k : Keep} {hdr : WcpHdr} {data : List Byte} {s : State} (hs : Held k s) : HeldH k (execPing hdr data s) := by
  unfold execPing
  repeat' with_reducible (first | assumption | apply heldH_next | apply wcp_held)
theorem execClose_held {k : Keep} {hdr : WcpHdr} {s : State} (hs : Held k s) : HeldH k (execClose hdr s) := by
  unfold execClose
  repeat' with_reducible (first | assumption | apply heldH_next | apply wcp_held)
theorem execUploadOpen_held {k : Keep} {hdr : WcpHdr} {kind : Nat} {len : Nat} {digest : List Byte} {s : State} (hs : Held k s) : HeldH k
    (execUploadOpen hdr kind len digest s) := by
  unfold execUploadOpen
  repeat' with_reducible (first | assumption | apply heldH_next | apply wcp_held)
theorem execUploadData_held {k : Keep} {hdr : WcpHdr} {handle : Nat} {offset : Nat} {data : List Byte} {s : State} (hs : Held k s) : HeldH k
    (execUploadData hdr handle offset data s) := by
  unfold execUploadData
  repeat' with_reducible (first | assumption | apply heldH_next | apply wcp_held)
theorem execUploadClose_held {k : Keep} {hdr : WcpHdr} {handle : Nat} {s : State} (hs : Held k s) : HeldH k (execUploadClose hdr handle s) := by
  unfold execUploadClose
  repeat' with_reducible (first | assumption | apply heldH_next | apply wcp_held)
theorem execUploadTimeout_held {k : Keep} {session : Nat} {handle : Nat} {s : State} (hs : Held k s) : HeldH k (execUploadTimeout session handle
    s) := by
  unfold execUploadTimeout
  repeat' with_reducible (first | assumption | apply heldH_next | apply evUploadTimeout_held)
theorem execStatusRead_held {k : Keep} {hdr : WcpHdr} {item : Nat} {index : Nat} {port : Nat} {pos : Nat} {s : State} (hs : Held k s) : HeldH k
    (execStatusRead hdr item index port pos s) := by
  unfold execStatusRead
  repeat' with_reducible (first | assumption | apply heldH_next | apply wcp_held)
theorem execEventRead_held {k : Keep} {hdr : WcpHdr} {eseq : Word} {s : State} (hs : Held k s) : HeldH k (execEventRead hdr eseq s) := by
  unfold execEventRead
  repeat' with_reducible (first | assumption | apply heldH_next | apply wcp_held)
theorem execLogRead_held {k : Keep} {hdr : WcpHdr} {seq : Nat} {s : State} (hs : Held k s) : HeldH k (execLogRead hdr seq s) := by
  unfold execLogRead
  repeat' with_reducible (first | assumption | apply heldH_next | apply wcp_held)
theorem execTenantSet_held {k : Keep} {hdr : WcpHdr} {slot : Nat} {contents : TenantRec} {s : State} (hs : Held k s) : HeldH k (execTenantSet hdr slot
    contents s) := by
  unfold execTenantSet
  repeat' with_reducible (first | assumption | apply heldH_next | apply wcp_held)
theorem execTenantRemove_held {k : Keep} {hdr : WcpHdr} {slot : Nat} {s : State} (hs : Held k s) : HeldH k (execTenantRemove hdr slot s) := by
  unfold execTenantRemove
  repeat' with_reducible (first | assumption | apply heldH_next | apply wcp_held)
theorem execSlotAssign_held {k : Keep} {hdr : WcpHdr} {layer : Nat} {tenant : Nat} {s : State} (hs : Held k s) : HeldH k (execSlotAssign hdr layer
    tenant s) := by
  unfold execSlotAssign
  repeat' with_reducible (first | assumption | apply heldH_next | apply wcp_held)
theorem execOwnerInstall_held {k : Keep} {hdr : WcpHdr} {root : List Byte} {s : State} (hs : Held k s) : HeldH k (execOwnerInstall hdr root s) := by
  unfold execOwnerInstall
  repeat' with_reducible (first | assumption | apply heldH_next | apply wcp_held)
theorem execOwnerXfer_held {k : Keep} {hdr : WcpHdr} {obj : SignedObj} {s : State} (hs : Held k s) : HeldH k (execOwnerXfer hdr obj s) := by
  unfold execOwnerXfer
  repeat' with_reducible (first | assumption | apply heldH_next | apply wcp_held)
theorem execKeyAdd_held {k : Keep} {hdr : WcpHdr} {key : List Byte} {s : State} (hs : Held k s) : HeldH k (execKeyAdd hdr key s) := by
  unfold execKeyAdd
  repeat' with_reducible (first | assumption | apply heldH_next | apply wcp_held)
theorem execKeyRemove_held {k : Keep} {hdr : WcpHdr} {key : List Byte} {s : State} (hs : Held k s) : HeldH k (execKeyRemove hdr key s) := by
  unfold execKeyRemove
  repeat' with_reducible (first | assumption | apply heldH_next | apply wcp_held)
theorem execRefcredSet_held {k : Keep} {hdr : WcpHdr} {digest : List Byte} {s : State} (hs : Held k s) : HeldH k (execRefcredSet hdr digest s) := by
  unfold execRefcredSet
  repeat' with_reducible (first | assumption | apply heldH_next | apply wcp_held)
theorem execStepAuth_held {k : Keep} {hdr : WcpHdr} {obj : SignedObj} {s : State} (hs : Held k s) : HeldH k (execStepAuth hdr obj s) := by
  unfold execStepAuth
  repeat' with_reducible (first | assumption | apply heldH_next | apply wcp_held)
theorem execDebugNonce_held {k : Keep} {hdr : WcpHdr} {s : State} (hs : Held k s) : HeldH k (execDebugNonce hdr s) := by
  unfold execDebugNonce
  repeat' with_reducible (first | assumption | apply heldH_next | apply wcp_held)
theorem execDebugToken_held {k : Keep} {hdr : WcpHdr} {obj : SignedObj} {s : State} (hs : Held k s) : HeldH k (execDebugToken hdr obj s) := by
  unfold execDebugToken
  repeat' with_reducible (first | assumption | apply heldH_next | apply wcp_held)
theorem execFactoryReset_held {k : Keep} {hdr : WcpHdr} {s : State} (hs : Held k s) : HeldH k (execFactoryReset hdr s) := by
  unfold execFactoryReset
  repeat' with_reducible (first | assumption | apply heldH_next | apply wcp_held)
theorem execAttest_held {k : Keep} {hdr : WcpHdr} {nonce : List Byte} {port : Nat} {pos : Nat} {s : State} (hs : Held k s) : HeldH k (execAttest hdr
    nonce port pos s) := by
  unfold execAttest
  repeat' with_reducible (first | assumption | apply heldH_next | apply wcp_held)
theorem execFwInstall_held {k : Keep} {hdr : WcpHdr} {handle : Nat} {s : State} (hs : Held k s) : HeldH k (execFwInstall hdr handle s) := by
  unfold execFwInstall
  repeat' with_reducible (first | assumption | apply heldH_next | apply wcp_held)
theorem execFwActivate_held {k : Keep} {hdr : WcpHdr} {slot : Nat} {s : State} (hs : Held k s) : HeldH k (execFwActivate hdr slot s) := by
  unfold execFwActivate
  repeat' with_reducible (first | assumption | apply heldH_next | apply wcp_held)
theorem execFwAbandon_held {k : Keep} {hdr : WcpHdr} {s : State} (hs : Held k s) : HeldH k (execFwAbandon hdr s) := by
  unfold execFwAbandon
  repeat' with_reducible (first | assumption | apply heldH_next | apply wcp_held)
theorem execLaneInstall_held {k : Keep} {hdr : WcpHdr} {handle : Nat} {s : State} (hs : Held k s) : HeldH k (execLaneInstall hdr handle s) := by
  unfold execLaneInstall
  repeat' with_reducible (first | assumption | apply heldH_next | apply wcp_held)
theorem execRecoveryEnter_held {k : Keep} {hdr : WcpHdr} {s : State} (hs : Held k s) : HeldH k (execRecoveryEnter hdr s) := by
  unfold execRecoveryEnter
  repeat' with_reducible (first | assumption | apply heldH_next | apply wcp_held)
theorem execRecoveryExit_held {k : Keep} {hdr : WcpHdr} {s : State} (hs : Held k s) : HeldH k (execRecoveryExit hdr s) := by
  unfold execRecoveryExit
  repeat' with_reducible (first | assumption | apply heldH_next | apply wcp_held)
theorem execPower_held {k : Keep} {hdr : WcpHdr} {state : Nat} {s : State} (hs : Held k s) : HeldH k (execPower hdr state s) := by
  unfold execPower
  repeat' with_reducible (first | assumption | apply heldH_next | apply wcp_held)
theorem execCordPower_held {k : Keep} {hdr : WcpHdr} {ports : Nat} {fcnt : Nat} {s : State} (hs : Held k s) : HeldH k (execCordPower hdr ports fcnt
    s) := by
  unfold execCordPower
  repeat' with_reducible (first | assumption | apply heldH_next | apply wcp_held)
theorem execCordWake_held {k : Keep} {hdr : WcpHdr} {ports : Nat} {s : State} (hs : Held k s) : HeldH k (execCordWake hdr ports s) := by
  unfold execCordWake
  repeat' with_reducible (first | assumption | apply heldH_next | apply wcp_held)
theorem execSwap_held {k : Keep} {hdr : WcpHdr} {s : State} (hs : Held k s) : HeldH k (execSwap hdr s) := by
  unfold execSwap
  repeat' with_reducible (first | assumption | apply heldH_next | apply wcp_held)
theorem execRefHeartbeat_held {k : Keep} {hdr : WcpHdr} {hb : Heartbeat} {s : State} (hs : Held k s) : HeldH k (execRefHeartbeat hdr hb s) := by
  unfold execRefHeartbeat
  repeat' with_reducible (first | assumption | apply heldH_next | apply wcp_held)
theorem execRefGrant_held {k : Keep} {hdr : WcpHdr} {claim : BitVec 64} {holder : Nat} {reason : Nat} {s : State} (hs : Held k s) : HeldH k
    (execRefGrant hdr claim holder reason s) := by
  unfold execRefGrant
  repeat' with_reducible (first | assumption | apply heldH_next | apply wcp_held)
theorem execRefSwapRsp_held {k : Keep} {hdr : WcpHdr} {cur : BitVec 64} {status : Nat} {seq : Word} {s : State} (hs : Held k s) : HeldH k
    (execRefSwapRsp hdr cur status seq s) := by
  unfold execRefSwapRsp
  repeat' with_reducible (first | assumption | apply heldH_next | apply wcp_held)
theorem execRegRead_held {k : Keep} {hdr : WcpHdr} {addr : Nat} {count : Nat} {s : State} (hs : Held k s) : HeldH k (execRegRead hdr addr count
    s) := by
  unfold execRegRead
  repeat' with_reducible (first | assumption | apply heldH_next | apply wcp_held)
theorem execRegWrite_held {k : Keep} {hdr : WcpHdr} {entries : List (Nat × Word)} {ctx : RegCtx} {s : State} (hs : Held k s) : HeldH k (execRegWrite
    hdr entries ctx s) := by
  unfold execRegWrite
  repeat' with_reducible (first | assumption | apply heldH_next | apply wcp_held)
/-! ### ExecProgram -/
theorem execProgLoad_held {k : Keep} {hdr : WcpHdr} {handle : Nat} {s : State} (hs : Held k s) : HeldH k (execProgLoad hdr handle s) := by
  unfold execProgLoad
  repeat' with_reducible (first | assumption | apply heldH_next | apply wcp_held)
theorem execWcpStage_held {k : Keep} {hdr : WcpHdr} {handle : Nat} {frame : Nat} {ports : Nat} {sites : List (BitVec 64)} {s : State} (hs : Held k s)
    : HeldH k (execWcpStage hdr handle frame ports sites s) := by
  unfold execWcpStage
  repeat' with_reducible (first | assumption | apply heldH_next | apply wcp_held)
theorem execStageStatus_held {k : Keep} {hdr : WcpHdr} {s : State} (hs : Held k s) : HeldH k (execStageStatus hdr s) := by
  unfold execStageStatus
  repeat' with_reducible (first | assumption | apply heldH_next | apply wcp_held)
theorem execSeqStart_held {k : Keep} {hdr : WcpHdr} {mask : Nat} {vddp : List Nat} {s : State} (hs : Held k s) : HeldH k (execSeqStart hdr mask vddp
    s) := by
  unfold execSeqStart
  repeat' with_reducible (first | assumption | apply heldH_next | apply wcp_held)
theorem execSeqStop_held {k : Keep} {hdr : WcpHdr} {mask : Nat} {s : State} (hs : Held k s) : HeldH k (execSeqStop hdr mask s) := by
  unfold execSeqStop
  repeat' with_reducible (first | assumption | apply heldH_next | apply wcp_held)
theorem execTestRun_held {k : Keep} {hdr : WcpHdr} {runid : Word} {full : Bool} {ports : Nat} {sites : List (BitVec 64)} {test : List Byte} {handle :
    Nat} {loc : Bool} {s : State} (hs : Held k s) : HeldH k (execTestRun hdr runid full ports sites test handle loc s) := by
  unfold execTestRun
  repeat' with_reducible (first | assumption | apply heldH_next | apply wcp_held)
theorem execTestAbort_held {k : Keep} {hdr : WcpHdr} {runid : Word} {s : State} (hs : Held k s) : HeldH k (execTestAbort hdr runid s) := by
  unfold execTestAbort
  repeat' with_reducible (first | assumption | apply heldH_next | apply wcp_held)
theorem execTestResult_held {k : Keep} {hdr : WcpHdr} {runid : Word} {first : Nat} {s : State} (hs : Held k s) : HeldH k (execTestResult hdr runid
    first s) := by
  unfold execTestResult
  repeat' with_reducible (first | assumption | apply heldH_next | apply wcp_held)
theorem execTestAck_held {k : Keep} {hdr : WcpHdr} {runid : Word} {s : State} (hs : Held k s) : HeldH k (execTestAck hdr runid s) := by
  unfold execTestAck
  repeat' with_reducible (first | assumption | apply heldH_next | apply wcp_held)
theorem execPopCollect_held {k : Keep} {hdr : WcpHdr} {tenant : Nat} {s : State} (hs : Held k s) : HeldH k (execPopCollect hdr tenant s) := by
  unfold execPopCollect
  repeat' with_reducible (first | assumption | apply heldH_next | apply wcp_held)
theorem execPopAck_held {k : Keep} {hdr : WcpHdr} {tenant : Nat} {rseq : Nat} {s : State} (hs : Held k s) : HeldH k (execPopAck hdr tenant rseq
    s) := by
  unfold execPopAck
  repeat' with_reducible (first | assumption | apply heldH_next | apply wcp_held)
/-! ### ExecLayerCmd -/
theorem execBind_held {k : Keep} {hdr : WcpHdr} {share : Nat} {sdp : Sdp} {s : State} (hs : Held k s) : HeldH k (execBind hdr share sdp s) := by
  unfold execBind
  repeat' with_reducible (first | assumption | apply heldH_next | apply wcp_held)
theorem execUnbind_held {k : Keep} {hdr : WcpHdr} {index : Nat} {s : State} (hs : Held k s) : HeldH k (execUnbind hdr index s) := by
  unfold execUnbind
  repeat' with_reducible (first | assumption | apply heldH_next | apply wcp_held)
theorem execLayerSet_held {k : Keep} {hdr : WcpHdr} {slot : Nat} {cls : Nat} {desc : List Word} {s : State} (hs : Held k s) : HeldH k (execLayerSet
    hdr slot cls desc s) := by
  unfold execLayerSet
  repeat' with_reducible (first | assumption | apply heldH_next | apply wcp_held)
theorem execLayerClear_held {k : Keep} {hdr : WcpHdr} {slot : Nat} {s : State} (hs : Held k s) : HeldH k (execLayerClear hdr slot s) := by
  unfold execLayerClear
  repeat' with_reducible (first | assumption | apply heldH_next | apply wcp_held)
theorem execSurfaceWrite_held {k : Keep} {hdr : WcpHdr} {slot : Nat} {offset : Nat} {data : List Byte} {handle : Option Nat} {s : State} (hs : Held k
    s) : HeldH k (execSurfaceWrite hdr slot offset data handle s) := by
  unfold execSurfaceWrite
  repeat' with_reducible (first | assumption | apply heldH_next | apply wcp_held)
theorem execSurfaceFlip_held {k : Keep} {hdr : WcpHdr} {slot : Nat} {s : State} (hs : Held k s) : HeldH k (execSurfaceFlip hdr slot s) := by
  unfold execSurfaceFlip
  repeat' with_reducible (first | assumption | apply heldH_next | apply wcp_held)
theorem execZlistSet_held {k : Keep} {hdr : WcpHdr} {entry : Nat} {data : List Byte} {s : State} (hs : Held k s) : HeldH k (execZlistSet hdr entry
    data s) := by
  unfold execZlistSet
  repeat' with_reducible (first | assumption | apply heldH_next | apply wcp_held)
theorem execCoefSet_held {k : Keep} {hdr : WcpHdr} {table : Nat} {axis : Nat} {vals : List (BitVec 16)} {s : State} (hs : Held k s) : HeldH k
    (execCoefSet hdr table axis vals s) := by
  unfold execCoefSet
  repeat' with_reducible (first | assumption | apply heldH_next | apply wcp_held)
theorem execClinker_held {k : Keep} {hdr : WcpHdr} {port : Nat} {pos : Nat} {entries : List Word} {s : State} (hs : Held k s) : HeldH k (execClinker
    hdr port pos entries s) := by
  unfold execClinker
  repeat' with_reducible (first | assumption | apply heldH_next | apply wcp_held)
theorem execDamageHint_held {k : Keep} {hdr : WcpHdr} {rects : List (Nat × Nat × Nat × Nat)} {s : State} (hs : Held k s) : HeldH k (execDamageHint hdr
    rects s) := by
  unfold execDamageHint
  repeat' with_reducible (first | assumption | apply heldH_next | apply wcp_held)
/-! ### ExecJtag -/
theorem execTapReset_held {k : Keep} {s : State} (hs : Held k s) : HeldH k (execTapReset s) := by
  unfold execTapReset
  repeat' with_reducible (first | assumption | apply heldH_next | apply evTapReset_held)
theorem execIdcode_held {k : Keep} {s : State} (hs : Held k s) : HeldH k (execIdcode s) := by
  unfold execIdcode
  repeat' with_reducible (first | assumption | apply heldH_next | apply evIdcode_held)
theorem execSamplePreload_held {k : Keep} {balls : Nat} {s : State} (hs : Held k s) : HeldH k (execSamplePreload balls s) := by
  unfold execSamplePreload
  repeat' with_reducible (first | assumption | apply heldH_next | apply evSamplePreload_held)
theorem execExtest_held {k : Keep} {balls : Nat} {s : State} (hs : Held k s) : HeldH k (execExtest balls s) := by
  unfold execExtest
  repeat' with_reducible (first | assumption | apply heldH_next | apply evExtest_held)
theorem execClamp_held {k : Keep} {s : State} (hs : Held k s) : HeldH k (execClamp s) := by
  unfold execClamp
  repeat' with_reducible (first | assumption | apply heldH_next | apply evClamp_held)
theorem execHighz_held {k : Keep} {s : State} (hs : Held k s) : HeldH k (execHighz s) := by
  unfold execHighz
  repeat' with_reducible (first | assumption | apply heldH_next | apply evHighz_held)
theorem execDbgap_held {k : Keep} {write : Bool} {addr : Nat} {data : List Byte} {bytes : Nat} {ctx : RegCtx} {s : State} (hs : Held k s) : HeldH k
    (execDbgap write addr data bytes ctx s) := by
  unfold execDbgap
  repeat' with_reducible (first | assumption | apply heldH_next | apply settle_held | apply evDbgap_held)
theorem execBypass_held {k : Keep} {s : State} (hs : Held k s) : HeldH k (execBypass s) := by
  unfold execBypass
  repeat' with_reducible (first | assumption | apply heldH_next | apply evBypass_held)
theorem execStkHalt_held {k : Keep} {on : Bool} {s : State} (hs : Held k s) : HeldH k (execStkHalt on s) := by
  unfold execStkHalt
  repeat' with_reducible (first | assumption | apply heldH_next | apply settle_held | apply evStkHalt_held)
theorem execStkStep_held {k : Keep} {s : State} (hs : Held k s) : HeldH k (execStkStep s) := by
  unfold execStkStep
  repeat' with_reducible (first | assumption | apply heldH_next | apply evStkStep_held)
theorem execFsqHalt_held {k : Keep} {on : Bool} {s : State} (hs : Held k s) : HeldH k (execFsqHalt on s) := by
  unfold execFsqHalt
  repeat' with_reducible (first | assumption | apply heldH_next | apply evFsqHalt_held)
theorem execFsqStep_held {k : Keep} {ue : Bool} {s : State} (hs : Held k s) : HeldH k (execFsqStep ue s) := by
  unfold execFsqStep
  repeat' with_reducible (first | assumption | apply heldH_next | apply evFsqStep_held)
theorem execPsqHalt_held {k : Keep} {mask : Nat} {s : State} (hs : Held k s) : HeldH k (execPsqHalt mask s) := by
  unfold execPsqHalt
  repeat' with_reducible (first | assumption | apply heldH_next | apply evPsqHalt_held)
theorem execTraceSwmsg_held {k : Keep} {value : Word} {s : State} (hs : Held k s) : HeldH k (execTraceSwmsg value s) := by
  unfold execTraceSwmsg
  repeat' with_reducible (first | assumption | apply heldH_next | apply evTraceSwmsg_held)
theorem execTraceEnable_held {k : Keep} {stk : Bool} {seq : Bool} {s : State} (hs : Held k s) : HeldH k (execTraceEnable stk seq s) := by
  unfold execTraceEnable
  repeat' with_reducible (first | assumption | apply heldH_next | apply evTraceEnable_held)
theorem execTraceClear_held {k : Keep} {s : State} (hs : Held k s) : HeldH k (execTraceClear s) := by
  unfold execTraceClear
  repeat' with_reducible (first | assumption | apply heldH_next | apply evTraceClear_held)
theorem execTraceRdataRead_held {k : Keep} {high : Bool} {s : State} (hs : Held k s) : HeldH k (execTraceRdataRead high s) := by
  unfold execTraceRdataRead
  repeat' with_reducible (first | assumption | apply heldH_next | apply evTraceRdataRead_held)

end Sys2Proof.Machine
end

