-- ==== Sys2Proof/Laws/State.lean ====
section
/-! SUPPORT. Laws/State.lean: what the named updates of State leave, field by field, and what a register, a sequencer, a bank and a byte of
DDR5 read after one of them. -/

namespace Sys2Proof.Machine

variable {s : State}

/-! ### setReg -/

@[simp] theorem State.setReg_pending (a : Nat) (v : Word) : (s.setReg a v).pending = s.pending := rfl
@[simp] theorem State.setReg_out (a : Nat) (v : Word) : (s.setReg a v).out = s.out := rfl
@[simp] theorem State.setReg_live (a : Nat) (v : Word) : (s.setReg a v).live = s.live := rfl
@[simp] theorem State.setReg_latch (a : Nat) (v : Word) : (s.setReg a v).latch = s.latch := rfl
@[simp] theorem State.setReg_seqs (a : Nat) (v : Word) : (s.setReg a v).seqs = s.seqs := rfl
@[simp] theorem State.setReg_banks (a : Nat) (v : Word) : (s.setReg a v).banks = s.banks := rfl
@[simp] theorem State.setReg_wtb (a : Nat) (v : Word) : (s.setReg a v).wtb = s.wtb := rfl
@[simp] theorem State.setReg_life (a : Nat) (v : Word) : (s.setReg a v).life = s.life := rfl
@[simp] theorem State.setReg_sessions (a : Nat) (v : Word) : (s.setReg a v).sessions = s.sessions := rfl
@[simp] theorem State.setReg_comp (a : Nat) (v : Word) : (s.setReg a v).comp = s.comp := rfl
@[simp] theorem State.setReg_cord (a : Nat) (v : Word) : (s.setReg a v).cord = s.cord := rfl
@[simp] theorem State.setReg_tl (a : Nat) (v : Word) : (s.setReg a v).tl = s.tl := rfl
@[simp] theorem State.setReg_lamp (a : Nat) (v : Word) : (s.setReg a v).lamp = s.lamp := rfl
@[simp] theorem State.setReg_brd (a : Nat) (v : Word) : (s.setReg a v).brd = s.brd := rfl
@[simp] theorem State.setReg_clm (a : Nat) (v : Word) : (s.setReg a v).clm = s.clm := rfl
@[simp] theorem State.setReg_pop (a : Nat) (v : Word) : (s.setReg a v).pop = s.pop := rfl
@[simp] theorem State.setReg_src (a : Nat) (v : Word) : (s.setReg a v).src = s.src := rfl
@[simp] theorem State.setReg_tim (a : Nat) (v : Word) : (s.setReg a v).tim = s.tim := rfl
@[simp] theorem State.setReg_test (a : Nat) (v : Word) : (s.setReg a v).test = s.test := rfl
@[simp] theorem State.setReg_mc (a : Nat) (v : Word) : (s.setReg a v).mc = s.mc := rfl
@[simp] theorem State.setReg_arbs (a : Nat) (v : Word) : (s.setReg a v).arbs = s.arbs := rfl
@[simp] theorem State.setReg_scans (a : Nat) (v : Word) : (s.setReg a v).scans = s.scans := rfl
@[simp] theorem State.setReg_laneDone (a : Nat) (v : Word) : (s.setReg a v).laneDone = s.laneDone := rfl
@[simp] theorem State.setReg_pwr (a : Nat) (v : Word) : (s.setReg a v).pwr = s.pwr := rfl
@[simp] theorem State.setReg_kiln (a : Nat) (v : Word) : (s.setReg a v).kiln = s.kiln := rfl
@[simp] theorem State.setReg_age (a : Nat) (v : Word) : (s.setReg a v).age = s.age := rfl
@[simp] theorem State.setReg_cam (a : Nat) (v : Word) : (s.setReg a v).cam = s.cam := rfl
@[simp] theorem State.setReg_aud (a : Nat) (v : Word) : (s.setReg a v).aud = s.aud := rfl
@[simp] theorem State.setReg_jtag (a : Nat) (v : Word) : (s.setReg a v).jtag = s.jtag := rfl
@[simp] theorem State.setReg_sram (a : Nat) (v : Word) : (s.setReg a v).sram = s.sram := rfl
@[simp] theorem State.setReg_spiRx (a : Nat) (v : Word) : (s.setReg a v).spiRx = s.spiRx := rfl
@[simp] theorem State.setReg_spiTx (a : Nat) (v : Word) : (s.setReg a v).spiTx = s.spiTx := rfl
@[simp] theorem State.setReg_trace (a : Nat) (v : Word) : (s.setReg a v).trace = s.trace := rfl
@[simp] theorem State.setReg_ddr (a : Nat) (v : Word) : (s.setReg a v).ddr = s.ddr := rfl
@[simp] theorem State.setReg_hea (a : Nat) (v : Word) : (s.setReg a v).hea = s.hea := rfl
@[simp] theorem State.setReg_sto (a : Nat) (v : Word) : (s.setReg a v).sto = s.sto := rfl
@[simp] theorem State.setReg_nvj (a : Nat) (v : Word) : (s.setReg a v).nvj = s.nvj := rfl
@[simp] theorem State.setReg_fw (a : Nat) (v : Word) : (s.setReg a v).fw = s.fw := rfl
@[simp] theorem State.setReg_stage (a : Nat) (v : Word) : (s.setReg a v).stage = s.stage := rfl
@[simp] theorem State.setReg_stageLast (a : Nat) (v : Word) : (s.setReg a v).stageLast = s.stageLast := rfl
@[simp] theorem State.setReg_tstage (a : Nat) (v : Word) : (s.setReg a v).tstage = s.tstage := rfl
@[simp] theorem State.setReg_dsetLoaded (a : Nat) (v : Word) : (s.setReg a v).dsetLoaded = s.dsetLoaded := rfl
@[simp] theorem State.setReg_dsetPairs (a : Nat) (v : Word) : (s.setReg a v).dsetPairs = s.dsetPairs := rfl
@[simp] theorem State.setReg_freeCtr (a : Nat) (v : Word) : (s.setReg a v).freeCtr = s.freeCtr := rfl

/-! ### setF -/

@[simp] theorem State.setF_pending (f : Field) (v : Nat) : (s.setF f v).pending = s.pending := rfl
@[simp] theorem State.setF_out (f : Field) (v : Nat) : (s.setF f v).out = s.out := rfl
@[simp] theorem State.setF_live (f : Field) (v : Nat) : (s.setF f v).live = s.live := rfl
@[simp] theorem State.setF_latch (f : Field) (v : Nat) : (s.setF f v).latch = s.latch := rfl
@[simp] theorem State.setF_seqs (f : Field) (v : Nat) : (s.setF f v).seqs = s.seqs := rfl
@[simp] theorem State.setF_banks (f : Field) (v : Nat) : (s.setF f v).banks = s.banks := rfl
@[simp] theorem State.setF_wtb (f : Field) (v : Nat) : (s.setF f v).wtb = s.wtb := rfl
@[simp] theorem State.setF_life (f : Field) (v : Nat) : (s.setF f v).life = s.life := rfl
@[simp] theorem State.setF_sessions (f : Field) (v : Nat) : (s.setF f v).sessions = s.sessions := rfl
@[simp] theorem State.setF_comp (f : Field) (v : Nat) : (s.setF f v).comp = s.comp := rfl
@[simp] theorem State.setF_cord (f : Field) (v : Nat) : (s.setF f v).cord = s.cord := rfl
@[simp] theorem State.setF_tl (f : Field) (v : Nat) : (s.setF f v).tl = s.tl := rfl
@[simp] theorem State.setF_lamp (f : Field) (v : Nat) : (s.setF f v).lamp = s.lamp := rfl
@[simp] theorem State.setF_brd (f : Field) (v : Nat) : (s.setF f v).brd = s.brd := rfl
@[simp] theorem State.setF_clm (f : Field) (v : Nat) : (s.setF f v).clm = s.clm := rfl
@[simp] theorem State.setF_pop (f : Field) (v : Nat) : (s.setF f v).pop = s.pop := rfl
@[simp] theorem State.setF_src (f : Field) (v : Nat) : (s.setF f v).src = s.src := rfl
@[simp] theorem State.setF_tim (f : Field) (v : Nat) : (s.setF f v).tim = s.tim := rfl
@[simp] theorem State.setF_test (f : Field) (v : Nat) : (s.setF f v).test = s.test := rfl
@[simp] theorem State.setF_mc (f : Field) (v : Nat) : (s.setF f v).mc = s.mc := rfl
@[simp] theorem State.setF_arbs (f : Field) (v : Nat) : (s.setF f v).arbs = s.arbs := rfl
@[simp] theorem State.setF_scans (f : Field) (v : Nat) : (s.setF f v).scans = s.scans := rfl
@[simp] theorem State.setF_laneDone (f : Field) (v : Nat) : (s.setF f v).laneDone = s.laneDone := rfl
@[simp] theorem State.setF_pwr (f : Field) (v : Nat) : (s.setF f v).pwr = s.pwr := rfl
@[simp] theorem State.setF_kiln (f : Field) (v : Nat) : (s.setF f v).kiln = s.kiln := rfl
@[simp] theorem State.setF_age (f : Field) (v : Nat) : (s.setF f v).age = s.age := rfl
@[simp] theorem State.setF_cam (f : Field) (v : Nat) : (s.setF f v).cam = s.cam := rfl
@[simp] theorem State.setF_aud (f : Field) (v : Nat) : (s.setF f v).aud = s.aud := rfl
@[simp] theorem State.setF_jtag (f : Field) (v : Nat) : (s.setF f v).jtag = s.jtag := rfl
@[simp] theorem State.setF_sram (f : Field) (v : Nat) : (s.setF f v).sram = s.sram := rfl
@[simp] theorem State.setF_spiRx (f : Field) (v : Nat) : (s.setF f v).spiRx = s.spiRx := rfl
@[simp] theorem State.setF_spiTx (f : Field) (v : Nat) : (s.setF f v).spiTx = s.spiTx := rfl
@[simp] theorem State.setF_trace (f : Field) (v : Nat) : (s.setF f v).trace = s.trace := rfl
@[simp] theorem State.setF_ddr (f : Field) (v : Nat) : (s.setF f v).ddr = s.ddr := rfl
@[simp] theorem State.setF_hea (f : Field) (v : Nat) : (s.setF f v).hea = s.hea := rfl
@[simp] theorem State.setF_sto (f : Field) (v : Nat) : (s.setF f v).sto = s.sto := rfl
@[simp] theorem State.setF_nvj (f : Field) (v : Nat) : (s.setF f v).nvj = s.nvj := rfl
@[simp] theorem State.setF_fw (f : Field) (v : Nat) : (s.setF f v).fw = s.fw := rfl
@[simp] theorem State.setF_stage (f : Field) (v : Nat) : (s.setF f v).stage = s.stage := rfl
@[simp] theorem State.setF_stageLast (f : Field) (v : Nat) : (s.setF f v).stageLast = s.stageLast := rfl
@[simp] theorem State.setF_tstage (f : Field) (v : Nat) : (s.setF f v).tstage = s.tstage := rfl
@[simp] theorem State.setF_dsetLoaded (f : Field) (v : Nat) : (s.setF f v).dsetLoaded = s.dsetLoaded := rfl
@[simp] theorem State.setF_dsetPairs (f : Field) (v : Nat) : (s.setF f v).dsetPairs = s.dsetPairs := rfl
@[simp] theorem State.setF_freeCtr (f : Field) (v : Nat) : (s.setF f v).freeCtr = s.freeCtr := rfl

/-! ### setFlag -/

@[simp] theorem State.setFlag_pending (f : Field) (b : Bool) : (s.setFlag f b).pending = s.pending := rfl
@[simp] theorem State.setFlag_out (f : Field) (b : Bool) : (s.setFlag f b).out = s.out := rfl
@[simp] theorem State.setFlag_live (f : Field) (b : Bool) : (s.setFlag f b).live = s.live := rfl
@[simp] theorem State.setFlag_latch (f : Field) (b : Bool) : (s.setFlag f b).latch = s.latch := rfl
@[simp] theorem State.setFlag_seqs (f : Field) (b : Bool) : (s.setFlag f b).seqs = s.seqs := rfl
@[simp] theorem State.setFlag_banks (f : Field) (b : Bool) : (s.setFlag f b).banks = s.banks := rfl
@[simp] theorem State.setFlag_wtb (f : Field) (b : Bool) : (s.setFlag f b).wtb = s.wtb := rfl
@[simp] theorem State.setFlag_life (f : Field) (b : Bool) : (s.setFlag f b).life = s.life := rfl
@[simp] theorem State.setFlag_sessions (f : Field) (b : Bool) : (s.setFlag f b).sessions = s.sessions := rfl
@[simp] theorem State.setFlag_comp (f : Field) (b : Bool) : (s.setFlag f b).comp = s.comp := rfl
@[simp] theorem State.setFlag_cord (f : Field) (b : Bool) : (s.setFlag f b).cord = s.cord := rfl
@[simp] theorem State.setFlag_tl (f : Field) (b : Bool) : (s.setFlag f b).tl = s.tl := rfl
@[simp] theorem State.setFlag_lamp (f : Field) (b : Bool) : (s.setFlag f b).lamp = s.lamp := rfl
@[simp] theorem State.setFlag_brd (f : Field) (b : Bool) : (s.setFlag f b).brd = s.brd := rfl
@[simp] theorem State.setFlag_clm (f : Field) (b : Bool) : (s.setFlag f b).clm = s.clm := rfl
@[simp] theorem State.setFlag_pop (f : Field) (b : Bool) : (s.setFlag f b).pop = s.pop := rfl
@[simp] theorem State.setFlag_src (f : Field) (b : Bool) : (s.setFlag f b).src = s.src := rfl
@[simp] theorem State.setFlag_tim (f : Field) (b : Bool) : (s.setFlag f b).tim = s.tim := rfl
@[simp] theorem State.setFlag_test (f : Field) (b : Bool) : (s.setFlag f b).test = s.test := rfl
@[simp] theorem State.setFlag_mc (f : Field) (b : Bool) : (s.setFlag f b).mc = s.mc := rfl
@[simp] theorem State.setFlag_arbs (f : Field) (b : Bool) : (s.setFlag f b).arbs = s.arbs := rfl
@[simp] theorem State.setFlag_scans (f : Field) (b : Bool) : (s.setFlag f b).scans = s.scans := rfl
@[simp] theorem State.setFlag_laneDone (f : Field) (b : Bool) : (s.setFlag f b).laneDone = s.laneDone := rfl
@[simp] theorem State.setFlag_pwr (f : Field) (b : Bool) : (s.setFlag f b).pwr = s.pwr := rfl
@[simp] theorem State.setFlag_kiln (f : Field) (b : Bool) : (s.setFlag f b).kiln = s.kiln := rfl
@[simp] theorem State.setFlag_age (f : Field) (b : Bool) : (s.setFlag f b).age = s.age := rfl
@[simp] theorem State.setFlag_cam (f : Field) (b : Bool) : (s.setFlag f b).cam = s.cam := rfl
@[simp] theorem State.setFlag_aud (f : Field) (b : Bool) : (s.setFlag f b).aud = s.aud := rfl
@[simp] theorem State.setFlag_jtag (f : Field) (b : Bool) : (s.setFlag f b).jtag = s.jtag := rfl
@[simp] theorem State.setFlag_sram (f : Field) (b : Bool) : (s.setFlag f b).sram = s.sram := rfl
@[simp] theorem State.setFlag_spiRx (f : Field) (b : Bool) : (s.setFlag f b).spiRx = s.spiRx := rfl
@[simp] theorem State.setFlag_spiTx (f : Field) (b : Bool) : (s.setFlag f b).spiTx = s.spiTx := rfl
@[simp] theorem State.setFlag_trace (f : Field) (b : Bool) : (s.setFlag f b).trace = s.trace := rfl
@[simp] theorem State.setFlag_ddr (f : Field) (b : Bool) : (s.setFlag f b).ddr = s.ddr := rfl
@[simp] theorem State.setFlag_hea (f : Field) (b : Bool) : (s.setFlag f b).hea = s.hea := rfl
@[simp] theorem State.setFlag_sto (f : Field) (b : Bool) : (s.setFlag f b).sto = s.sto := rfl
@[simp] theorem State.setFlag_nvj (f : Field) (b : Bool) : (s.setFlag f b).nvj = s.nvj := rfl
@[simp] theorem State.setFlag_fw (f : Field) (b : Bool) : (s.setFlag f b).fw = s.fw := rfl
@[simp] theorem State.setFlag_stage (f : Field) (b : Bool) : (s.setFlag f b).stage = s.stage := rfl
@[simp] theorem State.setFlag_stageLast (f : Field) (b : Bool) : (s.setFlag f b).stageLast = s.stageLast := rfl
@[simp] theorem State.setFlag_tstage (f : Field) (b : Bool) : (s.setFlag f b).tstage = s.tstage := rfl
@[simp] theorem State.setFlag_dsetLoaded (f : Field) (b : Bool) : (s.setFlag f b).dsetLoaded = s.dsetLoaded := rfl
@[simp] theorem State.setFlag_dsetPairs (f : Field) (b : Bool) : (s.setFlag f b).dsetPairs = s.dsetPairs := rfl
@[simp] theorem State.setFlag_freeCtr (f : Field) (b : Bool) : (s.setFlag f b).freeCtr = s.freeCtr := rfl

/-! ### count -/

@[simp] theorem State.count_pending (a n : Nat) : (s.count a n).pending = s.pending := rfl
@[simp] theorem State.count_out (a n : Nat) : (s.count a n).out = s.out := rfl
@[simp] theorem State.count_live (a n : Nat) : (s.count a n).live = s.live := rfl
@[simp] theorem State.count_latch (a n : Nat) : (s.count a n).latch = s.latch := rfl
@[simp] theorem State.count_seqs (a n : Nat) : (s.count a n).seqs = s.seqs := rfl
@[simp] theorem State.count_banks (a n : Nat) : (s.count a n).banks = s.banks := rfl
@[simp] theorem State.count_wtb (a n : Nat) : (s.count a n).wtb = s.wtb := rfl
@[simp] theorem State.count_life (a n : Nat) : (s.count a n).life = s.life := rfl
@[simp] theorem State.count_sessions (a n : Nat) : (s.count a n).sessions = s.sessions := rfl
@[simp] theorem State.count_comp (a n : Nat) : (s.count a n).comp = s.comp := rfl
@[simp] theorem State.count_cord (a n : Nat) : (s.count a n).cord = s.cord := rfl
@[simp] theorem State.count_tl (a n : Nat) : (s.count a n).tl = s.tl := rfl
@[simp] theorem State.count_lamp (a n : Nat) : (s.count a n).lamp = s.lamp := rfl
@[simp] theorem State.count_brd (a n : Nat) : (s.count a n).brd = s.brd := rfl
@[simp] theorem State.count_clm (a n : Nat) : (s.count a n).clm = s.clm := rfl
@[simp] theorem State.count_pop (a n : Nat) : (s.count a n).pop = s.pop := rfl
@[simp] theorem State.count_src (a n : Nat) : (s.count a n).src = s.src := rfl
@[simp] theorem State.count_tim (a n : Nat) : (s.count a n).tim = s.tim := rfl
@[simp] theorem State.count_test (a n : Nat) : (s.count a n).test = s.test := rfl
@[simp] theorem State.count_mc (a n : Nat) : (s.count a n).mc = s.mc := rfl
@[simp] theorem State.count_arbs (a n : Nat) : (s.count a n).arbs = s.arbs := rfl
@[simp] theorem State.count_scans (a n : Nat) : (s.count a n).scans = s.scans := rfl
@[simp] theorem State.count_laneDone (a n : Nat) : (s.count a n).laneDone = s.laneDone := rfl
@[simp] theorem State.count_pwr (a n : Nat) : (s.count a n).pwr = s.pwr := rfl
@[simp] theorem State.count_kiln (a n : Nat) : (s.count a n).kiln = s.kiln := rfl
@[simp] theorem State.count_age (a n : Nat) : (s.count a n).age = s.age := rfl
@[simp] theorem State.count_cam (a n : Nat) : (s.count a n).cam = s.cam := rfl
@[simp] theorem State.count_aud (a n : Nat) : (s.count a n).aud = s.aud := rfl
@[simp] theorem State.count_jtag (a n : Nat) : (s.count a n).jtag = s.jtag := rfl
@[simp] theorem State.count_sram (a n : Nat) : (s.count a n).sram = s.sram := rfl
@[simp] theorem State.count_spiRx (a n : Nat) : (s.count a n).spiRx = s.spiRx := rfl
@[simp] theorem State.count_spiTx (a n : Nat) : (s.count a n).spiTx = s.spiTx := rfl
@[simp] theorem State.count_trace (a n : Nat) : (s.count a n).trace = s.trace := rfl
@[simp] theorem State.count_ddr (a n : Nat) : (s.count a n).ddr = s.ddr := rfl
@[simp] theorem State.count_hea (a n : Nat) : (s.count a n).hea = s.hea := rfl
@[simp] theorem State.count_sto (a n : Nat) : (s.count a n).sto = s.sto := rfl
@[simp] theorem State.count_nvj (a n : Nat) : (s.count a n).nvj = s.nvj := rfl
@[simp] theorem State.count_fw (a n : Nat) : (s.count a n).fw = s.fw := rfl
@[simp] theorem State.count_stage (a n : Nat) : (s.count a n).stage = s.stage := rfl
@[simp] theorem State.count_stageLast (a n : Nat) : (s.count a n).stageLast = s.stageLast := rfl
@[simp] theorem State.count_tstage (a n : Nat) : (s.count a n).tstage = s.tstage := rfl
@[simp] theorem State.count_dsetLoaded (a n : Nat) : (s.count a n).dsetLoaded = s.dsetLoaded := rfl
@[simp] theorem State.count_dsetPairs (a n : Nat) : (s.count a n).dsetPairs = s.dsetPairs := rfl
@[simp] theorem State.count_freeCtr (a n : Nat) : (s.count a n).freeCtr = s.freeCtr := rfl

/-! ### setLive -/

@[simp] theorem State.setLive_pending (a : Nat) (v : Word) : (s.setLive a v).pending = s.pending := rfl
@[simp] theorem State.setLive_out (a : Nat) (v : Word) : (s.setLive a v).out = s.out := rfl
@[simp] theorem State.setLive_regs (a : Nat) (v : Word) : (s.setLive a v).regs = s.regs := rfl
@[simp] theorem State.setLive_latch (a : Nat) (v : Word) : (s.setLive a v).latch = s.latch := rfl
@[simp] theorem State.setLive_seqs (a : Nat) (v : Word) : (s.setLive a v).seqs = s.seqs := rfl
@[simp] theorem State.setLive_banks (a : Nat) (v : Word) : (s.setLive a v).banks = s.banks := rfl
@[simp] theorem State.setLive_wtb (a : Nat) (v : Word) : (s.setLive a v).wtb = s.wtb := rfl
@[simp] theorem State.setLive_life (a : Nat) (v : Word) : (s.setLive a v).life = s.life := rfl
@[simp] theorem State.setLive_sessions (a : Nat) (v : Word) : (s.setLive a v).sessions = s.sessions := rfl
@[simp] theorem State.setLive_comp (a : Nat) (v : Word) : (s.setLive a v).comp = s.comp := rfl
@[simp] theorem State.setLive_cord (a : Nat) (v : Word) : (s.setLive a v).cord = s.cord := rfl
@[simp] theorem State.setLive_tl (a : Nat) (v : Word) : (s.setLive a v).tl = s.tl := rfl
@[simp] theorem State.setLive_lamp (a : Nat) (v : Word) : (s.setLive a v).lamp = s.lamp := rfl
@[simp] theorem State.setLive_brd (a : Nat) (v : Word) : (s.setLive a v).brd = s.brd := rfl
@[simp] theorem State.setLive_clm (a : Nat) (v : Word) : (s.setLive a v).clm = s.clm := rfl
@[simp] theorem State.setLive_pop (a : Nat) (v : Word) : (s.setLive a v).pop = s.pop := rfl
@[simp] theorem State.setLive_src (a : Nat) (v : Word) : (s.setLive a v).src = s.src := rfl
@[simp] theorem State.setLive_tim (a : Nat) (v : Word) : (s.setLive a v).tim = s.tim := rfl
@[simp] theorem State.setLive_test (a : Nat) (v : Word) : (s.setLive a v).test = s.test := rfl
@[simp] theorem State.setLive_mc (a : Nat) (v : Word) : (s.setLive a v).mc = s.mc := rfl
@[simp] theorem State.setLive_arbs (a : Nat) (v : Word) : (s.setLive a v).arbs = s.arbs := rfl
@[simp] theorem State.setLive_scans (a : Nat) (v : Word) : (s.setLive a v).scans = s.scans := rfl
@[simp] theorem State.setLive_laneDone (a : Nat) (v : Word) : (s.setLive a v).laneDone = s.laneDone := rfl
@[simp] theorem State.setLive_pwr (a : Nat) (v : Word) : (s.setLive a v).pwr = s.pwr := rfl
@[simp] theorem State.setLive_kiln (a : Nat) (v : Word) : (s.setLive a v).kiln = s.kiln := rfl
@[simp] theorem State.setLive_age (a : Nat) (v : Word) : (s.setLive a v).age = s.age := rfl
@[simp] theorem State.setLive_cam (a : Nat) (v : Word) : (s.setLive a v).cam = s.cam := rfl
@[simp] theorem State.setLive_aud (a : Nat) (v : Word) : (s.setLive a v).aud = s.aud := rfl
@[simp] theorem State.setLive_jtag (a : Nat) (v : Word) : (s.setLive a v).jtag = s.jtag := rfl
@[simp] theorem State.setLive_sram (a : Nat) (v : Word) : (s.setLive a v).sram = s.sram := rfl
@[simp] theorem State.setLive_spiRx (a : Nat) (v : Word) : (s.setLive a v).spiRx = s.spiRx := rfl
@[simp] theorem State.setLive_spiTx (a : Nat) (v : Word) : (s.setLive a v).spiTx = s.spiTx := rfl
@[simp] theorem State.setLive_trace (a : Nat) (v : Word) : (s.setLive a v).trace = s.trace := rfl
@[simp] theorem State.setLive_ddr (a : Nat) (v : Word) : (s.setLive a v).ddr = s.ddr := rfl
@[simp] theorem State.setLive_hea (a : Nat) (v : Word) : (s.setLive a v).hea = s.hea := rfl
@[simp] theorem State.setLive_sto (a : Nat) (v : Word) : (s.setLive a v).sto = s.sto := rfl
@[simp] theorem State.setLive_nvj (a : Nat) (v : Word) : (s.setLive a v).nvj = s.nvj := rfl
@[simp] theorem State.setLive_fw (a : Nat) (v : Word) : (s.setLive a v).fw = s.fw := rfl
@[simp] theorem State.setLive_stage (a : Nat) (v : Word) : (s.setLive a v).stage = s.stage := rfl
@[simp] theorem State.setLive_stageLast (a : Nat) (v : Word) : (s.setLive a v).stageLast = s.stageLast := rfl
@[simp] theorem State.setLive_tstage (a : Nat) (v : Word) : (s.setLive a v).tstage = s.tstage := rfl
@[simp] theorem State.setLive_dsetLoaded (a : Nat) (v : Word) : (s.setLive a v).dsetLoaded = s.dsetLoaded := rfl
@[simp] theorem State.setLive_dsetPairs (a : Nat) (v : Word) : (s.setLive a v).dsetPairs = s.dsetPairs := rfl
@[simp] theorem State.setLive_freeCtr (a : Nat) (v : Word) : (s.setLive a v).freeCtr = s.freeCtr := rfl

/-! ### setSeq -/

@[simp] theorem State.setSeq_pending (k : Nat) (q : Seq) : (s.setSeq k q).pending = s.pending := rfl
@[simp] theorem State.setSeq_out (k : Nat) (q : Seq) : (s.setSeq k q).out = s.out := rfl
@[simp] theorem State.setSeq_regs (k : Nat) (q : Seq) : (s.setSeq k q).regs = s.regs := rfl
@[simp] theorem State.setSeq_live (k : Nat) (q : Seq) : (s.setSeq k q).live = s.live := rfl
@[simp] theorem State.setSeq_latch (k : Nat) (q : Seq) : (s.setSeq k q).latch = s.latch := rfl
@[simp] theorem State.setSeq_banks (k : Nat) (q : Seq) : (s.setSeq k q).banks = s.banks := rfl
@[simp] theorem State.setSeq_wtb (k : Nat) (q : Seq) : (s.setSeq k q).wtb = s.wtb := rfl
@[simp] theorem State.setSeq_life (k : Nat) (q : Seq) : (s.setSeq k q).life = s.life := rfl
@[simp] theorem State.setSeq_sessions (k : Nat) (q : Seq) : (s.setSeq k q).sessions = s.sessions := rfl
@[simp] theorem State.setSeq_comp (k : Nat) (q : Seq) : (s.setSeq k q).comp = s.comp := rfl
@[simp] theorem State.setSeq_cord (k : Nat) (q : Seq) : (s.setSeq k q).cord = s.cord := rfl
@[simp] theorem State.setSeq_tl (k : Nat) (q : Seq) : (s.setSeq k q).tl = s.tl := rfl
@[simp] theorem State.setSeq_lamp (k : Nat) (q : Seq) : (s.setSeq k q).lamp = s.lamp := rfl
@[simp] theorem State.setSeq_brd (k : Nat) (q : Seq) : (s.setSeq k q).brd = s.brd := rfl
@[simp] theorem State.setSeq_clm (k : Nat) (q : Seq) : (s.setSeq k q).clm = s.clm := rfl
@[simp] theorem State.setSeq_pop (k : Nat) (q : Seq) : (s.setSeq k q).pop = s.pop := rfl
@[simp] theorem State.setSeq_src (k : Nat) (q : Seq) : (s.setSeq k q).src = s.src := rfl
@[simp] theorem State.setSeq_tim (k : Nat) (q : Seq) : (s.setSeq k q).tim = s.tim := rfl
@[simp] theorem State.setSeq_test (k : Nat) (q : Seq) : (s.setSeq k q).test = s.test := rfl
@[simp] theorem State.setSeq_mc (k : Nat) (q : Seq) : (s.setSeq k q).mc = s.mc := rfl
@[simp] theorem State.setSeq_arbs (k : Nat) (q : Seq) : (s.setSeq k q).arbs = s.arbs := rfl
@[simp] theorem State.setSeq_scans (k : Nat) (q : Seq) : (s.setSeq k q).scans = s.scans := rfl
@[simp] theorem State.setSeq_laneDone (k : Nat) (q : Seq) : (s.setSeq k q).laneDone = s.laneDone := rfl
@[simp] theorem State.setSeq_pwr (k : Nat) (q : Seq) : (s.setSeq k q).pwr = s.pwr := rfl
@[simp] theorem State.setSeq_kiln (k : Nat) (q : Seq) : (s.setSeq k q).kiln = s.kiln := rfl
@[simp] theorem State.setSeq_age (k : Nat) (q : Seq) : (s.setSeq k q).age = s.age := rfl
@[simp] theorem State.setSeq_cam (k : Nat) (q : Seq) : (s.setSeq k q).cam = s.cam := rfl
@[simp] theorem State.setSeq_aud (k : Nat) (q : Seq) : (s.setSeq k q).aud = s.aud := rfl
@[simp] theorem State.setSeq_jtag (k : Nat) (q : Seq) : (s.setSeq k q).jtag = s.jtag := rfl
@[simp] theorem State.setSeq_sram (k : Nat) (q : Seq) : (s.setSeq k q).sram = s.sram := rfl
@[simp] theorem State.setSeq_spiRx (k : Nat) (q : Seq) : (s.setSeq k q).spiRx = s.spiRx := rfl
@[simp] theorem State.setSeq_spiTx (k : Nat) (q : Seq) : (s.setSeq k q).spiTx = s.spiTx := rfl
@[simp] theorem State.setSeq_trace (k : Nat) (q : Seq) : (s.setSeq k q).trace = s.trace := rfl
@[simp] theorem State.setSeq_ddr (k : Nat) (q : Seq) : (s.setSeq k q).ddr = s.ddr := rfl
@[simp] theorem State.setSeq_hea (k : Nat) (q : Seq) : (s.setSeq k q).hea = s.hea := rfl
@[simp] theorem State.setSeq_sto (k : Nat) (q : Seq) : (s.setSeq k q).sto = s.sto := rfl
@[simp] theorem State.setSeq_nvj (k : Nat) (q : Seq) : (s.setSeq k q).nvj = s.nvj := rfl
@[simp] theorem State.setSeq_fw (k : Nat) (q : Seq) : (s.setSeq k q).fw = s.fw := rfl
@[simp] theorem State.setSeq_stage (k : Nat) (q : Seq) : (s.setSeq k q).stage = s.stage := rfl
@[simp] theorem State.setSeq_stageLast (k : Nat) (q : Seq) : (s.setSeq k q).stageLast = s.stageLast := rfl
@[simp] theorem State.setSeq_tstage (k : Nat) (q : Seq) : (s.setSeq k q).tstage = s.tstage := rfl
@[simp] theorem State.setSeq_dsetLoaded (k : Nat) (q : Seq) : (s.setSeq k q).dsetLoaded = s.dsetLoaded := rfl
@[simp] theorem State.setSeq_dsetPairs (k : Nat) (q : Seq) : (s.setSeq k q).dsetPairs = s.dsetPairs := rfl
@[simp] theorem State.setSeq_freeCtr (k : Nat) (q : Seq) : (s.setSeq k q).freeCtr = s.freeCtr := rfl

/-! ### setBank -/

@[simp] theorem State.setBank_pending (k : Nat) (b : Bank) : (s.setBank k b).pending = s.pending := rfl
@[simp] theorem State.setBank_out (k : Nat) (b : Bank) : (s.setBank k b).out = s.out := rfl
@[simp] theorem State.setBank_regs (k : Nat) (b : Bank) : (s.setBank k b).regs = s.regs := rfl
@[simp] theorem State.setBank_live (k : Nat) (b : Bank) : (s.setBank k b).live = s.live := rfl
@[simp] theorem State.setBank_latch (k : Nat) (b : Bank) : (s.setBank k b).latch = s.latch := rfl
@[simp] theorem State.setBank_seqs (k : Nat) (b : Bank) : (s.setBank k b).seqs = s.seqs := rfl
@[simp] theorem State.setBank_wtb (k : Nat) (b : Bank) : (s.setBank k b).wtb = s.wtb := rfl
@[simp] theorem State.setBank_life (k : Nat) (b : Bank) : (s.setBank k b).life = s.life := rfl
@[simp] theorem State.setBank_sessions (k : Nat) (b : Bank) : (s.setBank k b).sessions = s.sessions := rfl
@[simp] theorem State.setBank_comp (k : Nat) (b : Bank) : (s.setBank k b).comp = s.comp := rfl
@[simp] theorem State.setBank_cord (k : Nat) (b : Bank) : (s.setBank k b).cord = s.cord := rfl
@[simp] theorem State.setBank_tl (k : Nat) (b : Bank) : (s.setBank k b).tl = s.tl := rfl
@[simp] theorem State.setBank_lamp (k : Nat) (b : Bank) : (s.setBank k b).lamp = s.lamp := rfl
@[simp] theorem State.setBank_brd (k : Nat) (b : Bank) : (s.setBank k b).brd = s.brd := rfl
@[simp] theorem State.setBank_clm (k : Nat) (b : Bank) : (s.setBank k b).clm = s.clm := rfl
@[simp] theorem State.setBank_pop (k : Nat) (b : Bank) : (s.setBank k b).pop = s.pop := rfl
@[simp] theorem State.setBank_src (k : Nat) (b : Bank) : (s.setBank k b).src = s.src := rfl
@[simp] theorem State.setBank_tim (k : Nat) (b : Bank) : (s.setBank k b).tim = s.tim := rfl
@[simp] theorem State.setBank_test (k : Nat) (b : Bank) : (s.setBank k b).test = s.test := rfl
@[simp] theorem State.setBank_mc (k : Nat) (b : Bank) : (s.setBank k b).mc = s.mc := rfl
@[simp] theorem State.setBank_arbs (k : Nat) (b : Bank) : (s.setBank k b).arbs = s.arbs := rfl
@[simp] theorem State.setBank_scans (k : Nat) (b : Bank) : (s.setBank k b).scans = s.scans := rfl
@[simp] theorem State.setBank_laneDone (k : Nat) (b : Bank) : (s.setBank k b).laneDone = s.laneDone := rfl
@[simp] theorem State.setBank_pwr (k : Nat) (b : Bank) : (s.setBank k b).pwr = s.pwr := rfl
@[simp] theorem State.setBank_kiln (k : Nat) (b : Bank) : (s.setBank k b).kiln = s.kiln := rfl
@[simp] theorem State.setBank_age (k : Nat) (b : Bank) : (s.setBank k b).age = s.age := rfl
@[simp] theorem State.setBank_cam (k : Nat) (b : Bank) : (s.setBank k b).cam = s.cam := rfl
@[simp] theorem State.setBank_aud (k : Nat) (b : Bank) : (s.setBank k b).aud = s.aud := rfl
@[simp] theorem State.setBank_jtag (k : Nat) (b : Bank) : (s.setBank k b).jtag = s.jtag := rfl
@[simp] theorem State.setBank_sram (k : Nat) (b : Bank) : (s.setBank k b).sram = s.sram := rfl
@[simp] theorem State.setBank_spiRx (k : Nat) (b : Bank) : (s.setBank k b).spiRx = s.spiRx := rfl
@[simp] theorem State.setBank_spiTx (k : Nat) (b : Bank) : (s.setBank k b).spiTx = s.spiTx := rfl
@[simp] theorem State.setBank_trace (k : Nat) (b : Bank) : (s.setBank k b).trace = s.trace := rfl
@[simp] theorem State.setBank_ddr (k : Nat) (b : Bank) : (s.setBank k b).ddr = s.ddr := rfl
@[simp] theorem State.setBank_hea (k : Nat) (b : Bank) : (s.setBank k b).hea = s.hea := rfl
@[simp] theorem State.setBank_sto (k : Nat) (b : Bank) : (s.setBank k b).sto = s.sto := rfl
@[simp] theorem State.setBank_nvj (k : Nat) (b : Bank) : (s.setBank k b).nvj = s.nvj := rfl
@[simp] theorem State.setBank_fw (k : Nat) (b : Bank) : (s.setBank k b).fw = s.fw := rfl
@[simp] theorem State.setBank_stage (k : Nat) (b : Bank) : (s.setBank k b).stage = s.stage := rfl
@[simp] theorem State.setBank_stageLast (k : Nat) (b : Bank) : (s.setBank k b).stageLast = s.stageLast := rfl
@[simp] theorem State.setBank_tstage (k : Nat) (b : Bank) : (s.setBank k b).tstage = s.tstage := rfl
@[simp] theorem State.setBank_dsetLoaded (k : Nat) (b : Bank) : (s.setBank k b).dsetLoaded = s.dsetLoaded := rfl
@[simp] theorem State.setBank_dsetPairs (k : Nat) (b : Bank) : (s.setBank k b).dsetPairs = s.dsetPairs := rfl
@[simp] theorem State.setBank_freeCtr (k : Nat) (b : Bank) : (s.setBank k b).freeCtr = s.freeCtr := rfl

/-! ### emit -/

@[simp] theorem State.emit_pending (o : Out) : (s.emit o).pending = s.pending := rfl
@[simp] theorem State.emit_regs (o : Out) : (s.emit o).regs = s.regs := rfl
@[simp] theorem State.emit_live (o : Out) : (s.emit o).live = s.live := rfl
@[simp] theorem State.emit_latch (o : Out) : (s.emit o).latch = s.latch := rfl
@[simp] theorem State.emit_seqs (o : Out) : (s.emit o).seqs = s.seqs := rfl
@[simp] theorem State.emit_banks (o : Out) : (s.emit o).banks = s.banks := rfl
@[simp] theorem State.emit_wtb (o : Out) : (s.emit o).wtb = s.wtb := rfl
@[simp] theorem State.emit_life (o : Out) : (s.emit o).life = s.life := rfl
@[simp] theorem State.emit_sessions (o : Out) : (s.emit o).sessions = s.sessions := rfl
@[simp] theorem State.emit_comp (o : Out) : (s.emit o).comp = s.comp := rfl
@[simp] theorem State.emit_cord (o : Out) : (s.emit o).cord = s.cord := rfl
@[simp] theorem State.emit_tl (o : Out) : (s.emit o).tl = s.tl := rfl
@[simp] theorem State.emit_lamp (o : Out) : (s.emit o).lamp = s.lamp := rfl
@[simp] theorem State.emit_brd (o : Out) : (s.emit o).brd = s.brd := rfl
@[simp] theorem State.emit_clm (o : Out) : (s.emit o).clm = s.clm := rfl
@[simp] theorem State.emit_pop (o : Out) : (s.emit o).pop = s.pop := rfl
@[simp] theorem State.emit_src (o : Out) : (s.emit o).src = s.src := rfl
@[simp] theorem State.emit_tim (o : Out) : (s.emit o).tim = s.tim := rfl
@[simp] theorem State.emit_test (o : Out) : (s.emit o).test = s.test := rfl
@[simp] theorem State.emit_mc (o : Out) : (s.emit o).mc = s.mc := rfl
@[simp] theorem State.emit_arbs (o : Out) : (s.emit o).arbs = s.arbs := rfl
@[simp] theorem State.emit_scans (o : Out) : (s.emit o).scans = s.scans := rfl
@[simp] theorem State.emit_laneDone (o : Out) : (s.emit o).laneDone = s.laneDone := rfl
@[simp] theorem State.emit_pwr (o : Out) : (s.emit o).pwr = s.pwr := rfl
@[simp] theorem State.emit_kiln (o : Out) : (s.emit o).kiln = s.kiln := rfl
@[simp] theorem State.emit_age (o : Out) : (s.emit o).age = s.age := rfl
@[simp] theorem State.emit_cam (o : Out) : (s.emit o).cam = s.cam := rfl
@[simp] theorem State.emit_aud (o : Out) : (s.emit o).aud = s.aud := rfl
@[simp] theorem State.emit_jtag (o : Out) : (s.emit o).jtag = s.jtag := rfl
@[simp] theorem State.emit_sram (o : Out) : (s.emit o).sram = s.sram := rfl
@[simp] theorem State.emit_spiRx (o : Out) : (s.emit o).spiRx = s.spiRx := rfl
@[simp] theorem State.emit_spiTx (o : Out) : (s.emit o).spiTx = s.spiTx := rfl
@[simp] theorem State.emit_trace (o : Out) : (s.emit o).trace = s.trace := rfl
@[simp] theorem State.emit_ddr (o : Out) : (s.emit o).ddr = s.ddr := rfl
@[simp] theorem State.emit_hea (o : Out) : (s.emit o).hea = s.hea := rfl
@[simp] theorem State.emit_sto (o : Out) : (s.emit o).sto = s.sto := rfl
@[simp] theorem State.emit_nvj (o : Out) : (s.emit o).nvj = s.nvj := rfl
@[simp] theorem State.emit_fw (o : Out) : (s.emit o).fw = s.fw := rfl
@[simp] theorem State.emit_stage (o : Out) : (s.emit o).stage = s.stage := rfl
@[simp] theorem State.emit_stageLast (o : Out) : (s.emit o).stageLast = s.stageLast := rfl
@[simp] theorem State.emit_tstage (o : Out) : (s.emit o).tstage = s.tstage := rfl
@[simp] theorem State.emit_dsetLoaded (o : Out) : (s.emit o).dsetLoaded = s.dsetLoaded := rfl
@[simp] theorem State.emit_dsetPairs (o : Out) : (s.emit o).dsetPairs = s.dsetPairs := rfl
@[simp] theorem State.emit_freeCtr (o : Out) : (s.emit o).freeCtr = s.freeCtr := rfl

/-! ### freed -/

@[simp] theorem State.freed_pending : (s.freed).pending = s.pending := rfl
@[simp] theorem State.freed_out : (s.freed).out = s.out := rfl
@[simp] theorem State.freed_regs : (s.freed).regs = s.regs := rfl
@[simp] theorem State.freed_live : (s.freed).live = s.live := rfl
@[simp] theorem State.freed_latch : (s.freed).latch = s.latch := rfl
@[simp] theorem State.freed_seqs : (s.freed).seqs = s.seqs := rfl
@[simp] theorem State.freed_banks : (s.freed).banks = s.banks := rfl
@[simp] theorem State.freed_wtb : (s.freed).wtb = s.wtb := rfl
@[simp] theorem State.freed_life : (s.freed).life = s.life := rfl
@[simp] theorem State.freed_sessions : (s.freed).sessions = s.sessions := rfl
@[simp] theorem State.freed_comp : (s.freed).comp = s.comp := rfl
@[simp] theorem State.freed_cord : (s.freed).cord = s.cord := rfl
@[simp] theorem State.freed_tl : (s.freed).tl = s.tl := rfl
@[simp] theorem State.freed_lamp : (s.freed).lamp = s.lamp := rfl
@[simp] theorem State.freed_brd : (s.freed).brd = s.brd := rfl
@[simp] theorem State.freed_clm : (s.freed).clm = s.clm := rfl
@[simp] theorem State.freed_pop : (s.freed).pop = s.pop := rfl
@[simp] theorem State.freed_src : (s.freed).src = s.src := rfl
@[simp] theorem State.freed_tim : (s.freed).tim = s.tim := rfl
@[simp] theorem State.freed_test : (s.freed).test = s.test := rfl
@[simp] theorem State.freed_mc : (s.freed).mc = s.mc := rfl
@[simp] theorem State.freed_arbs : (s.freed).arbs = s.arbs := rfl
@[simp] theorem State.freed_scans : (s.freed).scans = s.scans := rfl
@[simp] theorem State.freed_laneDone : (s.freed).laneDone = s.laneDone := rfl
@[simp] theorem State.freed_pwr : (s.freed).pwr = s.pwr := rfl
@[simp] theorem State.freed_kiln : (s.freed).kiln = s.kiln := rfl
@[simp] theorem State.freed_age : (s.freed).age = s.age := rfl
@[simp] theorem State.freed_cam : (s.freed).cam = s.cam := rfl
@[simp] theorem State.freed_aud : (s.freed).aud = s.aud := rfl
@[simp] theorem State.freed_jtag : (s.freed).jtag = s.jtag := rfl
@[simp] theorem State.freed_sram : (s.freed).sram = s.sram := rfl
@[simp] theorem State.freed_spiRx : (s.freed).spiRx = s.spiRx := rfl
@[simp] theorem State.freed_spiTx : (s.freed).spiTx = s.spiTx := rfl
@[simp] theorem State.freed_trace : (s.freed).trace = s.trace := rfl
@[simp] theorem State.freed_ddr : (s.freed).ddr = s.ddr := rfl
@[simp] theorem State.freed_hea : (s.freed).hea = s.hea := rfl
@[simp] theorem State.freed_sto : (s.freed).sto = s.sto := rfl
@[simp] theorem State.freed_nvj : (s.freed).nvj = s.nvj := rfl
@[simp] theorem State.freed_fw : (s.freed).fw = s.fw := rfl
@[simp] theorem State.freed_stage : (s.freed).stage = s.stage := rfl
@[simp] theorem State.freed_stageLast : (s.freed).stageLast = s.stageLast := rfl
@[simp] theorem State.freed_tstage : (s.freed).tstage = s.tstage := rfl
@[simp] theorem State.freed_dsetLoaded : (s.freed).dsetLoaded = s.dsetLoaded := rfl
@[simp] theorem State.freed_dsetPairs : (s.freed).dsetPairs = s.dsetPairs := rfl

/-! ### irq -/

@[simp] theorem State.irq_pending (b : Nat) : (s.irq b).pending = s.pending := rfl
@[simp] theorem State.irq_out (b : Nat) : (s.irq b).out = s.out := rfl
@[simp] theorem State.irq_live (b : Nat) : (s.irq b).live = s.live := rfl
@[simp] theorem State.irq_latch (b : Nat) : (s.irq b).latch = s.latch := rfl
@[simp] theorem State.irq_seqs (b : Nat) : (s.irq b).seqs = s.seqs := rfl
@[simp] theorem State.irq_banks (b : Nat) : (s.irq b).banks = s.banks := rfl
@[simp] theorem State.irq_wtb (b : Nat) : (s.irq b).wtb = s.wtb := rfl
@[simp] theorem State.irq_life (b : Nat) : (s.irq b).life = s.life := rfl
@[simp] theorem State.irq_sessions (b : Nat) : (s.irq b).sessions = s.sessions := rfl
@[simp] theorem State.irq_comp (b : Nat) : (s.irq b).comp = s.comp := rfl
@[simp] theorem State.irq_cord (b : Nat) : (s.irq b).cord = s.cord := rfl
@[simp] theorem State.irq_tl (b : Nat) : (s.irq b).tl = s.tl := rfl
@[simp] theorem State.irq_lamp (b : Nat) : (s.irq b).lamp = s.lamp := rfl
@[simp] theorem State.irq_brd (b : Nat) : (s.irq b).brd = s.brd := rfl
@[simp] theorem State.irq_clm (b : Nat) : (s.irq b).clm = s.clm := rfl
@[simp] theorem State.irq_pop (b : Nat) : (s.irq b).pop = s.pop := rfl
@[simp] theorem State.irq_src (b : Nat) : (s.irq b).src = s.src := rfl
@[simp] theorem State.irq_tim (b : Nat) : (s.irq b).tim = s.tim := rfl
@[simp] theorem State.irq_test (b : Nat) : (s.irq b).test = s.test := rfl
@[simp] theorem State.irq_mc (b : Nat) : (s.irq b).mc = s.mc := rfl
@[simp] theorem State.irq_arbs (b : Nat) : (s.irq b).arbs = s.arbs := rfl
@[simp] theorem State.irq_scans (b : Nat) : (s.irq b).scans = s.scans := rfl
@[simp] theorem State.irq_laneDone (b : Nat) : (s.irq b).laneDone = s.laneDone := rfl
@[simp] theorem State.irq_pwr (b : Nat) : (s.irq b).pwr = s.pwr := rfl
@[simp] theorem State.irq_kiln (b : Nat) : (s.irq b).kiln = s.kiln := rfl
@[simp] theorem State.irq_age (b : Nat) : (s.irq b).age = s.age := rfl
@[simp] theorem State.irq_cam (b : Nat) : (s.irq b).cam = s.cam := rfl
@[simp] theorem State.irq_aud (b : Nat) : (s.irq b).aud = s.aud := rfl
@[simp] theorem State.irq_jtag (b : Nat) : (s.irq b).jtag = s.jtag := rfl
@[simp] theorem State.irq_sram (b : Nat) : (s.irq b).sram = s.sram := rfl
@[simp] theorem State.irq_spiRx (b : Nat) : (s.irq b).spiRx = s.spiRx := rfl
@[simp] theorem State.irq_spiTx (b : Nat) : (s.irq b).spiTx = s.spiTx := rfl
@[simp] theorem State.irq_trace (b : Nat) : (s.irq b).trace = s.trace := rfl
@[simp] theorem State.irq_ddr (b : Nat) : (s.irq b).ddr = s.ddr := rfl
@[simp] theorem State.irq_hea (b : Nat) : (s.irq b).hea = s.hea := rfl
@[simp] theorem State.irq_sto (b : Nat) : (s.irq b).sto = s.sto := rfl
@[simp] theorem State.irq_nvj (b : Nat) : (s.irq b).nvj = s.nvj := rfl
@[simp] theorem State.irq_fw (b : Nat) : (s.irq b).fw = s.fw := rfl
@[simp] theorem State.irq_stage (b : Nat) : (s.irq b).stage = s.stage := rfl
@[simp] theorem State.irq_stageLast (b : Nat) : (s.irq b).stageLast = s.stageLast := rfl
@[simp] theorem State.irq_tstage (b : Nat) : (s.irq b).tstage = s.tstage := rfl
@[simp] theorem State.irq_dsetLoaded (b : Nat) : (s.irq b).dsetLoaded = s.dsetLoaded := rfl
@[simp] theorem State.irq_dsetPairs (b : Nat) : (s.irq b).dsetPairs = s.dsetPairs := rfl
@[simp] theorem State.irq_freeCtr (b : Nat) : (s.irq b).freeCtr = s.freeCtr := rfl

/-! ### setPair -/

@[simp] theorem State.setPair_pending (a v : Nat) : (s.setPair a v).pending = s.pending := rfl
@[simp] theorem State.setPair_out (a v : Nat) : (s.setPair a v).out = s.out := rfl
@[simp] theorem State.setPair_live (a v : Nat) : (s.setPair a v).live = s.live := rfl
@[simp] theorem State.setPair_latch (a v : Nat) : (s.setPair a v).latch = s.latch := rfl
@[simp] theorem State.setPair_seqs (a v : Nat) : (s.setPair a v).seqs = s.seqs := rfl
@[simp] theorem State.setPair_banks (a v : Nat) : (s.setPair a v).banks = s.banks := rfl
@[simp] theorem State.setPair_wtb (a v : Nat) : (s.setPair a v).wtb = s.wtb := rfl
@[simp] theorem State.setPair_life (a v : Nat) : (s.setPair a v).life = s.life := rfl
@[simp] theorem State.setPair_sessions (a v : Nat) : (s.setPair a v).sessions = s.sessions := rfl
@[simp] theorem State.setPair_comp (a v : Nat) : (s.setPair a v).comp = s.comp := rfl
@[simp] theorem State.setPair_cord (a v : Nat) : (s.setPair a v).cord = s.cord := rfl
@[simp] theorem State.setPair_tl (a v : Nat) : (s.setPair a v).tl = s.tl := rfl
@[simp] theorem State.setPair_lamp (a v : Nat) : (s.setPair a v).lamp = s.lamp := rfl
@[simp] theorem State.setPair_brd (a v : Nat) : (s.setPair a v).brd = s.brd := rfl
@[simp] theorem State.setPair_clm (a v : Nat) : (s.setPair a v).clm = s.clm := rfl
@[simp] theorem State.setPair_pop (a v : Nat) : (s.setPair a v).pop = s.pop := rfl
@[simp] theorem State.setPair_src (a v : Nat) : (s.setPair a v).src = s.src := rfl
@[simp] theorem State.setPair_tim (a v : Nat) : (s.setPair a v).tim = s.tim := rfl
@[simp] theorem State.setPair_test (a v : Nat) : (s.setPair a v).test = s.test := rfl
@[simp] theorem State.setPair_mc (a v : Nat) : (s.setPair a v).mc = s.mc := rfl
@[simp] theorem State.setPair_arbs (a v : Nat) : (s.setPair a v).arbs = s.arbs := rfl
@[simp] theorem State.setPair_scans (a v : Nat) : (s.setPair a v).scans = s.scans := rfl
@[simp] theorem State.setPair_laneDone (a v : Nat) : (s.setPair a v).laneDone = s.laneDone := rfl
@[simp] theorem State.setPair_pwr (a v : Nat) : (s.setPair a v).pwr = s.pwr := rfl
@[simp] theorem State.setPair_kiln (a v : Nat) : (s.setPair a v).kiln = s.kiln := rfl
@[simp] theorem State.setPair_age (a v : Nat) : (s.setPair a v).age = s.age := rfl
@[simp] theorem State.setPair_cam (a v : Nat) : (s.setPair a v).cam = s.cam := rfl
@[simp] theorem State.setPair_aud (a v : Nat) : (s.setPair a v).aud = s.aud := rfl
@[simp] theorem State.setPair_jtag (a v : Nat) : (s.setPair a v).jtag = s.jtag := rfl
@[simp] theorem State.setPair_sram (a v : Nat) : (s.setPair a v).sram = s.sram := rfl
@[simp] theorem State.setPair_spiRx (a v : Nat) : (s.setPair a v).spiRx = s.spiRx := rfl
@[simp] theorem State.setPair_spiTx (a v : Nat) : (s.setPair a v).spiTx = s.spiTx := rfl
@[simp] theorem State.setPair_trace (a v : Nat) : (s.setPair a v).trace = s.trace := rfl
@[simp] theorem State.setPair_ddr (a v : Nat) : (s.setPair a v).ddr = s.ddr := rfl
@[simp] theorem State.setPair_hea (a v : Nat) : (s.setPair a v).hea = s.hea := rfl
@[simp] theorem State.setPair_sto (a v : Nat) : (s.setPair a v).sto = s.sto := rfl
@[simp] theorem State.setPair_nvj (a v : Nat) : (s.setPair a v).nvj = s.nvj := rfl
@[simp] theorem State.setPair_fw (a v : Nat) : (s.setPair a v).fw = s.fw := rfl
@[simp] theorem State.setPair_stage (a v : Nat) : (s.setPair a v).stage = s.stage := rfl
@[simp] theorem State.setPair_stageLast (a v : Nat) : (s.setPair a v).stageLast = s.stageLast := rfl
@[simp] theorem State.setPair_tstage (a v : Nat) : (s.setPair a v).tstage = s.tstage := rfl
@[simp] theorem State.setPair_dsetLoaded (a v : Nat) : (s.setPair a v).dsetLoaded = s.dsetLoaded := rfl
@[simp] theorem State.setPair_dsetPairs (a v : Nat) : (s.setPair a v).dsetPairs = s.dsetPairs := rfl
@[simp] theorem State.setPair_freeCtr (a v : Nat) : (s.setPair a v).freeCtr = s.freeCtr := rfl

/-! ### ddrWrite -/

@[simp] theorem State.ddrWrite_pending (a : Nat) (bs : List Byte) : (s.ddrWrite a bs).pending = s.pending := rfl
@[simp] theorem State.ddrWrite_out (a : Nat) (bs : List Byte) : (s.ddrWrite a bs).out = s.out := rfl
@[simp] theorem State.ddrWrite_regs (a : Nat) (bs : List Byte) : (s.ddrWrite a bs).regs = s.regs := rfl
@[simp] theorem State.ddrWrite_live (a : Nat) (bs : List Byte) : (s.ddrWrite a bs).live = s.live := rfl
@[simp] theorem State.ddrWrite_latch (a : Nat) (bs : List Byte) : (s.ddrWrite a bs).latch = s.latch := rfl
@[simp] theorem State.ddrWrite_seqs (a : Nat) (bs : List Byte) : (s.ddrWrite a bs).seqs = s.seqs := rfl
@[simp] theorem State.ddrWrite_banks (a : Nat) (bs : List Byte) : (s.ddrWrite a bs).banks = s.banks := rfl
@[simp] theorem State.ddrWrite_wtb (a : Nat) (bs : List Byte) : (s.ddrWrite a bs).wtb = s.wtb := rfl
@[simp] theorem State.ddrWrite_life (a : Nat) (bs : List Byte) : (s.ddrWrite a bs).life = s.life := rfl
@[simp] theorem State.ddrWrite_sessions (a : Nat) (bs : List Byte) : (s.ddrWrite a bs).sessions = s.sessions := rfl
@[simp] theorem State.ddrWrite_comp (a : Nat) (bs : List Byte) : (s.ddrWrite a bs).comp = s.comp := rfl
@[simp] theorem State.ddrWrite_cord (a : Nat) (bs : List Byte) : (s.ddrWrite a bs).cord = s.cord := rfl
@[simp] theorem State.ddrWrite_tl (a : Nat) (bs : List Byte) : (s.ddrWrite a bs).tl = s.tl := rfl
@[simp] theorem State.ddrWrite_lamp (a : Nat) (bs : List Byte) : (s.ddrWrite a bs).lamp = s.lamp := rfl
@[simp] theorem State.ddrWrite_brd (a : Nat) (bs : List Byte) : (s.ddrWrite a bs).brd = s.brd := rfl
@[simp] theorem State.ddrWrite_clm (a : Nat) (bs : List Byte) : (s.ddrWrite a bs).clm = s.clm := rfl
@[simp] theorem State.ddrWrite_pop (a : Nat) (bs : List Byte) : (s.ddrWrite a bs).pop = s.pop := rfl
@[simp] theorem State.ddrWrite_src (a : Nat) (bs : List Byte) : (s.ddrWrite a bs).src = s.src := rfl
@[simp] theorem State.ddrWrite_tim (a : Nat) (bs : List Byte) : (s.ddrWrite a bs).tim = s.tim := rfl
@[simp] theorem State.ddrWrite_test (a : Nat) (bs : List Byte) : (s.ddrWrite a bs).test = s.test := rfl
@[simp] theorem State.ddrWrite_mc (a : Nat) (bs : List Byte) : (s.ddrWrite a bs).mc = s.mc := rfl
@[simp] theorem State.ddrWrite_arbs (a : Nat) (bs : List Byte) : (s.ddrWrite a bs).arbs = s.arbs := rfl
@[simp] theorem State.ddrWrite_scans (a : Nat) (bs : List Byte) : (s.ddrWrite a bs).scans = s.scans := rfl
@[simp] theorem State.ddrWrite_laneDone (a : Nat) (bs : List Byte) : (s.ddrWrite a bs).laneDone = s.laneDone := rfl
@[simp] theorem State.ddrWrite_pwr (a : Nat) (bs : List Byte) : (s.ddrWrite a bs).pwr = s.pwr := rfl
@[simp] theorem State.ddrWrite_kiln (a : Nat) (bs : List Byte) : (s.ddrWrite a bs).kiln = s.kiln := rfl
@[simp] theorem State.ddrWrite_age (a : Nat) (bs : List Byte) : (s.ddrWrite a bs).age = s.age := rfl
@[simp] theorem State.ddrWrite_cam (a : Nat) (bs : List Byte) : (s.ddrWrite a bs).cam = s.cam := rfl
@[simp] theorem State.ddrWrite_aud (a : Nat) (bs : List Byte) : (s.ddrWrite a bs).aud = s.aud := rfl
@[simp] theorem State.ddrWrite_jtag (a : Nat) (bs : List Byte) : (s.ddrWrite a bs).jtag = s.jtag := rfl
@[simp] theorem State.ddrWrite_sram (a : Nat) (bs : List Byte) : (s.ddrWrite a bs).sram = s.sram := rfl
@[simp] theorem State.ddrWrite_spiRx (a : Nat) (bs : List Byte) : (s.ddrWrite a bs).spiRx = s.spiRx := rfl
@[simp] theorem State.ddrWrite_spiTx (a : Nat) (bs : List Byte) : (s.ddrWrite a bs).spiTx = s.spiTx := rfl
@[simp] theorem State.ddrWrite_trace (a : Nat) (bs : List Byte) : (s.ddrWrite a bs).trace = s.trace := rfl
@[simp] theorem State.ddrWrite_hea (a : Nat) (bs : List Byte) : (s.ddrWrite a bs).hea = s.hea := rfl
@[simp] theorem State.ddrWrite_sto (a : Nat) (bs : List Byte) : (s.ddrWrite a bs).sto = s.sto := rfl
@[simp] theorem State.ddrWrite_nvj (a : Nat) (bs : List Byte) : (s.ddrWrite a bs).nvj = s.nvj := rfl
@[simp] theorem State.ddrWrite_fw (a : Nat) (bs : List Byte) : (s.ddrWrite a bs).fw = s.fw := rfl
@[simp] theorem State.ddrWrite_stage (a : Nat) (bs : List Byte) : (s.ddrWrite a bs).stage = s.stage := rfl
@[simp] theorem State.ddrWrite_stageLast (a : Nat) (bs : List Byte) : (s.ddrWrite a bs).stageLast = s.stageLast := rfl
@[simp] theorem State.ddrWrite_tstage (a : Nat) (bs : List Byte) : (s.ddrWrite a bs).tstage = s.tstage := rfl
@[simp] theorem State.ddrWrite_dsetLoaded (a : Nat) (bs : List Byte) : (s.ddrWrite a bs).dsetLoaded = s.dsetLoaded := rfl
@[simp] theorem State.ddrWrite_dsetPairs (a : Nat) (bs : List Byte) : (s.ddrWrite a bs).dsetPairs = s.dsetPairs := rfl
@[simp] theorem State.ddrWrite_freeCtr (a : Nat) (bs : List Byte) : (s.ddrWrite a bs).freeCtr = s.freeCtr := rfl

/-! ### Reads after an update of something else -/

@[simp] theorem State.setReg_liveReg (a : Nat) (v : Word) (x : Nat) : (s.setReg a v).liveReg x = s.liveReg x := rfl
@[simp] theorem State.setReg_liveF (a : Nat) (v : Word) (x : Field) : (s.setReg a v).liveF x = s.liveF x := rfl
@[simp] theorem State.setReg_seq (a : Nat) (v : Word) (x : Nat) : (s.setReg a v).seq x = s.seq x := rfl
@[simp] theorem State.setReg_bank (a : Nat) (v : Word) (x : Nat) : (s.setReg a v).bank x = s.bank x := rfl
@[simp] theorem State.setReg_ddrByte (a : Nat) (v : Word) (x : Nat) : (s.setReg a v).ddrByte x = s.ddrByte x := rfl
@[simp] theorem State.setF_liveReg (f : Field) (v : Nat) (x : Nat) : (s.setF f v).liveReg x = s.liveReg x := rfl
@[simp] theorem State.setF_liveF (f : Field) (v : Nat) (x : Field) : (s.setF f v).liveF x = s.liveF x := rfl
@[simp] theorem State.setF_seq (f : Field) (v : Nat) (x : Nat) : (s.setF f v).seq x = s.seq x := rfl
@[simp] theorem State.setF_bank (f : Field) (v : Nat) (x : Nat) : (s.setF f v).bank x = s.bank x := rfl
@[simp] theorem State.setF_ddrByte (f : Field) (v : Nat) (x : Nat) : (s.setF f v).ddrByte x = s.ddrByte x := rfl
@[simp] theorem State.setFlag_liveReg (f : Field) (b : Bool) (x : Nat) : (s.setFlag f b).liveReg x = s.liveReg x := rfl
@[simp] theorem State.setFlag_liveF (f : Field) (b : Bool) (x : Field) : (s.setFlag f b).liveF x = s.liveF x := rfl
@[simp] theorem State.setFlag_seq (f : Field) (b : Bool) (x : Nat) : (s.setFlag f b).seq x = s.seq x := rfl
@[simp] theorem State.setFlag_bank (f : Field) (b : Bool) (x : Nat) : (s.setFlag f b).bank x = s.bank x := rfl
@[simp] theorem State.setFlag_ddrByte (f : Field) (b : Bool) (x : Nat) : (s.setFlag f b).ddrByte x = s.ddrByte x := rfl
@[simp] theorem State.count_liveReg (a n : Nat) (x : Nat) : (s.count a n).liveReg x = s.liveReg x := rfl
@[simp] theorem State.count_liveF (a n : Nat) (x : Field) : (s.count a n).liveF x = s.liveF x := rfl
@[simp] theorem State.count_seq (a n : Nat) (x : Nat) : (s.count a n).seq x = s.seq x := rfl
@[simp] theorem State.count_bank (a n : Nat) (x : Nat) : (s.count a n).bank x = s.bank x := rfl
@[simp] theorem State.count_ddrByte (a n : Nat) (x : Nat) : (s.count a n).ddrByte x = s.ddrByte x := rfl
@[simp] theorem State.setLive_reg (a : Nat) (v : Word) (x : Nat) : (s.setLive a v).reg x = s.reg x := rfl
@[simp] theorem State.setLive_getF (a : Nat) (v : Word) (x : Field) : (s.setLive a v).getF x = s.getF x := rfl
@[simp] theorem State.setLive_flag (a : Nat) (v : Word) (x : Field) : (s.setLive a v).flag x = s.flag x := rfl
@[simp] theorem State.setLive_seq (a : Nat) (v : Word) (x : Nat) : (s.setLive a v).seq x = s.seq x := rfl
@[simp] theorem State.setLive_bank (a : Nat) (v : Word) (x : Nat) : (s.setLive a v).bank x = s.bank x := rfl
@[simp] theorem State.setLive_ddrByte (a : Nat) (v : Word) (x : Nat) : (s.setLive a v).ddrByte x = s.ddrByte x := rfl
@[simp] theorem State.setSeq_reg (k : Nat) (q : Seq) (x : Nat) : (s.setSeq k q).reg x = s.reg x := rfl
@[simp] theorem State.setSeq_getF (k : Nat) (q : Seq) (x : Field) : (s.setSeq k q).getF x = s.getF x := rfl
@[simp] theorem State.setSeq_flag (k : Nat) (q : Seq) (x : Field) : (s.setSeq k q).flag x = s.flag x := rfl
@[simp] theorem State.setSeq_liveReg (k : Nat) (q : Seq) (x : Nat) : (s.setSeq k q).liveReg x = s.liveReg x := rfl
@[simp] theorem State.setSeq_liveF (k : Nat) (q : Seq) (x : Field) : (s.setSeq k q).liveF x = s.liveF x := rfl
@[simp] theorem State.setSeq_bank (k : Nat) (q : Seq) (x : Nat) : (s.setSeq k q).bank x = s.bank x := rfl
@[simp] theorem State.setSeq_ddrByte (k : Nat) (q : Seq) (x : Nat) : (s.setSeq k q).ddrByte x = s.ddrByte x := rfl
@[simp] theorem State.setBank_reg (k : Nat) (b : Bank) (x : Nat) : (s.setBank k b).reg x = s.reg x := rfl
@[simp] theorem State.setBank_getF (k : Nat) (b : Bank) (x : Field) : (s.setBank k b).getF x = s.getF x := rfl
@[simp] theorem State.setBank_flag (k : Nat) (b : Bank) (x : Field) : (s.setBank k b).flag x = s.flag x := rfl
@[simp] theorem State.setBank_liveReg (k : Nat) (b : Bank) (x : Nat) : (s.setBank k b).liveReg x = s.liveReg x := rfl
@[simp] theorem State.setBank_liveF (k : Nat) (b : Bank) (x : Field) : (s.setBank k b).liveF x = s.liveF x := rfl
@[simp] theorem State.setBank_seq (k : Nat) (b : Bank) (x : Nat) : (s.setBank k b).seq x = s.seq x := rfl
@[simp] theorem State.setBank_ddrByte (k : Nat) (b : Bank) (x : Nat) : (s.setBank k b).ddrByte x = s.ddrByte x := rfl
@[simp] theorem State.emit_reg (o : Out) (x : Nat) : (s.emit o).reg x = s.reg x := rfl
@[simp] theorem State.emit_getF (o : Out) (x : Field) : (s.emit o).getF x = s.getF x := rfl
@[simp] theorem State.emit_flag (o : Out) (x : Field) : (s.emit o).flag x = s.flag x := rfl
@[simp] theorem State.emit_liveReg (o : Out) (x : Nat) : (s.emit o).liveReg x = s.liveReg x := rfl
@[simp] theorem State.emit_liveF (o : Out) (x : Field) : (s.emit o).liveF x = s.liveF x := rfl
@[simp] theorem State.emit_seq (o : Out) (x : Nat) : (s.emit o).seq x = s.seq x := rfl
@[simp] theorem State.emit_bank (o : Out) (x : Nat) : (s.emit o).bank x = s.bank x := rfl
@[simp] theorem State.emit_ddrByte (o : Out) (x : Nat) : (s.emit o).ddrByte x = s.ddrByte x := rfl
@[simp] theorem State.freed_reg (x : Nat) : (s.freed).reg x = s.reg x := rfl
@[simp] theorem State.freed_getF (x : Field) : (s.freed).getF x = s.getF x := rfl
@[simp] theorem State.freed_flag (x : Field) : (s.freed).flag x = s.flag x := rfl
@[simp] theorem State.freed_liveReg (x : Nat) : (s.freed).liveReg x = s.liveReg x := rfl
@[simp] theorem State.freed_liveF (x : Field) : (s.freed).liveF x = s.liveF x := rfl
@[simp] theorem State.freed_seq (x : Nat) : (s.freed).seq x = s.seq x := rfl
@[simp] theorem State.freed_bank (x : Nat) : (s.freed).bank x = s.bank x := rfl
@[simp] theorem State.freed_ddrByte (x : Nat) : (s.freed).ddrByte x = s.ddrByte x := rfl
@[simp] theorem State.irq_liveReg (b : Nat) (x : Nat) : (s.irq b).liveReg x = s.liveReg x := rfl
@[simp] theorem State.irq_liveF (b : Nat) (x : Field) : (s.irq b).liveF x = s.liveF x := rfl
@[simp] theorem State.irq_seq (b : Nat) (x : Nat) : (s.irq b).seq x = s.seq x := rfl
@[simp] theorem State.irq_bank (b : Nat) (x : Nat) : (s.irq b).bank x = s.bank x := rfl
@[simp] theorem State.irq_ddrByte (b : Nat) (x : Nat) : (s.irq b).ddrByte x = s.ddrByte x := rfl
@[simp] theorem State.setPair_liveReg (a v : Nat) (x : Nat) : (s.setPair a v).liveReg x = s.liveReg x := rfl
@[simp] theorem State.setPair_liveF (a v : Nat) (x : Field) : (s.setPair a v).liveF x = s.liveF x := rfl
@[simp] theorem State.setPair_seq (a v : Nat) (x : Nat) : (s.setPair a v).seq x = s.seq x := rfl
@[simp] theorem State.setPair_bank (a v : Nat) (x : Nat) : (s.setPair a v).bank x = s.bank x := rfl
@[simp] theorem State.setPair_ddrByte (a v : Nat) (x : Nat) : (s.setPair a v).ddrByte x = s.ddrByte x := rfl
@[simp] theorem State.ddrWrite_reg (a : Nat) (bs : List Byte) (x : Nat) : (s.ddrWrite a bs).reg x = s.reg x := rfl
@[simp] theorem State.ddrWrite_getF (a : Nat) (bs : List Byte) (x : Field) : (s.ddrWrite a bs).getF x = s.getF x := rfl
@[simp] theorem State.ddrWrite_flag (a : Nat) (bs : List Byte) (x : Field) : (s.ddrWrite a bs).flag x = s.flag x := rfl
@[simp] theorem State.ddrWrite_liveReg (a : Nat) (bs : List Byte) (x : Nat) : (s.ddrWrite a bs).liveReg x = s.liveReg x := rfl
@[simp] theorem State.ddrWrite_liveF (a : Nat) (bs : List Byte) (x : Field) : (s.ddrWrite a bs).liveF x = s.liveF x := rfl
@[simp] theorem State.ddrWrite_seq (a : Nat) (bs : List Byte) (x : Nat) : (s.ddrWrite a bs).seq x = s.seq x := rfl
@[simp] theorem State.ddrWrite_bank (a : Nat) (bs : List Byte) (x : Nat) : (s.ddrWrite a bs).bank x = s.bank x := rfl

/-! ### Reads after an update of the same kind -/

/-- A register set reads the value. -/
theorem State.reg_setReg_same (hs : s.Canon) (a : Nat) (v : Word) : (s.setReg a v).reg a = v := SMap.get_set_same hs.regs

/-- The other registers read as before. -/
theorem State.reg_setReg_other (hs : s.Canon) {a b : Nat} (h : b ≠ a) (v : Word) : (s.setReg a v).reg b = s.reg b :=
  SMap.get_set_other hs.regs h

/-- A field set leaves the other registers. -/
theorem State.reg_setF_other (hs : s.Canon) {f : Field} {b : Nat} (h : b ≠ f.addr) (v : Nat) : (s.setF f v).reg b = s.reg b :=
  SMap.get_set_other hs.regs h

/-- A field set leaves the fields of the other registers. -/
theorem State.getF_setF_other (hs : s.Canon) {f g : Field} (h : g.addr ≠ f.addr) (v : Nat) : (s.setF f v).getF g = s.getF g := by
  unfold State.getF
  rw [State.reg_setF_other hs h]

/-- A value in force set reads the value. -/
theorem State.liveReg_setLive_same (hs : s.Canon) (a : Nat) (v : Word) : (s.setLive a v).liveReg a = v := SMap.get_set_same hs.live

/-- The other values in force read as before. -/
theorem State.liveReg_setLive_other (hs : s.Canon) {a b : Nat} (h : b ≠ a) (v : Word) : (s.setLive a v).liveReg b = s.liveReg b :=
  SMap.get_set_other hs.live h

/-- A sequencer set reads the value. -/
theorem State.seq_setSeq_same (hs : s.Canon) (k : Nat) (q : Seq) : (s.setSeq k q).seq k = q := SMap.get_set_same hs.seqs

/-- The other sequencers read as before. -/
theorem State.seq_setSeq_other (hs : s.Canon) {j k : Nat} (h : j ≠ k) (q : Seq) : (s.setSeq k q).seq j = s.seq j :=
  SMap.get_set_other hs.seqs h

/-- A bank set reads the value. -/
theorem State.bank_setBank_same (hs : s.Canon) (k : Nat) (b : Bank) : (s.setBank k b).bank k = b := SMap.get_set_same hs.banks

/-- The other banks read as before. -/
theorem State.bank_setBank_other (hs : s.Canon) {j k : Nat} (h : j ≠ k) (b : Bank) : (s.setBank k b).bank j = s.bank j :=
  SMap.get_set_other hs.banks h

/-- A register write keeps the canonical form. -/
theorem State.setReg_canon (hs : s.Canon) (a : Nat) (v : Word) : (s.setReg a v).Canon := { hs with regs := SMap.wf_set hs.regs }

/-- A field write keeps the canonical form. -/
theorem State.setF_canon (hs : s.Canon) (f : Field) (v : Nat) : (s.setF f v).Canon := State.setReg_canon hs _ _

/-- A flag write keeps the canonical form. -/
theorem State.setFlag_canon (hs : s.Canon) (f : Field) (b : Bool) : (s.setFlag f b).Canon := State.setF_canon hs f _

/-- A count keeps the canonical form. -/
theorem State.count_canon (hs : s.Canon) (a n : Nat) : (s.count a n).Canon := State.setReg_canon hs _ _

end Sys2Proof.Machine
end

