-- ==== Sys2Proof/Machine/Eumer.lean ====
section
/-! DEFINITION. Machine/Eumer.lean: the assembler Eumer, from the lines of a source to the image of a sequencer (R73, R78, R79, R216, R559;
Tables 2-4 to 2-8 and 2-12 to 2-15). A line is held as what its text says, and a name as a number. Eumer is a tool beside the part: nothing
of State depends on it. -/

namespace Sys2Proof.Machine

/-! ### Source lines (Tables 2-13 and 2-14) -/

/-- A #value: a number, or a name that .equ gives one. -/
inductive EuNum where
  | lit (v : Int)
  | equ (name : Nat)
  deriving DecidableEq, Repr

/-- An operand that is a register or a value. -/
inductive EuSrc where
  | reg (g : Fin 16)
  | imm (v : EuNum)
  deriving DecidableEq, Repr

/-- The entry of map: a chain map's name or a register. -/
inductive EuEntry where
  | map (name : Nat)
  | reg (g : Fin 16)
  deriving DecidableEq, Repr

/-- The instructions, in the rows of Table 2-14. -/
inductive EuOp where
  /-- nop, ret and halt, by opcode. -/
  | plain (op : Nat)
  /-- jmp, jz, jnz and call, by opcode. -/
  | jump (op : Nat) (label : Nat)
  | loop (lc : Fin 4) (count : EuSrc)
  | endl (lc : Fin 4)
  /-- wait and waitc. -/
  | wait (clear : Bool) (ev : Fin 32) (timeout : Option EuNum)
  | sig (ev : Fin 32)
  | mov (d : Fin 16) (src : EuSrc)
  | addi (d a : Fin 16) (imm : EuNum)
  /-- add and sub, by opcode. -/
  | sum (op : Nat) (d a b : Fin 16)
  /-- and, or, xor, shl and shr, by opcode. -/
  | logic (op : Nat) (d a : Fin 16) (src : EuSrc)
  | cmp (a : Fin 16) (src : EuSrc)
  | ld (d a : Fin 16) (imm : EuNum)
  | st (a : Fin 16) (imm : EuNum) (b : Fin 16)
  | mark (ports : EuNum)
  | damage (d : Fin 16) (ports : EuNum)
  | band (d : Fin 16) (ports engines : EuNum)
  | band1 (d a : Fin 16) (engines : EuNum)
  /-- none: fixed. -/
  | zlist (ports : EuNum) (entry : Option EuNum)
  | budget (d : Fin 16) (ns : EuNum)
  | flip (ports : EuNum) (ns : EuSrc)
  | testslot (ports start len : EuNum)
  /-- vec, vstr and vgen, by opcode. -/
  | vector (op : Nat) (t : Fin 16) (literal : Nat) (count : EuSrc)
  /-- The edge is 0 drive, 1 return, 2 strobe. -/
  | tset (t : Fin 16) (edge : Fin 3) (units : EuSrc)
  | period (units : EuSrc)
  | map (entry : EuEntry)
  | line (n : EuSrc)
  /-- off, stop, wrap. -/
  | capt (mode : Fin 3) (start : EuNum)
  /-- clear, pulse, segment. -/
  | trig (mode : Fin 3) (outs : EuNum)
  deriving DecidableEq, Repr

/-- A seg line of a chain map (R216): mode 0 word, 1 plane, 2 fill; order 0 msb or 1 lsb, the fill bit for fill. -/
structure EuSeg where
  pin : Nat
  start : Int
  count : Int
  stride : Int
  mode : Fin 3
  n : Nat
  order : Bool
  lrel : Bool
  trg : Bool
  deriving DecidableEq, Repr

/-- A line of the source; a .cmap line stands with its .pins line and its seg lines, a .data line with its .word values. -/
inductive EuLine where
  | op (o : EuOp)
  | label (name : Nat)
  | profile (psq : Bool)
  | bank (n : Nat)
  | entry (label : Nat)
  | equ (name : Nat) (value : Int)
  | lit (name : Nat) (symbols : List Char)
  | cmap (name : Nat) (mask : Nat) (lstride : Int) (segs : List EuSeg)
  | data (words : List EuNum)
  deriving DecidableEq, Repr

/-! ### Names and values -/

/-- The value that a list of names gives a name. -/
def euFind (m : List (Nat × Nat)) (name : Nat) : Option Nat := (m.find? fun e => e.1 == name).map (·.2)

/-- A number as the bits of a field: a negative one in two's complement; one that the field cannot hold is rejected. -/
def euFit (w : Nat) (v : Int) : Option Nat :=
  if -(2 ^ (w - 1)) ≤ v ∧ v < 2 ^ w then some (v % 2 ^ w).toNat else none

/-- The names of a source: instruction labels, .equ values, literals and chain maps. -/
structure EuNames where
  labels : List (Nat × Nat)
  equs : List (Nat × Int)
  lits : List (Nat × Nat)
  maps : List (Nat × Nat)
  deriving DecidableEq, Repr

/-- A #value as the bits of a field. -/
def EuNames.num (e : EuNames) (w : Nat) : EuNum → Option Nat
  | .lit v => euFit w v
  | .equ n => ((e.equs.find? fun x => x.1 == n).map (·.2)).bind (euFit w)

/-! ### Instruction words (Tables 2-4, 2-5, 2-6, 2-8 and R58) -/

/-- A value in bits hi to lo of a word. -/
def euAt (hi lo v : Nat) : Nat := v % 2 ^ (hi + 1 - lo) * 2 ^ lo

/-- src of a scalar instruction (R48): GB, or I and IMM, of which the format uses the low w bits. -/
def EuNames.src (e : EuNames) (w : Nat) : EuSrc → Option Nat
  | .reg g => some (euAt 49 46 g)
  | .imm v => (e.num w v).map fun x => euAt 45 45 1 + x

/-- The operand that S selects (R37): S and GA, or a field of w bits. -/
def EuNames.sel (e : EuNames) (w : Nat) : EuSrc → Option Nat
  | .reg g => some (euAt 53 50 g + euAt 49 49 1)
  | .imm v => e.num w v

/-- END of a loop: the index of the next endl on its counter. -/
def euEnd (ops : List EuOp) (i : Nat) (lc : Fin 4) : Option Nat :=
  (ops.zipIdx.find? fun x => decide (i < x.2) && x.1 == .endl lc).map (·.2)

/-- TARGET of an endl: one past the last loop before it on its counter. -/
def euBody (ops : List EuOp) (i : Nat) (lc : Fin 4) : Option Nat :=
  ((ops.zipIdx.filter fun x => decide (x.2 < i) && (match x.1 with | .loop k _ => k == lc | _ => false)).getLast?).map (·.2 + 1)

/-- The fields of an instruction at an index, and its opcode. -/
def EuNames.fields (e : EuNames) (ops : List EuOp) (i : Nat) : EuOp → Option (Nat × Nat)
  | .plain op => some (op, 0)
  | .jump op l => (euFind e.labels l).map fun t => (op, euAt 15 0 t)
  | .loop lc c => do
    let n ← e.sel 24 c
    let x ← euEnd ops i lc
    return (0x06, euAt 57 56 lc + euAt 47 32 x + n)
  | .endl lc => (euBody ops i lc).map fun t => (0x07, euAt 57 56 lc + euAt 15 0 t)
  | .wait c ev t => (match t with | some v => e.num 24 v | none => some 0).map fun n =>
    (0x08, euAt 40 40 (if c then 1 else 0) + euAt 36 32 ev + n)
  | .sig ev => some (0x09, euAt 36 32 ev)
  | .mov d s => (e.src 32 s).map fun n => (0x10, euAt 57 54 d + n)
  | .addi d a v => (e.num 32 v).map fun n => (0x11, euAt 57 54 d + euAt 53 50 a + n)
  | .sum op d a b => some (op, euAt 57 54 d + euAt 53 50 a + euAt 49 46 b)
  | .logic op d a s => (e.src (if op = 0x17 ∨ op = 0x18 then 5 else 32) s).map fun n => (op, euAt 57 54 d + euAt 53 50 a + n)
  | .cmp a s => (e.src 32 s).map fun n => (0x19, euAt 53 50 a + n)
  | .ld d a v => (e.num 32 v).map fun n => (0x1A, euAt 57 54 d + euAt 53 50 a + n)
  | .st a v b => (e.num 32 v).map fun n => (0x1B, euAt 53 50 a + euAt 49 46 b + n)
  | .mark p => (e.num 8 p).map fun n => (0x20, euAt 39 32 n)
  | .damage d p => (e.num 8 p).map fun n => (0x21, euAt 57 54 d + euAt 39 32 n)
  | .band d p g => do
    let n ← e.num 8 p
    let x ← e.num 4 g
    return (0x22, euAt 57 54 d + euAt 43 40 x + euAt 39 32 n)
  | .band1 d a g => (e.num 4 g).map fun x => (0x22, euAt 57 54 d + euAt 53 50 a + euAt 44 44 1 + euAt 43 40 x)
  | .zlist p z => do
    let n ← e.num 8 p
    let x ← match z with | some v => e.num 8 v | none => some 256
    return (0x23, euAt 39 32 n + x)
  | .budget d v => (e.num 24 v).map fun n => (0x24, euAt 57 54 d + n)
  | .flip p s => do
    let n ← e.num 8 p
    let x ← e.sel 24 s
    return (0x25, euAt 39 32 n + x)
  | .testslot p s l => do
    let n ← e.num 8 p
    let x ← e.num 24 s
    let y ← e.num 8 l
    return (0x26, euAt 47 40 y + euAt 39 32 n + x)
  | .vector op t l c => do
    let x ← euFind e.lits l
    let n ← e.sel 24 c
    return (op, euAt 57 54 t + euAt 47 36 x + n)
  | .tset t g s => (e.sel 24 s).map fun n => (0x33, euAt 57 54 t + euAt 47 46 g + n)
  | .period s => (e.sel 24 s).map fun n => (0x34, n)
  | .map (.map l) => (euFind e.maps l).map fun n => (0x35, euAt 11 0 n)
  | .map (.reg g) => some (0x35, euAt 53 50 g + euAt 49 49 1)
  | .line s => (e.sel 8 s).map fun n => (0x38, n)
  | .capt m s => (e.num 14 s).map fun n => (0x36, euAt 33 32 m + n)
  | .trig m o => (e.num 4 o).map fun n => (0x37, euAt 33 32 m + n)

/-- The word of an instruction at an index. -/
def EuNames.word (e : EuNames) (ops : List EuOp) (i : Nat) (o : EuOp) : Option (BitVec 64) :=
  (e.fields ops i o).map fun x => BitVec.ofNat 64 (euAt 63 58 x.1 + x.2)

/-! ### Literals (R79, Table 2-15) -/

/-- The symbol of a character. -/
def euSymbol (c : Char) : Option Nat :=
  (("01-ZLHMXSNPVGACE".toList.zipIdx).find? fun x => x.1 == c).map (·.2)

/-- A literal: 32 symbols, pin 31 first, underscores ignored. -/
def euLiteral (cs : List Char) : Option Nat :=
  let t := cs.filter (· != '_')
  if t.length ≠ 32 then none else t.foldlM (fun v c => (euSymbol c).map fun x => v * 16 + x) 0

/-! ### Chain maps (R212, R216, Table 7-3) -/

/-- A segment word. -/
def euSegWord (s : EuSeg) (last : Bool) : Option Nat := do
  let start ← euFit 18 s.start
  let count ← euFit 18 s.count
  let stride ← euFit 18 s.stride
  let depth ← euFit 4 (if s.mode = 1 then (s.n : Int) else s.n - 1)
  return start + euAt 35 18 count + euAt 53 36 stride + euAt 57 54 depth + euAt 59 58 s.mode + euAt 60 60 (if s.order then 1 else 0) +
    euAt 61 61 (if s.lrel then 1 else 0) + euAt 62 62 (if s.trg then 1 else 0) + euAt 63 63 (if last then 1 else 0)

/-- The segment words of one pin, LAST on the final one. -/
def euSegList (xs : List EuSeg) : Option (List Nat) := xs.zipIdx.mapM fun x => euSegWord x.1 (x.2 + 1 == xs.length)

/-- The words of a chain map whose header stands at a word: the header, a pointer for each pin, and the pins' segments in pin order. -/
def euMap (base mask : Nat) (lstride : Int) (segs : List EuSeg) : Option (List Nat) := do
  let pins := (List.range 32).filter fun p => mask.testBit p
  let stride ← euFit 18 lstride
  if (pins.any fun p => segs.all fun s => s.pin != p) || segs.any fun s => !pins.contains s.pin then none
  let lists ← pins.mapM fun p => euSegList (segs.filter fun s => s.pin == p)
  let first := fun k => base + 1 + pins.length + ((lists.take k).map List.length).sum
  return (euAt 31 0 mask + euAt 49 32 stride) :: ((List.range pins.length).map first ++ lists.flatten)

/-! ### Images (R73, R559, Table 2-12) -/

/-- What the lines of a source have given so far. -/
structure EuAcc where
  ops : List EuOp
  labels : List (Nat × Nat)
  equs : List (Nat × Int)
  lits : List (Nat × Nat)
  words : List Nat                    -- the literals
  maps : List (Nat × Nat)
  chain : List Nat                    -- the chain-map words
  data : List EuNum
  psq : Option Bool
  bank : Nat
  entries : List Nat
  deriving DecidableEq, Repr

/-- One line taken; none where Eumer rejects it. -/
def EuAcc.take (a : EuAcc) : EuLine → Option EuAcc
  | .op o => some { a with ops := a.ops ++ [o] }
  | .label n => some { a with labels := a.labels ++ [(n, a.ops.length)] }
  | .profile p => some { a with psq := some p }
  | .bank n => some { a with bank := n }
  | .entry l => if a.entries.isEmpty then some { a with entries := [l] } else none
  | .equ n v => some { a with equs := a.equs ++ [(n, v)] }
  | .lit n cs => (euLiteral cs).map fun v => { a with lits := a.lits ++ [(n, a.words.length)], words := a.words ++ [v] }
  | .cmap n mask stride segs => (euMap a.chain.length mask stride segs).map fun ws =>
    { a with maps := a.maps ++ [(n, a.chain.length)], chain := a.chain ++ ws }
  | .data ws => some { a with data := a.data ++ ws }

/-- The image of a source, or none where Eumer rejects it: a source that names no profile among them. -/
def eumer (src : List EuLine) : Option (List Byte) := do
  let a ← src.foldlM EuAcc.take { ops := [], labels := [], equs := [], lits := [], words := [], maps := [], chain := [], data := [],
                                  psq := none, bank := 0, entries := [] }
  let e : EuNames := { labels := a.labels, equs := a.equs, lits := a.lits, maps := a.maps }
  let psq ← a.psq
  let entry ← match a.entries with | l :: _ => euFind e.labels l | [] => some 0
  let code ← a.ops.zipIdx.mapM fun x => e.word a.ops x.2 x.1
  let data ← a.data.mapM (e.num 32)
  return leBytes 4 0x4C4F4847 ++ leBytes 2 1 ++ leBytes 1 (if psq then 1 else 0) ++ leBytes 1 a.bank ++ leBytes 2 entry ++ leBytes 2 0 ++
    leBytes 4 a.ops.length ++ leBytes 4 a.words.length ++ leBytes 4 (8 * a.chain.length) ++ leBytes 4 (4 * a.data.length) ++ leBytes 4 0 ++
    code.flatMap (fun w => leBytes 8 w.toNat) ++ a.words.flatMap (leBytes 16) ++ a.chain.flatMap (leBytes 8) ++ data.flatMap (leBytes 4)

end Sys2Proof.Machine
end

