-- ==== Sys2Proof/WellFormed.lean ====
section
/-! DEFINITION. WellFormed.lean: the operand ranges of the commands: a bank, port, lane, channel or sensor that the part has. A command that
is not well-formed names a unit that no chip has; `exec` is total and does not need the check. -/

namespace Sys2Proof

/-- The operands name units that the part has. -/
def Instr.wf : Instr → Bool
  | .strapSample balls => decide (balls < 4096)
  | .psqStart n _ => decide (n < 8)
  | .psqStop n => decide (n < 8)
  | .dmemAccess n _ => decide (n < 8)
  | .captureRead n => decide (n < 8)
  | .lineTimerWrite n _ => decide (n < 8)
  | .lineTick n => decide (n < 8)
  | .trigInEdge n => decide (n < 8)
  | .pinEdge pin _ => decide (pin < 256)
  | .vddpFail n _ => decide (n < 8)
  | .frameCloseTimeout stream => decide (stream < 16)
  | .noSignal stream => decide (stream < 24)
  | .bandJobStart engine _ => decide (engine < 4)
  | .bandJobComplete engine _ => decide (engine < 4)
  | .damageMapWrite port pos word _ _ => decide (port < 8) && decide (pos < 64) && decide (word < 8)
  | .hopTrained port _ => decide (port < 10)
  | .hopAuthRetry port => decide (port < 10)
  | .portDNoPartner port _ => decide (port < 8)
  | .stepUpEval port _ _ => decide (port < 10)
  | .linkLost port => decide (port < 10)
  | .berCheck port _ => decide (port < 10)
  | .starve port _ => decide (port < 10)
  | .creditRx port _ _ => decide (port < 10)
  | .probeRx port _ => decide (port < 10)
  | .echoRx port _ => decide (port < 10)
  | .ctrlReqRetry port pos _ => decide (port < 8) && decide (pos < 64)
  | .ringOkTimeout port => decide (port < 8)
  | .tempReadingRx pos _ _ _ => decide (pos < 8)
  | .tempRingTimeout sensor => decide (sensor < 4)
  | .supplyVoteRx pos _ _ _ _ _ _ => decide (pos < 8)
  | .syncEdge input => decide (input < 2)
  | .syncStop input => decide (input < 2)
  | .syncRateCheck input _ => decide (input < 2)
  | .refQualified ref => decide (ref < 3)
  | .timArm channel _ => decide (channel < 16)
  | .timStamp channel _ _ => decide (channel < 16)
  | .timTimeout channel => decide (channel < 16)
  | .timGateEnd channel => decide (channel < 16)
  | .timResRead channel word => decide (channel < 16) && decide (word < 6)
  | .relayRx port _ _ => decide (port < 8)
  | .transferLastBeat target => decide (target < 11)
  | .requestWithdraw target => decide (target < 11)
  | .ddrRetryAck subch => decide (subch < 2)
  | .ddrAlert subch => decide (subch < 2)
  | .ddrAlertDeassert subch => decide (subch < 2)
  | .ddrRecovExpiry subch => decide (subch < 2)
  | .ddrRetrainDone subch _ => decide (subch < 2)
  | .escanStart lane _ => decide (lane < 24)
  | .escanAbort lane => decide (lane < 24)
  | .escanPointDone lane _ => decide (lane < 24)
  | .escanTimeout lane => decide (lane < 24)
  | .laneTxSleep port => decide (port < 10)
  | .laneScheduledWake port => decide (port < 10)
  | .laneKeepaliveWake port => decide (port < 10)
  | .laneWakeDone port => decide (port < 10)
  | .laneRxSleep port => decide (port < 10)
  | .laneRxRelock port => decide (port < 10)
  | .relockfail port => decide (port < 10)
  | .laneSleepTimeout port => decide (port < 10)
  | .vsagWarnAssert rail => decide (rail < 4)
  | .supplyReset rail => decide (rail < 4)
  | .laneMarginScan lane _ _ _ _ => decide (lane < 24)
  | .audioFrameBoundary port _ => decide (port < 4)
  | .audCfgWrite port _ => decide (port < 4)
  | .sourcePortLinkChange port _ _ => decide (port < 4)
  | .dormantPortSignal port => decide (port < 8)
  | .powerOn _ | .powerGood | .rstNAssert | .rstNRelease | .kindling _ _ _ _ | .ddrTraining _ | .registerWrite _ _ _ | .clrcnt _ | .nop _
  | .jmp _ | .jz _ | .jnz _ | .call _ | .ret _ | .loop _ | .endl _ | .wait _ | .waitResume _ | .waitTimeout _ | .sig _ | .halt _ | .mov _
  | .addi _ | .add _ | .sub _ | .and _ | .or _ | .xor _ | .shl _ | .shr _ | .cmp _ | .ld _ | .st _ | .mark _ | .markSent | .damage _
  | .band _ | .zlist _ | .budget _ | .flip _ | .testslot _ | .vec _ _ | .vstr _ _ | .vgen _ _ | .tset _ | .period _ | .map _ | .capt _
  | .trig _ | .line _ | .switchTimeout | .fsqStart | .swevRaise _ | .swevPendClear _ | .pinConfigWrite _ _ | .frameTick
  | .sourceFrameRx _ | .ptpSyncTimeout | .bandDeadline _ | .presentTimeReached | .ackRx _ _ | .ackWindowClose | .compGcommit
  | .compFulldmg | .surfaceWriteRelease | .hopHelloRx _ | .probeTimer | .timeRspRx _ _ _ _ _ _ | .markRx _ _ _ _ | .presentRx _ _ _ _
  | .bandRx _ _ _ | .bandCorrectionDone | .ptimeReached | .testslotRx _ _ _ _ | .eventRx _ _ _ _ | .ctrlRspRx _ _ _ _ _ | .enum _ _ _
  | .rateStep _ _ _ | .status _ _ | .ctrlAttest _ _ _ | .ownerSet _ _ _ | .ctrlKeySet _ _ _ _ | .ctrlOwnerXfer _ _ _
  | .ctrlDebugNonce _ _ | .ctrlDebugToken _ _ _ | .ctrlPower _ _ _ _ | .audio _ _ | .audioBlockDue _ | .stage _ _ _ _ _
  | .stageData _ _ _ _ | .confirm _ _ | .arm _ _ _ | .cancel _ _ | .fwData _ _ _ _ _ | .lampTempCycle _ | .genSwitchTimeout | .sweepDone
  | .sweepCommitTimeout | .lampSweep | .calLoadDone | .lampClke _ | .lampBright _ | .rampStep | .headroomWindowEnd _ _ | .testOpArm _ _
  | .testOpAbort _ _ | .testOpResend _ _ | .testWindowOpen | .testWindowClose | .fullTestPoll | .fullTestLimit | .testResRx _ _
  | .testCollectTimeout | .runTimeout | .ocxoStop | .ocxoRateCheck _ | .ocxoRequalified | .refEvaluation | .epochTimeout
  | .netValidWrite _ | .ntoffWrite _ | .ppsOutPulse | .timAbort _ | .heartbeatTimer | .heartbeatTimeout _ | .heartbeatRx _
  | .refereeEvaluation _ | .refereeStartupWait | .grantRx _ _ | .swapRspRx _ _ _ | .swapReqRetry | .clmSwapReq | .mirrorRx _ _ _
  | .mirrorAckRx _ _ | .mirrorAckTimeout | .ringHelloTimer | .ringHelloRx _ | .ringFormStable | .ringFormTimeout
  | .dtlsClientHello _ _ _ _ _ _ | .dtlsKeyUpdate _ | .sessionIdleTimeout _ | .nonceReq | .nonceExpiry | .fuseStepDone | .boffEval
  | .popFrameEvalTimeout | .popCheckpoint | .popCkpt | .nandEraseDone _ _ | .nandProgramDone _ | .nandReadDone _ | .nandPaceTick
  | .scrubTick | .nandScrubNow | .busRequest _ | .fabCommit | .remap _ | .remapLock | .recovery | .ddrRequest _ | .ddrReadData _ _
  | .ddrRefresh | .ddrMr4Poll _ | .dqsAdjust | .ddrRetrain | .ddrScrubNow | .patrolScrub _ | .bankedEntry | .embSmoulder | .wakeN
  | .wakeSignal _ | .wakeSpi | .wakeAlarm | .wakeTherm | .vsagWarnClear _ | .supThresholdMove | .lifeCellWrite | .xtalFail
  | .dieTempRead _ | .thermGraceExpiry | .thermStepExpiry | .thermReleaseExpiry | .kilnRunStart | .kilnMeasurementDone _
  | .kilnRunTimeout | .kilnRun | .kilnTargetUpdate | .kilnTrimStep | .ageingMeasure _ | .pinDriftMeasure _ | .eqhUpdate | .marginPlan _
  | .planNow _ | .avsRetry _ | .camEnable _ | .camFrameStart _ | .camFrameEnd _ _ | .pcommit | .fwCommit | .fwTrialTimeout
  | .fwCtrlAbandon | .activationPauseEnd | .stageConfirmDeadline | .stageArmDeadline | .stageVerify | .spiWrite _ _ | .spiRead | .info _
  | .ping _ _ | .close _ | .uploadOpen _ _ _ _ | .uploadData _ _ _ _ | .uploadClose _ _ | .uploadTimeout _ _ | .progLoad _ _
  | .wcpStage _ _ _ _ _ | .stageStatus _ | .seqStart _ _ _ | .seqStop _ _ | .bind _ _ _ | .unbind _ _ | .layerSet _ _ _ _
  | .layerClear _ _ | .surfaceWrite _ _ _ _ _ | .surfaceFlip _ _ | .zlistSet _ _ _ | .coefSet _ _ _ _ | .clinker _ _ _ _
  | .damageHint _ _ | .statusRead _ _ _ _ _ | .eventRead _ _ | .logRead _ _ | .tenantSet _ _ _ | .tenantRemove _ _ | .slotAssign _ _ _
  | .ownerInstall _ _ | .ownerXfer _ _ | .keyAdd _ _ | .keyRemove _ _ | .refcredSet _ _ | .stepAuth _ _ | .debugNonce _ | .debugToken _ _
  | .factoryReset _ | .testRun _ _ _ _ _ _ _ _ | .testAbort _ _ | .testResult _ _ _ | .testAck _ _ | .popCollect _ _ | .popAck _ _ _
  | .attest _ _ _ _ | .fwInstall _ _ | .fwActivate _ _ | .fwAbandon _ | .laneInstall _ _ | .recoveryEnter _ | .recoveryExit _
  | .power _ _ | .cordPower _ _ _ | .cordWake _ _ | .swap _ | .refHeartbeat _ _ | .refGrant _ _ _ _ | .refSwapRsp _ _ _ _
  | .regRead _ _ _ | .regWrite _ _ _ | .latchingReadLo _ | .tapReset | .idcode | .samplePreload _ | .extest _ | .clamp | .highz
  | .dbgap _ _ _ _ _ | .bypass | .stkHalt _ | .stkStep | .fsqHalt _ | .fsqStep _ | .psqHalt _ | .traceSwmsg _ | .traceEnable _ _
  | .traceClear | .traceRdataRead _ | .xtalRecovered | .ocxoWarmChange _ | .ocxoGlitch | .clientCertificate _ _ _ _ | .qspiWriteDone _
  | .cutThroughForward _ _ | .brightnessRequest _ _ _ | .lampTfRequest _ _ _ | .clinkerMapRequest _ _ _ | .firmwareFault | .cfgSlotWrite => true

end Sys2Proof
end

