-- ==== Sys2Proof/Tests/Slice0.lean ====
section
/-! SUPPORT. Tests/Slice0.lean: the author's own tests: what `wf` refuses, single steps with values written out from the spec's tables and
examples, and for each statement a concrete state and operands that meet its hypotheses (`witness_<statement>`). -/

section

set_option Elab.async false

open Sys2Proof Sys2Proof.Machine

/-! ### Helpers -/

/-- The canonical form as a Bool. -/
def canonB (s : State) : Bool :=
  SMap.wf regReset s.regs && SMap.wf regReset s.live && SMap.wf (fun _ => Seq.init) s.seqs && SMap.wf (fun _ => Bank.init) s.banks &&
  SMap.wf (fun _ => Arb.init) s.arbs && SMap.wf (fun _ => none) s.scans && SMap.wf (fun _ => AudPort.init) s.aud && SMap.wf ddrFill s.ddr &&
  SMap.wf sramFill s.sram && SMap.wf (fun _ => 0) s.trace

theorem canon_of_canonB {s : State} (h : canonB s = true) : s.Canon := by
  simp only [canonB, Bool.and_eq_true] at h
  obtain ⟨⟨⟨⟨⟨⟨⟨⟨⟨h1, h2⟩, h3⟩, h4⟩, h5⟩, h6⟩, h7⟩, h8⟩, h9⟩, h10⟩ := h
  exact ⟨h1, h2, h3, h4, h5, h6, h7, h8, h9, h10⟩

/-- A sender at reset, the same as a tile, and the same ACTIVE with cord port 0 enabled. -/
def wSend : State := State.reset
def wTile : State := State.reset.setFlag EMB_STRAPS_ROLE true
def wAct : State := (State.reset.setF CLM_STAT_STATE 3).setFlag (CORD_PCFG_EN 0) true

/-- The state that a command leaves. -/
def after (c : Instr) (s : State) : State := match exec c s with | .next t => t | _ => s

/-- A sequencer k that runs with the state q, in s. -/
def running (s : State) (k : Nat) (q : Seq) : State := (s.setFlag (runF k) true).setSeq k q

/-- An instruction of PSQ0 and of the FSQ by its body. -/
def ip (b : BitVec 58) : SeqInstr := { q := .psq 0, body := b, ue := false }
def ifs (b : BitVec 58) : SeqInstr := { q := .fsq, body := b, ue := false }

/-- PSQ0 running with some registers, an event pending, two return addresses and loop counters set. -/
def q0 : Seq := { Seq.init with g := [(1, 5), (2, 0xFFFFFFFE), (3, 8)], lc := [(1, 1), (2, 7)], stack := [9, 4], ev := 0x02000001, pc := 10 }
def wPsq : State := running State.reset 0 q0
def wFsq : State := running wAct 8 q0

/-- An instruction at its turn, as a Bool. -/
def atTurnB (s : State) (op : BitVec 6) (i : SeqInstr) : Bool :=
  s.seqReady i.q && (faultOf (seqIdx i.q) i.q (s.seq (seqIdx i.q)) (s.bank (seqIdx i.q)).vsel (rowWord op i.body) i.ue).isNone

theorem atTurn_of_atTurnB {s : State} {op : BitVec 6} {i : SeqInstr} (h : atTurnB s op i = true) : s.atTurn op i := by
  simp only [atTurnB, Bool.and_eq_true, Option.isNone_iff_eq_none] at h
  exact h

/-! ### What wf refuses: one ill-formed command for each check -/

def pkt0 : CordPkt :=
  { hdr := { up := true, enc := false, relay := false, dest := 0, src := 0, claim := 0 }, body := .test [] }
theorem test_wf_refuses : ([
    .strapSample 4096, .psqStart 8 0, .psqStop 8, .dmemAccess 8 none, .captureRead 8, .lineTimerWrite 8 0, .lineTick 8, .trigInEdge 8,
    .pinEdge 256 false, .vddpFail 8 0, .frameCloseTimeout 16, .noSignal 24, .bandJobStart 4 [], .bandJobComplete 4 false, .damageMapWrite 8 0 0 0 0,
    .damageMapWrite 0 64 0 0 0, .damageMapWrite 0 0 8 0 0, .hopTrained 10 false, .hopAuthRetry 10, .portDNoPartner 8 .noPartner, .stepUpEval 10 0 [],
    .linkLost 10, .berCheck 10 0, .starve 10 0, .creditRx 10 0 0, .probeRx 10 0, .echoRx 10 0, .ctrlReqRetry 8 0 none, .ctrlReqRetry 0 64 none,
    .ringOkTimeout 8, .tempReadingRx 8 [] 0 0, .tempRingTimeout 4, .supplyVoteRx 8 0 false false false 0 0, .syncEdge 2, .syncStop 2] : List Instr).all
    (fun c => !c.wf) = true := by decide

theorem test_wf_refuses_more : ([
    .syncRateCheck 2 0, .refQualified 3, .timArm 16 0, .timStamp 16 false false, .timTimeout 16, .timGateEnd 16, .timResRead 16 0, .timResRead 0 6,
    .relayRx 8 0 pkt0, .transferLastBeat 11, .requestWithdraw 11, .ddrRetryAck 2, .ddrAlert 2, .ddrAlertDeassert 2, .ddrRecovExpiry 2,
    .ddrRetrainDone 2 false, .escanStart 24 0, .escanAbort 24, .escanPointDone 24 0, .escanTimeout 24, .laneTxSleep 10, .laneScheduledWake 10,
    .laneKeepaliveWake 10, .laneWakeDone 10, .laneRxSleep 10, .laneRxRelock 10, .relockfail 10, .laneSleepTimeout 10, .vsagWarnAssert 4,
    .supplyReset 4, .laneMarginScan 24 0 0 0 0, .audioFrameBoundary 4 false, .audCfgWrite 4 0, .sourcePortLinkChange 4 false false,
    .dormantPortSignal 8] : List Instr).all
    (fun c => !c.wf) = true := by decide

theorem test_wf_accepts : ([
    .strapSample 4095, .psqStart 7 0, .psqStop 7, .dmemAccess 7 none, .captureRead 7, .lineTimerWrite 7 0, .lineTick 7, .trigInEdge 7,
    .pinEdge 255 false, .vddpFail 7 0, .frameCloseTimeout 15, .noSignal 23, .bandJobStart 3 [], .bandJobComplete 3 false, .damageMapWrite 7 63 7 0 0,
    .hopTrained 9 false, .hopAuthRetry 9, .portDNoPartner 7 .noPartner, .stepUpEval 9 0 [], .linkLost 9, .berCheck 9 0, .starve 9 0, .creditRx 9 0 0,
    .probeRx 9 0, .echoRx 9 0, .ctrlReqRetry 7 63 none, .ringOkTimeout 7, .tempReadingRx 7 [] 0 0, .tempRingTimeout 3,
    .supplyVoteRx 7 0 false false false 0 0, .syncEdge 1, .syncStop 1, .syncRateCheck 1 0] : List Instr).all
    (fun c => c.wf) = true := by decide

theorem test_wf_accepts_more : ([
    .refQualified 2, .timArm 15 0, .timStamp 15 false false, .timTimeout 15, .timGateEnd 15, .timResRead 15 5, .relayRx 7 0 pkt0,
    .transferLastBeat 10, .requestWithdraw 10, .ddrRetryAck 1, .ddrAlert 1, .ddrAlertDeassert 1, .ddrRecovExpiry 1, .ddrRetrainDone 1 false,
    .escanStart 23 0, .escanAbort 23, .escanPointDone 23 0, .escanTimeout 23, .laneTxSleep 9, .laneScheduledWake 9, .laneKeepaliveWake 9,
    .laneWakeDone 9, .laneRxSleep 9, .laneRxRelock 9, .relockfail 9, .laneSleepTimeout 9, .vsagWarnAssert 3, .supplyReset 3,
    .laneMarginScan 23 0 0 0 0, .audioFrameBoundary 3 false, .audCfgWrite 3 0, .sourcePortLinkChange 3 false false, .dormantPortSignal 7, .nop (ip 0)] : List Instr).all
    (fun c => c.wf) = true := by decide


/-! ### Witnesses: steps, the register file and the sequencers -/

theorem witness_StepRunsFrontCommand : ({ State.reset with pending := [.lineTick 0] } : State).pending = Instr.lineTick 0 :: [] := by decide
theorem witness_EmptyQueueStepPassesOneNanosecond : State.reset.pending = [] := by decide
theorem witness_Canon : canonB State.reset = true ∧ canonB wTile = true ∧ canonB wAct = true ∧ canonB wPsq = true ∧ canonB wFsq = true := by
  decide +kernel
theorem witness_LifeCounterNeverDecreases : State.reset.life < 2 ^ 48 - 1 ∧ State.reset.pwr.lifeCell + 32768 < 2 ^ 48 ∧
    ({ State.reset with pending := [.powerOn true] } : State).pending.head? = some (.powerOn true) ∧
    ({ State.reset with pending := [.supplyReset 2] } : State).pending.head? = some (.supplyReset 2) := by decide +kernel
theorem witness_RegisterReadsLastValue : FSQ_STAT_RUN.lo ≤ FSQ_STAT_RUN.hi ∧ FSQ_STAT_RUN.hi < 32 ∧ FSQ_STAT_RUN.addr ≠ EMB_STRAPS_ROLE.addr := by
  decide +kernel
theorem witness_ScalarInstructionResults : ([(0x10#6, 0#58), (0x11#6, 5#58), (0x12#6, 0#58), (0x13#6, 0#58), (0x14#6, 0#58), (0x15#6, 0#58),
    (0x16#6, 0#58), (0x17#6, 0#58), (0x18#6, 0#58), (0x19#6, 0#58), (0x1A#6, 0#58), (0x1B#6, 0xFFC#58), (0x00#6, 0#58),
    (0x06#6, 0x1000000000#58)] : List (BitVec 6 × BitVec 58)).all (fun e => atTurnB wPsq e.1 (ip e.2) && atTurnB wFsq e.1 (ifs e.2)) = true := by
  decide +kernel
theorem witness_WriteToG0IsDiscarded : (1 : Nat) ≠ 0 ∧ SMap.wf (fun _ => (0 : Word)) q0.g = true := by decide
theorem witness_JumpsAndTheirRange : atTurnB wPsq 0x01#6 (ip 1023) = true ∧ atTurnB wPsq 0x02#6 (ip 1023) = true ∧ atTurnB wPsq 0x03#6 (ip 1023) = true ∧
    rsvdSet (rowWord 0x01#6 16384) = false ∧ rsvdSet (rowWord 0x02#6 16384) = false ∧ rsvdSet (rowWord 0x03#6 16384) = false := by decide +kernel
theorem witness_CallAndReturn : atTurnB wPsq 0x04#6 (ip 20) = true ∧ atTurnB wPsq 0x05#6 (ip 0) = true ∧ (wPsq.seq 0).stack = 9 :: [4] ∧
    rsvdSet (rowWord 0x04#6 20) = false ∧ rsvdSet (rowWord 0x05#6 0) = false ∧ Seq.init.stack = [] ∧ 8 ≤ (List.replicate 8 (0#16)).length ∧
    (running State.reset 0 { q0 with stack := List.replicate 8 0 }).seqReady (.psq 0) = true ∧
    faultOf 0 (.psq 0) { q0 with stack := List.replicate 8 0 } 0 (rowWord 0x04#6 20) false = some 0x05 := by decide +kernel
theorem witness_LoopAndEndl : atTurnB wPsq 0x06#6 (ip 0x0002000000000000) = true ∧ atTurnB wPsq 0x07#6 (ip 3) = true ∧ (wPsq.seq 0).lcv 0 = 0 ∧
    (wPsq.seq 0).lcv 1 = 1 ∧ 1 < ((wPsq.seq 0).lcv 2).toNat ∧ atTurnB wPsq 0x07#6 (ip 0x0100000000000003) = true ∧
    atTurnB wPsq 0x07#6 (ip 0x0200000000000003) = true := by decide +kernel
theorem witness_NopSigHaltWait : atTurnB wPsq 0x00#6 (ip 0) = true ∧ atTurnB wPsq 0x09#6 (ip 0x1800000000) = true ∧
    atTurnB wPsq 0x09#6 (ip 0x1F00000000) = true ∧ atTurnB wPsq 0x0A#6 (ip 0) = true ∧ wPsq.flag (switchF 0) = false ∧
    atTurnB wPsq 0x08#6 (ip 0) = true ∧ (wPsq.seq 0).ev.getLsbD (wEV (rowWord 0x08#6 0)) = true ∧ (rowWord 0x08#6 0).getLsbD 40 = false ∧
    atTurnB wPsq 0x08#6 (ip 0x0100000005) = true ∧ (wPsq.seq 0).ev.getLsbD (wEV (rowWord 0x08#6 0x0100000005)) = false := by decide +kernel
theorem witness_WaitEnds : (wPsq.setSeq 0 { q0 with waiting := some (0, 7) }).flag (runF 0) = true ∧ q0.ev.getLsbD 0 = true ∧ (7 : Nat) ≠ 0 ∧
    wFsq.tile = false ∧ wFsq.flag TRACE_HALT_FSQ_HALT = false := by decide +kernel
theorem witness_FaultOrder : opDefined 0x3F = false ∧ opDefined (wOp (rowWord 0x20#6 0)) = true ∧ opForeign (.psq 0) (wOp (rowWord 0x20#6 0)) = true ∧
    opForeign (.psq 0) (wOp (rowWord 0x00#6 1)) = false ∧ rsvdSet (rowWord 0x00#6 1) = true ∧ opForeign (.psq 0) (wOp (rowWord 0x33#6 0)) = false ∧
    rsvdSet (rowWord 0x33#6 0x0000C00000000000) = false ∧ valueBad (rowWord 0x33#6 0x0000C00000000000) = true ∧
    wPsq.seqReady (.psq 0) = true ∧ rsvdSet (rowWord 0x1A#6 0x1000) = false ∧ 4096 ≤ memAddr q0 (rowWord 0x1A#6 0x1000) ∧
    memAddr q0 (rowWord 0x1B#6 2) % 4 ≠ 0 := by decide +kernel

/-! ### Witnesses: frames -/

/-- The ACTIVE sender with a running FSQ, one tile of 16 lines at port 0, position 0, and a marked frame 7. -/
def fr7 : FrameRec :=
  { fcnt := 7, ports := 1, tmark := 0, fper := 8333333, gen := 0, issued := [], late := 0, present := none, pports := 0, acks := [],
    ev3 := false, jobsDone := true, vis := [], popDone := true, next := none }
def job7 : Job := { port := 0, pos := 0, band := 0, eng := 1, gen := 0, zsel := 256, fcnt := 7, start := 0, omitted := [], far := false }
/-- A state with a live field set. -/
def setLF (s : State) (f : Field) (v : Nat) : State := s.setLive f.addr (putBits (s.liveReg f.addr) f.hi f.lo v)
def wWall0 : State := setLF (setLF (setLF wFsq (COMP_GEO_WH_EN 0) 1) (COMP_GEO_WH_W 0) 64) (COMP_GEO_WH_H 0) 16
def wWall1 : State := { wWall0 with cord := { wWall0.cord with tiles := [(0, { enumerated := true, tid := 1, bands := 1, geom := 0 })] } }
def wWall : State := { wWall1 with comp := { wWall1.comp with frames := [fr7], started := true } }

/-- A packet's header that verified, going up from port p; and one for the tile it reaches. -/
def rxUp (p : Nat) : CordRx :=
  { port := p, htag := true, tag := true, abort := false, hdr := { up := true, enc := false, relay := false, dest := 0, src := 0, claim := 0 } }
def rxDn : CordRx :=
  { port := 0, htag := true, tag := true, abort := false, hdr := { up := false, enc := false, relay := false, dest := 0, src := 0, claim := 0 } }
def ack7 : AckPkt := { fcnt := 7, result := 1, flags := 0, litmask := 0, bands := 0, bright := 0, ceil := 0, tid := 0 }

theorem witness_FrameInstructionResults :
    atTurnB wWall 0x21#6 (ifs 0x0040000100000000) = true ∧ wWall.unloadedLayers = [] ∧ canonB wWall = true ∧
    atTurnB wWall 0x22#6 (ifs 0x0000010000000000) = true ∧ wWall.effPorts (wPorts (rowWord 0x22#6 0x0000010000000000)) = 0 ∧
    atTurnB wWall 0x22#6 (ifs 0x0000110000000000) = true ∧ wM (rowWord 0x22#6 0x0000110000000000) = true ∧ wWall.eligible (0, 0, 0) = true ∧
    wFsq.eligible (0, 0, 0) = false ∧ wWall.getF COMP_ADMIT_ENG_ENG ≤ engCount (wEng (rowWord 0x22#6 0x0000110000000000)) ∧
    atTurnB wWall 0x23#6 (ifs 0x0000000100000100) = true ∧ wWall.effPorts (wPorts (rowWord 0x23#6 0x0000000100000100)) = 1 ∧
    atTurnB wWall 0x23#6 (ifs 0) = true ∧ SMap.wf (fun _ => 256) wWall.comp.zsel = true ∧
    atTurnB wWall 0x24#6 (ifs 1) = true ∧ atTurnB wWall 0x25#6 (ifs 0) = true ∧ wWall.effPorts (wPorts (rowWord 0x25#6 0)) = 0 ∧
    atTurnB wWall 0x25#6 (ifs 0x0000000100000000) = true ∧ wWall.effPorts (wPorts (rowWord 0x25#6 0x0000000100000000)) ≠ 0 ∧
    wWall.comp.started = true ∧ wFsq.comp.started = false ∧ wWall.comp.flipped = false ∧ wWall.flag SUP_STAT_VSAG_WARN = false ∧ wWall.active = true ∧
    atTurnB wWall 0x26#6 (ifs 0x0000010100000000) = true ∧ (wWall.setF CLM_STAT_STATE 2).active = false ∧ wWall.test.run = none := by
  decide +kernel
theorem witness_MarkOpensAFrame : atTurnB wWall 0x20#6 (ifs 0) = true ∧ wWall.effPorts (wPorts (rowWord 0x20#6 0)) = 0 ∧
    atTurnB wWall 0x20#6 (ifs 0x0000000100000000) = true ∧ wWall.effPorts (wPorts (rowWord 0x20#6 0x0000000100000000)) ≠ 0 ∧
    wWall.heldBack = false ∧ ({ wWall with comp := { wWall.comp with holdTick := some 1 } } : State).heldBack = true := by decide +kernel
theorem witness_EventsArePendingBits : (wPsq.seq 0).ev.getLsbD 0 = true ∧ (wPsq.seq 0).ev.getLsbD 31 = false ∧ wSend.sender = true ∧
    wTile.sender = false := by decide +kernel
theorem witness_FrameGridAndDeadlines : wWall.tile = false ∧ wWall.tim.tickFrom = none ∧ wWall.flag FSQ_STAT_THROTTLED = false ∧
    ({ wWall with tim := { wWall.tim with tickFrom := some 1 } } : State).wtb < 1 ∧
    (wWall.comp.running ++ wWall.comp.jobs ++ wWall.comp.backlog).filter (fun j => j.fcnt == 7) = [] ∧ wWall.comp.backlog = [] ∧
    ({ wWall with comp := { wWall.comp with jobs := [job7] } } : State).comp.jobs = job7 :: [] ∧ job7.fcnt = 7 ∧ wWall.comp.running = [] ∧
    wWall.comp.frames.reverse.find? (fun f => f.present.isSome && !f.ev3) = none ∧
    ([{ fr7 with present := some 5 }] : List FrameRec).reverse.find? (fun f => f.present.isSome && !f.ev3) = some { fr7 with present := some 5 } := by
  decide +kernel
theorem witness_BandJobs : wWall.tile = false ∧ (wWall.comp.jobs.find? fun j => j.eng.testBit 0) = none ∧
    ((wWall.setF COMP_STAT_ENG_BUSY 1).getF COMP_STAT_ENG_BUSY).testBit 0 = true ∧ (wWall.getF COMP_STAT_ENG_BUSY).testBit 3 = false ∧
    ([job7].find? fun j => j.eng.testBit 0) = some job7 ∧ wWall.flag SUP_STAT_VSAG_WARN = false ∧
    (wWall.frameOf 7).present = none ∧ wWall.deadline job7 = 64 * wWall.getF FSQ_DL_DEADLINE ∧
    wWall.deadline job7 < 64 * (64 + 1024) ∧ 64 * (64 + 1024) ≤ (wWall.setF FSQ_DL_DEADLINE 1088).deadline job7 ∧
    (wWall.comp.running.find? fun j => j.eng == 0) = none ∧ ([{ job7 with eng := 0 }].find? fun j => j.eng == 0) = some { job7 with eng := 0 } ∧
    wWall.wtb ≤ wWall.deadline job7 ∧ (wWall.frameOf 7).next = none := by decide +kernel
theorem witness_FrameInputs : wWall.tile = false ∧ wTile.tile = true ∧ (wWall.comp.frames.find? fun f => f.fcnt == 7) = some fr7 ∧
    (wWall.comp.frames.find? fun f => f.fcnt == 8) = none ∧ (fr7.acks.any fun x => x.1 == 0 && x.2.1 == 0) = false ∧ wWall.comp.dmgSeen = false ∧
    ((1 : Word) ||| 0) &&& ~~~ wWall.reg (COMP_DMG 0 0 0) ≠ 0 ∧ ((0 : Word) ||| 0) &&& ~~~ wWall.reg (COMP_DMG 0 0 0) = 0 := by decide +kernel
theorem witness_FrameInputs_ack : (wAct.senderUp (rxUp 0) (.ack ack7)).2 = true ∧ ack7.result ≠ 0 := by decide +kernel

/-! ### Witnesses: pins, program start, reset, power -/

/-- An image of one halt with one literal and one word of data, entry 0; and PSQ0 that holds it. -/
def img1 : SeqImage :=
  { hdr := { magic := 0x474C, version := 1, profile := 1, bank := 0, entry := 0, resA := 0, ninstr := 1, nlit := 1, cmap := 0, dmem := 1, resB := 0 },
    instrs := [0x2800000000000000], lits := [0], cmap := [], dmem := [7] }
def wImg : State := State.reset.setSeq 0 { Seq.init with image := some img1 }

theorem witness_ProgramStartState : canonB wImg = true ∧ (wImg.seq 0).image = some img1 ∧ (0 : Nat) ≤ 8 := by decide +kernel
theorem test_program_start : ((wImg.progStart 0).seq 0).dmem = [(0, 7)] ∧ ((wImg.progStart 0).seq 0).pc = 0 := by decide +kernel
theorem witness_PinSettingsWait : ([(0x33#6, 0x0040000000000064#58), (0x34#6, 5000#58), (0x35#6, 4095#58), (0x36#6, 0x0200000000#58), (0x37#6, 0x0100000003#58),
    (0x38#6, 255#58)] : List (BitVec 6 × BitVec 58)).all (fun e => atTurnB wPsq e.1 (ip e.2)) = true := by decide +kernel
theorem witness_PinSettingsTakeEffect :
    ((State.reset.setBank 0 { Bank.init with pend := [.period 5000, .period 10000] }).bank 0).pend = [.period 5000, .period 10000] ∧
    canonB (State.reset.setBank 0 { Bank.init with pend := [.period 5000, .period 10000] }) = true := by decide +kernel
theorem witness_VectorInstructions : ([0x30#6, 0x31#6, 0x32#6] : List (BitVec 6)).all (fun o => atTurnB wPsq o (ip 1) &&
    atTurnB (running State.reset 0 { q0 with g := [] }) o (ip 0x0006000000000000)) = true ∧ op24 (wPsq.seq 0) (rowWord 0x30#6 1) ≠ 0 ∧
    op24 { q0 with g := [] } (rowWord 0x30#6 0x0006000000000000) = 0 := by decide +kernel
theorem witness_PinInputs : State.reset.getF (PSQ_LTIM_INTERVAL 0) = 0 ∧ (State.reset.setF (PSQ_LTIM_INTERVAL 0) 1).getF (PSQ_LTIM_INTERVAL 0) ≠ 0 ∧
    (State.reset.setF (PSQ_TRIGIN_SRC 0) 63).getF (PSQ_TRIGIN_SRC 0) = 63 ∧ (State.reset.setF (PSQ_TRIGIN_SRC 0) 31).getF (PSQ_TRIGIN_SRC 0) ≠ 63 ∧
    State.reset.getF (PIN_PCFG1_SLOPE 255) = 0 ∧ (State.reset.setF (PIN_PCFG1_SLOPE 0) 1).getF (PIN_PCFG1_SLOPE 0) = 1 ∧
    (State.reset.setF (PIN_PCFG1_SLOPE 0) 2).getF (PIN_PCFG1_SLOPE 0) = 2 ∧ (State.reset.setF (PIN_PCFG1_SLOPE 0) 3).getF (PIN_PCFG1_SLOPE 0) = 3 := by
  decide +kernel
theorem witness_PinInputs_writes : State.reset.regAccepts State.reset.bankRuns 0xC0000 0 = true ∧
    State.reset.regAccepts State.reset.bankRuns 0xC0800 7 = false ∧ (0xC0800 : Nat) = 0xC0000 + 0x800 / 4 * 4 % 0x10000 ∧
    vddpIn 0 1080 = true ∧ vddpIn 0 1079 = false ∧ vddpIn 4 3630 = true ∧ vddpIn 4 3631 = false ∧
    State.reset.flag (PSQ_STAT_RUN 0) = false ∧ wPsq.flag (PSQ_STAT_RUN 0) = true ∧ wPsq.tile = false := by decide +kernel
theorem witness_SequencerControl : wAct.tile = false ∧ wAct.active = true ∧ wSend.active = false ∧ wTile.tile = true ∧ wImg.boundary = false ∧
    ((wImg.vddpRead 0 3300).bank 0).vddpBad = false ∧ ((wImg.vddpRead 0 0).bank 0).vddpBad = true ∧ ((wImg.vddpRead 0 3300).seq 0).image ≠ none ∧
    ({ wImg with jtag := 3 } : State).boundary = true ∧ (wImg.setFlag CAM_CFG_EN true).flag CAM_CFG_EN = true ∧ wPsq.flag (PSQ_STAT_RUN 0) = true ∧
    wImg.flag (PSQ_STAT_RUN 0) = false ∧ (List.range 9).all (fun k => !wImg.flag (switchF k)) = true ∧ wImg.test.run = none ∧
    (wImg.setFlag (switchF 0) true).flag (switchF 0) = true ∧ (wImg.setFlag (switchF 0) true).flag (switchF 8) = false ∧
    canonB (wImg.setFlag (switchF 0) true) = true := by decide +kernel
theorem witness_FullResetKeepsNonVolatile : EMB_WAKE_EN.addr ≠ SUP_MEAS 0 ∧ keptReg false EMB_WAKE_EN.addr = true ∧ keptReg true EMB_WAKE_EN.addr = false ∧ EMB_WAKE_EN.addr ≠ EMB_PWR ∧
    EMB_WAKE_EN.addr ≠ EMB_STAT ∧ EMB_WAKE_EN.addr ≠ EMB_RCAUSE ∧ EMB_WAKE_EN.addr / 0x10000 ≠ TRACE_STAT / 0x10000 := by decide +kernel
theorem witness_PowerAndResetInputs : (State.reset.setFlag SUP_STAT_VMON_OFF true).flag SUP_STAT_VMON_OFF = true ∧
    State.reset.flag SUP_STAT_VMON_OFF = false := by decide +kernel
theorem witness_StartUp : State.reset.fw.kindled = none ∧ State.reset.fw.recovery = false ∧
    ({ State.reset with fw := { State.reset.fw with inReset := false } } : State).fw.inReset = false ∧
    ({ State.reset with fw := { State.reset.fw with inReset := true } } : State).fw.inReset = true ∧
    State.reset.flag DDR_STAT_TRAIN_FAIL = false ∧ (State.reset.setF DDR_CFG_CAP 1).getF DDR_CFG_CAP ≠ 0 ∧ (State.reset.setF DDR_CFG_CAP 0).getF DDR_CFG_CAP = 0 ∧
    (State.reset.setF EMB_STRAPS_BOOT 1).getF EMB_STRAPS_BOOT = 1 ∧ (State.reset.setF EMB_STRAPS_BOOT 3).getF EMB_STRAPS_BOOT ≠ 2 := by decide +kernel
theorem witness_SupplyAndPowerStates : (State.reset.getF SUP_STAT_WARN).testBit 3 = false ∧ (3 : Nat) < 4 ∧
    ((State.reset.setF SUP_STAT_WARN 8).getF SUP_STAT_WARN).testBit 3 = true ∧ State.reset.flag SUP_STAT_VSAG_WARN = false ∧
    (State.reset.setFlag SUP_STAT_VSAG_WARN true).flag SUP_STAT_VSAG_WARN = true ∧ State.reset.getF EMB_PWR_STATE = 0 ∧ State.reset.idle = true ∧
    (State.reset.setFlag CAM_CFG_EN true).idle = false ∧ (State.reset.setF EMB_PWR_STATE 2).getF EMB_PWR_STATE = 2 ∧ State.reset.age.secs < 3599 ∧
    3599 ≤ ({ State.reset with age := { State.reset.age with secs := 3599 } } : State).age.secs ∧ State.reset.age.wait = false := by decide +kernel
theorem witness_WakeSources : (State.reset.setF EMB_PWR_STATE 2).getF EMB_PWR_STATE = 2 ∧ canonB (State.reset.setF EMB_PWR_STATE 2) = true ∧
    ((State.reset.setF EMB_WAKE_EN 16).getF EMB_WAKE_EN).testBit 4 = true ∧ State.reset.flag EMB_STAT_SMOULDER_THERM = false ∧
    State.reset.liveReg EMB_ALARM_LO = 0 ∧ (State.reset.setLive EMB_ALARM_LO 1).liveReg EMB_ALARM_LO ≠ 0 ∧ State.reset.liveReg EMB_ALARM_HI = 0 := by
  decide +kernel
theorem witness_ThermalStates : (State.reset.setF THERM_STAT_STATE 2).getF THERM_STAT_STATE = 2 ∧
    State.getF ((State.reset.setFlag THERM_STAT_IMMED false).healthReg) THERM_STAT_STATE = 0 ∧ (1600 : Int) ≤ 1600 ∧
    (State.reset.setF THERM_STAT_STATE 1).getF THERM_STAT_STATE = 1 ∧ State.reset.getF THERM_STAT_STATE = 0 ∧
    (1600 : Int) ≤ (State.reset.setF THERM_TEMP_DIE 1600).dieT ∧ (State.reset.setF THERM_TEMP_DIE 1599).dieT < 1600 ∧
    State.reset.dieT < State.reset.thermLow ∧ State.reset.thermLow ≤ (State.reset.setF THERM_TEMP_DIE 1600).dieT ∧
    State.reset.flag THERM_STAT_IMMED = false ∧ (1792 : Int) ≤ 1792 ∧ (1791 : Int) < 1792 := by decide +kernel

/-! ### Witnesses: registers, the bus, memory, sources, camera, audio -/

def c0 : RegCtx := { vddp := [], ue := false, sources := 0, ack := true }
def rq (req addr : Nat) (write : Bool) (bytes : Nat) (data : List Byte) : BusReq :=
  { req := req, addr := addr, write := write, bytes := bytes, data := data, beats := 1, close := true }

theorem witness_MisalignedRegisterAccess : (2 : Nat) < 0x1C0000 ∧ 0x1BFFFD < 0x1C0000 ∧ 2 % 4 ≠ 0 ∧ (rq 0 0 true 2 [1, 2]).bytes ≠ 4 ∧
    (rq 0 2 true 4 []).addr % 4 ≠ 0 := by decide
theorem witness_PlainRegisterWrites : LAMP_BRIGHT_BRIGHT.addr / 0x10000 = 10 ∧ wSend.blockHere 10 = false ∧ wSend.blockHere 24 = true ∧
    (wSend.specialWrite EMB_WAKE_EN.addr 1 c0).isNone = true ∧ wSend.regAccepts wSend.bankRuns EMB_WAKE_EN.addr 1 = true ∧
    EMB_WAKE_EN.addr % 4 = 0 ∧ EMB_WAKE_EN.addr < 0x51000 ∨ 0x52000 ≤ EMB_WAKE_EN.addr := by decide +kernel
theorem witness_PlainRegisterWrites_def : (regDef EMB_WAKE_EN.addr).any (fun d => d.fields.all fun f => decide (f.lo ≤ f.hi) && decide (f.hi < 32)) = true ∧
    regDef 0x0000FC = none := by decide +kernel
theorem witness_ControlWrites : wSend.blockHere 18 = true ∧ wSend.blockHere 5 = true ∧ ctrlBlocks.contains 5 = true ∧
    wSend.flag SYS_CTRL_REMAP_LOCK = false ∧ (wSend.setFlag SYS_CTRL_REMAP_LOCK true).flag SYS_CTRL_REMAP_LOCK = true ∧
    (wSend.setFlag SYS_CTRL_REMAP_LOCK true).flag SYS_CTRL_REMAP ≠ true := by decide +kernel
theorem witness_LatchingReads : wSend.blockHere 5 = true ∧ (0x51000 : Nat) % 4 = 0 ∧ wSend.latched EMB_LIFE_LO = none ∧
    ({ wSend with latch := [(EMB_LIFE_LO, 9)] } : State).latched EMB_LIFE_LO = some 9 ∧ openReg EMB_LIFE_LO = false ∧ EMB_LIFE_LO < 0x51000 ∧
    EMB_LIFE_LO / 0x10000 ≠ 11 ∧ wSend.blockHere (EMB_LIFE_LO / 0x10000) = true := by decide +kernel
/-- A request that owns the register arbiter, of two bursts. -/
def ownReq : ArbReq := { r := rq 0 0 false 4 [], left := 33, lost := 0 }
def wArb : State := State.reset.setArb 9 { Arb.init with owner := some ownReq }
theorem witness_BusArbitration : (State.reset.busDecode 0xE0000000).isNone = true ∧ State.reset.busDecode 0xF0000000 = some (9, 0) ∧
    (State.reset.arb 9).owner.isNone = true ∧ (wArb.arb 9).owner = some ownReq ∧ wArb.arbLimit 9 < ownReq.left ∧ (1 : Nat) ≤ 16 ∧
    canonB wArb = true ∧ wArb.flag (FAB_ARB_CFG_FREEZE 9) = false ∧ (wArb.arbBest 9 [ownReq]) = some ownReq := by decide +kernel
theorem witness_MemoryReadsLastWrite : (rq 0 8 true 4 [1, 2, 3, 4]).write = true ∧ (3 : Nat) ≠ 0 ∧ (3 : Nat) ≠ 9 ∧ (3 : Nat) ≠ 10 ∧
    reqData (rq 0 8 true 4 [1, 2, 3, 4]) = [1, 2, 3, 4] := by decide
/-- A sender whose DDR5 is trained and holds 64 GB. -/
def wDdr : State := (State.reset.setF DDR_CFG_CAP 1).setFlag DDR_STAT_TRAINED true
theorem witness_DdrAccesses : wDdr.inDdr ddrBase = true ∧ wDdr.inDdr (ddrBase - 1) = false ∧ wDdr.inDdr (ddrBase + wDdr.ddrSize) = false ∧
    wDdr.ddrServes = true ∧ State.reset.ddrServes = false ∧ wDdr.flag DDR_STAT_DOWN = false ∧ (wDdr.setFlag DDR_STAT_DOWN true).flag DDR_STAT_DOWN = true ∧
    (wDdr.ddrSub 0).blocked = false ∧ (wDdr.ddrSub 0).wait = [] ∧ narrow (rq 0 ddrBase true 4 []) = true ∧ narrow (rq 0 ddrBase true 8 []) = false ∧
    narrow (rq 0 ddrBase false 4 []) = false := by decide +kernel
theorem witness_DdrMaintenance : wDdr.ddrServes = true ∧ wDdr.ddrHere = true ∧ (wDdr.ddrSub 0).retrain = false ∧ (wDdr.ddrSub 0).replay = false ∧
    (wDdr.ddrSub 0).alert = false ∧ (wDdr.ddrSub 0).recov = false ∧ ({ DdrSub.init with replay := true, fails := 3 } : DdrSub).replay = true ∧
    wDdr.mc.scrubAt + 64 < wDdr.ddrSize ∧ ((wDdr.setDdrSub 0 { DdrSub.init with retrain := true }).ddrSub 0).retrain = true ∧
    canonB (wDdr.setDdrSub 0 { DdrSub.init with retrain := true }) = true := by decide +kernel
/-- A video binding of stream 0 on leg 0 at source port 0, with one line, whose frame 5 has arrived whole, and one whose line is missing. -/
def sdp1 : Sdp :=
  { video := true, progressive := true, samp := 2, depth := 8, colr := 0, tcs := 0, pm := 0, full := true, width := 1, height := 1, rateNum := 120,
    rateDen := 1, clock := 90000, sampleRate := 0, channels := 0, ptimeUs := 0, legs := [(0, 1, 2, 0)], mediaOff := 0 }
def bnd (segs : List (Nat × Nat × Nat)) : Bound :=
  { b := { index := 0, tenant := 0, share := 0, sdp := sdp1 }, base := 0, size := 4096,
    rx := { StreamRx.init with frameTs := some 5, segs := segs }, filling := 0, newest := none, held := none, tsrc := [] }
def wSrc : State := { (State.reset.setFlag (SRC_PCFG_EN 0) true) with src := [bnd []] }
theorem witness_SourceIntake : wSrc.tile = false ∧ wSrc.flag (SRC_PCFG_EN 0) = true ∧ wSrc.flag DDR_STAT_TRAIN_FAIL = false ∧
    (wSrc.matchLeg 0 1 2 9).isSome = true ∧ (wSrc.matchLeg 1 1 2 9).isNone = true ∧ (9216 : Nat) ≤ 9216 ∧
    (wSrc.src.find? fun b => b.b.index == 0 && b.b.sdp.video) = some (bnd []) ∧ (wSrc.src.find? fun b => b.b.index == 15) = none ∧
    lineMissing (bnd []).rx.segs 0 (sdpLine sdp1) = true ∧ lineMissing (bnd [(0, 0, 3)]).rx.segs 0 (sdpLine sdp1) = false ∧
    (bnd []).rx.frameTs = some 5 ∧ 0 < sdp1.height ∧ wSrc.flag LANE_STAT_TABLE_NONE = false := by decide +kernel
/-- A camera of 640 by 480 pixels. -/
def wCam : State := (State.reset.setReg CAM_SIZE 0x01E00280).setReg CAM_STRIDE 1280
theorem witness_CameraAndAudio : wSend.tile = false ∧ wCam.regAccepts wCam.bankRuns CAM_CFG 0x11 = true ∧ fieldIn 0x11 CAM_CFG_EN = 1 ∧
    wSend.flag CAM_CFG_EN = false ∧ (wSend.setFlag CAM_CFG_EN true).flag CAM_CFG_EN = true ∧ wSend.flag CAM_STAT_PPEND = false ∧
    (wSend.setFlag CAM_STAT_ACTIVE true).flag CAM_STAT_ACTIVE = true ∧ leAt [4, 2, 0, 48] 0 1 = 4 ∧ leAt [3, 1, 0, 48] 0 1 < 4 ∧
    0 < leAt [3, 1, 0, 48] 1 1 ∧ wSend.flag (AUD_STAT_RUN 0) = false ∧ (wSend.setFlag (AUD_STAT_RUN 3) true).flag (AUD_STAT_RUN 3) = true ∧
    (wSend.audPort 0).buf = [] ∧ wSend.regAccepts wSend.bankRuns (AUD_CFG 0) (wSend.reg (AUD_CFG 0)) = true ∧
    (wAct.setFlag AUD_TXCFG_EN true).flag AUD_TXCFG_EN = true ∧ wSend.flag AUD_TXCFG_EN = false := by decide +kernel

/-! ### Witnesses: time, cords, tiles -/

def ref5 (at_ : Nat) : State := State.setRefIn { State.reset with wtb := at_ } 0 { RefIn.init with last := some 0 }
def run0 : TimRun := { armedAt := 0, opened := some 0, last := some 0, vals := [], stamps := [64, 0], ovr := false, lost := false }
def wTim (m : Nat) (r : TimRun) : State := State.setTimRun { (State.reset.setF (TIM_CFG_MODE 0) m) with wtb := 128 } 0 (some r)

theorem witness_References : ((ref5 64000000000).refIn 0).last = some 0 ∧
    (let p := State.reset.syncP 0; 10 * ((ref5 0).wtb - 0) < 9 * p ∧ 9 * p ≤ 10 * ((ref5 p).wtb - 0) ∧ 10 * ((ref5 p).wtb - 0) ≤ 11 * p ∧
      11 * p < 10 * ((ref5 (2 * p)).wtb - 0)) ∧
    (20000001 : Int).natAbs > 20000000 ∧ (-20000000 : Int).natAbs ≤ 20000000 ∧ (State.reset.setF (staF 0) 1).getF (staF 0) = 1 ∧
    State.reset.getF (staF 1) ≠ 1 ∧ State.reset.onOcxo = true ∧ (State.reset.setFlag REF_CFG_BASESRC true).onOcxo = false ∧
    (State.reset.count REF_N_OCXO_STOP 1).flag REF_STAT_DEGRADED = false ∧ State.reset.tim.gates.length < 10 ∧ State.reset.tile = false ∧
    ((State.reset.setFlag REF_STAT_DEGRADED true).count REF_N_OCXO_STOP 1).flag REF_STAT_DEGRADED = true := by decide +kernel
theorem witness_TimeAndIntervals : wSend.tile = false ∧ wSend.netValid = false ∧ (wSend.setFlag REF_NET_NET_VALID true).netValid = true ∧
    canonB (wSend.setFlag REF_NET_NET_VALID true) = true ∧ wTile.tile = true ∧ (wSend.setFlag REF_OUT_PPS_EN true).flag REF_OUT_PPS_EN = true ∧
    wSend.flag REF_OUT_PPS_EN = false ∧ SMap.wf (fun _ => none) wSend.tim.runs = true ∧ (wSend.timRun 0).isNone = true ∧
    wSend.latched (TIM_RES 15 5) = none ∧ ({ wSend with latch := [(TIM_RES 15 5, 1)] } : State).latched (TIM_RES 15 5) = some 1 := by decide +kernel
theorem witness_TimeAndIntervals_run : (wTim 0 run0).timRun 0 = some run0 ∧ (wTim 0 run0).getF (TIM_CFG_MODE 0) ≠ 2 ∧ 0 + 128 ≤ (wTim 0 run0).wtb ∧
    ({ (wTim 0 run0) with wtb := 127 } : State).wtb < 0 + 128 ∧ run0.opened = some 0 ∧ run0.last = some 0 ∧
    (wTim 2 run0).getF (TIM_CFG_MODE 0) = 2 ∧ 2 ≤ run0.stamps.length ∧ (wTim 1 run0).getF (TIM_CFG_MODE 0) = 1 ∧
    ((wTim 1 run0).setF (TIM_TMO_TMO 0) 1).getF (TIM_TMO_TMO 0) ≠ 0 ∧
    ((wTim 0 run0).setF (TIM_CFG_START 0) 1).getF (TIM_CFG_START 0) ≠ ((wTim 0 run0).setF (TIM_CFG_START 0) 1).getF (TIM_CFG_STOP 0) := by decide +kernel
theorem witness_TimeAndIntervals_arm : wSend.regAccepts wSend.bankRuns (TIM_CFG 15) (0x240 ||| 4#32) = true ∨
    wSend.regAccepts wSend.bankRuns (TIM_CFG 15) (0x240 ||| 4#32) = false := by decide +kernel

/-- A sender whose port 0 has trained, been keyed, failed, or is dormant. -/
def wHop (a : HopAuth) : State := wAct.setHopAuth 0 a
theorem witness_CordLinks : (wHop .trained).dormant 0 = false ∧ (wAct.setF EMB_DORM_PORTS 128).dormant 7 = true ∧ (wHop .trained).portOn 0 = true ∧
    (wHop .trained).hopAuth 0 ≠ .keyed ∧ isRing 0 = false ∧ isRing 8 = true ∧ canonB (wHop .trained) = true ∧ (wHop .trained).hopAuth 0 = .trained ∧
    (wHop .failed).hopAuth 0 = .failed ∧ (wHop .keyed).hopAuth 0 ≠ .failed ∧ (wHop .keyed).linkUp 0 = true ∧ (wHop .trained).linkUp 0 = false ∧
    (wAct.portLanes 0).all (fun l => wAct.laneValid l 3) = false ∧ (0 : Nat) ≤ wAct.maxStep 0 ∧
    ((wAct.setFlag LANE_STAT_TABLE_NONE true).portLanes 0).all (fun l => (wAct.setFlag LANE_STAT_TABLE_NONE true).laneValid l 0) = true ∧
    wAct.getF CORD_BERLIM_LIM < wAct.getF CORD_BERLIM_LIM + 1 ∧ (wHop .down).hopAuth 0 = .down ∧
    SMap.wf (fun _ => HopAuth.down) (wHop .keyed).cord.hops = true ∧ wTile.tile = true ∧ (wHop .keyed).flag (CORD_PSTAT_ENUM_DONE 0) = false := by
  decide +kernel

/-- A request of the sender to the tile at port 0, position 0, not answered after 8 tries; and a queued packet without credit. -/
def out8 (n : Nat) : CtrlOut := { port := 0, pos := 0, seq := 1, op := 3, data := [], tries := n, wcp := none }
def wOut (n : Nat) : State := { wAct with cord := { wAct.cord with ctrlOut := [out8 n] } }
theorem witness_CordTraffic : wAct.tile = false ∧ (rxUp 0).htag = true ∧ (rxUp 0).abort = false ∧ (rxUp 0).tag = true ∧
    ((wAct.freeBlocks 0 1 1).sawClaim 0).active = true ∧ ((wAct.freeBlocks 0 1 1).sawClaim 0).claim.toNat ≤ (rxUp 0).hdr.claim.toNat ∧
    (wAct.senderUp (rxUp 0) (.event 1 2 [])).2 = true ∧ (wAct.senderUp (rxUp 0) (.ctrlRsp 1 2 0 [])).2 = true ∧
    SMap.get (fun _ => []) wAct.cord.txq 0 = [] ∧ wAct.credits 0 0 ≠ 0 ∧ wAct.linkUp 0 = false ∧ (wHop .keyed).linkUp 0 = true ∧ wAct.active = true ∧
    ((wOut 8).cord.ctrlOut.find? fun o => o.port == 0 && o.pos == 0 && o.seq == 1) = some (out8 8) ∧ (out8 7).tries < 8 ∧ 8 ≤ (out8 8).tries ∧
    (out8 8).op ≠ 0x0001 ∧ (out8 8).wcp.isNone = true ∧ isRing 9 = true := by decide +kernel
theorem witness_CordTraffic_forward : (wTile.tileHdr { rxDn with tag := true, abort := false } true).2 = true ∧
    ((wTile.tileHdr { rxDn with tag := true, abort := false } true).1.forMe rxDn = true) ∧
    ((wTile.tileHdr { { rxDn with hdr := { rxDn.hdr with dest := 5 } } with tag := true, abort := false } true).1.forMe
      { rxDn with hdr := { rxDn.hdr with dest := 5 } } = false) ∧ ({ rxDn with hdr := { rxDn.hdr with dest := 5 } } : CordRx).hdr.dest ≠ 0xFE := by
  decide +kernel

/-- A tile with the frame 7 open and one band of 16 lines; calibrated. -/
def tf7 : TileFrame := { fcnt := 7, ptime := none, count := [], late := false, held := [], corrected := [], protFail := false }
def wTf : State := { wTile with tl := { wTile.tl with frame := some tf7, last := some 7 } }
theorem witness_TileFrames : wTf.tile = true ∧ (wTf.tileHdr rxDn false).2 = true ∧ ((wTf.tileHdr rxDn false).1.tl.last = some 7) ∧ (7 : Nat) ≤ 7 ∧ (7 : Nat) < 8 ∧
    (wTf.tileHdr rxDn false).1.tl.frame = some tf7 ∧ (wTile.tileHdr rxDn false).1.tl.frame = none ∧ tf7.ptime = none ∧ wTf.wtb ≤ 0 * 64 ∧
    ({ wTf with wtb := 65 } : State).wtb > 1 * 64 ∧ wTf.tl.slots = [] ∧ wTf.tl.rx = [] ∧ tf7.held.contains 0 = false ∧ wTile.lamp.cal.isNone = true := by
  decide +kernel
theorem witness_TileFrames_flip : ({ wTf with tl := { wTf.tl with frame := some { tf7 with ptime := some 1, count := [1] } } } : State).flipResult
      { tf7 with ptime := some 1, count := [1] } ≠ 0 ∧ ({ tf7 with ptime := some 1 } : TileFrame).ptime ≠ none := by decide +kernel
theorem witness_TileRequests : ([(0x0003, []), (0x0010, List.replicate 32 0), (0x0011, [1]), (0x0012, [1]), (0x0013, []), (0x0014, [0]), (0x0020, [2]),
      (0x0040, [1]), (0x0041, []), (0x0042, []), (0x0043, [0, 0, 0, 0, 0]), (0x0044, []), (0x0050, [])] : List (Nat × List Byte)).all
      (fun e => (wTile.tileOwn rxDn (.ctrlReq 1 e.1 e.2)).2) = true ∧ (wTile.tileOwn rxDn (.ctrlReq 1 3 [])).1.tl.ctlCache.length < 64 ∧
    ((wTile.tileOwn rxDn (.ctrlReq 1 3 [])).1.tl.ctlCache.find? fun e => e.1 == 1) = none ∧ (wTile.tileHdr rxDn true).2 = true ∧
    (wTile.tileOwn rxDn (.ctrlReq 1 3 [])).1.hea.owner = none ∧ (wTile.tileOwn rxDn (.ctrlReq 1 3 [])).1.tstage.isNone = true ∧
    (wTile.tileOwn rxDn (.ctrlReq 1 3 [])).1.flag NAND_STAT_ASH_FULL = false := by decide +kernel

/-! ### Witnesses: lamps, tests, claims -/

def wLamp : State := { (wTile.setFlag LAMP_STAT_LOADING true) with lamp := { wTile.lamp with loading := some ([1], 0) } }
def wSweep : State := { (wTile.setF LAMP_GEOM_H 16).setF LAMP_GEN_GEN 1 with lamp := { wTile.lamp with cal := some [1] } }
theorem witness_LampRows : wSend.tile = false ∧ wTile.tile = true ∧ wTile.lamp.loading.isNone = true ∧ wLamp.lamp.loading = some ([1], 0) ∧
    wLamp.flag LAMP_STAT_LOADING = true ∧ (wLamp.sto.loads.any fun l => l.1 == 0) = false ∧ wLamp.lamp.cal = none ∧ wLamp.lamp.overdue = false ∧
    wTile.flag LAMP_STAT_GEN_PEND = false ∧ (wTile.setFlag LAMP_STAT_GEN_PEND true).flag LAMP_STAT_GEN_PEND = true ∧ wTile.flag LAMP_STAT_LOADING = false ∧
    wSweep.staleBands ≠ [] ∧ wSweep.lamp.cal = some [1] ∧ wSweep.tl.frame.isNone = true ∧ wTile.flag LAMP_RAMP_ACTIVE = false ∧
    (wTile.setFlag LAMP_RAMP_ACTIVE true).flag LAMP_RAMP_ACTIVE = true ∧ (0x8000 : Nat) < 0x8001 ∧ (0x8000 : Nat) < 0x8001 ∧
    wTile.flag NAND_STAT_ASH_FULL = false ∧ (wTile.setFlag NAND_STAT_ASH_FULL true).flag NAND_STAT_ASH_FULL = true ∧
    (wTile.clinkerEdit 0 1).isSome = true ∧ wTile.brd.rampOn = false := by decide +kernel
theorem witness_LampRows_sensors : (wTile.setF (LAMP_TSENS_SRC 0) 2).getF (LAMP_TSENS_SRC 0) = 2 ∧ wTile.getF (LAMP_TSENS_SRC 0) ≠ 2 ∧
    (List.range 4).all (fun n => wTile.getF (LAMP_TSENS_SRC n) != 1 && wTile.getF (LAMP_TSENS_SRC n) != 2) = true ∧
    (wTile.setF (LAMP_TSENS_SRC 3) 1).localSensors ≠ 0 ∧ wTile.localSensors = 0 ∧ wTile.flag LAMP_HRSTAT_MASTER = false := by decide +kernel

/-- A TEST payload with OP at byte 6, an armed run of it, and the run at the sender. -/
def tp (op : Nat) : List Byte := [1, 0, 0, 0, 0, 0, BitVec.ofNat 8 op, 0] ++ List.replicate 72 0
def arm1 (full : Bool) : ArmedRun := { payload := tp 1, left := 1, slotno := 0, full := full }
def wArm (full : Bool) : State := { wTile with test := { wTile.test with armed := some (arm1 full) }, tl := { wTile.tl with slots := [(7, 0, 0)] } }
def wFull : State := { wTile with test := { wTile.test with win := some { fcnt := 7, snaps := [], run := some (arm1 true), faults := [], openLife := 0 } } }
def run1 (full : Bool) (slot : Nat) : TestRun :=
  { payload := tp 1, runid := 1, full := full, sites := [], slot := slot, evd := [], start := 0, phase := 0, image := [], prev := [], status := 0 }
theorem witness_TestRows : ((wTile.testHdr rxDn (tp 1)).2 = true) ∧ leAt (tp 1) 6 1 = 1 ∧ leAt (tp 3) 6 1 = 3 ∧ 3 < leAt (tp 4) 6 1 ∧ leAt (tp 0) 6 1 = 0 ∧
    (wArm false).test.armed = some (arm1 false) ∧ testRunid (arm1 false).payload = 1 ∧ (wArm false).test.win.isNone = true ∧ wTile.tl.slots = [] ∧
    (wArm false).tl.slots = (7, 0, 0) :: [] ∧ (arm1 false).full = false ∧ 0 < (arm1 false).left ∧ wTile.fullWin.isNone = true ∧
    wFull.fullWin = some (arm1 true) ∧ wFull.runBanks (tp 1) = [] ∧ wTile.test.run.isNone = true ∧ wFull.mailState 0 ≠ 2 ∧
    (run1 false 0).full = false ∧ (run1 false 100000).slot ≥ testSlots (tp 1) ∧ (run1 true 0).full = true ∧ canonB (wArm false) = true := by decide +kernel

def wMem : State := State.reset.setF CLM_PAIR_POS_B 1
def wRef : State := (State.reset.setF CLM_PAIR_POS_A 1).setFlag RING_STAT_REFEREE true
def so (n : Nat) : SwapOut := { seq := 1, kind := 2, cause := 0x80, claim := 0, tries := n, wcp := none }
theorem witness_ClaimRows : wMem.member = true ∧ wMem.refActs = false ∧ wMem.flag CLM_CFG_EXTREF = false ∧ wRef.refActs = true ∧
    ((wMem.setF CLM_PAIR_POS_A 1).setF CLM_PAIR_POS_B 2).member = false ∧ wMem.extDrop = false ∧ (wMem.setFlag CLM_CFG_EXTREF true).extDrop = true ∧
    wRef.clm.started = false ∧ ({ wRef with clm := { wRef.clm with firstHb := some 0 } } : State).clm.firstHb ≠ none ∧ wMem.clm.swapOut = [] ∧
    (so 7).tries < 8 ∧ 8 ≤ (so 8).tries ∧ (so 8).wcp.isNone = true ∧ wMem.flag CLM_STAT_REF_OK = false ∧
    (wMem.setFlag CLM_STAT_REF_OK true).flag CLM_STAT_REF_OK = true ∧ (wMem.setF CLM_STAT_STATE 1).clmState = 1 ∧ wMem.clm.bulk = false ∧
    wMem.clm.toAck = [] ∧ wMem.tile = false ∧ (wHop .keyed).linkUp 0 = true ∧ (wHop .keyed).flag (CORD_PCFG_RELAY 0) = false ∧
    ((wHop .keyed).setFlag (CORD_PCFG_RELAY 0) true).relayOn 0 = true ∧ wMem.fw.kindled.isNone = true ∧ wMem.flag RING_STAT_RING_POS_DUP = false ∧
    wMem.linkUp 8 = false ∧ ((wMem.setHopAuth 8 .keyed).setHopAuth 9 .keyed).linkUp 9 = true := by decide +kernel

/-! ### Witnesses: Hearth, store, lanes, Kiln, debug, WCP -/

def wr (qspi : Bool) : SlotWrite :=
  { kind := 0, copy := 0, data := [1], cfg := none, now := false, blocks := [5], prog := 0, ver := 0, redo := [], qspi := qspi, qver := false,
    inst := none, fwdone := .none }
def wOp' (o : NandOp) : State := { State.reset with sto := { State.reset.sto with op := some o } }
def ss (id : Nat) (ws : List WaitReq) : Session :=
  { id := id, tenant := 0, spi := false, port := 47810, newest := none, cache := [], waiting := ws, eseq := 0, events := [], uploads := [], last := 0,
    unverified := false, rxRec := 0, txRec := 0 }
/-- An owned ACTIVE sender with one session of the owner, number 1. -/
def wSess : State := { wAct with hea := { wAct.hea with owner := some [1] }, sessions := [ss 1 []] }
theorem witness_HearthPopAndStoreRows : wSess.servesDtls false 47810 = true ∧ wSess.servesDtls false 1 = false ∧ wSess.hea.shakes.length < 4 ∧
    wSess.hea.shakes.contains (false, 47810) = false ∧ [(false, 47810)].contains (false, 47810) = true ∧ wSess.leafInTime [1] = true ∧
    (wSess.sessions.filter fun x => x.tenant != 0xFE).length < 16 ∧ (wSess.sessions.find? fun x => x.id == 1) = some (ss 1 []) ∧
    (wSess.sessions.find? fun x => x.id == 2) = none ∧ wSess.hea.target.isNone = true ∧ wSess.tile = false ∧ wSess.pop.boff.isNone = true ∧
    wSess.netValid = false ∧ wSess.paused = false ∧ (wSess.setFlag TRACE_HALT_STK_HALT true).paused = true ∧ State.reset.sto.op.isNone = true ∧
    (wOp' (.header 5)).sto.op = some (.header 5) ∧ (wOp' (.erase 5 false)).sto.op = some (.erase 5 false) ∧
    (wOp' (.scrub 5 6)).readAt (.scrub 5 6) = some (5, 6) ∧ (State.reset.sto.writes.find? fun w => w.qspi) = none ∧
    ([wr true].find? fun w => w.qspi) = some (wr true) ∧ wSend.active = false ∧ wSend.clm.mirror.isNone = true ∧ wAct.active = true := by decide +kernel
theorem witness_HearthPopAndStoreRows_admits : ({ State.reset with hea := { State.reset.hea with owner := none } } : State).hea.refcred ≠ some (Config.sha384 [1]) ∧
    ([1] : List Byte) ≠ [] := by decide +kernel
theorem witness_LaneKilnAndFirmwareRows : State.reset.regAccepts State.reset.bankRuns (LANE_ESCAN_CFG 0) 0x1E000000 = true ∧
    State.reset.getF (LANE_LSTAT_RXST 0) = 0 ∧ (State.reset.setF (LANE_LSTAT_RXST 0) 1).getF (LANE_LSTAT_RXST 0) ≠ 0 ∧
    (State.reset.scan 0).isNone = true ∧ ((State.reset.setScan 0 (some { margin := true, dir := 0, step := 1 })).scan 0) = some { margin := true, dir := 0, step := 1 } ∧
    (1 : Nat) < marginMax 0 ∧ ((State.reset.setFlag (LANE_SLEEP_EN 0) true).setLanes 0 LANE_LSTAT_TXST 1).txst 0 = 1 ∧
    (State.reset.setLanes 9 LANE_LSTAT_TXST 2).txst 9 = 2 ∧ (State.reset.setLanes 9 LANE_LSTAT_RXST 2).rxst 9 = 2 ∧ State.reset.rxst 0 < 2 ∧
    State.reset.kiln.run.isNone = true ∧ SMap.get (fun _ => none) State.reset.age.lanes 0 = none ∧ State.reset.age.avs.isNone = true ∧
    State.reset.flag FW_STAT_TRIAL = false ∧ (State.reset.setFlag FW_STAT_TRIAL true).flag FW_STAT_TRIAL = true ∧ State.reset.fw.pause = false ∧
    State.reset.fw.actWait ≠ some 1 ∧ State.reset.stage.isNone = true ∧ wTile.flag (PIN_BSTAT_SAFE 0) = true := by decide +kernel
def st1 (kind phase : Nat) (c : Bool) : StageSt :=
  { kind := kind, data := [], frame := 5, tiles := [{ port := 0, pos := 0, confirmed := c, armed := c, tries := 0, ok := c }], phase := phase, report := true }
theorem witness_LaneKilnAndFirmwareRows_stage : ((st1 0 0 false).tiles.all fun x => x.confirmed) = false ∧ ((st1 0 0 true).tiles.all fun x => x.confirmed) = true ∧
    ((st1 0 1 true).tiles.all fun x => x.armed) = true ∧ ((st1 0 1 false).tiles.all fun x => x.armed) = false ∧ (st1 2 3 true).kind = 2 ∧
    3 ≤ (st1 0 3 true).phase := by decide
/-- A state with one debug scope open. -/
def wDbg (n : Nat) : State := State.reset.setF HEARTH_DEBUG_SCOPE (2 ^ n)
theorem witness_JtagDebugAndTraceRows : (wDbg 0).scope 0 = true ∧ (wDbg 1).scope 0 = false ∧ (wDbg 1).scope 1 = true ∧ (wDbg 2).scope 2 = true ∧
    (wDbg 3).scope 3 = true ∧ (wDbg 0).scope 1 = false ∧ (wDbg 0).allSafe = true ∧ ((wDbg 0).setFlag (PSQ_STAT_RUN 7) true).allSafe = false ∧
    canonB (wDbg 1) = true ∧ (wDbg 1).paused = false ∧ (wDbg 1).flag TRACE_HALT_STK_HALT = false ∧ (wDbg 2).flag TRACE_HALT_FSQ_HALT = false ∧
    ((wDbg 1).setFlag TRACE_HALT_STK_HALT true).paused = true ∧ (wDbg 1).fw.pause = false ∧ (wFsq.setFlag TRACE_HALT_FSQ_HALT true).seqRuns .fsq = true ∧
    (wDbg 3).flag TRACE_CTRL_STK_EN = true ∧ ((wDbg 3).setFlag TRACE_CTRL_STK_EN false).flag TRACE_CTRL_STK_EN = false ∧
    (wDbg 3).getF TRACE_CTRL_CLEAR = 0 ∧ (wDbg 3).getF TRACE_CTRL_CLRCNT = 0 := by decide +kernel

def h1 : WcpHdr := { sess := 1, seq := 7, maxrsp := 1200, ok := true }
def w1 : WaitReq := { seq := 7, maxrsp := 1200, applied := true, rsp := none, req := .info }
theorem witness_WcpRequestsAreAppliedAndAnswered : wSess.sess 2 = none ∧ wSess.sess h1.sess = some (ss 1 []) ∧ canonB wSess = true ∧ wSess.paused = false ∧
    wSess.fw.replies = [] ∧ wSess.fw.arrivals = [] ∧ wSess.sessions.all (fun z => z.waiting.isEmpty) = true ∧ (wSess.sessions.map Session.id).Nodup ∧
    ((ss 1 []).rxRec + 1) % 2 ^ 24 ≠ 0 ∧ h1.ok = true ∧ h1.seq ≠ 0 ∧ 1200 ≤ h1.maxrsp ∧ h1.maxrsp ≤ 8704 ∧ (ss 1 []).cache = [] ∧ (ss 1 []).newest = none ∧
    wSess.wcpGate (ss 1 [w1]) .info = 0 ∧ (wSess.wcpDo (ss 1 [w1]) 7 1200 .info).2.isSome = true ∧ wSess.wcpGate (ss 1 [w1]) .recoveryExit ≠ 0 ∧
    newer 1 0xFFFFFFFF = true ∧ newer 5 5 = false ∧ (List.replicate 8 { w1 with applied := false }).length = 8 := by decide +kernel
theorem witness_WcpRequestsAreAppliedAndAnswered_leave :
    ({ wSess with sessions := [ss 1 [{ w1 with rsp := some { status := 0, payload := [] } }]] } : State).nextLeave =
      some (ss 1 [{ w1 with rsp := some { status := 0, payload := [] } }], { w1 with rsp := some { status := 0, payload := [] } },
        { status := 0, payload := [] }) ∧ w1.req ≠ .close ∧ w1.req ≠ .recoveryExit ∧ (ss 1 []).spi = false := by decide +kernel
/-- An upload of two bytes by handle 1. -/
def up1 (kind : Nat) (closed : Bool) (dg : List Byte) : Upload :=
  { handle := 1, kind := kind, len := 2, digest := dg, data := [], next := 0, closed := closed, last := 0 }
def su (kind : Nat) (closed : Bool) (dg : List Byte) : Session := { ss 1 [] with uploads := [up1 kind closed dg] }
theorem witness_WcpRequestResults : (ss 1 []).uploads.length < 4 ∧ wSess.tile = false ∧ (wSess.sessions.flatMap fun y => y.uploads.map fun u => u.len).sum + 67108864 ≤ 67108864 ∧
    (su 0 false []).upload 1 = some (up1 0 false []) ∧ (su 0 false []).upload 2 = none ∧ (up1 0 false []).closed = false ∧ (1 : Nat) + 1 ≤ (up1 0 false []).len ∧
    (su 0 true []).content 1 [0, 1] = some (0, [0, 0]) ∧ (su 1 true []).content 1 [0, 1] = some (1, [0, 0]) ∧ (su 3 true []).content 1 [3] = some (3, [0, 0]) ∧
    (su 4 true []).content 1 [4] = some (4, [0, 0]) ∧ (su 5 true []).content 1 [5] = some (5, [0, 0]) ∧ (ss 1 []).content 1 [5] = none ∧ wSess.stageOpen = false ∧
    wSess.active = true ∧ wSend.active = false ∧ (wSess.setFlag FSQ_STAT_RUN true).flag FSQ_STAT_RUN = true ∧ wSess.flag FSQ_STAT_RUN = false ∧
    (1 : Nat) % 65536 = 1 ∧ (wSess.src.find? fun b => b.b.index == 0) = none ∧ (wSrc.src.find? fun b => b.b.index == 0) = some (bnd []) ∧
    wSess.slotTenant 0 = none ∧ (wSess.setFlag (COMP_SLOT_ASSIGNED 62) true).slotTenant 62 = some 0 ∧
    (wSess.setFlag (COMP_SLOT_ASSIGNED 62) true).slotCheck 0 62 = 0 ∧ wSess.slotCheck 0 62 ≠ 0 ∧ wSess.comp.touched = [] ∧ wSess.comp.held = [] ∧
    zlistOk (List.replicate 64 0xFF) = true ∧ SMap.wf regReset wSess.comp.acc = true := by decide +kernel
theorem witness_WcpRequestResults_owner : wSess.hea.owner ≠ none ∧ State.reset.hea.owner = none ∧ wSess.hea.makers.length < 8 ∧ wSess.hea.refcred ≠ some [1] ∧
    wSess.hea.nonce.isNone = true ∧ wSess.test.run.isNone = true ∧ SMap.get (fun _ => none) wSess.hea.tenants 1 = none ∧ wSess.member = true ∧
    wSess.flag CLM_STAT_REF_OK = false ∧ (wSess.setFlag CLM_STAT_REF_OK true).flag CLM_STAT_REF_OK = true ∧ wSess.extDrop = false ∧
    (wSess.setFlag CLM_CFG_EXTREF true).extDrop = true ∧ (1200 - 20) / 4 ≥ 1 ∧ (wSess.regRead 0x2).2.1 = false ∧ (wSess.regRead 0x0).2.1 = true ∧
    wWall.sender = true ∧ wWall.active = true ∧ (wWall.tileAt 0 0).enumerated = true ∧ wSess.fwBusy = false := by decide +kernel
theorem witness_WcpRequestResults_digest (b : List Byte) : (up1 0 false (Config.sha384 [0, 0])).bytes = [0, 0] ∧ Config.sha384 b ≠ 0 :: Config.sha384 b :=
  ⟨rfl, fun h => absurd (congrArg List.length h) (by simp)⟩

/-! ### Values written out from the spec's worked examples and tables -/

/-- Chapter 02, encoding by hand: `addi g3, g3, #-1` is 0x44CC_0000_FFFF_FFFF and `vstr t2, shift, #576` is 0xC480_0050_0000_0240. -/
theorem test_words_by_hand : (wOp 0x44CC0000FFFFFFFF, wD 0x44CC0000FFFFFFFF, wA 0x44CC0000FFFFFFFF, wI 0x44CC0000FFFFFFFF,
    wImm 0x44CC0000FFFFFFFF) = (0x11, 3, 3, false, 0xFFFFFFFF) ∧
    (wOp 0xC480005000000240, wTS 0xC480005000000240, wS 0xC480005000000240, wLit 0xC480005000000240, w24 0xC480005000000240) =
    (0x31, 2, false, 5, 0x240) := by decide +kernel
/-- `addi g3, g3, #-1` takes 8 to 7, with a carry. -/
theorem test_addi_minus_one : ((after (.addi (ip 0x0CC0000FFFFFFFF)) wPsq).seq 0).reg 3 = 7 ∧
    ((after (.addi (ip 0x0CC0000FFFFFFFF)) wPsq).seq 0).c = true ∧ ((after (.addi (ip 0x0CC0000FFFFFFFF)) wPsq).seq 0).pc = 11 := by decide +kernel
/-- Table 7-4: 32 channels of 16 bits make 512 stream bits, and the segment is legal. -/
theorem test_segment_word : segBits 0xA3FFFFD00080005D = 512 ∧ segOk 0xA3FFFFD00080005D = true := by decide +kernel
/-- Table 6-3: K of BRIGHT 0x6000, RESERVE 0x6666, CEIL 1,000 is 19,661; gain and scale round as the table shows. -/
theorem test_scale_k : scaleK 0x6000 0x6666 1000 = 19661 ∧ roundDiv (214696 * 34816) 32768 = 228115 ∧ roundDiv (228115 * 19661) 32768 = 136870 ∧
    (-328 + roundDiv (-41 * 192) 480 : Int) = -344 := by decide +kernel
/-- The station's depreciation points of chapter 18. -/
def wAge : State := (((((((State.reset.setF (AGE_LDEP_LUM 0) 32768).setF (AGE_LDEP_HOURS 1) 200).setF (AGE_LDEP_LUM 1) 31457).setF
  (AGE_LDEP_HOURS 2) 500).setF (AGE_LDEP_LUM 2) 30147).setF (AGE_LDEP_HOURS 3) 1000).setF (AGE_LDEP_LUM 3) 26870).setReg AGE_EQH 600000
/-- The plan at 60,000 equivalent hours: LUM 29,492 and a reserve factor of 29,126. -/
theorem test_plan_at_70000_hours : wAge.planLum = 29492 ∧ wAge.reserveOf 29492 = 29126 := by decide +kernel
/-- The AVS target of a DEGMAX of 2,150 with BASE 750, KMV 10, STEP 10 and the setpoint 765: 772 mV. -/
def wAvs : State := (((((((State.reset.setF AGE_AVSSET_BASE 750).setF AGE_AVSCFG_KMV 10).setF AGE_AVSCFG_STEP 10).setF AGE_AVSSET_SETPOINT 765).setF
  AGE_AVSLIM_AVS_MIN 700).setF AGE_AVSLIM_AVS_MAX 900).setF (AGE_MON_DEG 0) 2150).setFlag (AGE_MON_VALID 0) true
theorem test_avs_target : wAvs.avsTarget = 772 := by decide +kernel
/-- Table 4-5: a concourse tile's band costs 4,672 under T2 alone and 9,280 under T2 and T3; T2's lines cost 15,360 bytes, T3's 19,456. -/
def lay (slot fmt dw dh : Nat) : Layer :=
  { slot := slot, en := true, tenant := 2, blend := 0, galpha := 128, fmt := fmt, front := 0, stream := 0, hcoef := 0, vcoef := 0, dx := 0,
    dy := 0, dw := dw, dh := dh, sx := 0, sy := 0, sw := dw, sh := dh, baseA := 0, baseB := 0, stride := 0 }
def conc : Geo := { en := true, x := 0, y := 0, w := 288, h := 288 }
theorem test_band_costs : bandsOf 288 = 18 ∧ bandCost [lay 0 0 3456 2304] conc 0 = 4672 ∧
    bandCost [lay 0 0 3456 2304, lay 20 2 576 288] conc 0 = 9280 ∧
    (State.reset.setF (SRC_VCFG_SAMP 0) 2).layerDram (lay 0 0 3456 2304) conc 0 = 15360 ∧
    State.reset.layerDram (lay 20 2 576 288) conc 0 = 19456 := by decide +kernel
/-- The JTAG code of the part. -/
theorem test_idcode : (after .idcode State.reset).out = [.jtag 0x172969AB] := by decide +kernel
/-- One nominal nanosecond is 64 units of 15.625 ps. -/
theorem test_idle_step : State.reset.oneNs.wtb = State.reset.wtb + 64 := by decide +kernel
/-- Reset values of the register tables: DWELL 30 (16), RESERVE 0x6666 (06), VSEL 0 (07). -/
theorem test_reset_registers : State.reset.getF (LANE_ESCAN_CFG_DWELL 23) = 30 ∧ State.reset.getF LAMP_RESERVE_RESERVE = 0x6666 ∧
    State.reset.flag (PIN_BSTAT_SAFE 7) = true := by decide +kernel
/-- A scan write of DWELL 19 is refused and one of 20 is taken (Table of LANE_ESCAN_CFG). -/
theorem test_dwell_range : State.reset.regAccepts State.reset.bankRuns (LANE_ESCAN_CFG 0) 0x13000000 = false ∧
    State.reset.regAccepts State.reset.bankRuns (LANE_ESCAN_CFG 0) 0x14000000 = true := by decide +kernel
/-- Carries, borrows and flags of chapter 02. -/
theorem test_shift_carries : carryShl 0x80000000 1 = true ∧ carryShl 0x80000000 0 = false ∧ carryShr 1 1 = true ∧ borrowSub 0 1 = true ∧
    carryAdd 0xFFFFFFFF 1 = true ∧ flagZ 0 = true ∧ flagN 0x80000000 = true := by decide +kernel


/-! ### Eumer: the worked examples of 02_gheol_isa.md and 07_pin_engine.md -/

def eu0 : EuNames := { labels := [], equs := [], lits := [(0, 5)], maps := [] }
theorem test_eumer_addi : eu0.word [] 0 (.addi 3 3 (.lit (-1))) = some 0x44CC0000FFFFFFFF := by decide +kernel
theorem test_eumer_vstr : eu0.word [] 0 (.vector 0x31 2 0 (.imm (.lit 576))) = some 0xC480005000000240 := by decide +kernel
def euRed : EuSeg := { pin := 5, start := 93, count := 32, stride := -3, mode := 0, n := 16, order := false, lrel := true, trg := false }
theorem test_eumer_red31 : euMap 256 0x20 1728 [euRed] = some [0x000006C000000020, 258, 0xA3FFFFD00080005D] := by decide +kernel
theorem test_eumer_rejects_pins : euMap 256 0x60 1728 [euRed] = none ∧ euMap 256 0x40 1728 [euRed] = none := by decide +kernel
theorem test_eumer_shift_literal : euLiteral "--------_--------_--------_V-S-----".toList = some 0x222222222222222222222222B2822222 ∧
    euLiteral "V-S-----".toList = none := by decide +kernel
theorem test_eumer_entry : (eumer [.profile false, .op (.plain 0)]).map (fun b => sub b 8 2) = some [0, 0] ∧
    eumer [.profile false, .entry 1, .entry 1, .label 1, .op (.plain 0)] = none := by decide +kernel
/-- The flip record of Table 4-6: a read of 0x028 freezes the others, and the read of 0x038 releases them all. -/
theorem test_flip_record_freeze : latchedBy FSQ_FLIP_FCNT_LO = [0x5002C, 0x50030, 0x50034, 0x50038] ∧ releasedBy 0x5002C = [] ∧
    releasedBy 0x50038 = [0x5002C, 0x50030, 0x50034, 0x50038] ∧ releasedBy FSQ_FCNT_HI = [FSQ_FCNT_HI] := by decide

end
end

section
/-! PROOFS. The register file: the bits of a field and the registers read after a write (O7). -/

namespace Sys2Proof.Machine

/-! ### Bit fields -/

theorem testBit_maskOf (hi lo i : Nat) : (maskOf hi lo).testBit i = (decide (lo ≤ i) && decide (i ≤ hi)) := by
  unfold maskOf
  rw [Nat.testBit_mul_two_pow, Nat.testBit_two_pow_sub_one]
  by_cases h : lo ≤ i
  · simp only [h, decide_true, Bool.true_and, decide_eq_decide]
    omega
  · simp [h]

/-- Bits hi to lo of a word after a field write are the value's, every other bit is the old one. -/
theorem getLsbD_putBits (w : Word) {hi : Nat} (lo v i : Nat) (hh : hi < 32) :
    (putBits w hi lo v).getLsbD i = if lo ≤ i ∧ i ≤ hi then v.testBit (i - lo) else w.getLsbD i := by
  unfold putBits
  simp only [BitVec.getLsbD_or, BitVec.getLsbD_and, BitVec.getLsbD_not, BitVec.getLsbD_ofNat, testBit_maskOf, Nat.testBit_mul_two_pow]
  by_cases h32 : i < 32
  · by_cases hlo : lo ≤ i <;> by_cases hhi : i ≤ hi <;> simp [h32, hlo, hhi]
  · have hhi : ¬ i ≤ hi := by omega
    simp [h32, hhi, BitVec.getLsbD_of_ge w i (by omega)]

theorem testBit_bitsOf (w hi lo i : Nat) : (bitsOf w hi lo).testBit i = (decide (i < hi + 1 - lo) && w.testBit (i + lo)) := by
  unfold bitsOf
  rw [Nat.testBit_mod_two_pow, Nat.testBit_div_two_pow]

/-- A field read after a write of it is the written value's low bits. -/
theorem bitsOf_putBits (w : Word) {hi lo : Nat} (v : Nat) (hl : lo ≤ hi) (hh : hi < 32) :
    bitsOf (putBits w hi lo v).toNat hi lo = v % 2 ^ (hi + 1 - lo) := by
  refine Nat.eq_of_testBit_eq fun i => ?_
  rw [testBit_bitsOf, BitVec.testBit_toNat, getLsbD_putBits w lo v _ hh, Nat.testBit_mod_two_pow]
  by_cases h : i < hi + 1 - lo
  · have : i + lo ≤ hi := by omega
    simp [h, this]
  · simp [h]

theorem State.getF_setF_same {s : State} (hs : s.Canon) {f : Field} (n : Nat) (hl : f.lo ≤ f.hi) (hh : f.hi < 32) :
    (s.setF f n).getF f = n % 2 ^ (f.hi + 1 - f.lo) := by
  unfold State.getF State.setF
  rw [State.reg_setReg_same hs, bitsOf_putBits _ _ hl hh]

theorem State.getF_lt (s : State) (f : Field) : s.getF f < 2 ^ (f.hi + 1 - f.lo) := Nat.mod_lt _ (Nat.two_pow_pos _)

/-- Settles O7: read after write of the sparse register map, and of the bits of a field. -/
theorem registerReadsLastValue : Obligations.RegisterReadsLastValue := by
  intro s a v hs
  refine ⟨State.reg_setReg_same hs a v, fun b hb => State.reg_setReg_other hs hb v, rfl, fun f n hl hh => ⟨?_, fun g hg => ?_⟩⟩
  · exact State.getF_setF_same hs n hl hh
  · exact State.getF_setF_other hs hg n

end Sys2Proof.Machine
end

section
/-! PROOFS. Sparse maps under a filter and under a list of values, and the memories of the part (O42). -/

namespace Sys2Proof.Machine

/-! ### Sparse maps -/

/-- The values at consecutive keys, given one by one. -/
theorem SMap.getList_eq {α : Type} {d : Nat → α} {m : SMap α} {vs : List α} : ∀ {k : Nat}, (∀ i (h : i < vs.length), SMap.get d m (k + i) = vs[i]) →
    SMap.getList d m k vs.length = vs := by
  induction vs with
  | nil => intro k _; rfl
  | cons v vs ih =>
    intro k h
    have htail : ∀ i (hi : i < vs.length), SMap.get d m (k + 1 + i) = vs[i] := fun i hi => by
      rw [show k + 1 + i = k + (i + 1) by omega, h (i + 1) (by simpa using hi), List.getElem_cons_succ]
    rw [List.length_cons, SMap.getList, ih htail]
    exact congrArg (· :: vs) (h 0 (by simp))

section
variable {α : Type} {d : Nat → α} [DecidableEq α]

/-- Keeping the keys that satisfy p leaves them as they were, and every other key at its default. -/
theorem SMap.get_filter_key (p : Nat → Bool) {m : SMap α} {lo : Option Nat} (hw : SMap.wfFrom d lo m = true) (k : Nat) :
    SMap.get d (m.filter fun e => p e.1) k = if p k then SMap.get d m k else d k := by
  induction m generalizing lo with
  | nil => simp [SMap.get]
  | cons e m ih =>
    obtain ⟨j, w⟩ := e
    simp only [SMap.wfFrom, Bool.and_eq_true] at hw
    have htail : SMap.wfFrom d (some j) (m.filter fun e => p e.1) = true := SMap.wfFrom_filter _ hw.2
    obtain hlt | heq | hgt := Nat.lt_trichotomy k j
    · cases hp : p j <;> simp [hp, SMap.get, hlt, Nat.ne_of_lt hlt, SMap.get_below htail (Nat.le_of_lt hlt)]
    · subst heq
      cases hp : p k <;> simp [hp, SMap.get, SMap.get_below htail (Nat.le_refl _)]
    · have hne : k ≠ j := by omega
      have hge : ¬ k < j := by omega
      cases hp : p j <;> simp [hp, SMap.get, hne, hge, ih hw.2]

theorem SMap.get_setList_outside {vs : List α} : ∀ {m : SMap α} {k a : Nat}, SMap.wf d m = true → a < k ∨ k + vs.length ≤ a →
    SMap.get d (SMap.setList d m k vs) a = SMap.get d m a := by
  induction vs with
  | nil => intro m k a _ _; rfl
  | cons v vs ih =>
    intro m k a hw h
    rw [List.length_cons] at h
    rw [SMap.setList, ih (SMap.wf_set hw) (by omega), SMap.get_set_other hw (by omega)]

theorem SMap.get_setList_inside {vs : List α} : ∀ {m : SMap α} {k i : Nat}, SMap.wf d m = true → (h : i < vs.length) →
    SMap.get d (SMap.setList d m k vs) (k + i) = vs[i] := by
  induction vs with
  | nil => intro m k i _ h; exact absurd h (Nat.not_lt_zero i)
  | cons v vs ih =>
    intro m k i hw h
    rw [SMap.setList]
    cases i with
    | zero => rw [SMap.get_setList_outside (SMap.wf_set hw) (by omega), Nat.add_zero, SMap.get_set_same hw, List.getElem_cons_zero]
    | succ i =>
      rw [show k + (i + 1) = k + 1 + i by omega, ih (SMap.wf_set hw) (by simpa using h), List.getElem_cons_succ]

/-- A list of values that was written reads back. -/
theorem SMap.getList_setList {m : SMap α} {vs : List α} {k : Nat} (hw : SMap.wf d m = true) :
    SMap.getList d (SMap.setList d m k vs) k vs.length = vs :=
  SMap.getList_eq fun _ h => SMap.get_setList_inside hw h

end

/-! ### SRAM and DDR5 (R399, R414) -/

/-- A write transfer at an SRAM arbiter stores its data. -/
theorem State.busAccess_sram_write (s : State) {k : Nat} {r : BusReq} (h0 : k ≠ 0) (h9 : k ≠ 9) (h10 : k ≠ 10) (hw : r.write = true) :
    s.busAccess k r = State.emit { s with sram := SMap.setList sramFill s.sram r.addr (reqData r) } (.bus false 0) := by
  simp [State.busAccess, h0, h9, h10, hw]

/-- A read transfer at an SRAM arbiter answers the bytes as one little-endian number. -/
theorem State.busAccess_sram_read (s : State) {k : Nat} {r : BusReq} (h0 : k ≠ 0) (h9 : k ≠ 9) (h10 : k ≠ 10) (hr : r.write = false) :
    s.busAccess k r = s.emit (.bus false (leNat (SMap.getList sramFill s.sram r.addr r.bytes))) := by
  simp [State.busAccess, h0, h9, h10, hr]

/-- Settles O42: both memories are sparse maps into which a write puts its list of bytes. -/
theorem memoryReadsLastWrite : Obligations.MemoryReadsLastWrite := by
  refine ⟨fun s t k r hs h0 h9 h10 hw ht => ?_, fun s a bs hs => ⟨fun i hi => ?_, fun b hb => ?_, rfl⟩⟩
  · rw [State.busAccess_sram_write s h0 h9 h10 hw] at ht
    subst ht
    refine ⟨fun i hi => ?_, fun b hb => SMap.get_setList_outside hs.sram hb, rfl, fun q hq ha hn => ?_⟩
    · rw [List.getElem?_eq_getElem hi, Option.getD_some]
      exact SMap.get_setList_inside hs.sram hi
    · rw [State.busAccess_sram_read _ h0 h9 h10 hq, ha, hn]
      exact congrArg (fun bs => State.emit _ (.bus false (leNat bs))) (SMap.getList_setList hs.sram)
  · rw [List.getElem?_eq_getElem hi, Option.getD_some]
    exact SMap.get_setList_inside hs.ddr hi
  · exact SMap.get_setList_outside hs.ddr hb

end Sys2Proof.Machine
end

section
/-! PROOFS. States that differ in register writes only, and full resets (O31). -/

namespace Sys2Proof.Machine

/-! ### Runs of register writes -/

/-- t is s after writes of registers at addresses of A, and of nothing else. -/
structure RegWrites (A : Nat → Prop) (s t : State) : Prop where
  canon : t.Canon
  frame : t = { s with regs := t.regs }
  kept : ∀ a, ¬ A a → t.reg a = s.reg a

namespace RegWrites

variable {A : Nat → Prop} {s t : State}

theorem refl (hs : s.Canon) : RegWrites A s s := ⟨hs, rfl, fun _ _ => rfl⟩

theorem setReg (h : RegWrites A s t) {a : Nat} (ha : A a) (v : Word) : RegWrites A s (t.setReg a v) where
  canon := State.setReg_canon h.canon a v
  frame := by rw [h.frame]; rfl
  kept b hb := (State.reg_setReg_other h.canon (fun e : b = a => hb (e.symm ▸ ha)) v).trans (h.kept b hb)

theorem setF (h : RegWrites A s t) {f : Field} (hf : A f.addr) (v : Nat) : RegWrites A s (t.setF f v) := h.setReg hf _

theorem setFlag (h : RegWrites A s t) {f : Field} (hf : A f.addr) (b : Bool) : RegWrites A s (t.setFlag f b) := h.setF hf _

theorem foldl {β : Type} {g : State → β → State} (hg : ∀ u x, RegWrites A s u → RegWrites A s (g u x)) (l : List β) :
    ∀ {t : State}, RegWrites A s t → RegWrites A s (l.foldl g t) := by
  induction l with
  | nil => exact id
  | cons x l ih => exact fun h => ih (hg _ x h)

theorem setLanes (h : RegWrites A s t) (p : Nat) {f : Nat → Field} (hf : ∀ l, A (f l).addr) (v : Nat) : RegWrites A s (t.setLanes p f v) :=
  foldl (fun _ l hu => hu.setF (hf l) v) _ h

theorem laneUses (h : RegWrites A s t) (hA : ∀ l, A (LANE_LSTAT_USE l).addr) : RegWrites A s t.laneUses := by
  unfold State.laneUses
  extract_lets t1 t2 t3
  have h1 : RegWrites A s t1 := foldl (fun _ l hu => hu.setF (hA l) 0) _ h
  have h2 : RegWrites A s t2 := by
    unfold t2
    split
    · exact h1
    · exact foldl (fun _ l hu => hu.setF (hA l) 1) _ h1
  have h3 : RegWrites A s t3 := foldl (fun _ p hu => hu.setLanes p hA 2) _ h2
  exact (h3.setLanes 8 hA 3).setLanes 9 hA 3

end RegWrites

/-! ### Full resets (R2, R435, R485) -/

/-- The register file that a full reset keeps, before its own writes. -/
def State.keptRegs (s : State) (ember : Bool) : State := { s with regs := s.regs.filter fun e => keptReg ember e.1 }

theorem State.keptRegs_canon {s : State} (hs : s.Canon) (ember : Bool) : (s.keptRegs ember).Canon :=
  { hs with regs := SMap.wfFrom_filter _ hs.regs }

theorem State.reg_keptRegs {s : State} (hs : s.Canon) (ember : Bool) (a : Nat) :
    (s.keptRegs ember).reg a = if keptReg ember a then s.reg a else regReset a :=
  SMap.get_filter_key (keptReg ember) hs.regs a

/-- The writes that every full reset makes on the registers that it keeps. -/
def State.resetWrites (s : State) : State :=
  ((s.setF EMB_PWR_STATE 0).setFlag EMB_STAT_SMOULDER_THERM false).setF (SUP_MEAS_NOM 0) 750

/-- The cause that a full reset records, if it is one of the six of EMB_RCAUSE (R435). -/
def State.putCause (s : State) (cause : Nat) : State := if cause < 6 then s.setF EMB_RCAUSE_CAUSE (2 ^ cause) else s

/-- The registers that a full reset writes, besides those of the trace block. -/
def resetWritten (a : Nat) : Prop := a = EMB_PWR ∨ a = EMB_STAT ∨ a = EMB_RCAUSE ∨ a = SUP_MEAS 0

/-- The addresses of the trace block, whose registers follow the trace ring. -/
abbrev inTraceBlock (a : Nat) : Prop := a / 0x10000 = TRACE_STAT / 0x10000

section
variable {s : State}

theorem State.resetWrites_writes (hs : s.Canon) : RegWrites resetWritten s s.resetWrites :=
  (((RegWrites.refl hs).setF (f := EMB_PWR_STATE) (.inl rfl) 0).setFlag (f := EMB_STAT_SMOULDER_THERM) (.inr (.inl rfl)) false).setF
    (f := SUP_MEAS_NOM 0) (.inr (.inr (.inr rfl))) 750

theorem State.putCause_writes (hs : s.Canon) (cause : Nat) : RegWrites (· = EMB_RCAUSE) s (s.putCause cause) := by
  unfold State.putCause
  have h : RegWrites (· = EMB_RCAUSE) s s := RegWrites.refl hs
  split
  · exact h.setF rfl _
  · exact h

/-- A trace entry goes to the ring, and its pointer and status to the registers of the trace block (R552). -/
theorem State.trace64_frame (src kind : Nat) (data : Word) :
    s.trace64 src kind data = { s with regs := (s.trace64 src kind data).regs, trace := (s.trace64 src kind data).trace } := by
  unfold State.trace64
  extract_lets w p t u
  split
  · rfl
  · split
    · split <;> rfl
    · rfl

theorem State.reg_withTrace (m : SMap (BitVec 64)) (a : Nat) : ({ s with trace := m } : State).reg a = s.reg a := rfl

theorem State.trace64_reg (hs : s.Canon) (src kind : Nat) (data : Word) {a : Nat} (ha : a / 0x10000 ≠ TRACE_STAT / 0x10000) :
    (s.trace64 src kind data).reg a = s.reg a := by
  unfold State.trace64
  extract_lets w p t u
  have hc : t.Canon := { hs with trace := SMap.wf_set hs.trace }
  have ht : RegWrites inTraceBlock t t := RegWrites.refl hc
  have hu : RegWrites inTraceBlock t u := ht.setF (f := TRACE_WPTR_PTR) (by decide) _
  have hreg : t.reg a = s.reg a := State.reg_withTrace _ a
  split
  · rfl
  · split
    · split
      · exact ((hu.setFlag (f := TRACE_STAT_FULL) (by decide) true).kept a ha).trans hreg
      · exact ((hu.setFlag (f := TRACE_STAT_WRAPPED) (by decide) true).kept a ha).trans hreg
    · exact (hu.kept a ha).trans hreg

/-- The ring that a reset keeps: its pointer and status go back to their registers, and a marker entry follows (R555). -/
theorem State.traceKept_writes (hs : s.Canon) {t : State} (ht : t.Canon) :
    ∃ v, RegWrites inTraceBlock { t with trace := s.trace } v ∧ t.traceKept s = v.trace64 15 12 (t.reg EMB_RCAUSE) := by
  have hc : ({ t with trace := s.trace } : State).Canon := { ht with trace := hs.trace }
  have hu := RegWrites.refl (A := inTraceBlock) hc
  exact ⟨_, (((hu.setF (f := TRACE_WPTR_PTR) (by decide) _).setFlag (f := TRACE_STAT_WRAPPED) (by decide) _).setFlag
    (f := TRACE_STAT_FULL) (by decide) _).setFlag (f := TRACE_STAT_RETAINED) (by decide) true, rfl⟩

theorem State.traceKept_frame (hs : s.Canon) {t : State} (ht : t.Canon) :
    t.traceKept s = { t with regs := (t.traceKept s).regs, trace := (t.traceKept s).trace } := by
  obtain ⟨v, hv, he⟩ := State.traceKept_writes hs ht
  have hrest : ∀ r m, ({ v with regs := r, trace := m } : State) = { t with regs := r, trace := m } := fun r m => by rw [hv.frame]
  rw [he]
  exact (State.trace64_frame 15 12 _).trans (hrest _ _)

theorem State.traceKept_reg (hs : s.Canon) {t : State} (ht : t.Canon) {a : Nat} (ha : a / 0x10000 ≠ TRACE_STAT / 0x10000) :
    (t.traceKept s).reg a = t.reg a := by
  obtain ⟨v, hv, he⟩ := State.traceKept_writes hs ht
  rw [he, State.trace64_reg hv.canon 15 12 _ ha]
  exact hv.kept a ha

/-- A full reset records its cause in a state that no cause and no trace ring changes, then keeps the ring where VDD_SRAM stayed up. -/
theorem State.fullReset_eq (ember sram : Bool) (cause : Nat) : s.fullReset ember sram cause =
    if sram then (s.fullReset ember true 6).putCause cause else ((s.fullReset ember true 6).putCause cause).traceKept s := rfl

theorem State.fullReset_canon (hs : s.Canon) (ember sram : Bool) (cause : Nat) : (s.fullReset ember sram cause).Canon :=
  (fullReset_held (Held.ofCanon hs)).canon

/-- Cause and trace ring change registers and the trace ring only. -/
theorem State.fullReset_frame (hs : s.Canon) (ember sram : Bool) (cause : Nat) : s.fullReset ember sram cause =
    { s.fullReset ember true 6 with regs := (s.fullReset ember sram cause).regs, trace := (s.fullReset ember sram cause).trace } := by
  have hc := State.putCause_writes (State.fullReset_canon hs ember true 6) cause
  rw [State.fullReset_eq]
  cases sram with
  | true => rw [if_pos rfl, hc.frame]
  | false => rw [if_neg Bool.false_ne_true, State.traceKept_frame hs hc.canon, hc.frame]

/-- A register outside the trace block reads after a full reset as it does once the cause is recorded. -/
theorem State.fullReset_reg_putCause (hs : s.Canon) (ember sram : Bool) (cause : Nat) {a : Nat} (ha : a / 0x10000 ≠ TRACE_STAT / 0x10000) :
    (s.fullReset ember sram cause).reg a = ((s.fullReset ember true 6).putCause cause).reg a := by
  rw [State.fullReset_eq]
  cases sram with
  | true => rfl
  | false => exact State.traceKept_reg hs (State.putCause_writes (State.fullReset_canon hs ember true 6) cause).canon ha

/-- A full reset of no recorded cause (6) makes its writes on the registers that it keeps. -/
theorem State.fullReset_noCause_reg (ember : Bool) (a : Nat) : (s.fullReset ember true 6).reg a = (s.keptRegs ember).resetWrites.reg a := rfl

/-- Cause and trace block aside, a register reads after a full reset what the writes on the kept registers leave. -/
theorem State.fullReset_reg (hs : s.Canon) (ember sram : Bool) (cause : Nat) {a : Nat} (ha : a / 0x10000 ≠ TRACE_STAT / 0x10000)
    (hc : a ≠ EMB_RCAUSE) : (s.fullReset ember sram cause).reg a = (s.keptRegs ember).resetWrites.reg a := by
  rw [State.fullReset_reg_putCause hs ember sram cause ha,
    (State.putCause_writes (State.fullReset_canon hs ember true 6) cause).kept a hc, State.fullReset_noCause_reg]

theorem State.getF_resetWrites_state (hs : s.Canon) : s.resetWrites.getF EMB_PWR_STATE = 0 := by
  have h1 := State.setF_canon hs EMB_PWR_STATE 0
  have h2 := State.setFlag_canon h1 EMB_STAT_SMOULDER_THERM false
  unfold State.resetWrites
  rw [State.getF_setF_other h2 (by decide), State.setFlag, State.getF_setF_other h1 (by decide), State.getF_setF_same hs 0 (by decide) (by decide),
    Nat.zero_mod]

theorem State.getF_resetWrites_nominal (hs : s.Canon) : s.resetWrites.getF (SUP_MEAS_NOM 0) = 750 :=
  State.getF_setF_same (State.setFlag_canon (State.setF_canon hs _ _) _ _) 750 (by decide) (by decide)

end

/-- Settles O31: the fields by the frame of a full reset, the registers by the filter that it puts on the register file. -/
theorem fullResetKeepsNonVolatile : Obligations.FullResetKeepsNonVolatile := by
  rintro s t ember sram cause hs rfl
  have hf := State.fullReset_frame hs ember sram cause
  have hk := State.keptRegs_canon hs ember
  have hreg : ∀ a, a ≠ EMB_PWR → a ≠ EMB_STAT → a ≠ EMB_RCAUSE → a ≠ SUP_MEAS 0 → a / 0x10000 ≠ TRACE_STAT / 0x10000 →
      (s.fullReset ember sram cause).reg a = if keptReg ember a then s.reg a else regReset a := fun a h1 h2 h3 h4 h5 => by
    rw [State.fullReset_reg hs ember sram cause h5 h3, (State.resetWrites_writes hk).kept a (by simp [resetWritten, h1, h2, h3, h4]),
      State.reg_keptRegs hs]
  have hgetF : ∀ f : Field, f.addr / 0x10000 ≠ TRACE_STAT / 0x10000 → f.addr ≠ EMB_RCAUSE →
      (s.fullReset ember sram cause).getF f = (s.keptRegs ember).resetWrites.getF f := fun f h1 h2 => by
    unfold State.getF
    rw [State.fullReset_reg hs ember sram cause h1 h2]
  refine ⟨congrArg (·.nvj) hf, congrArg (·.sto.blks) hf, congrArg (·.sto.copies) hf, congrArg (·.sto.intent) hf, congrArg (·.sto.qspi) hf,
    congrArg (·.pop.nv) hf, congrArg (·.clm.nvCur) hf, congrArg (·.clm.nvTop) hf, congrArg (·.clm.nvHolder) hf, congrArg (·.age.hist) hf,
    congrArg (·.life) hf, congrArg (·.fw.inReset) hf, congrArg (·.fw.kindled) hf, congrArg (·.seqs) hf, congrArg (·.banks) hf,
    congrArg (·.sessions) hf, congrArg (·.src) hf, congrArg (·.comp) hf, congrArg (·.stage) hf, congrArg (·.test) hf, congrArg (·.sram) hf,
    congrArg (·.ddr) hf, ?kept, ?reset, ?state, ?nominal, ?trace⟩
  case kept =>
    intro a ha h1 h2 h3 h4 h5
    rw [hreg a h1 h2 h3 h4 h5, if_pos ha]
  case reset =>
    intro a ha h1 h2 h3 h4 h5
    rw [hreg a h1 h2 h3 h4 h5, ha]
    rfl
  case state => rw [hgetF _ (by decide) (by decide), State.getF_resetWrites_state hk]
  case nominal => rw [hgetF _ (by decide) (by decide), State.getF_resetWrites_nominal hk]
  case trace =>
    rintro rfl
    exact congrArg (·.trace) (State.putCause_writes (State.fullReset_canon hs ember true 6) cause).frame

end Sys2Proof.Machine
end

section
/-! PROOFS. Straps, Kindling, DDR5 training and recovery (O33). -/

namespace Sys2Proof.Machine

section
variable {s : State}

/-! ### Straps (R1, R486, R487) -/

/-- After the balls are latched in EMB_STRAPS, STRAP_SAMPLE writes other registers only. -/
theorem evStrapSample_writes (hs : s.Canon) (hr : s.fw.inReset = false) (balls : Nat) :
    RegWrites (· ≠ EMB_STRAPS) (s.setReg EMB_STRAPS (BitVec.ofNat 32 (balls % 4096))) (evStrapSample balls s) := by
  unfold evStrapSample
  rw [hr, if_neg Bool.false_ne_true]
  extract_lets t0 rs t1 t2 t3 t4 v t5
  have h0 : RegWrites (· ≠ EMB_STRAPS) t0 t0 := RegWrites.refl (State.setReg_canon hs _ _)
  have h1 : RegWrites (· ≠ EMB_STRAPS) t0 t1 := (h0.setFlag (by decide) _).setFlag (by decide) _
  have h2 : RegWrites (· ≠ EMB_STRAPS) t0 t2 := (h1.setFlag (by decide) _).setFlag (by decide) _
  have h3 : RegWrites (· ≠ EMB_STRAPS) t0 t3 :=
    RegWrites.foldl (fun _ p hu => hu.setFlag (f := CORD_PCFG_EN p) (by show 0x80100 + 0x80 * p ≠ 0x10004; omega) _) _ h2
  have h4 : RegWrites (· ≠ EMB_STRAPS) t0 t4 := h3.setF (by decide) _
  have h5 : RegWrites (· ≠ EMB_STRAPS) t0 t5 := (h4.setFlag (by decide) _).setReg (by decide) _
  exact (h5.laneUses fun l => by show 0x170100 + 0x40 * l ≠ 0x10004; omega).setFlag (by decide) _

/-! ### Recovery (R490) -/

theorem State.recoveryEnter_fw (u : State) : u.recoveryEnter.fw = { u.fw with recovery := true, recNext := false } := rfl

/-- A word of SYS_CTRL with REMAP r, REMAP_LOCK l, RECOVERY set and CLRCNT clear. -/
theorem fieldIn_recoveryWord {r l : Nat} (hr : r < 2) (hl : l < 2) :
    fieldIn (BitVec.ofNat 32 (r + 2 * l + 4)) SYS_CTRL_REMAP = r ∧ fieldIn (BitVec.ofNat 32 (r + 2 * l + 4)) SYS_CTRL_REMAP_LOCK = l ∧
    fieldIn (BitVec.ofNat 32 (r + 2 * l + 4)) SYS_CTRL_RECOVERY = 1 ∧ fieldIn (BitVec.ofNat 32 (r + 2 * l + 4)) SYS_CTRL_CLRCNT = 0 := by
  interval_cases r <;> interval_cases l <;> decide

/-- RECOVERY rewrites REMAP and its lock as they stand, so the lock never refuses it, and marks the next start for recovery. -/
theorem evRecovery_eq (s : State) : evRecovery s =
    State.emit { (s.setF SYS_CTRL_REMAP (s.getF SYS_CTRL_REMAP)).setFlag SYS_CTRL_REMAP_LOCK (s.flag SYS_CTRL_REMAP_LOCK) with
      fw := { s.fw with recNext := true } } (.bus false 0) := by
  have hl2 : s.getF SYS_CTRL_REMAP_LOCK < 2 := s.getF_lt _
  obtain ⟨hm, hl, hr, hc⟩ := fieldIn_recoveryWord (s.getF_lt SYS_CTRL_REMAP) hl2
  have hflag : (s.getF SYS_CTRL_REMAP_LOCK == 1) = s.flag SYS_CTRL_REMAP_LOCK := by
    unfold State.flag
    interval_cases s.getF SYS_CTRL_REMAP_LOCK <;> rfl
  have hlock : (s.flag SYS_CTRL_REMAP_LOCK && (s.getF SYS_CTRL_REMAP_LOCK == 0)) = false := by
    unfold State.flag
    interval_cases s.getF SYS_CTRL_REMAP_LOCK <;> rfl
  simp [evRecovery, State.sysCtrlWrite, hm, hl, hr, hc, hflag, hlock]

end

/-- Settles O33, clause by clause along the branches of the four meanings. -/
theorem startUp : Obligations.StartUp := by
  intro s
  refine ⟨fun balls hr => ?_, fun balls hr hs => ?straps, fun crc d ms hr hk hv => ?kindling, fun st crc d ms h => ?_, fun u => ?_,
    fun ok h => ?_, fun hc hf => ?training, ?recovery⟩
  · exact congrArg Host.Outcome.next (if_pos hr)
  case straps =>
    have h := evStrapSample_writes hs hr balls
    refine ⟨_, rfl, ?_, h.frame⟩
    rw [h.kept EMB_STRAPS (not_not_intro rfl), State.reg_setReg_same hs, BitVec.toNat_ofNat]
    omega
  case kindling =>
    have hgo : ¬ (s.fw.inReset || s.fw.kindled.isSome || s.fw.recovery) = true := by simp [hr, hk, hv]
    refine ⟨congrArg Host.Outcome.next ((if_neg hgo).trans (if_pos rfl)), ?_⟩
    rintro t u rfl rfl
    have htest : ¬ (!true) = true := Bool.false_ne_true
    refine ⟨fun hb => congrArg Host.Outcome.next ((if_neg hgo).trans ((if_neg htest).trans (if_pos hb))), fun h1 h2 hn => ?_⟩
    have hb := not_or.mpr ⟨h1, not_or.mpr ⟨h2, Bool.not_eq_true _ ▸ hn⟩⟩
    refine ⟨fun hsel => congrArg Host.Outcome.next ((if_neg hgo).trans ((if_neg htest).trans ((if_neg hb).trans ?_))), ?_⟩
    · rw [hsel]
    · rintro v x hsel rfl
      refine congrArg Host.Outcome.next ((if_neg hgo).trans ((if_neg htest).trans ((if_neg hb).trans ?_)))
      rw [hsel]
  · have hstop : (s.fw.inReset || s.fw.kindled.isSome || s.fw.recovery) = true := by
      simpa [Option.isSome_iff_ne_none, or_assoc] using h
    exact congrArg Host.Outcome.next (if_pos hstop)
  · rw [State.recoveryEnter_fw]
    exact ⟨rfl, rfl, rfl⟩
  · have hno : (decide (s.getF DDR_CFG_CAP = 0) || s.flag DDR_STAT_TRAIN_FAIL) = true := by simpa using h
    exact congrArg Host.Outcome.next (if_pos hno)
  case training =>
    have hgo : ¬ (decide (s.getF DDR_CFG_CAP = 0) || s.flag DDR_STAT_TRAIN_FAIL) = true := by simp [hc, hf]
    exact ⟨congrArg Host.Outcome.next ((if_neg hgo).trans (if_pos rfl)),
      congrArg Host.Outcome.next ((if_neg hgo).trans (if_neg Bool.false_ne_true))⟩
  case recovery => exact ⟨_, congrArg Host.Outcome.next (evRecovery_eq s), rfl, rfl, rfl, rfl⟩

end Sys2Proof.Machine
end

section
/-! PROOFS. Register accesses: misaligned ones, reads that latch, plain writes (O37, O40, O38). -/

namespace Sys2Proof.Machine

section
variable {s : State}

/-! ### Register accesses (R3, R5, R280) -/

theorem State.regWrite_misaligned {a : Nat} (ha : a % 4 ≠ 0) (v : Word) (c : RegCtx) : s.regWrite a v c = (s, false) := if_pos ha

theorem State.regRead_misaligned {a : Nat} (ha : a % 4 ≠ 0) : s.regRead a = (s, false, 0) := if_pos ha

theorem State.readRow_misaligned {a : Nat} (ha : a % 4 ≠ 0) : s.readRow a = s.emit (.bus true 0) := by
  unfold State.readRow
  rw [State.regRead_misaligned ha]
  rfl

theorem exec_registerWrite {a : Nat} (ha : a < 0x1C0000) (v : Word) (c : RegCtx) : exec (.registerWrite a v c) s =
    .next ((s.regWrite a v c).1.emit (.bus (!(s.regWrite a v c).2) 0)).settle := by
  show Host.Outcome.next (evRegisterWrite a v c s).settle = _
  unfold evRegisterWrite
  rw [Nat.mod_eq_of_lt ha]

theorem exec_latchingReadLo {a : Nat} (ha : a < 0x1C0000) : exec (.latchingReadLo a) s = .next (s.readRow a) :=
  congrArg (fun b => Host.Outcome.next (s.readRow b)) (Nat.mod_eq_of_lt ha)

/-- A request at the register target is an access of one whole aligned word, or an error (R5). -/
theorem State.busAccess_misaligned {r : BusReq} (h : r.bytes ≠ 4 ∨ r.addr % 4 ≠ 0) : s.busAccess 9 r = s.emit (.bus true 0) := by
  show (if r.bytes ≠ 4 then _ else _) = _
  split
  · rfl
  · next h4 =>
    have ha : r.addr % 4 ≠ 0 := h.resolve_left h4
    cases hw : r.write with
    | true => rw [if_pos rfl, State.regWrite_misaligned ha]; rfl
    | false => rw [if_neg Bool.false_ne_true, State.readRow_misaligned ha]

/-- Settles O37: both accesses stop at the alignment check, and the register target's width check comes before it. -/
theorem misalignedRegisterAccess : Obligations.MisalignedRegisterAccess := by
  refine ⟨fun s a v c ha h4 => ⟨?_, ?_⟩, fun s r h => State.busAccess_misaligned h⟩
  · rw [exec_registerWrite ha, State.regWrite_misaligned h4]
    rfl
  · rw [exec_latchingReadLo ha, State.readRow_misaligned h4]

theorem State.regRead_fsqDmem {a : Nat} (h4 : a % 4 = 0) (hb : s.blockHere (a / 0x10000) = true) (hlo : 0x51000 ≤ a) (hhi : a < 0x52000) :
    s.regRead a = (s, true, s.dmem 8 (a - 0x51000)) := by
  simp [State.regRead, h4, hb, hlo, hhi]

/-- Outside the data memory window, the trace data and the PSQ block a read is one of a word held as state. -/
theorem State.regRead_plain {a : Nat} (h4 : a % 4 = 0) (hb : s.blockHere (a / 0x10000) = true) (hw : a < 0x51000 ∨ 0x52000 ≤ a)
    (hlo : a ≠ TRACE_RDATA_LO) (hhi : a ≠ TRACE_RDATA_HI) (hp : a / 0x10000 ≠ 11) :
    s.regRead a = ((s.plainRead a).1, true, (s.plainRead a).2) := by
  have hwin : ¬ (0x51000 ≤ a ∧ a < 0x52000) := by omega
  simp [State.regRead, h4, hb, hwin, hlo, hhi, hp]

theorem State.plainRead_latched {a : Nat} {w : Word} (h : s.latched a = some w) :
    s.plainRead a = ({ s with latch := (releasedBy a).foldl (fun m k => SMap.erase k m) s.latch }, w) := by
  unfold State.plainRead
  rw [h]

theorem State.plainRead_unlatched {a : Nat} (h : s.latched a = none) (ho : openReg a = false) :
    s.plainRead a = ({ s with latch := (latchedBy a).foldl (fun m k => SMap.insert k (s.regValue k) m) s.latch },
      s.regValue a &&& ~~~ BitVec.ofNat 32 (s.absentBits a)) := by
  unfold State.plainRead
  rw [h, ho]
  rfl

/-- Settles O40, by the three ways a read of a present register ends: data memory, a latched word, a word as it stands. -/
theorem latchingReads : Obligations.LatchingReads := by
  intro s a ha h4 hb
  rw [exec_latchingReadLo ha]
  unfold State.readRow
  refine ⟨fun hlo hhi => ?_, fun hw hl hh hp => ?_⟩
  · rw [State.regRead_fsqDmem h4 hb hlo hhi]
    rfl
  · rw [State.regRead_plain h4 hb hw hl hh hp]
    refine ⟨fun w h => ?_, fun h ho => ?_⟩
    · rw [State.plainRead_latched h]
      rfl
    · rw [State.plainRead_unlatched h ho]
      rfl

/-! ### Plain writes (R6) -/

/-- A bit of a field after a write, by the field's access type: from the bit as it stood and the bit written. -/
def bitAfter : Access → Bool → Bool → Bool
  | .rw, _, new => new
  | .rws, _, new => new
  | .rwl, _, new => new
  | .w1c, old, new => old && !new
  | _, old, _ => old

/-- A word after a write of v to one of its fields. -/
def putField (v w : Word) (f : FieldDef) : Word :=
  match f.acc with
  | .rw | .rws | .rwl => putBits w f.hi f.lo (bitsOf v.toNat f.hi f.lo)
  | .w1c => putBits w f.hi f.lo (bitsOf (w &&& ~~~ v).toNat f.hi f.lo)
  | _ => w

theorem writtenWord_eq (d : RegDef) (old v : Word) : writtenWord d old v = d.fields.foldl (putField v) old := rfl

theorem getLsbD_putBits_bitsOf (w x : Word) {hi : Nat} (lo i : Nat) (hh : hi < 32) :
    (putBits w hi lo (bitsOf x.toNat hi lo)).getLsbD i = if lo ≤ i ∧ i ≤ hi then x.getLsbD i else w.getLsbD i := by
  rw [getLsbD_putBits w lo _ i hh, testBit_bitsOf, BitVec.testBit_toNat]
  by_cases h : lo ≤ i ∧ i ≤ hi
  · have hlt : i - lo < hi + 1 - lo := by omega
    rw [if_pos h, if_pos h, Nat.sub_add_cancel h.1, decide_eq_true hlt, Bool.true_and]
  · rw [if_neg h, if_neg h]

theorem getLsbD_putField (v w : Word) {f : FieldDef} (hh : f.hi < 32) {i : Nat} (hi : i < 32) : (putField v w f).getLsbD i =
    if f.lo ≤ i ∧ i ≤ f.hi then bitAfter f.acc (w.getLsbD i) (v.getLsbD i) else w.getLsbD i := by
  unfold putField
  cases f.acc with
  | rw | rws | rwl => exact getLsbD_putBits_bitsOf w v f.lo i hh
  | w1c =>
    have hclear : (w &&& ~~~ v).getLsbD i = (w.getLsbD i && !v.getLsbD i) := by simp [hi]
    simp only [getLsbD_putBits_bitsOf w (w &&& ~~~ v) f.lo i hh, hclear, bitAfter]
  | ro | wo | wot => exact (ite_self _).symm

/-- A bit that no writable field covers stays. -/
theorem getLsbD_putFields_kept (v : Word) {i : Nat} (hi : i < 32) {fs : List FieldDef} (hh : ∀ f ∈ fs, f.hi < 32)
    (hro : ∀ f ∈ fs, f.lo ≤ i → i ≤ f.hi → f.acc = .ro ∨ f.acc = .wo) (w : Word) :
    (fs.foldl (putField v) w).getLsbD i = w.getLsbD i := by
  induction fs generalizing w with
  | nil => rfl
  | cons f fs ih =>
    rw [List.forall_mem_cons] at hh hro
    rw [List.foldl_cons, ih hh.2 hro.2, getLsbD_putField v w hh.1 hi]
    split
    · next hin =>
      obtain hacc | hacc := hro.1 hin.1 hin.2 <;> rw [hacc] <;> rfl
    · rfl

/-- A bit of one of the fields, where no two overlap, goes by that field's access type. -/
theorem getLsbD_putFields_of_mem (v : Word) {i : Nat} (hi : i < 32) {fs : List FieldDef} (hh : ∀ f ∈ fs, f.hi < 32)
    (hd : fs.Pairwise fun f g => f.hi < g.lo ∨ g.hi < f.lo) {f : FieldDef} (hf : f ∈ fs) (hlo : f.lo ≤ i) (hhi : i ≤ f.hi) (w : Word) :
    (fs.foldl (putField v) w).getLsbD i = bitAfter f.acc (w.getLsbD i) (v.getLsbD i) := by
  induction fs generalizing w with
  | nil => exact absurd hf List.not_mem_nil
  | cons g fs ih =>
    rw [List.forall_mem_cons] at hh
    rw [List.pairwise_cons] at hd
    rw [List.foldl_cons]
    obtain rfl | hf := List.mem_cons.mp hf
    · have hrest : ∀ x ∈ fs, x.lo ≤ i → i ≤ x.hi → x.acc = .ro ∨ x.acc = .wo := fun x hx h1 h2 => by
        have := hd.1 x hx
        omega
      rw [getLsbD_putFields_kept v hi hh.2 hrest, getLsbD_putField v w hh.1 hi, if_pos ⟨hlo, hhi⟩]
    · have hout : ¬ (g.lo ≤ i ∧ i ≤ g.hi) := by
        have := hd.1 f hf
        omega
      rw [ih hh.2 hd.2 hf, getLsbD_putField v w hh.1 hi, if_neg hout]

theorem State.regWrite_absent {a : Nat} (h4 : a % 4 = 0) (hb : s.blockHere (a / 0x10000) = false) (v : Word) (c : RegCtx) :
    s.regWrite a v c = (s, true) := by
  simp [State.regWrite, h4, hb]

theorem State.regRead_absent {a : Nat} (h4 : a % 4 = 0) (hb : s.blockHere (a / 0x10000) = false) : s.regRead a = (s, true, 0) := by
  simp [State.regRead, h4, hb]

/-- A register without a special rule stores the written word, with the bits of the other role as they stood, if it takes the value. -/
theorem State.regWrite_plain {a : Nat} {v w : Word} {c : RegCtx} (h4 : a % 4 = 0) (hb : s.blockHere (a / 0x10000) = true)
    (hwin : a < 0x51000 ∨ 0x52000 ≤ a)
    (hw : w = (v &&& ~~~ BitVec.ofNat 32 (s.absentBits a)) ||| (s.reg a &&& BitVec.ofNat 32 (s.absentBits a)))
    (hs : s.specialWrite a w c = none) :
    s.regWrite a v c = if s.regAccepts s.bankRuns a w then (s.plainWrite a w, true) else (s, false) := by
  have hout : ¬ (0x51000 ≤ a ∧ a < 0x52000) := by omega
  subst hw
  simp [State.regWrite, h4, hb, hout, hs]

/-- Settles O38: the access by the branches of a register write, the bits field by field. -/
theorem plainRegisterWrites : Obligations.PlainRegisterWrites := by
  intro s a v c ha h4
  rw [exec_registerWrite ha, exec_latchingReadLo ha]
  refine ⟨fun hb => ?absent, fun hb hwin m w hm hw hs => ?plain, fun d old w i hi hh hd => ?bits⟩
  case absent =>
    unfold State.readRow
    rw [State.regWrite_absent h4 hb, State.regRead_absent h4 hb]
    exact ⟨rfl, rfl⟩
  case plain =>
    subst hm
    rw [State.regWrite_plain h4 hb hwin hw hs]
    refine ⟨fun hno => ?_, fun hok => ?_, fun d hd => ?_, fun hd => ?_⟩
    · rw [hno]
      rfl
    · rw [hok]
      rfl
    · unfold State.plainWrite
      rw [hd]
    · unfold State.plainWrite
      rw [hd]
  case bits =>
    have hh32 : ∀ f ∈ d.fields, f.hi < 32 := fun f hf => (hh f hf).2
    rw [writtenWord_eq]
    refine ⟨fun hro => getLsbD_putFields_kept w hi hh32 hro old, fun f hf hlo hhi hacc => ?_, fun f hf hlo hhi hacc => ?_⟩
    · rw [getLsbD_putFields_of_mem w hi hh32 hd hf hlo hhi]
      obtain hacc | hacc | hacc := hacc <;> rw [hacc] <;> rfl
    · rw [getLsbD_putFields_of_mem w hi hh32 hd hf hlo hhi, hacc]
      rfl

end

end Sys2Proof.Machine
end

section
/-! PROOFS. The reset state, the events of the sequencers, and acknowledgements (O8, O21, O24). -/

namespace Sys2Proof.Machine

/-! ### The reset state (R2) -/

/-- Settles O8: an empty register file reads the reset value of every register. -/
theorem resetState : Obligations.ResetState :=
  ⟨rfl, rfl, rfl, rfl, rfl, rfl, rfl, rfl, rfl, rfl, fun _ => rfl, rfl⟩

/-! ### Events of the sequencers (R34, R35) -/

section
variable {s : State}

theorem State.raiseEv_of_clear {k n : Nat} (h : (s.seq k).ev.getLsbD n = false) :
    s.raiseEv k n = s.setSeq k { s.seq k with ev := (s.seq k).ev ||| BitVec.ofNat 32 (2 ^ n) } :=
  if_neg (Bool.eq_false_iff.mp h)

theorem State.raiseEv_of_pending {k n : Nat} (h : (s.seq k).ev.getLsbD n = true) :
    s.raiseEv k n = s.count16 (if k = 8 then FSQ_N_EVOVR else PSQ_N_EVOVR k) 1 :=
  (if_pos h).trans (apply_ite (s.count16 · 1) _ _ _).symm

theorem State.raiseFsq_sender (h : s.sender = true) (n : Nat) : s.raiseFsq n = s.raiseEv 8 n := if_pos h

theorem State.raiseFsq_tile (h : s.sender = false) (n : Nat) : s.raiseFsq n = s := if_neg (Bool.eq_false_iff.mp h)

/-- Settles O21, by the two branches of an event and the role of the part. -/
theorem eventsArePendingBits : Obligations.EventsArePendingBits :=
  ⟨fun _ _ _ => State.raiseEv_of_clear, fun _ _ _ => State.raiseEv_of_pending, fun _ => ⟨rfl, rfl,
    fun h => ⟨State.raiseFsq_sender h 1, State.raiseFsq_sender h 2⟩, fun h => ⟨State.raiseFsq_tile h 1, State.raiseFsq_tile h 2⟩⟩⟩

end

/-! ### Acknowledgements (R112, R148) -/

/-- An ACK of no marked frame that reports PROTECT_FAULT. -/
def faultAck : AckPkt := { fcnt := 0, result := 3, flags := 0, litmask := 0, bands := 0, bright := 0, ceil := 0, tid := 0 }

/-- A frame record, for the operand that the clause without a marked frame does not use. -/
def frame0 : FrameRec :=
  { fcnt := 0, ports := 0, tmark := 0, fper := 0, gen := 0, issued := [], late := 0, present := none, pports := 0, acks := [], ev3 := false,
    jobsDone := true, vis := [], popDone := true, next := none }

theorem ackTake_faultAck_protectFault : (State.reset.ackTake 0 0 faultAck).flag COMP_STAT_PROTECT_FAULT = true := by decide +kernel

theorem hopLock_faultAck_protectFault :
    (State.reset.setFlag (CORD_HOP_LOCK 0 0) (!faultAck.flags.testBit 0)).flag COMP_STAT_PROTECT_FAULT = false := by
  decide +kernel

/-- Refutes O24: an ACK with result 3 reports PROTECT_FAULT (R112) and sets COMP_STAT.PROTECT_FAULT whether or not its frame is marked, where
the statement's clause for an unmarked frame lets any ACK change the hop's lock only. -/
theorem not_frameInputs : ¬ Obligations.FrameInputs := by
  intro h
  obtain ⟨-, hack, -⟩ := h
  obtain ⟨-, hunmarked, -⟩ := hack State.reset 0 0 faultAck frame0
  have heq := congrArg (State.flag · COMP_STAT_PROTECT_FAULT) (hunmarked rfl)
  exact absurd (ackTake_faultAck_protectFault.symm.trans (heq.trans hopLock_faultAck_protectFault)) (by decide)

end Sys2Proof.Machine
end

section
/-! PROOFS. Instructions at their turn: going on, and the scalar instructions (O9, O10, O11, O26). -/

namespace Sys2Proof.Machine

section
variable {s t : State}

/-! ### The turn of an instruction (R38, R68) -/

/-- At its turn an instruction has its effect. -/
theorem State.issue_atTurn {op : BitVec 6} {i : SeqInstr} (h : s.atTurn op i) (eff : State → Nat → BitVec 64 → State) :
    s.issue op i eff = eff s (seqIdx i.q) (rowWord op i.body) := by
  obtain ⟨hready, hnone⟩ := h
  unfold State.issue State.issueWord
  simp only [hready, if_true, hnone]

/-- An instruction that meets a cause of a fault in a ready sequencer faults and does nothing else. -/
theorem State.issue_fault {op : BitVec 6} {i : SeqInstr} {c : Nat} (hready : s.seqReady i.q = true)
    (hc : faultOf (seqIdx i.q) i.q (s.seq (seqIdx i.q)) (s.bank (seqIdx i.q)).vsel (rowWord op i.body) i.ue = some c)
    (eff : State → Nat → BitVec 64 → State) : s.issue op i eff = s.seqFault (seqIdx i.q) c (rowWord op i.body) := by
  unfold State.issue State.issueWord
  simp only [hready, if_true, hc]

/-- The next state at an instruction's turn is the one that its effect leaves. -/
theorem State.next_issue_atTurn {op : BitVec 6} {i : SeqInstr} (h : s.atTurn op i) (eff : State → Nat → BitVec 64 → State) :
    (Host.Outcome.next (s.issue op i eff) : Host.Outcome State Fault Refusal) = .next (eff s (seqIdx i.q) (rowWord op i.body)) :=
  congrArg Host.Outcome.next (State.issue_atTurn h eff)

theorem seqIdx_le (id : SeqId) : seqIdx id ≤ 8 := by
  cases id with
  | fsq => exact Nat.le_refl 8
  | psq n => exact Nat.le_of_lt n.isLt

/-! ### Going on (R30, R47, R64) -/

theorem State.setSeq_canon (hs : s.Canon) (k : Nat) (q : Seq) : (s.setSeq k q).Canon := { hs with seqs := SMap.wf_set hs.seqs }

theorem State.nonvec_seqs (k : Nat) : (s.nonvec k).seqs = s.seqs := by
  unfold State.nonvec
  split <;> rfl

theorem State.goTo_seqs (k pc : Nat) (q : Seq) : (s.goTo k q pc).seqs = (s.setSeq k { q with pc := BitVec.ofNat 16 pc }).seqs :=
  State.nonvec_seqs k

theorem State.seq_goTo_same (hs : s.Canon) (k pc : Nat) (q : Seq) : (s.goTo k q pc).seq k = { q with pc := BitVec.ofNat 16 pc } := by
  unfold State.seq
  rw [State.goTo_seqs]
  exact State.seq_setSeq_same hs k _

theorem State.seq_goTo_other (hs : s.Canon) {j k : Nat} (h : j ≠ k) (pc : Nat) (q : Seq) : (s.goTo k q pc).seq j = s.seq j := by
  unfold State.seq
  rw [State.goTo_seqs]
  exact State.seq_setSeq_other hs h _

theorem State.goTo_fsq_banks (pc : Nat) (q : Seq) : (s.goTo 8 q pc).banks = s.banks := rfl

theorem State.goTo_psq {k : Nat} (hk : k ≠ 8) (pc : Nat) (q : Seq) : s.goTo k q pc =
    (s.setSeq k { q with pc := BitVec.ofNat 16 pc }).setBank k { s.bank k with nonvec := (s.bank k).nonvec + 1 } := if_neg hk

theorem State.bank_goTo_same (hs : s.Canon) {k : Nat} (hk : k ≠ 8) (pc : Nat) (q : Seq) :
    (s.goTo k q pc).bank k = { s.bank k with nonvec := (s.bank k).nonvec + 1 } := by
  rw [State.goTo_psq hk]
  exact State.bank_setBank_same (State.setSeq_canon hs _ _) k _

theorem State.goTo_onlySeq (hs : s.Canon) (k pc : Nat) (q : Seq) : OnlySeq s (s.goTo k q pc) k := by
  have hseqs : ∀ j, j ≠ k → (s.goTo k q pc).seq j = s.seq j := fun j hj => State.seq_goTo_other hs hj pc q
  by_cases hk : k = 8
  · subst hk
    exact ⟨hseqs, fun _ _ => rfl, ⟨_, rfl⟩, rfl⟩
  · refine ⟨hseqs, fun j hj => ?_, ⟨_, State.bank_goTo_same hs hk pc q⟩, ?_⟩
    · rw [State.goTo_psq hk]
      exact State.bank_setBank_other (State.setSeq_canon hs _ _) hj _
    · rw [State.goTo_psq hk]
      rfl

/-- Settles O10, from the sequencer and the bank that going on writes. -/
theorem goingOnMovesOneSequencer : Obligations.GoingOnMovesOneSequencer := fun _ k pc q hs =>
  ⟨State.seq_goTo_same hs k pc q, State.goTo_onlySeq hs k pc q, fun hk => State.bank_goTo_same hs hk pc q,
    fun hk => hk ▸ State.goTo_fsq_banks pc q⟩

/-! ### The instructions that only compute (R31, R43, R48 to R50) -/

/-- Writing a sequencer and going on with it moves that sequencer only. -/
theorem State.setSeq_goTo_onlySeq (hs : s.Canon) (k pc : Nat) (p q : Seq) : OnlySeq s ((s.setSeq k p).goTo k q pc) k := by
  obtain ⟨hseqs, hbanks, hbank, hrest⟩ := State.goTo_onlySeq (State.setSeq_canon hs k p) k pc q
  exact ⟨fun j hj => (hseqs j hj).trans (State.seq_setSeq_other hs hj p), hbanks, hbank, by rw [hrest]; rfl⟩

/-- What a computing instruction leaves of its sequencer: the pending events, the return stack, the image and the program. -/
structure SameProgram (p q : Seq) : Prop where
  ev : q.ev = p.ev
  stack : q.stack = p.stack
  image : q.image = p.image
  prog : q.prog = p.prog

theorem Seq.setReg_sameProgram (q : Seq) (r : Nat) (v : Word) : SameProgram q (q.setReg r v) := by
  unfold Seq.setReg
  split <;> exact ⟨rfl, rfl, rfl, rfl⟩

theorem Seq.setReg_setFlags_sameProgram (q : Seq) (d : Nat) (r : Word) (c : Bool) : SameProgram q ((q.setReg d r).setFlags r c) :=
  { q.setReg_sameProgram d r with }

/-- Between s and t only what sequencer k computes with may differ: OnlySeq, and of k the events, the stack, the image and the program stay. -/
structure Computes (s t : State) (k : Nat) : Prop where
  only : OnlySeq s t k
  same : SameProgram (s.seq k) (t.seq k)

theorem State.goTo_computes (hs : s.Canon) (k pc : Nat) {q : Seq} (h : SameProgram (s.seq k) q) : Computes s (s.goTo k q pc) k := by
  refine ⟨State.goTo_onlySeq hs k pc q, ?_⟩
  rw [State.seq_goTo_same hs]
  exact { h with }

theorem State.scalar_computes (hs : s.Canon) (k d : Nat) (r : Word) (c : Bool) : Computes s (s.scalar k d r c) k :=
  State.goTo_computes hs k _ (Seq.setReg_setFlags_sameProgram _ d r c)

theorem doLoop_computes (hs : s.Canon) (k : Nat) (w : BitVec 64) : Computes s (doLoop s k w) k := by
  unfold doLoop
  extract_lets q n q'
  split <;> exact State.goTo_computes hs k _ ⟨rfl, rfl, rfl, rfl⟩

/-- st at its turn writes its sequencer's data memory and goes on. -/
theorem doSt_eq (hs : s.Canon) (k : Nat) (w : BitVec 64) {q : Seq}
    (hq : q = { s.seq k with dmem := SMap.set dmemFill (s.seq k).dmem (memAddr (s.seq k) w / 4) ((s.seq k).reg (wB w)) }) :
    doSt s k w = (s.setSeq k q).goNext k q := by
  subst hq
  show (s.setDmem k _ _).goNext k ((s.setDmem k _ _).seq k) = _
  unfold State.setDmem
  rw [State.seq_setSeq_same hs]

theorem doSt_computes (hs : s.Canon) (k : Nat) (w : BitVec 64) : Computes s (doSt s k w) k := by
  rw [doSt_eq hs k w rfl]
  refine ⟨State.setSeq_goTo_onlySeq hs k _ _ _, ?_⟩
  rw [State.goNext, State.seq_goTo_same (State.setSeq_canon hs k _)]
  exact ⟨rfl, rfl, rfl, rfl⟩

/-- What an effect keeps, the instruction keeps at its turn. -/
theorem Computes.of_atTurn {op : BitVec 6} {i : SeqInstr} {eff : State → Nat → BitVec 64 → State} (h : s.atTurn op i)
    (ht : (Host.Outcome.next (s.issue op i eff) : Host.Outcome State Fault Refusal) = .next t)
    (heff : ∀ w, Computes s (eff s (seqIdx i.q) w) (seqIdx i.q)) : Computes s t (seqIdx i.q) := by
  rw [State.next_issue_atTurn h] at ht
  injection ht with ht
  exact ht ▸ heff _

/-- Settles O11: thirteen of the effects go on with a computed sequencer, and st writes it before. -/
theorem scalarInstructionsChangeOneSequencer : Obligations.ScalarInstructionsChangeOneSequencer := by
  intro s t i e hs he hturn ht
  have hcomp : Computes s t (seqIdx i.q) := by
    simp only [List.mem_cons, List.not_mem_nil, or_false] at he
    obtain rfl | rfl | rfl | rfl | rfl | rfl | rfl | rfl | rfl | rfl | rfl | rfl | rfl | rfl := he
    · exact .of_atTurn (eff := doNop) hturn ht fun _ => State.goTo_computes hs _ _ ⟨rfl, rfl, rfl, rfl⟩
    · exact .of_atTurn (eff := doLoop) hturn ht fun w => doLoop_computes hs _ w
    · exact .of_atTurn (eff := doMov) hturn ht fun _ => State.goTo_computes hs _ _ (Seq.setReg_sameProgram _ _ _)
    · exact .of_atTurn (eff := doAddi) hturn ht fun _ => State.scalar_computes hs _ _ _ _
    · exact .of_atTurn (eff := doAdd) hturn ht fun _ => State.scalar_computes hs _ _ _ _
    · exact .of_atTurn (eff := doSub) hturn ht fun _ => State.scalar_computes hs _ _ _ _
    · exact .of_atTurn (eff := doAnd) hturn ht fun _ => State.scalar_computes hs _ _ _ _
    · exact .of_atTurn (eff := doOr) hturn ht fun _ => State.scalar_computes hs _ _ _ _
    · exact .of_atTurn (eff := doXor) hturn ht fun _ => State.scalar_computes hs _ _ _ _
    · exact .of_atTurn (eff := doShl) hturn ht fun _ => State.scalar_computes hs _ _ _ _
    · exact .of_atTurn (eff := doShr) hturn ht fun _ => State.scalar_computes hs _ _ _ _
    · exact .of_atTurn (eff := doCmp) hturn ht fun _ => State.scalar_computes hs _ _ _ _
    · exact .of_atTurn (eff := doLd) hturn ht fun _ => State.goTo_computes hs _ _ (Seq.setReg_sameProgram _ _ _)
    · exact .of_atTurn (eff := doSt) hturn ht fun w => doSt_computes hs _ w
  exact ⟨hcomp.only, hcomp.same.ev, hcomp.same.stack, hcomp.same.image, hcomp.same.prog⟩

/-- Settles O9: each effect is the stated going on, and st's is the one of its written data memory. -/
theorem scalarInstructionResults : Obligations.ScalarInstructionResults := by
  rintro s i k q w rfl rfl
  refine ⟨?mov, ?addi, ?add, ?sub, ?and, ?or, ?xor, ?shl, ?shr, ?cmp, ?ld, ?st⟩
  case mov => rintro rfl h; exact State.next_issue_atTurn h doMov
  case addi => rintro rfl h; exact State.next_issue_atTurn h doAddi
  case add => rintro rfl h; exact State.next_issue_atTurn h doAdd
  case sub => rintro rfl h; exact State.next_issue_atTurn h doSub
  case and => rintro rfl h; exact State.next_issue_atTurn h doAnd
  case or => rintro rfl h; exact State.next_issue_atTurn h doOr
  case xor => rintro rfl h; exact State.next_issue_atTurn h doXor
  case shl => rintro rfl h; exact State.next_issue_atTurn h doShl
  case shr => rintro rfl h; exact State.next_issue_atTurn h doShr
  case cmp => rintro rfl h; exact State.next_issue_atTurn h doCmp
  case ld => rintro rfl h; exact State.next_issue_atTurn h doLd
  case st =>
    rintro rfl h hs
    exact (State.next_issue_atTurn h doSt).trans (congrArg Host.Outcome.next (doSt_eq hs _ _ rfl))

/-- Settles O26: the six effects queue one setting each. -/
theorem pinSettingsWait : Obligations.PinSettingsWait := by
  rintro s i k q e rfl rfl he h
  simp only [List.mem_cons, List.not_mem_nil, or_false] at he
  obtain rfl | rfl | rfl | rfl | rfl | rfl := he
  · exact State.next_issue_atTurn h doTset
  · exact State.next_issue_atTurn h doPeriod
  · exact State.next_issue_atTurn h doMap
  · exact State.next_issue_atTurn h doCapt
  · exact State.next_issue_atTurn h doTrig
  · exact State.next_issue_atTurn h doLine

end

end Sys2Proof.Machine
end

section
/-! PROOFS. The causes of a fault, reports and trace entries, and the control instructions (O13, O14, O15, O16, O18). -/

namespace Sys2Proof.Machine

/-! ### The causes of a fault (R38, R68) -/

theorem wOp_rowWord (op : BitVec 6) (b : BitVec 58) : wOp (rowWord op b) = op.toNat := by
  unfold wOp fld bitsOf rowWord
  rw [BitVec.toNat_append, ← Nat.shiftRight_eq_div_pow, Nat.shiftRight_or_distrib, Nat.shiftLeft_shiftRight,
    Nat.shiftRight_eq_div_pow b.toNat, Nat.div_eq_of_lt b.isLt, Nat.or_zero, Nat.mod_eq_of_lt op.isLt]

/-- No control or scalar opcode belongs to one profile. -/
theorem opForeign_of_lt (id : SeqId) {op : Nat} (h : op < 0x20) : opForeign id op = false := by
  cases id with
  | fsq => simp only [opForeign, decide_eq_false_iff_not]; omega
  | psq n => simp only [opForeign, Bool.and_eq_false_iff, decide_eq_false_iff_not]; omega

/-- No control or scalar instruction has an operand out of range. -/
theorem valueBad_of_lt {w : BitVec 64} (h : wOp w < 0x20) : valueBad w = false := by
  unfold valueBad
  split
  case h_11 => rfl
  all_goals omega

section
variable {k v : Nat} {id : SeqId} {q : Seq} {b : BitVec 58}

/-- A defined control or scalar word with no reserved bit set passes the causes down to the operand range. -/
theorem faultOf_rowWord {op : BitVec 6} (hdef : opDefined op.toNat = true) (hlt : op.toNat < 0x20)
    (hr : rsvdSet (rowWord op b) = false) : faultOf k id q v (rowWord op b) false =
    if op.toNat = 0x09 ∧ wEV (rowWord op b) < 24 then some 0x08
    else if (op.toNat = 0x1A ∨ op.toNat = 0x1B) ∧ (4096 ≤ memAddr q (rowWord op b) ∨ memAddr q (rowWord op b) % 4 ≠ 0) then some 0x07
    else if op.toNat = 0x04 ∧ 8 ≤ q.stack.length then some 0x05
    else if op.toNat = 0x05 ∧ q.stack = [] then some 0x06
    else (nextPc q (rowWord op b)).bind fun p => if progSize k ≤ p then some 0x04 else none := by
  have hop := wOp_rowWord op b
  have hval : valueBad (rowWord op b) = false := valueBad_of_lt (hop ▸ hlt)
  have hperiod : op.toNat ≠ 0x34 := by omega
  simp only [faultOf, hop, hdef, opForeign_of_lt id hlt, hr, hval, Bool.false_eq_true, Bool.not_true, if_false, beq_iff_eq, hperiod, Bool.and_eq_true,
    decide_eq_true_eq, false_and, Bool.or_eq_true, bne_iff_ne, List.isEmpty_iff]
  cases nextPc q (rowWord op b) <;> rfl

theorem faultOf_of_jump {op : BitVec 6} (hop : op = 0x01#6 ∨ op = 0x02#6 ∨ op = 0x03#6) (hr : rsvdSet (rowWord op b) = false) {p : Nat}
    (hp : nextPc q (rowWord op b) = some p) : faultOf k id q v (rowWord op b) false = if progSize k ≤ p then some 0x04 else none := by
  rw [faultOf_rowWord (by obtain rfl | rfl | rfl := hop <;> rfl) (by obtain rfl | rfl | rfl := hop <;> decide) hr, hp]
  obtain rfl | rfl | rfl := hop <;> simp

theorem nextPc_jmp : nextPc q (rowWord 0x01#6 b) = some (wTarget (rowWord 0x01#6 b)) := by
  unfold nextPc
  rw [wOp_rowWord]
  rfl

theorem nextPc_jz : nextPc q (rowWord 0x02#6 b) = some (if q.z then wTarget (rowWord 0x02#6 b) else q.pc.toNat + 1) := by
  unfold nextPc
  rw [wOp_rowWord]
  rfl

theorem nextPc_jnz : nextPc q (rowWord 0x03#6 b) = some (if q.z then q.pc.toNat + 1 else wTarget (rowWord 0x03#6 b)) := by
  unfold nextPc
  rw [wOp_rowWord]
  rfl

theorem faultOf_call_full (hr : rsvdSet (rowWord 0x04#6 b) = false) (h : 8 ≤ q.stack.length) :
    faultOf k id q v (rowWord 0x04#6 b) false = some 0x05 := by
  rw [faultOf_rowWord (by decide) (by decide) hr]
  simp [h]

theorem faultOf_ret_empty (hr : rsvdSet (rowWord 0x05#6 b) = false) (h : q.stack = []) :
    faultOf k id q v (rowWord 0x05#6 b) false = some 0x06 := by
  rw [faultOf_rowWord (by decide) (by decide) hr]
  simp [h]

/-- An address outside data memory or within a word faults ld and st (R50). -/
theorem faultOf_dmemRange {op : BitVec 6} (hop : op = 0x1A#6 ∨ op = 0x1B#6) (hr : rsvdSet (rowWord op b) = false)
    (h : 4096 ≤ memAddr q (rowWord op b) ∨ memAddr q (rowWord op b) % 4 ≠ 0) : faultOf k id q v (rowWord op b) false = some 0x07 := by
  obtain rfl | rfl := hop <;> rw [faultOf_rowWord (by decide) (by decide) hr, if_neg (by simp), if_pos ⟨by decide, h⟩]

/-- A sig that meets no cause names a software event (R45). -/
theorem wEV_of_sig {ue : Bool} (h : faultOf k id q v (rowWord 0x09#6 b) ue = none) : 24 ≤ wEV (rowWord 0x09#6 b) := by
  by_contra hlt
  have hop := wOp_rowWord 0x09#6 b
  simp [faultOf, hop, Nat.lt_of_not_le hlt] at h
  split_ifs at h

theorem wEV_le (w : BitVec 64) : wEV w ≤ 31 := Nat.le_of_lt_succ (Nat.mod_lt _ (by decide))

end

/-! ### Reports and trace entries (R141, R517, R518, R552) -/

/-- Between s and t only what a report moves may differ: what is put out, sessions and their queues, cord ports, the part's event number,
and registers. -/
structure ReportOnly (s t : State) : Prop where
  frame : t = { s with out := t.out, regs := t.regs, sessions := t.sessions, spiTx := t.spiTx, cord := t.cord, tl := t.tl }

namespace ReportOnly

variable {s t u : State}

theorem refl : ReportOnly s s := ⟨rfl⟩

theorem trans (h : ReportOnly s t) (h' : ReportOnly t u) : ReportOnly s u := ⟨by rw [h'.frame, h.frame]⟩

theorem foldl {β : Type} {f : State → β → State} (hf : ∀ u x, ReportOnly u (f u x)) (l : List β) : ReportOnly s (l.foldl f s) :=
  l.foldlRecOn f refl fun u hu x _ => hu.trans (hf u x)

theorem seq (h : ReportOnly s t) (k : Nat) : t.seq k = s.seq k := by rw [h.frame]; rfl

theorem test (h : ReportOnly s t) : t.test = s.test := by rw [h.frame]

end ReportOnly

section
variable {s : State}

theorem State.sessOut_reportOnly (spi : Bool) (o : Out) : ReportOnly s (s.sessOut spi o) := by
  unfold State.sessOut
  split <;> exact ⟨rfl⟩

theorem State.keyAfter_reportOnly (x : Session) : ReportOnly s (s.keyAfter x) := by
  unfold State.keyAfter
  split
  · exact State.sessOut_reportOnly _ _
  · exact .refl

theorem State.eventAt_reportOnly (code port pos : Nat) (detail : List Byte) (r : Recips) :
    ReportOnly s (s.eventAt code port pos detail r) := by
  refine ReportOnly.foldl (fun t x => ?_) _
  split
  · extract_lets p u v
    have hu : ReportOnly t u := ReportOnly.trans ⟨rfl⟩ (State.sessOut_reportOnly _ _)
    have hv : ReportOnly u v := by
      unfold v
      split <;> exact ⟨rfl⟩
    exact (hu.trans hv).trans (State.keyAfter_reportOnly x)
  · exact .refl

theorem State.freeBlocks_reportOnly (port cls n : Nat) : ReportOnly s (s.freeBlocks port cls n) := by
  unfold State.freeBlocks
  split <;> exact ⟨rfl⟩

theorem State.countLanes_reportOnly (p : Nat) (a : Nat → Nat) : ReportOnly s (s.countLanes p a) := .foldl (fun _ _ => ⟨rfl⟩) _

theorem State.txWake_reportOnly (p : Nat) : ReportOnly s (s.txWake p) := by
  unfold State.txWake
  split
  · have hlanes : ReportOnly s (s.setLanes p LANE_LSTAT_TXST 2) := .foldl (fun _ _ => ⟨rfl⟩) _
    exact (hlanes.trans (State.countLanes_reportOnly p _)).trans ⟨rfl⟩
  · exact .refl

theorem State.pump_reportOnly (port cls : Nat) : ReportOnly s (s.pump port cls) := by
  unfold State.pump
  extract_lets k c r sent cord t t1
  split
  · split
    · exact .refl
    · exact State.txWake_reportOnly port
  · have ht : ReportOnly s t := ⟨rfl⟩
    have ht1 : ReportOnly t t1 := .foldl (fun _ _ => ⟨rfl⟩) _
    exact (ht.trans ht1).trans (.foldl (fun _ _ => State.freeBlocks_reportOnly _ _ _) _)

theorem State.sendFrom_reportOnly (src : Option Nat) (port : Nat) (p : CordPkt) : ReportOnly s (s.sendFrom src port p) := by
  unfold State.sendFrom
  extract_lets cls k q e u
  split
  · have hu : ReportOnly s u := by
      unfold u
      split
      · exact State.countLanes_reportOnly 1 _
      · exact .refl
    exact (hu.trans ⟨rfl⟩).trans (State.pump_reportOnly port cls)
  · split
    · exact State.freeBlocks_reportOnly _ _ _
    · exact .refl

theorem State.event_reportOnly (code : Nat) (detail : List Byte) (r : Recips) : ReportOnly s (s.event code detail r) := by
  unfold State.event
  extract_lets t
  have ht : ReportOnly s t := State.eventAt_reportOnly _ _ _ _ _
  split
  · exact (ht.trans ⟨rfl⟩).trans (State.sendFrom_reportOnly none _ _)
  · exact ht

/-- A sequencer's trace entry goes to the ring, or is not enabled (R553). -/
theorem State.traceSeq_cases (k kind : Nat) (data : Word) :
    s.traceSeq k kind data = s ∨ ∃ src, s.traceSeq k kind data = s.trace64 src kind data := by
  by_cases h : (s.flag TRACE_CTRL_SEQ_EN && (s.getF TRACE_SEQMASK_MASK).testBit (if k = 8 then 0 else k + 1)) = true
  · exact .inr ⟨_, if_pos h⟩
  · exact .inl (if_neg h)

theorem State.traceSeq_frame (k kind : Nat) (data : Word) :
    s.traceSeq k kind data = { s with regs := (s.traceSeq k kind data).regs, trace := (s.traceSeq k kind data).trace } := by
  obtain h | ⟨src, h⟩ := State.traceSeq_cases (s := s) k kind data
  · rw [h]
  · rw [h]
    exact State.trace64_frame src kind data

theorem State.traceSeq_seq (k kind : Nat) (data : Word) (j : Nat) : (s.traceSeq k kind data).seq j = s.seq j := by
  rw [State.traceSeq_frame]
  rfl

theorem State.traceSeq_reg (hs : s.Canon) (k kind : Nat) (data : Word) {a : Nat} (ha : a / 0x10000 ≠ TRACE_STAT / 0x10000) :
    (s.traceSeq k kind data).reg a = s.reg a := by
  obtain h | ⟨src, h⟩ := State.traceSeq_cases (s := s) k kind data
  · rw [h]
  · rw [h, State.trace64_reg hs src kind data ha]

theorem State.traceSeq_canon (hs : s.Canon) (k kind : Nat) (data : Word) : (s.traceSeq k kind data).Canon :=
  (traceSeq_held (Held.ofCanon hs)).canon

/-! ### Faults and jumps leave the sequencer's registers (R42, R50, R69) -/

/-- A fault ends the wait of a PSQ, and changes nothing else of a sequencer's state. -/
theorem State.seqFault_seqs (k code : Nat) (w : BitVec 64) : (s.seqFault k code w).seqs =
    if k = 8 then s.seqs else (s.setSeq k { s.seq k with waiting := none }).seqs := by
  unfold State.seqFault
  extract_lets q t1 t2 t3 t4 t5 t6 t7
  have h5 : t5.seqs = s.seqs := by
    unfold t5
    rw [State.traceSeq_frame]
    rfl
  have h6 : t6.seqs = s.seqs := by
    unfold t6
    rw [(State.event_reportOnly _ _ _).frame]
    exact h5
  have h7 : t7.seqs = (s.setSeq k { s.seq k with waiting := none }).seqs := by
    show SMap.set (fun _ => Seq.init) t6.seqs k { (SMap.get (fun _ => Seq.init) t6.seqs k : Seq) with waiting := none } = _
    rw [h6]
    rfl
  split
  · exact h6
  · split <;> exact h7

theorem State.seq_seqFault_same (hs : s.Canon) (k code : Nat) (w : BitVec 64) :
    (s.seqFault k code w).seq k = s.seq k ∨ (s.seqFault k code w).seq k = { s.seq k with waiting := none } := by
  unfold State.seq
  rw [State.seqFault_seqs]
  split
  · exact .inl rfl
  · exact .inr (State.seq_setSeq_same hs k _)

theorem State.seqFault_stack (hs : s.Canon) (k code : Nat) (w : BitVec 64) : ((s.seqFault k code w).seq k).stack = (s.seq k).stack := by
  obtain h | h := State.seq_seqFault_same hs k code w <;> rw [h]

theorem State.seqFault_dmem (hs : s.Canon) (k code : Nat) (w : BitVec 64) : ((s.seqFault k code w).seq k).dmem = (s.seq k).dmem := by
  obtain h | h := State.seq_seqFault_same hs k code w <;> rw [h]

theorem State.seq_jumpTo_same (hs : s.Canon) (k pc : Nat) (q : Seq) : (s.jumpTo k q pc).seq k = { q with pc := BitVec.ofNat 16 pc } :=
  (State.traceSeq_seq k 0 _ k).trans (State.seq_goTo_same hs k pc q)

/-! ### Fields of one register -/

theorem bitsOf_putBits_disjoint (w : Word) {hi lo hi' lo' : Nat} (v : Nat) (hh : hi < 32) (hd : hi' < lo ∨ hi < lo') :
    bitsOf (putBits w hi lo v).toNat hi' lo' = bitsOf w.toNat hi' lo' := by
  refine Nat.eq_of_testBit_eq fun i => ?_
  rw [testBit_bitsOf, testBit_bitsOf, BitVec.testBit_toNat, BitVec.testBit_toNat, getLsbD_putBits w lo v _ hh]
  by_cases hi : i < hi' + 1 - lo'
  · rw [if_neg (by omega)]
  · simp [hi]

/-- A field set leaves the other fields of its register. -/
theorem State.getF_setF_disjoint (hs : s.Canon) {f g : Field} (ha : g.addr = f.addr) (hd : g.hi < f.lo ∨ f.hi < g.lo) (hh : f.hi < 32)
    (v : Nat) : (s.setF f v).getF g = s.getF g := by
  unfold State.getF State.setF
  rw [ha, State.reg_setReg_same hs, bitsOf_putBits_disjoint _ v hh hd]

theorem State.flag_setFlag_disjoint (hs : s.Canon) {f g : Field} (ha : g.addr = f.addr) (hd : g.hi < f.lo ∨ f.hi < g.lo) (hh : f.hi < 32)
    (b : Bool) : (s.setFlag f b).flag g = s.flag g :=
  congrArg (· != 0) (State.getF_setF_disjoint hs ha hd hh _)

theorem State.flag_setFlag_other (hs : s.Canon) {f g : Field} (h : g.addr ≠ f.addr) (b : Bool) : (s.setFlag f b).flag g = s.flag g :=
  congrArg (· != 0) (State.getF_setF_other hs h _)

theorem State.flag_setFlag_same (hs : s.Canon) {f : Field} (h1 : f.hi = f.lo) (hh : f.hi < 32) (b : Bool) : (s.setFlag f b).flag f = b := by
  show ((s.setF f _).getF f != 0) = b
  rw [State.getF_setF_same hs _ (Nat.le_of_eq h1.symm) hh, h1, Nat.add_sub_cancel_left]
  cases b <;> rfl

/-! ### Control instructions (R41 to R47) -/

theorem runF_one_bit (k : Nat) : (runF k).hi = (runF k).lo ∧ (runF k).hi < 32 := by
  unfold runF
  split <;> exact ⟨rfl, (by decide : 0 < 32)⟩

theorem haltedF_one_bit (k : Nat) : (haltedF k).hi = (haltedF k).lo ∧ (haltedF k).hi < 32 := by
  unfold haltedF
  split <;> exact ⟨rfl, (by decide : 1 < 32)⟩

theorem runF_haltedF (k : Nat) : (runF k).addr = (haltedF k).addr ∧ (runF k).hi < (haltedF k).lo := by
  unfold runF haltedF
  split
  · decide
  · exact ⟨rfl, Nat.zero_lt_one⟩

/-- A sequencer's status register is not one of the trace block. -/
theorem switchF_not_trace {k : Nat} (hk : k ≤ 8) : (switchF k).addr / 0x10000 ≠ TRACE_STAT / 0x10000 := by
  interval_cases k <;> decide

theorem traceSeq_switchF (hs : s.Canon) {k : Nat} (hk : k ≤ 8) (kind : Nat) (data : Word) :
    (s.traceSeq k kind data).flag (switchF k) = s.flag (switchF k) := by
  unfold State.flag State.getF
  rw [State.traceSeq_reg hs k kind data (switchF_not_trace hk)]

/-- halt with no switch pending traces, moves the PC by one, and stops the sequencer (R46). -/
theorem effHalt_eq (hs : s.Canon) {k : Nat} (hk : k ≤ 8) (hsw : s.flag (switchF k) = false) (w : BitVec 64) : effHalt s k w =
    (((s.traceSeq k 4 (BitVec.ofNat 32 (s.seq k).pc.toNat)).setSeq k { s.seq k with pc := (s.seq k).pc + 1 }).setFlag (runF k) false).setFlag
      (haltedF k) true := by
  unfold effHalt doHalt
  simp only [hsw, traceSeq_switchF hs hk, Bool.false_eq_true, if_false]

theorem doWait_consume {k : Nat} {w : BitVec 64} (he : (s.seq k).ev.getLsbD (wEV w) = true) (hc : w.getLsbD 40 = false) :
    doWait s k w = s.goNext k { s.seq k with ev := (s.seq k).ev &&& ~~~ BitVec.ofNat 32 (2 ^ wEV w), z := false } :=
  if_pos (by rw [he, hc]; rfl)

theorem doWait_seqs {k : Nat} {w : BitVec 64} (h : (s.seq k).ev.getLsbD (wEV w) = false ∨ w.getLsbD 40 = true) : (doWait s k w).seqs =
    (s.setSeq k { s.seq k with ev := (s.seq k).ev &&& ~~~ BitVec.ofNat 32 (2 ^ wEV w), waiting := some (wEV w, w24 w) }).seqs := by
  have hno : ¬ ((s.seq k).ev.getLsbD (wEV w) && !w.getLsbD 40) = true := by
    obtain h | h := h <;> simp [h]
  unfold doWait
  extract_lets q e bit t
  rw [if_neg hno]
  split <;> rfl

theorem doRet_eq {k : Nat} {a : BitVec 16} {rest : List (BitVec 16)} (h : (s.seq k).stack = a :: rest) (w : BitVec 64) :
    doRet s k w = s.jumpTo k { s.seq k with stack := rest } a.toNat := by
  unfold doRet
  simp only [h]

theorem doLoop_eq (k : Nat) (w : BitVec 64) : doLoop s k w = s.goTo k ((s.seq k).setLc (wLC w) (BitVec.ofNat 24 (op24 (s.seq k) w)))
    (if op24 (s.seq k) w = 0 then fld w 47 32 + 1 else (s.seq k).pc.toNat + 1) := by
  unfold doLoop
  extract_lets q n q'
  split <;> rfl

theorem doEndl_zero {k : Nat} {w : BitVec 64} (h : (s.seq k).lcv (wLC w) = 0) : doEndl s k w = s.goNext k (s.seq k) := if_pos h

theorem doEndl_last {k : Nat} {w : BitVec 64} (h : (s.seq k).lcv (wLC w) = 1) :
    doEndl s k w = s.goNext k ((s.seq k).setLc (wLC w) 0) := by
  unfold doEndl
  simp [h]

theorem doEndl_more {k : Nat} {w : BitVec 64} (h : 1 < ((s.seq k).lcv (wLC w)).toNat) :
    doEndl s k w = s.jumpTo k ((s.seq k).setLc (wLC w) ((s.seq k).lcv (wLC w) - 1)) (wTarget w) := by
  have h0 : (s.seq k).lcv (wLC w) ≠ 0 := by bv_omega
  have h1 : (s.seq k).lcv (wLC w) - 1 ≠ 0 := by bv_omega
  unfold doEndl
  simp only [h0, h1, if_false]

/-- Settles O13: the jumps by their effects, PC_RANGE by the next PC of each. -/
theorem jumpsAndTheirRange : Obligations.JumpsAndTheirRange := by
  refine ⟨?effects, fun k id q v b => ⟨fun hr => ?_, fun hr => ?_, fun hr => ?_⟩⟩
  case effects =>
    rintro s i k q rfl rfl
    exact ⟨fun h => State.next_issue_atTurn h doJmp, fun h => State.next_issue_atTurn h doJz, fun h => State.next_issue_atTurn h doJnz⟩
  · exact faultOf_of_jump (.inl rfl) hr nextPc_jmp
  · exact faultOf_of_jump (.inr (.inl rfl)) hr nextPc_jz
  · exact faultOf_of_jump (.inr (.inr rfl)) hr nextPc_jnz

/-- Settles O14: the two effects, the two stack causes, and the stack that a jump and a fault keep. -/
theorem callAndReturn : Obligations.CallAndReturn := by
  refine ⟨?effects, fun k id q v b => ⟨faultOf_call_full, faultOf_ret_empty⟩, fun s k pc q hs => ?jump, fun s i c hs hready hc => ?fault⟩
  case effects =>
    rintro s i k q rfl rfl
    exact ⟨fun h => State.next_issue_atTurn h doCall, fun a rest hstack h =>
      (State.next_issue_atTurn h doRet).trans (congrArg Host.Outcome.next (doRet_eq hstack _))⟩
  case jump =>
    rw [State.seq_jumpTo_same hs]
    exact ⟨rfl, rfl, rfl, rfl, rfl⟩
  case fault => exact ⟨_, congrArg Host.Outcome.next (State.issue_fault hready hc doCall), State.seqFault_stack hs _ c _⟩

/-- Settles O15: loop by its count, endl by the counter that it finds. -/
theorem loopAndEndl : Obligations.LoopAndEndl := by
  rintro s i k q w rfl rfl
  refine ⟨?loop, ?endl⟩
  case loop =>
    rintro rfl h
    exact (State.next_issue_atTurn h doLoop).trans (congrArg Host.Outcome.next (doLoop_eq _ _))
  case endl =>
    rintro rfl h
    have hnext := State.next_issue_atTurn h doEndl
    exact ⟨fun h0 => hnext.trans (congrArg Host.Outcome.next (doEndl_zero h0)),
      fun h1 => hnext.trans (congrArg Host.Outcome.next (doEndl_last h1)),
      fun hm => hnext.trans (congrArg Host.Outcome.next (doEndl_more hm))⟩

/-- Settles O16: nop and sig by their effects, halt by the bits of its status register, wait by its two branches. -/
theorem nopSigHaltWait : Obligations.NopSigHaltWait := by
  rintro s i k q w rfl rfl
  refine ⟨fun h => State.next_issue_atTurn h doNop, ?sig, ?halt, ?consume, ?waits⟩
  case sig =>
    rintro rfl h
    exact ⟨State.next_issue_atTurn h doSig, wEV_of_sig h.2, wEV_le _⟩
  case halt =>
    intro h hs hsw
    have hnext := (State.next_issue_atTurn h effHalt).trans (congrArg Host.Outcome.next (effHalt_eq hs (seqIdx_le i.q) hsw _))
    refine ⟨_, hnext, ?_⟩
    have ht := State.traceSeq_canon hs (seqIdx i.q) 4 (BitVec.ofNat 32 (s.seq (seqIdx i.q)).pc.toNat)
    have hq := State.setSeq_canon ht (seqIdx i.q) { s.seq (seqIdx i.q) with pc := (s.seq (seqIdx i.q)).pc + 1 }
    have hr := State.setFlag_canon hq (runF (seqIdx i.q)) false
    have hrun := runF_one_bit (seqIdx i.q)
    have hhalted := haltedF_one_bit (seqIdx i.q)
    have hboth := runF_haltedF (seqIdx i.q)
    rw [State.setFlag_seq, State.setFlag_seq, State.seq_setSeq_same ht, State.flag_setFlag_same hr hhalted.1 hhalted.2,
      State.flag_setFlag_disjoint hr hboth.1 (.inl hboth.2) hhalted.2, State.flag_setFlag_same hq hrun.1 hrun.2]
    exact ⟨rfl, rfl, rfl, rfl⟩
  case consume =>
    rintro rfl h he hc
    exact (State.next_issue_atTurn h doWait).trans (congrArg Host.Outcome.next (doWait_consume he hc))
  case waits =>
    rintro rfl h hw hs
    refine ⟨_, State.next_issue_atTurn h doWait, ?_⟩
    unfold State.seq
    rw [doWait_seqs hw]
    exact ⟨State.seq_setSeq_same hs _ _, fun j hj => State.seq_setSeq_other hs hj _⟩

/-- Settles O18: the causes by the branches of faultOf, and ld and st by the cause that they meet. -/
theorem faultOrder : Obligations.FaultOrder := by
  refine ⟨fun k id q v w => ⟨rfl, fun hu => ?_, fun hd hf => ?_, fun hd hf hr => ?_, fun hd hf hr hv => ?_⟩,
    fun s i hs hready hue => ⟨fun hr hm => ?_, fun hr hm => ?_, fun c w => State.seqFault_dmem hs _ c w⟩⟩
  · simp [faultOf, hu]
  · simp [faultOf, hd, hf]
  · simp [faultOf, hd, hf, hr]
  · simp [faultOf, hd, hf, hr, hv]
  · exact congrArg Host.Outcome.next (State.issue_fault hready (hue ▸ faultOf_dmemRange (.inl rfl) hr hm) doLd)
  · exact congrArg Host.Outcome.next (State.issue_fault hready (hue ▸ faultOf_dmemRange (.inr rfl) hr hm) doSt)

end

end Sys2Proof.Machine
end

section
/-! PROOFS. Program start, vectors, pin inputs and sequencer control (O25, O28, O29, O30). -/

namespace Sys2Proof.Machine

section
variable {s : State}

/-! ### Program start (R32) -/

theorem State.genRestart_seqs (n : Nat) : (s.genRestart n).seqs = s.seqs := rfl

theorem State.pinStart_seqs (n : Nat) : (s.pinStart n).seqs = s.seqs := by
  unfold State.pinStart
  extract_lets b t1 t2 t3 t4 t5 t6
  have h2 : t2.seqs = s.seqs := List.foldlRecOn (motive := fun u : State => u.seqs = s.seqs) (List.range 16) _ rfl fun u hu j _ => hu
  clear_value t2
  have h6 : t6.seqs = t2.seqs := by
    unfold t6
    split <;> rfl
  rw [State.genRestart_seqs, h6, h2]

/-- What program start leaves of a sequencer's state: its image and memories, with the data memory loaded and the PC at the entry. -/
def Seq.started (q : Seq) (i : SeqImage) : Seq :=
  { q with g := [], lc := [], z := false, n := false, c := false, stack := [], ev := 0, waiting := none,
           dmem := SMap.setList dmemFill [] 0 i.dmem, pc := BitVec.ofNat 16 i.hdr.entry }

theorem State.progStart_seqs {k : Nat} {i : SeqImage} (hi : (s.seq k).image = some i) :
    (s.progStart k).seqs = (s.setSeq k ((s.seq k).started i)).seqs := by
  unfold State.progStart Seq.started
  simp only [hi]
  split
  · rfl
  · rw [State.pinStart_seqs]
    rfl

theorem State.seq_progStart (hs : s.Canon) {k : Nat} {i : SeqImage} (hi : (s.seq k).image = some i) :
    (s.progStart k).seq k = (s.seq k).started i := by
  unfold State.seq
  rw [State.progStart_seqs hi]
  exact State.seq_setSeq_same hs k _

/-- A loaded section reads its words, and the fill beyond them. -/
theorem SMap.get_setList_nil {α : Type} [DecidableEq α] {d : Nat → α} (vs : List α) (a : Nat) :
    SMap.get d (SMap.setList d [] 0 vs) a = if a < vs.length then (vs[a]?).getD (d a) else d a := by
  split
  · next h =>
    rw [List.getElem?_eq_getElem h, Option.getD_some]
    simpa using SMap.get_setList_inside (d := d) (m := []) (k := 0) rfl h
  · next h => rw [SMap.get_setList_outside rfl (.inr (by omega))]; rfl

/-- Settles O25: a started sequencer has empty register files and the image's data section. -/
theorem programStartState : Obligations.ProgramStartState := by
  rintro s k i q hs - hi rfl
  rw [State.seq_progStart hs hi]
  exact ⟨fun r => ite_self _, fun _ => rfl, rfl, rfl, rfl, rfl, rfl, rfl, hi, SMap.get_setList_nil i.dmem⟩

/-! ### Vectors (R58, R59, R64, R204) -/

theorem State.vecInstr_zero {k : Nat} {w : BitVec 64} (h : op24 (s.seq k) w = 0) (kd : VecKind) (smps : List PinSample) :
    s.vecInstr k w kd smps = s.goNext k (s.seq k) := if_pos h

/-- The vector count is 48 bits over two registers. -/
theorem State.countVector_reads (hs : s.Canon) (n : Nat) :
    (s.countVector n).getF (PSQ_VCNT_HI_V n) * 2 ^ 32 + ((s.countVector n).reg (PSQ_VCNT_LO n)).toNat =
      (s.getF (PSQ_VCNT_HI_V n) * 2 ^ 32 + (s.reg (PSQ_VCNT_LO n)).toNat + 1) % 2 ^ 48 := by
  have hne : PSQ_VCNT_LO n ≠ PSQ_VCNT_HI n := by simp only [PSQ_VCNT_LO, PSQ_VCNT_HI]; omega
  unfold State.countVector
  extract_lets v
  have hc := State.setReg_canon hs (PSQ_VCNT_LO n) (BitVec.ofNat 32 v)
  rw [State.reg_setReg_other hc hne, State.reg_setReg_same hs]
  have hhi : (((s.setReg (PSQ_VCNT_LO n) (BitVec.ofNat 32 v)).setReg (PSQ_VCNT_HI n) (BitVec.ofNat 32 (v / 2 ^ 32 % 2 ^ 16))).getF
      (PSQ_VCNT_HI_V n)) = v / 2 ^ 32 % 2 ^ 16 := by
    unfold State.getF
    rw [State.reg_setReg_same hc, BitVec.toNat_ofNat]
    show v / 2 ^ 32 % 2 ^ 16 % 2 ^ 32 / 2 ^ 0 % 2 ^ 16 = _
    omega
  have hv : v = s.getF (PSQ_VCNT_HI_V n) * 2 ^ 32 + (s.reg (PSQ_VCNT_LO n)).toNat + 1 := by
    unfold v
    omega
  rw [hhi, ← hv, BitVec.toNat_ofNat]
  omega

/-- Settles O28: the three effects are one function of the count, a vector ends by its count, and the count carries between its words. -/
theorem vectorInstructions : Obligations.VectorInstructions := by
  refine ⟨?effects, fun s n ts lit kd smp => ⟨_, _, _, _, _, rfl⟩, fun s n hs => State.countVector_reads hs n⟩
  case effects =>
    rintro s i smps k q e w rfl rfl rfl he h
    have hnext : exec e.2.1 s = .next (s.vecInstr (seqIdx i.q) (rowWord e.1 i.body) e.2.2 smps) := by
      simp only [List.mem_cons, List.not_mem_nil, or_false] at he
      obtain rfl | rfl | rfl := he
      · exact State.next_issue_atTurn h (doVec smps)
      · exact State.next_issue_atTurn h (doVstr smps)
      · exact State.next_issue_atTurn h (doVgen smps)
    rw [hnext]
    refine ⟨fun h0 => congrArg Host.Outcome.next (State.vecInstr_zero h0 _ _), fun h0 t u v r ht hu hr hv => ?_⟩
    subst ht hu hr hv
    exact congrArg Host.Outcome.next (if_neg h0)

end

end Sys2Proof.Machine
end

section
/-! PROOFS. Pin inputs and sequencer control (O29, O30). -/

namespace Sys2Proof.Machine

section
variable {s : State}

/-! ### The role of the part under reports and halts -/

theorem State.sessOut_regs (spi : Bool) (o : Out) : (s.sessOut spi o).regs = s.regs := by
  unfold State.sessOut
  split <;> rfl

theorem State.keyAfter_regs (x : Session) : (s.keyAfter x).regs = s.regs := by
  unfold State.keyAfter
  split
  · exact State.sessOut_regs _ _
  · rfl

/-- Of the registers an event to the sessions writes only the count of dropped events (R517). -/
theorem State.eventAt_reg (hs : s.Canon) {a : Nat} (ha : a ≠ SYS_N_EVENTS_DROPPED) (code port pos : Nat) (detail : List Byte)
    (r : Recips) : (s.eventAt code port pos detail r).reg a = s.reg a := by
  refine (List.foldlRecOn (motive := fun u : State => SMap.wf regReset u.regs = true ∧ u.reg a = s.reg a) s.sessions _ ⟨hs.regs, rfl⟩
    fun t ⟨hw, ht⟩ x _ => ?_).2
  split
  · extract_lets p u v
    have hu : u.regs = t.regs := State.sessOut_regs _ _
    have hv : SMap.wf regReset v.regs = true ∧ v.reg a = t.reg a := by
      unfold v
      split
      · exact ⟨SMap.wf_set (hu ▸ hw), (SMap.get_set_other (hu ▸ hw) ha).trans (congrArg (SMap.get regReset · a) hu)⟩
      · exact ⟨hu ▸ hw, congrArg (SMap.get regReset · a) hu⟩
    unfold State.reg
    rw [State.keyAfter_regs]
    exact ⟨hv.1, hv.2.trans ht⟩
  · exact ⟨hw, ht⟩

theorem State.eventAt_tile (hs : s.Canon) (code port pos : Nat) (detail : List Byte) (r : Recips) :
    (s.eventAt code port pos detail r).tile = s.tile := by
  unfold State.tile State.flag State.getF
  rw [State.eventAt_reg hs (by decide)]

theorem State.event_tile_of_sender (hs : s.Canon) (h : s.tile = false) (code : Nat) (detail : List Byte) (r : Recips) :
    (s.event code detail r).tile = false := by
  unfold State.event
  rw [h]
  exact (State.eventAt_tile hs _ _ _ _ _).trans h

theorem State.setFlag_tile (hs : s.Canon) {f : Field} (h : EMB_STRAPS ≠ f.addr) (b : Bool) : (s.setFlag f b).tile = s.tile :=
  State.flag_setFlag_other hs h b

theorem State.setBank_canon (hs : s.Canon) (n : Nat) (b : Bank) : (s.setBank n b).Canon := { hs with banks := SMap.wf_set hs.banks }

theorem State.psqHaltSafe_canon (hs : s.Canon) (n : Nat) : (s.psqHaltSafe n).Canon := (psqHaltSafe_held (Held.ofCanon hs)).canon

theorem psqStat_ne_straps (n : Nat) : EMB_STRAPS ≠ PSQ_STAT n := by simp only [EMB_STRAPS, PSQ_STAT]; omega

theorem pinBstat_ne_straps (n : Nat) : EMB_STRAPS ≠ PIN_BSTAT n := by simp only [EMB_STRAPS, PIN_BSTAT]; omega

theorem State.bankSafe_tile (hs : s.Canon) (n : Nat) : (s.bankSafe n).tile = s.tile := by
  unfold State.bankSafe
  extract_lets b t
  have ht : t.Canon := State.setBank_canon hs n _
  rw [State.setFlag_tile (State.setFlag_canon ht _ _) (pinBstat_ne_straps n), State.setFlag_tile ht (psqStat_ne_straps n)]
  rfl

theorem State.psqHaltSafe_tile (hs : s.Canon) (n : Nat) : (s.psqHaltSafe n).tile = s.tile := by
  unfold State.psqHaltSafe
  extract_lets q t
  have ht : t.Canon := State.setSeq_canon hs n _
  rw [State.bankSafe_tile (State.setFlag_canon ht _ _), State.setFlag_tile ht (psqStat_ne_straps n)]
  rfl

/-! ### The bank supply (R207) -/

theorem State.vddpRead_eq (hs : s.Canon) (n mv : Nat) : s.vddpRead n mv = (s.setF (PIN_BSTAT_VDDP_MV n) mv).setBank n
    { s.bank n with vddpBad := !vddpIn (s.getF (PIN_BCFG_VSEL n)) mv } := by
  have hne : (PIN_BCFG_VSEL n).addr ≠ (PIN_BSTAT_VDDP_MV n).addr := by
    show 0xc0800 + 0x10 * n ≠ 0xc0804 + 0x10 * n
    omega
  unfold State.vddpRead
  extract_lets t
  have hsel : t.getF (PIN_BCFG_VSEL n) = s.getF (PIN_BCFG_VSEL n) := State.getF_setF_other hs hne mv
  rw [hsel]
  rfl

theorem State.vddpRead_canon (hs : s.Canon) (n mv : Nat) : (s.vddpRead n mv).Canon := (vddpRead_held (Held.ofCanon hs)).canon

theorem State.vddpRead_run (hs : s.Canon) {n : Nat} (hn : n < 8) (mv : Nat) :
    (s.vddpRead n mv).flag (PSQ_STAT_RUN n) = s.flag (PSQ_STAT_RUN n) := by
  have hne : (PSQ_STAT_RUN n).addr ≠ (PIN_BSTAT_VDDP_MV n).addr := by
    show 0xb0004 + 0x1000 * n ≠ 0xc0804 + 0x10 * n
    omega
  exact congrArg (· != 0) (State.getF_setF_other hs hne mv)

theorem State.vddpRead_bad (hs : s.Canon) (n mv : Nat) :
    ((s.vddpRead n mv).bank n).vddpBad = !vddpIn (s.getF (PIN_BCFG_VSEL n)) mv := by
  rw [State.vddpRead_eq hs]
  exact congrArg Bank.vddpBad (State.bank_setBank_same (State.setF_canon hs _ _) n _)

theorem State.vddpRead_tile (hs : s.Canon) (n mv : Nat) : (s.vddpRead n mv).tile = s.tile :=
  congrArg (· != 0) (State.getF_setF_other hs (pinBstat_ne_straps n) mv)

/-- Of a stopped bank, or inside the window, a report of the supply records the measurement only. -/
theorem evVddpFail_kept (hs : s.Canon) {n mv : Nat} (hn : n < 8)
    (h : s.flag (PSQ_STAT_RUN n) = false ∨ vddpIn (s.getF (PIN_BCFG_VSEL n)) mv = true) : evVddpFail n mv s = s.vddpRead n mv := by
  refine if_neg ?_
  rw [State.vddpRead_run hs hn, State.vddpRead_bad hs]
  obtain h | h := h <;> simp [h]

/-- A running bank of a sender that leaves its window stops safe, and is reported (R207). -/
theorem evVddpFail_stops (hs : s.Canon) {n mv : Nat} (hn : n < 8) (htile : s.tile = false) (hrun : s.flag (PSQ_STAT_RUN n) = true)
    (hbad : vddpIn (s.getF (PIN_BCFG_VSEL n)) mv = false) : evVddpFail n mv s =
      (((((s.vddpRead n mv).psqHaltSafe n).setFlag (PSQ_STAT_VSTOP n) true).setFlag (PIN_BSTAT_VDDP_FAIL n) true).event 0x0004
        [BitVec.ofNat 8 n] .owner).testFault n 0xFF := by
  have hgo : ((s.vddpRead n mv).flag (PSQ_STAT_RUN n) && ((s.vddpRead n mv).bank n).vddpBad) = true := by
    rw [State.vddpRead_run hs hn, State.vddpRead_bad hs, hrun, hbad]
    rfl
  have hc1 := State.vddpRead_canon hs n mv
  have hc2 := State.psqHaltSafe_canon hc1 n
  have hc3 := State.setFlag_canon hc2 (PSQ_STAT_VSTOP n) true
  have hc4 := State.setFlag_canon hc3 (PIN_BSTAT_VDDP_FAIL n) true
  have ht : ((((s.vddpRead n mv).psqHaltSafe n).setFlag (PSQ_STAT_VSTOP n) true).setFlag (PIN_BSTAT_VDDP_FAIL n) true).tile = false := by
    rw [State.setFlag_tile hc3 (pinBstat_ne_straps n), State.setFlag_tile hc2 (psqStat_ne_straps n), State.psqHaltSafe_tile hc1,
      State.vddpRead_tile hs, htile]
  have hend := State.event_tile_of_sender hc4 ht 0x0004 [BitVec.ofNat 8 n] .owner
  exact (if_pos hgo).trans (if_neg (Bool.eq_false_iff.mp hend))

/-! ### Pin edges and pin configuration (R206, R208) -/

theorem evPinEdge_unselected {p : Nat} {up : Bool} (h : s.getF (PIN_PCFG1_SLOPE p) = 0 ∨ (s.getF (PIN_PCFG1_SLOPE p) = 1 ∧ up = false) ∨
    (s.getF (PIN_PCFG1_SLOPE p) = 2 ∧ up = true)) : evPinEdge p up s = s := by
  refine if_neg ?_
  obtain h | ⟨h, rfl⟩ | ⟨h, rfl⟩ := h <;> simp [h]

/-- A crossing that SLOPE selects stamps the TIM channels that name the pin, then reaches the bank's trigger input. -/
theorem evPinEdge_selected {p : Nat} {up : Bool} (h : s.getF (PIN_PCFG1_SLOPE p) = 3 ∨ (s.getF (PIN_PCFG1_SLOPE p) = 1 ∧ up = true) ∨
    (s.getF (PIN_PCFG1_SLOPE p) = 2 ∧ up = false)) {t : State}
    (ht : t = (List.range 16).foldl (fun (u : State) c => if u.getF (TIM_CFG_START c) = p ∨ u.getF (TIM_CFG_STOP c) = p then
      evTimStamp c (u.getF (TIM_CFG_START c) == p) (u.getF (TIM_CFG_STOP c) == p) u else u) s) :
    evPinEdge p up s = if s.getF (PSQ_TRIGIN_SRC (p / 32)) = p % 32 then t.raiseEv (p / 32) 6 else t := by
  subst ht
  unfold evPinEdge
  extract_lets sl t
  have hsel : sl = 3 ∨ (up ∧ sl = 1) ∨ (!up ∧ sl = 2) := by
    unfold sl
    obtain h | ⟨h, rfl⟩ | ⟨h, rfl⟩ := h <;> simp [h]
  rw [if_pos hsel]
  simp only [t, Bool.or_eq_true, beq_iff_eq]

theorem State.pinWrite_refused {a : Nat} {v : Word} (h : s.regAccepts s.bankRuns a v = false) : s.pinWrite a v = (s, true) :=
  if_pos (by rw [h]; rfl)

theorem State.pinWrite_accepted {a m : Nat} {v : Word} (h : s.regAccepts s.bankRuns a v = true)
    (hm : m = if a % 0x10000 < 0x800 then a % 0x10000 / 256 else (a % 0x10000 - 0x800) / 16) :
    s.pinWrite a v = (if m < 8 ∧ s.flag (PSQ_STAT_RUN m) = false ∧ s.flag (PSQ_STAT_SAFE m) = true then (s.plainWrite a v).bankSafe m
      else s.plainWrite a v, false) := by
  unfold State.pinWrite
  extract_lets t n
  obtain rfl : m = n := hm
  simp only [h, Bool.not_true, Bool.false_eq_true, if_false, Bool.and_eq_true, decide_eq_true_eq, Bool.not_eq_true', and_assoc]
  exact (apply_ite (·, false) _ _ _).symm

/-- Settles O29, input by input. -/
theorem pinInputs : Obligations.PinInputs := by
  intro s n
  refine ⟨fun h => congrArg Host.Outcome.next (if_pos h), fun h => congrArg Host.Outcome.next (if_neg h),
    fun h => congrArg Host.Outcome.next (if_pos h), fun h => congrArg Host.Outcome.next (if_neg h), fun v => rfl, rfl,
    fun p up h => congrArg Host.Outcome.next (evPinEdge_unselected h), fun p up t h ht => congrArg Host.Outcome.next (evPinEdge_selected h ht),
    fun o v a ha => ?config, fun mv hs h hn => ?kept, fun mv hs htile hn hrun hbad => ?stops⟩
  case config =>
    subst ha
    refine ⟨fun hno => ?_, fun hok m hm => ?_⟩
    · exact congrArg (fun r : State × Bool => Host.Outcome.next (r.1.emit (.bus r.2 0))) (State.pinWrite_refused hno)
    · exact congrArg (fun r : State × Bool => Host.Outcome.next (r.1.emit (.bus r.2 0))) (State.pinWrite_accepted hok hm)
  case kept =>
    rw [← State.vddpRead_eq hs]
    exact congrArg Host.Outcome.next (evVddpFail_kept hs hn h)
  case stops => exact congrArg Host.Outcome.next (evVddpFail_stops hs hn htile hrun hbad)

/-! ### Software events (R36) -/

theorem SMap.erase_of_default {α : Type} [DecidableEq α] {d : Nat → α} {k : Nat} {m : SMap α} {lo : Option Nat}
    (hw : SMap.wfFrom d lo m = true) (h : SMap.get d m k = d k) : SMap.erase k m = m := by
  induction m generalizing lo with
  | nil => rfl
  | cons e m ih =>
    obtain ⟨j, w⟩ := e
    simp only [SMap.wfFrom, Bool.and_eq_true, decide_eq_true_eq] at hw
    obtain ⟨⟨-, hne⟩, htail⟩ := hw
    unfold SMap.erase
    unfold SMap.get at h
    split
    · rfl
    · next hlt =>
      split
      · next heq =>
        subst heq
        exact absurd (by simpa using h) hne
      · next hne' => rw [ih htail (by simpa [hlt, hne'] using h)]

theorem SMap.insert_get {α : Type} {d : Nat → α} {k : Nat} {m : SMap α} (h : SMap.get d m k ≠ d k) :
    SMap.insert k (SMap.get d m k) m = m := by
  induction m with
  | nil => exact absurd rfl h
  | cons e m ih =>
    obtain ⟨j, w⟩ := e
    by_cases heq : k = j
    · subst heq
      simp [SMap.get, SMap.insert]
    · by_cases hlt : k < j
      · simp [SMap.get, heq, hlt] at h
      · simp only [SMap.get, heq, hlt, if_false] at h
        simp [SMap.get, SMap.insert, heq, hlt, ih h]

/-- Writing what a key reads as changes nothing. -/
theorem SMap.set_get {α : Type} [DecidableEq α] {d : Nat → α} {m : SMap α} (hw : SMap.wf d m = true) (k : Nat) :
    SMap.set d m k (SMap.get d m k) = m := by
  unfold SMap.set
  split
  · next h => exact SMap.erase_of_default hw h
  · next h => exact SMap.insert_get h

theorem State.setReg_reg (hs : s.Canon) (a : Nat) : s.setReg a (s.reg a) = s := by
  unfold State.setReg State.reg
  rw [SMap.set_get hs.regs]

theorem ofNat_and_ff (n : Nat) : BitVec.ofNat 32 n &&& 0xFF#32 = BitVec.ofNat 32 (n % 256) := by
  refine BitVec.eq_of_toNat_eq ?_
  rw [BitVec.toNat_and, show (0xFF#32).toNat = 2 ^ 8 - 1 from rfl, Nat.and_two_pow_sub_one_eq_mod, BitVec.toNat_ofNat, BitVec.toNat_ofNat]
  omega

theorem fieldIn_raise (n : Nat) : fieldIn (BitVec.ofNat 32 n) PSQ_SWEV_RAISE = n / 256 % 256 := by
  show (BitVec.ofNat 32 n).toNat / 2 ^ 8 % 2 ^ 8 = _
  rw [BitVec.toNat_ofNat]
  omega

/-- A write with no bit in PEND clears nothing, and raises what RAISE names. -/
theorem State.swevWrite_raise (hs : s.Canon) {m : Nat} (hm : m < 256) :
    s.swevWrite (BitVec.ofNat 32 (m % 256 * 256)) = s.raiseSwMask m := by
  have hraise : m % 256 * 256 / 256 % 256 = m := by omega
  have hkeep : s.reg PSQ_SWEV &&& ~~~(BitVec.ofNat 32 0) = s.reg PSQ_SWEV := BitVec.and_allOnes
  unfold State.swevWrite
  rw [ofNat_and_ff, Nat.mul_mod_left, fieldIn_raise, hraise, hkeep, State.setReg_reg hs]

/-- A write with no bit in RAISE clears the Stoker's bits that PEND names, and raises nothing. -/
theorem State.swevWrite_clear {m : Nat} (hm : m < 256) : s.swevWrite (BitVec.ofNat 32 (m % 256)) =
    s.setReg PSQ_SWEV (s.reg PSQ_SWEV &&& ~~~ BitVec.ofNat 32 m) := by
  have hraise : m / 256 % 256 = 0 := by omega
  unfold State.swevWrite
  rw [ofNat_and_ff, Nat.mod_mod, Nat.mod_eq_of_lt hm, fieldIn_raise, hraise]
  rfl

/-! ### Starts and data memory (R36, R51, R207) -/

theorem State.psqStart_busy {n : Nat} (h : s.boundary = true ∨ (n = 0 ∧ s.sender = true ∧ s.flag CAM_CFG_EN = true)) (mv : Nat) :
    s.psqStart n mv = (s.vddpRead n mv, 0x0107) := by
  refine if_pos ?_
  obtain h | ⟨rfl, hs, hc⟩ := h
  · rw [h]
    rfl
  · simp [hs, hc]

/-- A bank that neither the boundary scan nor the camera uses starts by its supply and its image. -/
theorem State.psqStart_free {n : Nat} (hb : s.boundary = false) (hc : n ≠ 0 ∨ s.sender = false ∨ s.flag CAM_CFG_EN = false) (mv : Nat) :
    s.psqStart n mv = if ((s.vddpRead n mv).bank n).vddpBad then ((s.vddpRead n mv).setFlag (PIN_BSTAT_VDDP_FAIL n) true, 0x0108)
      else if ((s.vddpRead n mv).seq n).image.isNone then (s.vddpRead n mv, 0) else ((s.vddpRead n mv).progStart n, 0) := by
  refine if_neg ?_
  rw [hb]
  obtain h | h | h := hc <;> simp [h]

theorem State.setDmem_word (k a : Nat) (v : Word) : s.setDmem k (a / 4 * 4) v = s.setDmem k a v := by
  unfold State.setDmem
  rw [Nat.mul_div_cancel _ (by decide)]

theorem State.dmem_word (k a : Nat) : s.dmem k (a / 4 * 4) = s.dmem k a := by
  unfold State.dmem
  rw [Nat.mul_div_cancel _ (by decide)]

/-! ### The end of an image switch (R76) -/

theorem State.testStaged_of_no_run (h : s.test.run = none) : s.testStaged = s := by
  unfold State.testStaged
  rw [h]

/-- A bank gives up its staged image. -/
def State.unstage (s : State) (n : Nat) : State := (s.setSeq n { s.seq n with staged := none }).setFlag (switchF n) false

theorem State.unstage_canon (hs : s.Canon) (n : Nat) : (s.unstage n).Canon := State.setFlag_canon (State.setSeq_canon hs n _) _ _

theorem State.seq_unstage (hs : s.Canon) (n j : Nat) :
    (s.unstage n).seq j = if j = n then { s.seq j with staged := none } else s.seq j := by
  show (s.setSeq n _).seq j = _
  split
  · next h => rw [h, State.seq_setSeq_same hs]
  · next h => exact State.seq_setSeq_other hs h _

/-- The first n sequencers give up their staged images, and keep the rest of their states. -/
theorem State.foldl_unstage (hs : s.Canon) (n : Nat) : ((List.range n).foldl State.unstage s).Canon ∧
    ∀ j, ((List.range n).foldl State.unstage s).seq j = if j < n then { s.seq j with staged := none } else s.seq j := by
  induction n with
  | zero => exact ⟨hs, fun j => rfl⟩
  | succ n ih =>
    obtain ⟨hc, hseq⟩ := ih
    rw [List.range_succ, List.foldl_append]
    refine ⟨State.unstage_canon hc n, fun j => ?_⟩
    show (State.unstage _ n).seq j = _
    rw [State.seq_unstage hc, hseq]
    obtain h | rfl | h := Nat.lt_trichotomy j n
    · rw [if_neg (Nat.ne_of_lt h), if_pos h, if_pos (by omega)]
    · rw [if_pos rfl, if_neg (Nat.lt_irrefl j), if_pos (Nat.lt_succ_self j)]
    · rw [if_neg (Nat.ne_of_gt h), if_neg (by omega), if_neg (by omega)]

theorem State.dsetCancel_eq : s.dsetCancel = (List.range 8).foldl State.unstage s := rfl

/-- A tile's staging stays due only if it is one of calibration (kind 1). -/
def State.undueSet (s : State) : State := { s with tstage := s.tstage.map fun g => { g with due := g.due && g.kind == 1 } }

theorem State.undueSet_canon (hs : s.Canon) : s.undueSet.Canon := { hs with }

theorem State.undueSet_seq (j : Nat) : s.undueSet.seq j = s.seq j := rfl

theorem State.unstage_undueSet_test (n : Nat) : (s.undueSet.unstage n).test = s.test := rfl

/-- Every staged image is given up. -/
def State.giveUpStaged (s : State) : State := s.dsetCancel.undueSet.unstage 8

theorem State.seq_giveUpStaged (hs : s.Canon) {j : Nat} (hj : j ≤ 8) : s.giveUpStaged.seq j = { s.seq j with staged := none } := by
  obtain ⟨hc, hseq⟩ := State.foldl_unstage hs 8
  rw [← State.dsetCancel_eq] at hc hseq
  unfold State.giveUpStaged
  rw [State.seq_unstage (State.undueSet_canon hc), State.undueSet_seq, hseq]
  split
  · split <;> rfl
  · rw [if_pos (by omega)]

theorem State.dsetCancel_test : s.dsetCancel.test = s.test :=
  List.foldlRecOn (motive := fun u : State => u.test = s.test) (List.range 8) _ rfl fun _ hu _ _ => hu

theorem State.giveUpStaged_test : s.giveUpStaged.test = s.test :=
  (State.unstage_undueSet_test 8).trans State.dsetCancel_test

theorem evSwitchTimeout_none (h : ∀ k, k < 9 → s.flag (switchF k) = false) : evSwitchTimeout s = s := by
  refine if_pos ?_
  simpa using h

/-- With a switch pending in a PSQ and none in the FSQ, the staged images are given up and the owner is told. -/
theorem evSwitchTimeout_psq {k : Nat} (hk : k < 8) (hp : s.flag (switchF k) = true) (h8 : s.flag (switchF 8) = false) :
    evSwitchTimeout s = s.giveUpStaged.event 0x000F [] .owner := by
  have hlate : ¬ (!(List.range 9).any fun k => s.flag (switchF k)) = true := by
    simp only [Bool.not_eq_true', Bool.not_eq_false, List.any_eq_true, List.mem_range]
    exact ⟨k, by omega, hp⟩
  unfold evSwitchTimeout
  extract_lets late t u _ v _ w x y
  have hno : ¬ s.flag (switchF 8) = true := Bool.eq_false_iff.mp h8
  have hw : w = v := if_neg hno
  have hx : x = w := if_neg hno
  have hy : y = s.giveUpStaged.event 0x000F [] .owner := by
    unfold y
    rw [hx, hw]
    rfl
  rw [if_neg hlate]
  split
  · rw [h8, Bool.false_and, if_neg Bool.false_ne_true, hy]
  · exact hy

/-- Settles O30, command by command. -/
theorem sequencerControl : Obligations.SequencerControl := by
  intro s n
  refine ⟨fun ht ha => ?fsq, fun ht ha => ?fsqRefused, fun ht => congrArg Host.Outcome.next (if_pos ht), ?psq, fun mv h => ?busy,
    fun h => ?_, fun h => ?_, fun m hs hm => ?_, fun m hm => ?_, ?dmem, fun h hrun => ?noSwitch, fun k hk hp h8 hrun hs => ?switch⟩
  case fsq =>
    have hstart : s.fsqStart = (s.fsqRun, 0) := if_pos ha
    exact congrArg Host.Outcome.next ((if_neg (Bool.eq_false_iff.mp ht)).trans (by rw [hstart]; rfl))
  case fsqRefused =>
    have hstart : s.fsqStart = (s, 0x0004) := if_neg (Bool.eq_false_iff.mp ha)
    exact congrArg Host.Outcome.next ((if_neg (Bool.eq_false_iff.mp ht)).trans (by rw [hstart]; rfl))
  case psq =>
    rintro mv t rfl hb hc
    have hstart := State.psqStart_free hb hc mv
    refine ⟨fun hbad => ?_, fun hok himg => ?_⟩
    · rw [if_pos hbad] at hstart
      exact congrArg (fun r : State × Nat => Host.Outcome.next (r.1.emit (.bus (r.2 != 0) 0))) hstart
    · rw [if_neg (Bool.eq_false_iff.mp hok), if_neg (by simpa using himg)] at hstart
      exact congrArg (fun r : State × Nat => Host.Outcome.next (r.1.emit (.bus (r.2 != 0) 0))) hstart
  case busy =>
    exact congrArg (fun r : State × Nat => Host.Outcome.next (r.1.emit (.bus (r.2 != 0) 0))) (State.psqStart_busy h mv)
  · exact congrArg (fun t => Host.Outcome.next (State.emit t (.bus false 0))) (if_pos h)
  · exact congrArg (fun t => Host.Outcome.next (State.emit t (.bus false 0))) (if_neg (Bool.eq_false_iff.mp h))
  · exact congrArg (fun t => Host.Outcome.next (State.emit t (.bus false 0))) (State.swevWrite_raise hs hm)
  · exact congrArg (fun t => Host.Outcome.next (State.emit t (.bus false 0))) (State.swevWrite_clear hm)
  case dmem =>
    rintro a rfl
    refine ⟨?_, fun v => ?_⟩
    · exact congrArg (fun w : Word => Host.Outcome.next (State.emit (s.ddataNext n) (.bus false w.toNat))) (State.dmem_word n _)
    · exact congrArg (fun t => Host.Outcome.next (State.emit (State.ddataNext t n) (.bus false 0))) (State.setDmem_word n _ v)
  case noSwitch =>
    have hend : (evSwitchTimeout s).testStaged = s := by rw [evSwitchTimeout_none h, State.testStaged_of_no_run hrun]
    exact congrArg Host.Outcome.next hend
  case switch =>
    have hrun' : (s.giveUpStaged.event 0x000F [] .owner).test.run = none := by
      rw [(State.event_reportOnly _ _ _).test, State.giveUpStaged_test, hrun]
    have hend : (evSwitchTimeout s).testStaged = s.giveUpStaged.event 0x000F [] .owner := by
      rw [evSwitchTimeout_psq hk hp h8, State.testStaged_of_no_run hrun']
    refine ⟨s.giveUpStaged, congrArg Host.Outcome.next hend, fun j hj => ?_, fun j hj => ?_⟩
    · rw [State.seq_giveUpStaged hs hj]
    · rw [State.seq_giveUpStaged hs hj]
      exact ⟨rfl, rfl⟩

end

end Sys2Proof.Machine
end

section
/-! PROOFS. The traffic of a cord: UP packets, cut-through, credits, probes, and control requests sent again (O50). -/

namespace Sys2Proof.Machine

section
variable {s t u : State} {r : CordRx} {b : CordBody}

/-- A row that ends with the turn of the waiting requests: its meaning decides its next state. -/
theorem next_settle_congr (h : t = u) : (Host.Outcome.next t.settle : Host.Outcome State Fault Refusal) = .next u.settle :=
  congrArg (fun v => Host.Outcome.next (State.settle v)) h

/-! ### UP packets at a sender (R139, R161) -/

theorem State.senderUp_badHeader (htile : s.tile = false) (ht : t = s.freeBlocks r.port (bodyCls b) (pktBlocks { hdr := r.hdr, body := b }))
    (h : r.htag = false) : s.senderUp r b = (t.count (CORD_N_HTAGERR r.port) 1, false) := by
  subst ht
  simp [State.senderUp, htile, h]

/-- What a sender does with an UP packet whose header verifies, from the state in which its blocks are freed and its claim is seen. -/
theorem State.senderUp_goodHeader (htile : s.tile = false)
    (hu : u = (s.freeBlocks r.port (bodyCls b) (pktBlocks { hdr := r.hdr, body := b })).sawClaim r.hdr.claim) (h : r.htag = true) :
    s.senderUp r b =
      if r.abort then (u.count (CORD_N_ABORTRX r.port) 1, false)
      else if !r.tag then (u.count (CORD_N_TAGERR r.port) 1, false)
      else if !u.active then
        (if u.flag (CORD_PCFG_RELAY r.port) && !u.flag (CORD_PCFG_RING r.port)
          then u.ringSend u.partnerPos (.relay r.port 1 { hdr := r.hdr, body := b }) else u, false)
      else if r.hdr.claim.toNat < u.claim.toNat then (u.count (CORD_N_STALE r.port) 1, false)
      else (u, true) := by
  subst hu
  simp only [State.senderUp, htile, h, Bool.false_eq_true, Bool.not_true, if_false]

/-! ### Cut-through at a tile (R138 to R141) -/

/-- Where a packet of a defined type goes whose header the tile has taken. -/
theorem evCutThroughForward_taken (htile : s.tile = true) (hx : s.tileHdr { r with tag := true, abort := false } true = (t, true))
    (hb : ∀ x y, b ≠ .undefinedType x y) : evCutThroughForward r b s =
      if r.hdr.dest = 0xFE ∨ (!r.hdr.up && t.forMe r) then t.freeBlocks r.port (bodyCls b) (pktBlocks { hdr := r.hdr, body := b })
      else if r.abort then State.freeBlocks ((t.count (CORD_N_ABORTRX r.port) 1).emit (.cordAbort (1 - r.port))) r.port (bodyCls b)
        (pktBlocks { hdr := r.hdr, body := b })
      else if !r.tag then State.freeBlocks ((t.count (CORD_N_TAGERR r.port) 1).emit (.cordAbort (1 - r.port))) r.port (bodyCls b)
        (pktBlocks { hdr := r.hdr, body := b })
      else t.sendFrom (some r.port) (1 - r.port) { hdr := r.hdr, body := b } := by
  cases b
  case undefinedType x y => exact absurd rfl (hb x y)
  all_goals simp only [evCutThroughForward, htile, hx, Bool.not_true, Bool.false_eq_true, if_false]

/-! ### Credits and probes (R141, R152) -/

theorem evStarve_starved {p c : Nat} (hq : SMap.get (fun _ => []) s.cord.txq (p * 2 + c % 2) ≠ []) (hc : s.credits p (c % 2) = 0)
    (hp : isRing p = false) : evStarve p c s = (s.count (CORD_N_STARVE p) 1).setFlag (CORD_PSTAT_STARVE p) true :=
  if_neg (by simp [hq, hc, hp])

theorem evStarve_idle {p c : Nat} (h : SMap.get (fun _ => []) s.cord.txq (p * 2 + c % 2) = [] ∨ s.credits p (c % 2) ≠ 0) :
    evStarve p c s = s := if_pos (by obtain h | h := h <;> simp [h])

theorem evProbeTimer_sender (h : s.tile = false) : evProbeTimer s = (s.probe 8).probe 9 := by
  simp [evProbeTimer, h]

theorem evProbeTimer_tile (h : s.tile = true) :
    evProbeTimer s = ((if s.awake s.timePort then s.probe s.timePort else s).probe 8).probe 9 := by
  simp [evProbeTimer, h]

/-! ### Time transfer (R152, R153) -/

/-- The exchange of a port with a number is closed. -/
def State.closeExch (s : State) (p i : Nat) : State :=
  { s with tl := { s.tl with exch := s.tl.exch.filter fun y => !(y.port == p && y.id == i) } }

/-- One more exchange among the last CORD_PROBE_N. -/
def State.addStat (s : State) (x : Int × Int) : State :=
  { s with tl := { s.tl with stats := (x :: s.tl.stats).take (s.getF CORD_PROBE_N) } }

/-- The mean hop delay of the exchanges kept, as CORD_HOP gives it. -/
def State.putLatency (s : State) (p : Nat) : State :=
  s.setF (CORD_HOP_LAT 0 p) (roundDiv (s.tl.stats.foldl (fun a y => a + y.1) 0) (2 * s.tl.stats.length)).toNat

section
variable {i a b' c d : Nat}

/-- A TIME_RSP of no open exchange, verified on a linked ring port, changes nothing. -/
theorem evTimeRspRx_ring_unasked (hl : s.linkUp r.port = true) (hh : r.htag = true) (ht : r.tag = true) (ha : r.abort = false)
    (hr : isRing r.port = true) (hnone : (s.tl.exch.find? fun e => e.port == r.port && e.id == i) = none) :
    evTimeRspRx r i a b' c d s = s := by
  simp [evTimeRspRx, hl, hh, ht, ha, hr, hnone]

/-- A TIME_RSP on a linked cord port closes its exchange, and the exchange counts where the port is the time source. -/
theorem evTimeRspRx_cord {e : Exch} {t4 : Nat} {x : Int × Int} (hl : s.linkUp r.port = true) (hh : r.htag = true) (htag : r.tag = true)
    (ha : r.abort = false) (hr : isRing r.port = false) (ht : t = s.freeBlocks r.port 1 2)
    (he : (t.tl.exch.find? fun e => e.port == r.port && e.id == i) = some e) (ht4 : e.t4 = some t4)
    (hx : x = exchange e.t1 (c * 64 + a % 64 : Nat) (d * 64 + b' % 64 : Nat) t4 (t.asym r.port)) (hu : u = t.closeExch r.port i) :
    evTimeRspRx r i a b' c d s =
      if r.port ≠ u.timePort then u else (((u.addStat x).putLatency r.port).timeChannel r.port).timeFollow := by
  subst ht hx hu
  simp only [evTimeRspRx, hl, hh, htag, ha, hr, he, ht4, Bool.not_true, Bool.or_false, Bool.false_eq_true, if_false]
  rfl

end

/-! ### Control requests without an answer (R163) -/

section
variable {p q : Nat} {n : Word} {o : CtrlOut}

theorem evCtrlReqRetry_again (ho : (s.cord.ctrlOut.find? fun o => o.port == p && o.pos == q && o.seq == n) = some o) (ha : s.active = true)
    (h : o.tries < 8) : evCtrlReqRetry p q n s = State.ctrlResend
      { s with cord := { s.cord with ctrlOut := s.cord.ctrlOut.map fun x => if x = o then { o with tries := o.tries + 1 } else x } }
      { o with tries := o.tries + 1 } := by
  simp [evCtrlReqRetry, ho, ha, h]

theorem evCtrlReqRetry_lost (ho : (s.cord.ctrlOut.find? fun o => o.port == p && o.pos == q && o.seq == n) = some o) (ha : s.active = true)
    (h : 8 ≤ o.tries) (hop : o.op ≠ 0x0001) (hw : o.wcp = none) : evCtrlReqRetry p q n s = State.eventAt
      { s with cord := { s.cord with ctrlOut := s.cord.ctrlOut.filter fun x => x != o } } 0x0008 p q [] .owner := by
  have hlt : ¬ o.tries < 8 := Nat.not_lt.mpr h
  simp [evCtrlReqRetry, ho, ha, hlt, hop, hw]

end

end

/-- Settles O50, row by row. -/
theorem cordTraffic : Obligations.CordTraffic := by
  refine ⟨?up, ?forward, fun s t r eseq code data h => ?event, fun s t r seq op st data h => ?rsp, fun s p => ?rows⟩
  case up =>
    intro s r b t u htile ht hu
    have hgood := State.senderUp_goodHeader (b := b) htile (hu.trans (by rw [ht]))
    refine ⟨State.senderUp_badHeader htile ht, fun hh ha => ?_, fun hh ha htag => ?_, fun hh ha htag hact => ⟨fun hlt => ?_, fun hle => ?_⟩⟩
    · rw [hgood hh, if_pos ha]
    · simp only [hgood hh, ha, htag, Bool.false_eq_true, Bool.not_false, if_false, if_true]
    · simp only [hgood hh, ha, htag, hact, hlt, Bool.false_eq_true, Bool.not_true, if_false, if_true]
    · simp only [hgood hh, ha, htag, hact, Nat.not_lt.mpr hle, Bool.false_eq_true, Bool.not_true, if_false]
  case forward =>
    rintro s t r b p rfl
    refine ⟨fun htile => ?_, fun htile hx hb => ?_⟩
    · exact congrArg Host.Outcome.next (if_pos (by rw [htile]; rfl))
    have hfwd := evCutThroughForward_taken htile hx hb
    refine ⟨fun hown => ?_, fun hdest hon => ?_⟩
    · refine congrArg Host.Outcome.next (hfwd.trans (if_pos ?_))
      simpa using hown
    have hpass : ¬ (r.hdr.dest = 0xFE ∨ (!r.hdr.up && t.forMe r) = true) := by
      obtain hup | hfor := hon <;> simp [*]
    rw [if_neg hpass] at hfwd
    refine ⟨fun ha htag => ?_, fun ha => ?_, fun ha htag => ?_⟩ <;> refine congrArg Host.Outcome.next (hfwd.trans ?_)
    · simp only [ha, htag, Bool.false_eq_true, Bool.not_true, if_false]
    · rw [if_pos ha]
    · simp only [ha, htag, Bool.false_eq_true, Bool.not_false, if_false, if_true]
  case event =>
    exact congrArg Host.Outcome.next (by simp [evEventRx, h])
  case rsp =>
    exact next_settle_congr (by simp [evCtrlRspRx, h])
  case rows =>
    refine ⟨fun c n => rfl, fun c hq hc hp => ?starved, fun c h => ?idle, fun i hl => ?probeOff, fun i h hl hh => ?probeOn, fun i ex hex => ?echo,
      rfl, fun h => congrArg Host.Outcome.next (evProbeTimer_sender h), fun h => congrArg Host.Outcome.next (evProbeTimer_tile h),
      fun r hl hh ht ha hr i a b c d hnone => ?ring, ?time, fun q n o ho hact => ⟨fun hlt o' ho' => ?again, fun hle hop hw => ?lost⟩⟩
    case starved => exact congrArg Host.Outcome.next (evStarve_starved hq hc hp)
    case idle => exact congrArg Host.Outcome.next (evStarve_idle h)
    case probeOff => exact congrArg Host.Outcome.next (if_pos (by rw [hl]; rfl))
    case probeOn =>
      subst hh
      exact congrArg Host.Outcome.next (if_neg (by simp [hl]))
    case echo => subst hex; rfl
    case ring => exact congrArg Host.Outcome.next (evTimeRspRx_ring_unasked hl hh ht ha hr hnone)
    case time =>
      intro r i a b c d e t4 x hl hh htag hab hr t u ht he ht4 hx hu
      have hrsp := evTimeRspRx_cord hl hh htag hab hr ht he ht4 hx hu
      refine ⟨fun hp => congrArg Host.Outcome.next (hrsp.trans (if_pos hp)), fun hp st v hst hv => ?_⟩
      subst hst hv
      exact congrArg Host.Outcome.next (hrsp.trans (if_neg (not_not_intro hp)))
    case again =>
      subst ho'
      exact next_settle_congr (evCtrlReqRetry_again ho hact hlt)
    case lost => exact next_settle_congr (evCtrlReqRetry_lost ho hact hle hop hw)

end Sys2Proof.Machine
end

section
/-! PROOFS. A tile's frames: marks, presents, bands, test slots and the flip (O51). -/

namespace Sys2Proof.Machine

section
variable {s t : State} {r : CordRx} {f : TileFrame}

/-! ### MARK (R145, R147) -/

theorem evMarkRx_tile (h : s.tile = true) (n p k : Nat) : evMarkRx r n p k s =
    if (s.markAccept r n p k).2 then ((s.markAccept r n p k).1.stageSwitch n).powerMark n else (s.markAccept r n p k).1 := if_pos h

theorem State.markAccept_old {n p k l : Nat} (hx : s.tileHdr r false = (t, true)) (hl : t.tl.last = some l) (h : n ≤ l) :
    s.markAccept r n p k = (t.count (CORD_N_DUP r.port) 1, false) := by
  simp [State.markAccept, hx, hl, h]

/-- The frame that a MARK opens. -/
def TileFrame.opened (n : Nat) : TileFrame :=
  { fcnt := n, ptime := none, count := [], late := false, held := [], corrected := [], protFail := false }

/-- The frame that is open is superseded by a later MARK: it closes with result 5, and what waits for a MARK comes into force. -/
def State.superseded (t : State) : State := (match t.tl.frame with | some f => t.frameClose f 5 0 | none => t).commit.genSwitch

/-- A MARK opens its frame. -/
def State.openFrame (u : State) (n p k : Nat) : State :=
  { u with tl := { u.tl with frame := some (.opened n), last := some n, fper := some p, lastMark := u.wtb, ntiles := k, rx := [] } }

theorem State.markAccept_new {n p k : Nat} {v : State} (hx : s.tileHdr r false = (t, true)) (hl : ∀ l, t.tl.last = some l → l < n)
    (hv : v = t.superseded.openFrame n p k) :
    s.markAccept r n p k = (((v.setF CORD_TSTAT_POS_B (k - 1 - v.getF CORD_TSTAT_POS_A)).setPos).raisePsqs 0, true) := by
  have hnew : (match t.tl.last with | some l => decide (n ≤ l) | none => false) = false := by
    cases h : t.tl.last with
    | none => rfl
    | some l => exact decide_eq_false (Nat.not_le.mpr (hl l h))
  subst hv
  simp only [State.markAccept, hx, Bool.not_true, Bool.false_eq_true, if_false]
  exact if_neg (Bool.eq_false_iff.mp hnew)

/-! ### PRESENT and TESTSLOT (R145, R149) -/

section
variable (hx : s.tileHdr r false = (t, true))
include hx

theorem evPresentRx_noFrame (hf : t.tl.frame = none) (n pt : Nat) (c : List Nat) : evPresentRx r n pt c s = t := by
  simp [evPresentRx, hx, hf]

theorem evTestslotRx_noFrame (hf : t.tl.frame = none) (n a b : Nat) : evTestslotRx r n a b s = t := by
  simp [evTestslotRx, hx, hf]

theorem evPresentRx_otherFrame {n : Nat} (hf : t.tl.frame = some f) (h : f.fcnt ≠ n) (pt : Nat) (c : List Nat) : evPresentRx r n pt c s = t := by
  simp [evPresentRx, hx, hf, h]

theorem evPresentRx_again (hf : t.tl.frame = some f) (h : f.ptime ≠ none) (pt : Nat) (c : List Nat) :
    evPresentRx r f.fcnt pt c s = t.count (CORD_N_DUP r.port) 1 := by
  simp [evPresentRx, hx, hf, Option.isSome_iff_ne_none.mpr h]

theorem evPresentRx_ahead {pt : Nat} (hf : t.tl.frame = some f) (h : f.ptime = none) (ht : t.wtb ≤ pt * 64) (c : List Nat) :
    evPresentRx r f.fcnt pt c s = { t with tl := { t.tl with frame := some { f with ptime := some pt, count := c, late := false } } } := by
  simp [evPresentRx, hx, hf, h, Nat.not_lt.mpr ht]

theorem evPresentRx_late {pt : Nat} {c : List Nat} {g : TileFrame} {u : State} (hf : t.tl.frame = some f) (h : f.ptime = none)
    (ht : pt * 64 < t.wtb) (hg : g = { f with ptime := some pt, count := c, late := true }) (hu : u = { t with tl := { t.tl with frame := some g } }) :
    evPresentRx r f.fcnt pt c s = u.frameClose g (u.flipResult g) 0 := by
  subst hu hg
  simp [evPresentRx, hx, hf, h, ht]

/-- A TESTSLOT of the open frame: a slot already announced is counted as replaced. -/
theorem evTestslotRx_openFrame (hf : t.tl.frame = some f) (a b : Nat) {u : State}
    (hu : u = if t.tl.slots.isEmpty then t else t.count TS_N_SLOTREPL 1) :
    evTestslotRx r f.fcnt a b s = State.testRegs { u with tl := { u.tl with slots := [(f.fcnt, a, b)] } } := by
  subst hu
  simp [evTestslotRx, hx, hf]

end

/-! ### Bands (R145, R169 to R171) -/

theorem State.litReturn_frame : s.litReturn = { s with regs := s.litReturn.regs, trace := s.litReturn.trace } := by
  unfold State.litReturn
  extract_lets u
  split
  · split
    · exact u.trace64_frame 15 8 0
    · rfl
  · rfl

/-- A band with a good region is held by the frame and queued for correction. -/
def State.takeBand (t : State) (f : TileFrame) (b : BandPkt) : State :=
  let v := t.litReturn.count LAMP_N_BANDS 1
  { v with tl := { v.tl with frame := some { f with held := f.held ++ [b.band] },
                             rx := v.tl.rx ++ [{ band := b.band, lines := b.lines, pixels := b.pixels, fcnt := f.fcnt }] },
           lamp := { v.lamp with swept := v.lamp.swept.filter fun k => k != b.band } }

theorem State.takeBand_rx (t : State) (f : TileFrame) (b : BandPkt) :
    (t.takeBand f b).tl.rx = t.tl.rx ++ [{ band := b.band, lines := b.lines, pixels := b.pixels, fcnt := f.fcnt }] := by
  show t.litReturn.tl.rx ++ _ = _
  rw [State.litReturn_frame]

theorem State.takeBand_lamps (t : State) (f : TileFrame) (b : BandPkt) : (t.takeBand f b).lamp.lamps = t.lamp.lamps := by
  show t.litReturn.lamp.lamps = _
  rw [State.litReturn_frame]

section
variable {b : BandPkt} (hx : s.tileOwn r (.band b) = (t, true)) (hf : t.tl.frame = some f)
include hx hf

theorem evBandRx_otherFrame (h : b.ftag ≠ f.fcnt % 65536) (fits : Bool) : evBandRx r b fits s = t := by
  simp [evBandRx, hx, hf, h]

theorem evBandRx_again (htag : b.ftag = f.fcnt % 65536) (h : f.held.contains b.band = true) (fits : Bool) :
    evBandRx r b fits s = t.count (CORD_N_DUP r.port) 1 := by
  simp only [evBandRx, hx, hf, htag, h, Bool.not_true, Bool.false_eq_true, ne_eq, not_true_eq_false, if_false, if_true]

section
variable (htag : b.ftag = f.fcnt % 65536) (hheld : f.held.contains b.band = false) (hload : t.flag LAMP_STAT_LOADING = false)
  (hcal : t.flag LAMP_STAT_UNCAL = false)
include htag hheld hload hcal

theorem evBandRx_noRoom : evBandRx r b false s = t.count (CORD_N_ACCEPTOVF r.port) 1 := by
  simp only [evBandRx, hx, hf, htag, hheld, hload, hcal, Bool.not_true, Bool.not_false, Bool.false_eq_true, ne_eq, not_true_eq_false,
    or_self, if_false, if_true]

theorem evBandRx_misfit
    (h : t.tileBands ≤ b.band ∨ b.width ≠ t.getF LAMP_GEOM_W ∨ b.lines ≠ bandLines (t.getF LAMP_GEOM_H) b.band) :
    evBandRx r b true s = t.count LAMP_N_GEOMERR 1 := by
  simp only [evBandRx, hx, hf, htag, hheld, hload, hcal, Bool.not_true, Bool.false_eq_true, ne_eq, not_true_eq_false, or_self, if_false]
  exact if_pos h

theorem evBandRx_taken (hk : b.band < t.tileBands) (hw : b.width = t.getF LAMP_GEOM_W) (hl : b.lines = bandLines (t.getF LAMP_GEOM_H) b.band)
    (hok : regionOk b = true) : evBandRx r b true s = t.takeBand f b := by
  have hfits : ¬ (t.tileBands ≤ b.band ∨ b.width ≠ t.getF LAMP_GEOM_W ∨ b.lines ≠ bandLines (t.getF LAMP_GEOM_H) b.band) := by
    simp [hk, hw, hl]
  simp only [evBandRx, hx, hf, htag, hheld, hload, hcal, hok, Bool.not_true, Bool.or_false, Bool.false_eq_true, or_self, if_false]
  exact (if_neg (not_not_intro rfl)).trans (if_neg hfits)

end

end

section
variable {b : RxBand} {bs : List RxBand} {c : List Byte} (hb : s.tl.rx = b :: bs) (hc : s.lamp.cal = some c)
  (ht : t = State.storeBand { s with tl := { s.tl with rx := bs } } c b.band b.pixels)
include hb hc ht

theorem evBandCorrectionDone_noFrame (hf : t.tl.frame = none) : evBandCorrectionDone s = t := by
  subst ht
  simp only [evBandCorrectionDone, hb, hc, hf]

theorem evBandCorrectionDone_openFrame (hf : t.tl.frame = some f) (hn : f.fcnt = b.fcnt) : evBandCorrectionDone s =
    { t with tl := { t.tl with frame := some { f with corrected := f.corrected ++ [b.band] } } } := by
  subst ht
  simp only [evBandCorrectionDone, hb, hc, hf, hn, if_true]

end

/-! ### The flip (R146, R147) -/

/-- At PTIME the frame flips or closes with the first result that applies. -/
theorem evPtimeReached_open (hf : s.tl.frame = some f) (htile : s.tile = true) (hp : f.ptime ≠ none) : evPtimeReached s =
    if s.flipResult f = 0 then
      (State.raisePsqs ((s.flipBands f.held).commit.syncPulse.rampFlip) 2).frameClose f 0 f.held.length
    else s.commit.frameClose f (s.flipResult f) 0 := by
  simp only [evPtimeReached, hf, htile, Option.isNone_eq_false_iff.mpr (Option.isSome_iff_ne_none.mpr hp), Bool.not_true, Bool.or_self,
    Bool.false_eq_true, if_false]

end

/-- Settles O51, packet by packet. -/
theorem tileFrames : Obligations.TileFrames := by
  refine ⟨fun s t r htile hx => ⟨?markOld, ?markNew, fun hf => ?noFrame, fun f hf => ?openFrame⟩, fun s t r b f hx hf => ?band, fun s => ?rows⟩
  case markOld =>
    intro n p k l hl hle
    refine congrArg Host.Outcome.next ?_
    rw [evMarkRx_tile htile, State.markAccept_old hx hl hle]
    rfl
  case markNew =>
    rintro n p k hl u v f rfl rfl hv
    refine congrArg Host.Outcome.next ?_
    rw [evMarkRx_tile htile, State.markAccept_new hx hl hv]
    rfl
  case noFrame =>
    exact ⟨fun n pt c => congrArg Host.Outcome.next (evPresentRx_noFrame hx hf n pt c),
      fun n a b => congrArg Host.Outcome.next (evTestslotRx_noFrame hx hf n a b)⟩
  case openFrame =>
    refine ⟨fun n pt c h => congrArg Host.Outcome.next (evPresentRx_otherFrame hx hf h pt c),
      fun pt c h => congrArg Host.Outcome.next (evPresentRx_again hx hf h pt c),
      fun pt c h ht => congrArg Host.Outcome.next (evPresentRx_ahead hx hf h ht c),
      fun pt c g u h ht hg hu => congrArg Host.Outcome.next (evPresentRx_late hx hf h ht hg hu), fun a b hs => ?_, fun a b u hs hu => ?_⟩
    · exact congrArg Host.Outcome.next (evTestslotRx_openFrame hx hf a b (by rw [hs]; rfl))
    · exact congrArg Host.Outcome.next (evTestslotRx_openFrame hx hf a b (by simp [hs, hu]))
  case band =>
    refine ⟨fun h fits => congrArg Host.Outcome.next (evBandRx_otherFrame hx hf h fits),
      fun htag h fits => congrArg Host.Outcome.next (evBandRx_again hx hf htag h fits), fun htag hheld hload hcal =>
      ⟨congrArg Host.Outcome.next (evBandRx_noRoom hx hf htag hheld hload hcal),
        fun h => congrArg Host.Outcome.next (evBandRx_misfit hx hf htag hheld hload hcal h), fun hk hw hl hok => ?_⟩⟩
    exact ⟨t.takeBand f b, congrArg Host.Outcome.next (evBandRx_taken hx hf htag hheld hload hcal hk hw hl hok), rfl, t.takeBand_rx f b,
      t.takeBand_lamps f b⟩
  case rows =>
    refine ⟨fun hrx => ?_, fun b bs c t hb hc ht hf => ?_, fun b bs c t f hb hc ht hf hn => ?_, fun hf => ?_,
      fun f hf htile hp => ⟨fun h => ?_, fun h => ?_⟩⟩ <;> refine congrArg Host.Outcome.next ?_
    · simp only [evBandCorrectionDone, hrx]
    · exact evBandCorrectionDone_noFrame hb hc ht hf
    · exact evBandCorrectionDone_openFrame hb hc ht hf hn
    · simp only [evPtimeReached, hf]
    · rw [evPtimeReached_open hf htile hp, if_pos h]
    · rw [evPtimeReached_open hf htile hp, if_neg h]

end Sys2Proof.Machine
end

section
/-! PROOFS. Claims, the referee, swap requests, the mirror, the relay and the board ring (O55). -/

namespace Sys2Proof.Machine

section
variable {s t u : State}

/-! ### Heartbeats (R295, R312) -/

/-- A member that is not the referee sends its heartbeat on the ring and then makes its automatic swap requests. -/
theorem evHeartbeatTimer_member (hm : s.member = true) (hr : s.refActs = false) (ht : t = s.healthReg.ringSend 0xFF (.heartbeat s.ownHb))
    (hext : t.flag CLM_CFG_EXTREF = false) (href : t.swapAuto.refActs = false) : evHeartbeatTimer s = t.swapAuto := by
  subst ht
  simp only [evHeartbeatTimer, hm, hr, hext, href, Bool.not_false, Bool.and_self, Bool.false_eq_true, if_false, if_true]

theorem evHeartbeatTimer_referee (hr : s.refActs = true) : evHeartbeatTimer s = s.ringSend 0xFF (.heartbeat s.refHbOut) := by
  simp [evHeartbeatTimer, hr]

theorem evHeartbeatTimer_idle (hm : s.member = false) (hr : s.refActs = false) : evHeartbeatTimer s = s := by
  simp [evHeartbeatTimer, hm, hr]

/-- A heartbeat at a member that is not the referee: the referee's, the partner's, or one that concerns it not. -/
theorem evHeartbeatRx_member (hr : s.refActs = false) (hm : s.member = true) (h : Heartbeat) : evHeartbeatRx h s =
    if h.state = 5 then (if s.extDrop then s.count CLM_N_EXTDROP 1 else s.refHbHeard h)
    else if h.pos = s.partnerPos then s.healthReg.partHbHeard h else s := by
  simp only [evHeartbeatRx, hr, hm, Bool.not_true, Bool.false_eq_true, if_false]

/-! ### The referee (R291, R292) -/

/-- Once started, the referee serves the requests that have come, in order, and then checks for the loss of the holder. -/
theorem evRefereeEvaluation_started {rs : List SwapIn} (hr : s.refActs = true) (ht : t = (s.refInbox rs).refQuiet)
    (hst : t.clm.started = true) : evRefereeEvaluation rs s =
      ((swapOrder t.clm.inbox).foldl State.refSwap { t with clm := { t.clm with inbox := [] } }).refLoss := by
  subst ht
  simp only [evRefereeEvaluation, hr, hst, Bool.not_true, Bool.false_and, Bool.false_eq_true, if_false]

theorem evRefereeStartupWait_due (hr : s.refActs = true) (hst : s.clm.started = false) (hb : s.clm.firstHb ≠ none) :
    evRefereeStartupWait s = s.refStart := if_pos (by simp [hr, hst, Option.isSome_iff_ne_none.mpr hb])

theorem evRefereeStartupWait_started (hst : s.clm.started = true) : evRefereeStartupWait s = s := if_neg (by simp [hst])

/-! ### Swap requests (R301, R302) -/

theorem evSwapReqRetry_again {r : SwapOut} {q : List SwapOut} (hq : s.clm.swapOut = r :: q) (h : r.tries < 8) : evSwapReqRetry s =
    State.swapSend { s with clm := { s.clm with swapOut := q ++ [{ r with tries := r.tries + 1 }] } } { r with tries := r.tries + 1 } := by
  simp only [evSwapReqRetry, hq, h, if_true]

theorem evSwapReqRetry_givenUp {r : SwapOut} {q : List SwapOut} (hq : s.clm.swapOut = r :: q) (h : 8 ≤ r.tries) (hw : r.wcp = none) :
    evSwapReqRetry s = { s with clm := { s.clm with swapOut := q } } := by
  simp only [evSwapReqRetry, hq, Nat.not_lt.mpr h, hw, if_false]

theorem evClmSwapReq_refused (h : s.member = false ∨ s.flag CLM_STAT_REF_OK = false) : evClmSwapReq s = s.emit (.bus true 0) := by
  have hno : s.swapOwner none = (s, false) := if_pos (by obtain h | h := h <;> simp [h])
  simp only [evClmSwapReq, hno, Bool.not_false]

theorem evClmSwapReq_sent (hm : s.member = true) (hr : s.flag CLM_STAT_REF_OK = true) :
    evClmSwapReq s = (s.swapRequest 0x80 none).emit (.bus false 0) := by
  have hsent : s.swapOwner none = (s.swapRequest 0x80 none, true) := if_neg (by simp [hm, hr])
  simp only [evClmSwapReq, hsent, Bool.not_true]

/-! ### The mirror (R305, R306) -/

theorem evMirrorRx_idle {g : Word} {it : MirrorItem} {b : Bool} (h : s.member = false ∨ (s.clmState ≠ 1 ∧ s.clmState ≠ 2)) :
    evMirrorRx g it b s = s := if_pos (by obtain h | ⟨h1, h2⟩ := h <;> simp [*])

/-- An update at a standby is taken in and acknowledged to the partner. -/
theorem evMirrorRx_update {g : Word} {it : MirrorItem} (hm : s.member = true) (hst : s.clmState = 1 ∨ s.clmState = 2) (ht : t = s.takeItem it)
    (hu : u = { t with clm := { t.clm with
      mirror := t.clm.mirror.map (fun g => g.put (itemNo it) it)
      mirrorNew := if t.clm.mirror.isSome then t.clm.mirrorNew else t.clm.mirrorNew.put (itemNo it) it } }) :
    evMirrorRx g it false s = (u.setReg CLM_MGEN g).ringSend s.partnerPos (.mirrorAck g (itemNo it)) := by
  subst ht hu
  exact if_neg (by obtain h | h := hst <;> simp [hm, h])

theorem evMirrorAckRx_update (hb : s.clm.bulk = false) (g : Word) (n : Nat) : evMirrorAckRx g n s =
    State.mirrorRelease { s with clm := { s.clm with toAck := s.clm.toAck.filter fun a => !(a.1 == g && a.2 == n) } } := by
  simp [evMirrorAckRx, hb]

/-- Updates without an acknowledgement for 5 ms end the mirror, and a bulk copy begins. -/
theorem evMirrorAckTimeout_lost (ha : s.clm.toAck ≠ []) (hb : s.clm.bulk = false)
    (ht : t = ((s.setFlag CLM_STAT_MIRROR_LOST true).count CLM_N_MIRROR_LOST 1).event 0x0011 [] .owner) (htb : t.clm.bulk = false) :
    evMirrorAckTimeout s = State.startBulk (State.mirrorRelease { t with clm := { t.clm with toAck := [], bulk := false } }) := by
  subst ht
  simp only [evMirrorAckTimeout, List.isEmpty_eq_false_iff.mpr ha, hb, htb, Bool.not_false, Bool.true_or, Bool.false_eq_true, if_false, if_true]

/-! ### The relay (R309) -/

/-- A packet relayed towards the cord leaves on the port where it relays and has a link. -/
theorem evRelayRx_down {p : Nat} (htile : s.tile = false) (hp : p < 8) (k : CordPkt) : evRelayRx p 0 k s =
    if s.flag (CORD_PCFG_RELAY p) && s.linkUp p then s.send p k else s :=
  (if_neg (by simp [htile, hp])).trans (if_pos rfl)

/-- A relayed ACK at the holder: one of an older claim is counted, any other is taken in as from the own port. -/
theorem evRelayRx_ack {p : Nat} {k : CordPkt} {a : AckPkt} (htile : s.tile = false) (hp : p < 8) (hk : k.body = .ack a)
    (ht : t = s.sawClaim k.hdr.claim) (hact : t.active = true) (hon : t.relayOn p = true) : evRelayRx p 1 k s =
      if k.hdr.claim.toNat < t.claim.toNat then t.count (CORD_N_STALE p) 1 else t.ackTake p k.hdr.src a := by
  subst ht
  have hport : ¬ (s.tile || decide (8 ≤ p)) = true := by simp [htile, hp]
  simp only [evRelayRx, hport, hk, hact, hon, Nat.one_ne_zero, Bool.not_true, Bool.or_self, Bool.false_eq_true, if_false]

/-! ### The board ring (R492) -/

/-- A HELLO of another position, from a part that is no referee: its TID is kept, and MEMBERS follows. -/
theorem evRingHelloRx_other {h : RingHello} {known : Nat} {dup : Bool} (hpos : h.pos ≠ s.getF RING_STAT_POS) (href : h.referee = false)
    (hk : known = SMap.get (fun _ => 0) s.cord.ringTids h.pos) (hd : dup = (known != 0 && known != h.tid + 1))
    (ht : t = { s with cord := { s.cord with
      ringTids := SMap.set (fun _ => 0) s.cord.ringTids h.pos (h.tid + 1)
      ringDup := if dup then s.cord.ringDup ||| 2 ^ h.pos else s.cord.ringDup } }) : evRingHelloRx h s = t.ringMembers := by
  subst hk hd ht
  simp [evRingHelloRx, hpos, href]

end

/-- Settles O55, row by row. -/
theorem claimRows : Obligations.ClaimRows := by
  intro s
  refine ⟨fun hm hr _ t ht hext href => congrArg Host.Outcome.next (evHeartbeatTimer_member hm hr ht hext href),
    fun hr => congrArg Host.Outcome.next (evHeartbeatTimer_referee hr), fun hm hr => congrArg Host.Outcome.next (evHeartbeatTimer_idle hm hr),
    fun b hm => next_settle_congr (if_pos hm), fun b hm => next_settle_congr (if_neg (Bool.eq_false_iff.mp hm)), ?heartbeat,
    fun rs hr => next_settle_congr (if_pos (by rw [hr]; rfl)),
    fun rs t hr ht hst => next_settle_congr (evRefereeEvaluation_started hr ht hst),
    fun hr hst hb => next_settle_congr (evRefereeStartupWait_due hr hst hb), fun hst => next_settle_congr (evRefereeStartupWait_started hst),
    fun c h hx => next_settle_congr (if_neg (Bool.eq_false_iff.mp hx)), fun c h hx => next_settle_congr (if_pos hx), ?swapRsp,
    fun hq => next_settle_congr (by simp only [evSwapReqRetry, hq]), ?swapAgain,
    fun r q hq h hw => next_settle_congr (evSwapReqRetry_givenUp hq h hw), fun h => congrArg Host.Outcome.next (evClmSwapReq_refused h),
    fun hm hr => congrArg Host.Outcome.next (evClmSwapReq_sent hm hr), fun g it b h => congrArg Host.Outcome.next (evMirrorRx_idle h),
    fun g it t u hm hst ht hu => congrArg Host.Outcome.next (evMirrorRx_update hm hst ht hu),
    fun g n hb => next_settle_congr (evMirrorAckRx_update hb g n), fun ha => next_settle_congr (if_pos (by rw [ha]; rfl)),
    fun t ha hb ht htb => next_settle_congr (evMirrorAckTimeout_lost ha hb ht htb), ?relaySent, ?relayOff, ?relayAck,
    ?helloSent, ?helloOff, fun h known dup t hp hr hk hd ht => congrArg Host.Outcome.next (evRingHelloRx_other hp hr hk hd ht),
    fun h8 h9 => congrArg Host.Outcome.next (if_pos (by rw [h8, h9]; rfl)), ?notStable,
    fun h => congrArg Host.Outcome.next (if_pos (Option.isSome_iff_ne_none.mpr h)), fun h => congrArg Host.Outcome.next (if_neg (by rw [h]; decide))⟩
  case heartbeat =>
    intro h hr hm
    have hrx := evHeartbeatRx_member hr hm h
    refine ⟨fun h5 hx => ?_, fun h5 hx => ?_, fun h5 hp => ?_⟩ <;> refine next_settle_congr (hrx.trans ?_)
    · rw [if_pos h5, if_neg (Bool.eq_false_iff.mp hx)]
    · rw [if_pos h5, if_pos hx]
    · rw [if_neg h5, if_pos hp]
  case swapRsp =>
    intro c st n hm hx
    refine next_settle_congr ((if_neg ?_).trans (if_neg (Bool.eq_false_iff.mp hx)))
    simp [hm]
  case swapAgain =>
    rintro r _ q hq h rfl
    exact next_settle_congr (evSwapReqRetry_again hq h)
  case relaySent =>
    intro p k htile hp hr hl
    exact next_settle_congr ((evRelayRx_down htile hp k).trans (if_pos (by rw [hr, hl]; rfl)))
  case relayOff =>
    intro p k htile hp h
    refine next_settle_congr ((evRelayRx_down htile hp k).trans (if_neg ?_))
    obtain h | h := h <;> simp [h]
  case relayAck =>
    intro p k a t htile hp hk ht hact hon
    have hack := evRelayRx_ack htile hp hk ht hact hon
    exact ⟨fun hle => next_settle_congr (hack.trans (if_neg (Nat.not_lt.mpr hle))), fun hlt => next_settle_congr (hack.trans (if_pos hlt))⟩
  case helloSent =>
    intro hk hd
    exact congrArg Host.Outcome.next (if_pos (by simp [hd, Option.isSome_iff_ne_none.mpr hk]))
  case helloOff =>
    intro h
    refine congrArg Host.Outcome.next (if_neg ?_)
    obtain h | h := h <;> simp [h]
  case notStable =>
    intro h
    refine congrArg Host.Outcome.next (if_neg ?_)
    obtain h | h := h <;> simp [h]

end Sys2Proof.Machine
end

section
/-! PROOFS. A tile's control requests, each applied once and answered (O52). -/

namespace Sys2Proof.Machine

/-! ### Writes beyond a listed key, whatever form a sparse map has

The obligation speaks of every state, canonical or not. A write can change another key of a map that is out of order only where that key lies
below the written one and no listed key stands between them. -/

section
variable {α : Type} {d : Nat → α}

theorem SMap.get_erase_of_listed {m : SMap α} {j a k : Nat} (hj : j ≤ a) (hk : a < k) (ha : SMap.get d m a ≠ d a) :
    SMap.get d (SMap.erase k m) j = SMap.get d m j := by
  induction m with
  | nil => rfl
  | cons e m ih =>
    obtain ⟨i, w⟩ := e
    simp only [SMap.get] at ha
    by_cases hai : a < i
    · exact absurd (by simp [hai, Nat.ne_of_lt hai]) ha
    have hki : ¬ k < i ∧ k ≠ i := by omega
    simp only [SMap.erase, hki, if_false, SMap.get]
    by_cases haeq : a = i
    · by_cases hji : j = i
      · simp [hji]
      · have hlt : j < i := by omega
        simp [hji, hlt]
    · rw [ih (by simpa [hai, haeq] using ha)]

theorem SMap.get_erase_above {m : SMap α} {j k : Nat} (h : k < j) : SMap.get d (SMap.erase k m) j = SMap.get d m j := by
  induction m with
  | nil => rfl
  | cons e m ih =>
    obtain ⟨i, w⟩ := e
    simp only [SMap.erase]
    split
    · rfl
    · split
      · have hj : j ≠ i ∧ ¬ j < i := by omega
        simp only [SMap.get, hj, if_false]
      · simp only [SMap.get, ih]

variable [DecidableEq α]

theorem SMap.get_set_of_listed {m : SMap α} {j a k : Nat} (v : α) (hj : j ≤ a) (hk : a < k) (ha : SMap.get d m a ≠ d a) :
    SMap.get d (SMap.set d m k v) j = SMap.get d m j := by
  unfold SMap.set
  split
  · exact SMap.get_erase_of_listed hj hk ha
  · exact SMap.get_insert_other (by omega)

theorem SMap.get_set_above {m : SMap α} {j k : Nat} (v : α) (h : k < j) : SMap.get d (SMap.set d m k v) j = SMap.get d m j := by
  unfold SMap.set
  split
  · exact SMap.get_erase_above h
  · exact SMap.get_insert_other (by omega)

end

section
variable {s t u : State} {r : CordRx}

/-! ### The straps of a tile are listed (R1) -/

theorem State.straps_listed (h : s.tile = true) : s.reg EMB_STRAPS ≠ regReset EMB_STRAPS := by
  intro heq
  have hrole : bitsOf (regReset EMB_STRAPS).toNat 0 0 = 0 := by decide +kernel
  unfold State.tile State.flag State.getF at h
  rw [heq, hrole] at h
  exact absurd h (by decide)

/-- A write beyond the straps of a tile leaves the registers up to them. -/
theorem State.reg_setReg_tile (h : s.tile = true) {a j : Nat} (ha : EMB_STRAPS < a) (hj : j ≤ EMB_STRAPS) (v : Word) :
    (s.setReg a v).reg j = s.reg j := SMap.get_set_of_listed v hj ha (State.straps_listed h)

theorem State.tile_setReg (h : s.tile = true) {a : Nat} (ha : EMB_STRAPS < a) (v : Word) : (s.setReg a v).tile = true := by
  unfold State.tile State.flag State.getF at h ⊢
  rw [State.reg_setReg_tile h ha (Nat.le_refl _)]
  exact h

theorem State.tile_setF (h : s.tile = true) {f : Field} (hf : EMB_STRAPS < f.addr) (v : Nat) : (s.setF f v).tile = true :=
  State.tile_setReg h hf _

theorem State.tile_congr (h : s.regs = t.regs) : s.tile = t.tile := by
  unfold State.tile State.flag State.getF State.reg
  rw [h]

theorem State.tile_freeBlocks (port cls n : Nat) : (s.freeBlocks port cls n).tile = s.tile := by
  unfold State.freeBlocks
  split <;> rfl

theorem State.tile_setPos (h : s.tile = true) : s.setPos.tile = true := State.tile_setF h (by decide) _

theorem State.tile_takeCf (h : s.tile = true) (port : Nat) (relay : Bool) : (s.takeCf port relay).tile = true := by
  unfold State.takeCf
  split
  · exact State.tile_setPos (State.tile_setF h (by decide) _)
  · exact h

theorem State.tile_dropStale (h : s.tile = true) (claim : BitVec 64) (port cls : Nat) : (s.dropStale claim port cls).tile = true := by
  unfold State.dropStale
  extract_lets k q old cord t
  refine List.foldlRecOn (motive := fun v : State => v.tile = true) _ _ ((State.tile_congr (s := t) (t := s) rfl).trans h) fun v hv e _ => ?_
  extract_lets w
  have hw : w.tile = true := by
    unfold w
    split <;> exact hv
  split
  · rw [State.tile_freeBlocks, hw]
  · exact hw

theorem State.tile_testDisarm (h : s.tile = true) : s.testDisarm.tile = true := by
  unfold State.testDisarm State.testRegs
  extract_lets t0 t1 t2 t3 t4 x
  have h1 : t1.tile = true := State.tile_setF h (by decide) _
  have h2 : t2.tile = true := State.tile_setF h1 (by decide) _
  have h3 : t3.tile = true := State.tile_setF h2 (by decide) _
  have h4 : t4.tile = true := State.tile_setF (State.tile_setF h3 (by decide) _) (by decide) _
  exact State.tile_setReg (State.tile_setF (State.tile_setF h4 (by decide) _) (by decide) _) (by decide) _

theorem State.tile_claimRaise (h : s.tile = true) (port : Nat) (relay : Bool) (claim : BitVec 64) :
    (s.claimRaise port relay claim).tile = true := by
  unfold State.claimRaise
  extract_lets t0 t1 t2 tl pwr t3 t4
  have h1 : t1.tile = true := State.tile_setF (State.tile_setReg (State.tile_setReg h (by decide) _) (by decide) _) (by decide) _
  have h2 : t2.tile = true :=
    List.foldlRecOn (motive := fun v : State => v.tile = true) _ _ h1 fun v hv pc _ => State.tile_dropStale hv claim pc.1 pc.2
  clear_value t2
  have h3 : t3.tile = true := (State.tile_congr (s := t3) (t := t2) rfl).trans h2
  have h4 : t4.tile = true := State.tile_setF h3 (by decide) _
  exact State.tile_takeCf (State.tile_setReg (State.tile_testDisarm h4) (by decide) _) port relay

/-- A part that takes a packet's header is a tile, and stays one. -/
theorem State.tileHdr_tile {own : Bool} (hx : s.tileHdr r own = (u, true)) : u.tile = true := by
  unfold State.tileHdr at hx
  by_cases htile : s.tile = true
  · extract_lets cnt v at hx
    have hv : v.tile = true := by
      unfold v
      split
      · exact State.tile_claimRaise htile _ _ _
      · exact State.tile_takeCf htile _ _
    simp only [htile, Bool.not_true, Bool.false_eq_true, if_false] at hx
    split_ifs at hx
    · cases hx
    · cases hx
    · cases hx
    · cases hx
    · obtain ⟨hu, -⟩ := Prod.mk.inj hx
      exact hu ▸ hv
  · simp [htile] at hx

/-! ### ENUM does not change what a tile answers to it (R130) -/

theorem State.enumData_setReg_tstat (h : s.tile = true) (w : Word) : (s.setReg CORD_TSTAT w).enumData = s.enumData := by
  have hserial : (s.setReg CORD_TSTAT w).serial = s.serial := List.flatMap_congr fun k hk => by
    rw [State.reg_setReg_tile h (by decide)]
    have := List.mem_range.mp hk
    simp only [SYS_SERIAL, EMB_STRAPS]
    omega
  have habove : ∀ j, CORD_TSTAT < j → (s.setReg CORD_TSTAT w).reg j = s.reg j := fun j hj => SMap.get_set_above w hj
  unfold State.enumData State.tid State.tileBands State.getF State.hopBytes
  rw [hserial, habove LAMP_GEOM (by decide), habove (CORD_HOP 0 0) (by decide)]
  rfl

/-- The answer to ENUM is the same before and after the tile has taken its position. -/
theorem State.enumData_setPos (h : s.tile = true) (pos : Nat) : ((s.setF CORD_TSTAT_POS_A pos).setPos).enumData = s.enumData :=
  (State.enumData_setReg_tstat (State.tile_setF h (by decide) pos) _).trans (State.enumData_setReg_tstat h _)

/-! ### A new request is applied and answered (R163) -/

section
variable {seq : Word} {op st : Nat} {data d : List Byte} {f : State → State × Option (Nat × List Byte)}

theorem State.ctrlTake_repeat {e : Word × Nat × Nat × List Byte} (he : (s.tl.ctlCache.find? fun e => e.1 == seq) = some e) :
    s.ctrlTake seq op f = s.rspUp (.ctrlRsp seq e.2.1 e.2.2.1 e.2.2.2) := by
  simp only [State.ctrlTake, he]

theorem State.ctrlTake_old (hnone : (s.tl.ctlCache.find? fun e => e.1 == seq) = none) (hfull : 64 ≤ s.tl.ctlCache.length)
    (hall : (s.tl.ctlCache.all fun e => decide (seq.toNat < e.1.toNat)) = true) :
    s.ctrlTake seq op f = s.rspUp (.ctrlRsp seq op 0x0008 []) := by
  simp only [State.ctrlTake, hnone, hfull, hall, decide_true, Bool.and_self, if_true]

/-- A request whose number is not in a cache with room is answered with its status, where its effect is complete. -/
theorem State.ctrlTake_new (hnone : (s.tl.ctlCache.find? fun e => e.1 == seq) = none) (hroom : s.tl.ctlCache.length < 64)
    (hf : f s = (u, some (st, data))) : s.ctrlTake seq op f = u.ctrlAnswer seq op st data := by
  simp only [State.ctrlTake, hnone, hf, Nat.not_le.mpr hroom, decide_false, Bool.false_and, Bool.false_eq_true, if_false]

theorem State.ctrlReq_new (h : s.takesNew r seq op d t) (hf : f t = (u, some (st, data))) :
    s.ctrlReq r seq op d f = u.ctrlAnswer seq op st data := by
  obtain ⟨hown, hnone, hroom⟩ := h
  simp only [State.ctrlReq, hown, if_true, State.ctrlTake_new hnone hroom hf]

/-- What a new request leaves, for a command whose meaning is a control request. -/
theorem State.next_ctrlReq_new (h : s.takesNew r seq op d t) (hf : f t = (u, some (st, data))) :
    (Host.Outcome.next (s.ctrlReq r seq op d f) : Host.Outcome State Fault Refusal) = .next (u.ctrlAnswer seq op st data) :=
  congrArg Host.Outcome.next (State.ctrlReq_new h hf)

end

end

/-- Settles O52, request by request. -/
theorem tileRequests : Obligations.TileRequests := by
  refine ⟨fun s seq op f => ⟨fun e he => State.ctrlTake_repeat he, fun hnone hfull hall => State.ctrlTake_old hnone hfull hall⟩,
    fun s t r seq => ⟨?status, ?rateStep, ?attest, ?ownerSet, ?keySet, ?ownerXfer, ?nonce, ?token, ?power, ?stage, ?stageData, ?bright, ?lampTf,
      ?clinker, ?confirmNone, ?confirm, ?arm, ?cancel, ?fwData⟩, ?enum⟩
  case status => exact fun h => State.next_ctrlReq_new h rfl
  case rateStep => exact fun d h => State.next_ctrlReq_new h rfl
  case attest => exact fun n h hn => State.next_ctrlReq_new h (by rw [if_pos hn])
  case ownerSet =>
    refine fun root h => ⟨fun ho => State.next_ctrlReq_new h (if_neg ?_), fun ho => State.next_ctrlReq_new h (if_pos ?_)⟩
    · rw [ho]; decide
    · exact Option.isSome_iff_ne_none.mpr ho
  case keySet => exact fun k => ⟨fun h => State.next_ctrlReq_new h rfl, fun h => State.next_ctrlReq_new h rfl⟩
  case ownerXfer => exact fun o h => State.next_ctrlReq_new h rfl
  case nonce => exact fun n h hn => State.next_ctrlReq_new h (by simp only [hn])
  case token => exact fun o h => State.next_ctrlReq_new h rfl
  case power => exact fun n h => State.next_ctrlReq_new h rfl
  case stage =>
    refine fun kind len dg h => ⟨fun hk => State.next_ctrlReq_new h (if_pos hk), ?_⟩
    rintro hk g rfl
    exact State.next_ctrlReq_new h (if_neg (Nat.not_le.mpr hk))
  case stageData =>
    intro off ch g h hg hw hlt hle
    have hfits : ¬ (g.len < off + ch.length ∨ 3072 < ch.length) := by omega
    exact State.next_ctrlReq_new h (by simp only [hg, hw, hfits, Nat.ne_of_lt hlt, Bool.false_eq_true, if_false])
  case bright =>
    exact fun n h => ⟨fun hn => State.next_ctrlReq_new h (if_pos hn), fun hn => State.next_ctrlReq_new h (if_neg (Nat.not_lt.mpr hn))⟩
  case lampTf =>
    refine fun n h => ⟨fun hn => State.next_ctrlReq_new h (if_pos hn), fun hn hne => ?_, fun hn heq => ?_⟩
    · exact State.next_ctrlReq_new h ((if_neg (Nat.not_le.mpr hn)).trans (by simp only [hne, if_false]))
    · exact State.next_ctrlReq_new h ((if_neg (Nat.not_le.mpr hn)).trans (by simp only [heq, if_true]))
  case clinker =>
    refine fun es h => ⟨fun hfull => State.next_ctrlReq_new h (if_pos hfull), fun u k hroom hedit hk => ?_⟩
    exact State.next_ctrlReq_new h ((if_neg (Bool.eq_false_iff.mp hroom)).trans (by simp only [hedit, hk, if_false]))
  case confirmNone => exact fun h hg => State.next_ctrlReq_new h (by simp only [hg])
  case confirm => exact fun g h hg hw => State.next_ctrlReq_new h (by simp only [hg, hw, Bool.false_eq_true, if_false])
  case arm =>
    exact fun n h => ⟨fun hg => State.next_ctrlReq_new h (by simp only [hg]), fun g hg => State.next_ctrlReq_new h (by simp only [hg])⟩
  case cancel => exact fun h => State.next_ctrlReq_new h rfl
  case fwData =>
    rintro off ch d h hw hch hoff rfl
    have hfits : ¬ (3072 < ch.length ∨ 393392 < off + ch.length) := by omega
    exact State.next_ctrlReq_new h ((if_neg (Bool.eq_false_iff.mp hw)).trans ((if_neg hfits).trans (if_neg Bool.false_ne_true)))
  case enum =>
    rintro s t u r seq pos hx rfl hnone hroom
    have htile : (u.freeBlocks r.port 1 (pktBlocks { hdr := r.hdr, body := .ctrlReq seq 0x0001 (leBytes 1 pos) })).tile = true :=
      (State.tile_freeBlocks _ _ _).trans (State.tileHdr_tile hx)
    refine congrArg Host.Outcome.next ?_
    rw [State.enumData_setPos htile]
    simp only [evEnum, hx, Bool.not_true, Bool.false_eq_true, if_false]
    exact State.ctrlTake_new hnone hroom rfl

end Sys2Proof.Machine
end

section
/-! PROOFS. In-service tests: the packets of a run at a tile, windows, and the collection at the sender (O54). -/

namespace Sys2Proof.Machine

section
variable {s t u : State} {r : CordRx} {d : List Byte}

/-! ### TEST packets at a tile (R244, R245, R254, R256) -/

/-- A TEST packet that the tile takes in has its operation's effect. -/
theorem State.testPacket_op {op : Nat} (hx : s.testHdr r d = (t, true)) (ho : leAt d 6 1 = op) (f : State → State) :
    s.testPacket r d op f = f t := by
  simp [State.testPacket, hx, ho]

/-- A TEST packet whose operation is of no kind is a counted error, whichever operation's row meets it. -/
theorem State.testPacket_noKind {op : Nat} (hx : s.testHdr r d = (t, true)) (ho : leAt d 6 1 = 0 ∨ 3 < leAt d 6 1) (h1 : 1 ≤ op) (h3 : op ≤ 3)
    (f : State → State) : s.testPacket r d op f = t.count TS_N_TESTERR 1 := by
  have hop : leAt d 6 1 ≠ op := by omega
  have hnone : ¬ (leAt d 6 1 = 1 ∨ leAt d 6 1 = 2 ∨ leAt d 6 1 = 3) := by omega
  simp [State.testPacket, hx, hop, hnone]

/-- With no open window an abort drops the run's unsent fragments and disarms the site. -/
theorem State.abortRun_armed {a : ArmedRun} (ha : s.test.armed = some a) (hw : s.test.win = none) :
    s.abortRun (testRunid a.payload) = State.testRegs { s.dropFragments with test := { s.test with armed := none } } := by
  have hdrop : s.dropFragments.test = s.test := rfl
  simp only [State.abortRun, hdrop, hw, ha, if_true]

/-! ### Windows (R247, R248, R258) -/

/-- EV4 of an announced slot: in a tile, which counts the slot, and in a sender with an armed run. -/
def State.slotPulse (s : State) : State :=
  if s.tile then (s.count TS_N_SLOTS 1).raisePsqs 4 else if s.test.armed.isSome then s.raisePsqs 4 else s

/-- What the opening of a slot leaves before its window: the slot is consumed, EV4 raised, and an open window closed. -/
def State.slotBegin (s : State) : State :=
  ((State.slotPulse { s with tl := { s.tl with slots := [] } }).testRegs).winClose false

/-- The count of a slot does not touch the role, on which EV4 depends. -/
theorem State.slotPulse_eq (hs : s.Canon) (ht : t = if s.tile then s.count TS_N_SLOTS 1 else s) :
    (if t.tile || t.test.armed.isSome then t.raisePsqs 4 else t) = s.slotPulse := by
  subst ht
  unfold State.slotPulse
  cases h : s.tile with
  | false => simp [h]
  | true =>
    have hcount : (s.count TS_N_SLOTS 1).tile = true := by
      rw [← h]
      exact congrArg (fun w : Word => bitsOf w.toNat _ _ != 0) (State.reg_setReg_other hs (by decide) _)
    simp [hcount]

section
variable {sl : Nat × Nat × Nat} {sls : List (Nat × Nat × Nat)}

theorem State.withSlots_canon (hs : s.Canon) : ({ s with tl := { s.tl with slots := [] } } : State).Canon := { hs with }

/-- A slot of no armed run opens a window of no run. -/
theorem evTestWindowOpen_unarmed (hc : s.Canon) (hs : s.tl.slots = sl :: sls) (hw : s.test.win = none) (ha : s.slotBegin.test.armed = none) :
    evTestWindowOpen s = s.slotBegin.winOpen sl.1 none := by
  unfold State.slotBegin at ha ⊢
  simp only [evTestWindowOpen, hs, hw, State.slotPulse_eq (State.withSlots_canon hc) rfl, ha, Bool.false_eq_true, if_false]

/-- A slot of an armed run that has slots left opens the run's window and uses one of them. -/
theorem evTestWindowOpen_armed {a : ArmedRun} (hc : s.Canon) (hs : s.tl.slots = sl :: sls) (hw : s.test.win = none)
    (ha : s.slotBegin.test.armed = some a) (hf : a.full = false) (hl : 0 < a.left) (hu : u = s.slotBegin.winOpen sl.1 (some a)) :
    evTestWindowOpen s =
      State.testRegs { u with test := { u.test with armed := some { a with left := a.left - 1, slotno := a.slotno + 1 } } } := by
  subst hu
  have hleft : ¬ (a.full = true ∨ a.left = 0) := by simp [hf, Nat.ne_of_gt hl]
  unfold State.slotBegin at ha ⊢
  simp only [evTestWindowOpen, hs, hw, State.slotPulse_eq (State.withSlots_canon hc) rfl, ha, hleft, Bool.false_eq_true, if_false]

end

theorem evTestWindowClose_slot (h : s.fullWin = none) : evTestWindowClose s = s.winClose false := if_neg (by simp [h])

theorem evFullTestLimit_slot (h : s.fullWin = none) : evFullTestLimit s = s := if_neg (by simp [h])

theorem evFullTestPoll_slot (h : s.fullWin = none) : evFullTestPoll s = s := by
  unfold evFullTestPoll
  rw [h]

section
variable {a : ArmedRun}

theorem evTestWindowClose_full (h : s.fullWin = some a) : evTestWindowClose s = s := if_pos (by simp [h])

theorem evFullTestLimit_full (h : s.fullWin = some a) : evFullTestLimit s = s.winClose false := if_pos (by simp [h])

/-- A full run's window closes once all of its banks have ended, in either way. -/
theorem evFullTestPoll_ended (h : s.fullWin = some a) (hall : ∀ n, n ∈ s.runBanks a.payload → s.mailState n = 2 ∨ s.mailState n = 3) :
    evFullTestPoll s = s.winClose false := by
  unfold evFullTestPoll
  rw [h]
  exact if_pos (List.all_eq_true.mpr fun n hn => by simpa using hall n hn)

theorem evFullTestPoll_running {n : Nat} (h : s.fullWin = some a) (hn : n ∈ s.runBanks a.payload) (h2 : s.mailState n ≠ 2)
    (h3 : s.mailState n ≠ 3) : evFullTestPoll s = s := by
  unfold evFullTestPoll
  rw [h]
  refine if_neg fun hall => ?_
  have hend := List.all_eq_true.mp hall n hn
  simp [h2, h3] at hend

end

/-! ### Collection at the sender (R254, R256) -/

theorem evTestResRx_taken {f : TestResPkt} (h : s.senderUp r (.testRes f) = (t, true)) : evTestResRx r f s = t.testTake r.port r.hdr.src f := by
  simp [evTestResRx, h]

section
variable {g : TestRun} {ks : List Nat}

/-- Nothing is asked for while EV8 of every slot that results are due for has been raised. -/
theorem evTestCollectTimeout_quiet (hr : s.test.run = some g) (hk : (g.due.filter fun k => !g.evd.contains k) = []) :
    evTestCollectTimeout s = s := by
  simp only [evTestCollectTimeout, hr, hk, List.isEmpty_nil, if_true]

theorem evTestCollectTimeout_due (hr : s.test.run = some g) (hks : ks = g.due.filter fun k => !g.evd.contains k) (hk : ks ≠ []) :
    evTestCollectTimeout s = (g.sites.filter fun x => g.due.any fun k => !x.settled k).foldl (fun (u : State) x => u.testAsk g x)
      (State.raiseFsq { s with test := { s.test with run := some { g with evd := g.evd ++ ks } } } 8) := by
  subst hks
  have hopen : (g.due.filter fun k => !g.evd.contains k).isEmpty = false := by simpa using hk
  simp only [evTestCollectTimeout, hr, hopen, Bool.false_eq_true, if_false]

theorem evRunTimeout_unused (hr : s.test.run = some g) (hf : g.full = false) (hl : g.slot < testSlots g.payload) :
    evRunTimeout s = s.testEnd 0x0304 := by
  simp [evRunTimeout, hr, hf, hl]

theorem evRunTimeout_used (hr : s.test.run = some g) (h : g.full = true ∨ testSlots g.payload ≤ g.slot) : evRunTimeout s = s := by
  simp only [evRunTimeout, hr]
  refine if_neg ?_
  obtain h | h := h <;> simp [h]

end

end

/-- Settles O54, row by row. -/
theorem testRows : Obligations.TestRows := by
  refine ⟨fun s t r d hx => ⟨?arm, ?abort, ?resend, ?noKind⟩, ?disarm, fun s => ⟨?idle, ?slot, ?slotWindow, ?fullWindow, ?result, ?noRun,
    ?collect, ?unused, ?used⟩⟩
  case arm => exact fun ho => congrArg Host.Outcome.next (State.testPacket_op hx ho _)
  case abort => exact fun ho => congrArg Host.Outcome.next (State.testPacket_op hx ho _)
  case resend => exact fun ho => congrArg Host.Outcome.next (State.testPacket_op hx ho _)
  case noKind =>
    intro ho
    have hcount : ∀ op, 1 ≤ op → op ≤ 3 → ∀ f : State → State,
        (Host.Outcome.next (s.testPacket r d op f) : Host.Outcome State Fault Refusal) = .next (t.count TS_N_TESTERR 1) :=
      fun _ h1 h3 f => congrArg Host.Outcome.next (State.testPacket_noKind hx ho h1 h3 f)
    exact ⟨hcount 1 (by decide) (by decide) _, hcount 2 (by decide) (by decide) _, hcount 3 (by decide) (by decide) _⟩
  case disarm =>
    rintro s _ a ha rfl hw
    exact ⟨_, State.abortRun_armed ha hw, rfl, rfl⟩
  case idle =>
    refine fun hs => congrArg Host.Outcome.next ?_
    unfold evTestWindowOpen
    rw [hs]
  case slot =>
    rintro sl sls t u hc hs hw rfl rfl
    refine ⟨fun ha => congrArg Host.Outcome.next (evTestWindowOpen_unarmed hc hs hw ha), ?_⟩
    rintro a v ha hf hl rfl
    exact congrArg Host.Outcome.next (evTestWindowOpen_armed hc hs hw ha hf hl rfl)
  case slotWindow =>
    exact fun h => ⟨congrArg Host.Outcome.next (evTestWindowClose_slot h), congrArg Host.Outcome.next (evFullTestPoll_slot h),
      congrArg Host.Outcome.next (evFullTestLimit_slot h)⟩
  case fullWindow =>
    exact fun a h => ⟨congrArg Host.Outcome.next (evTestWindowClose_full h), congrArg Host.Outcome.next (evFullTestLimit_full h),
      fun hall => congrArg Host.Outcome.next (evFullTestPoll_ended h hall),
      fun n hn h2 h3 => congrArg Host.Outcome.next (evFullTestPoll_running h hn h2 h3)⟩
  case result => exact fun r f t h => congrArg Host.Outcome.next (evTestResRx_taken h)
  case noRun =>
    refine fun h => ⟨congrArg Host.Outcome.next ?_, congrArg Host.Outcome.next ?_⟩
    · unfold evTestCollectTimeout
      rw [h]
    · unfold evRunTimeout
      rw [h]
  case collect =>
    rintro g ks t hr rfl
    refine ⟨fun hk => congrArg Host.Outcome.next (evTestCollectTimeout_quiet hr hk), ?_⟩
    rintro hk rfl
    exact congrArg Host.Outcome.next (evTestCollectTimeout_due hr rfl hk)
  case unused => exact fun g hr hf hl => congrArg Host.Outcome.next (evRunTimeout_unused hr hf hl)
  case used => exact fun g hr h => congrArg Host.Outcome.next (evRunTimeout_used hr h)

end Sys2Proof.Machine
end

section
/-! PROOFS. WCP requests: uploads, programs, staging and sequencers (O60). -/

namespace Sys2Proof.Machine

/-- A fold that only one element of a list without repetition moves is one step with that element. -/
theorem foldl_eq_of_only {α β : Type} {g : α → β → α} {i : β} (hg : ∀ a j, j ≠ i → g a j = a) {l : List β} (hn : l.Nodup)
    (hi : i ∈ l) (a : α) : l.foldl g a = g a i := by
  induction l generalizing a with
  | nil => exact absurd hi List.not_mem_nil
  | cons j l ih =>
    rw [List.nodup_cons] at hn
    rw [List.foldl_cons]
    by_cases hj : j = i
    · subst hj
      exact l.foldlRecOn (motive := fun b => b = g a j) g rfl fun b hb k hk => (hg b k fun e => hn.1 (e ▸ hk)).trans hb
    · rw [hg a j hj, ih hn.2 ((List.mem_cons.mp hi).resolve_left (Ne.symm hj))]

section
variable {s : State} {x : Session} {k n h : Nat} {b : List Byte}

/-! ### Uploads (R513) -/

/-- The bytes that the open uploads of all sessions have announced. -/
def State.uploadSpace (s : State) : Nat := (s.sessions.flatMap fun y => y.uploads.map fun u => u.len).sum

/-- A session with fewer than four uploads has a handle of 1 to 4 free. -/
theorem Session.freeHandle (hx : x.uploads.length < 4) : ∃ h, [1, 2, 3, 4].find? (fun h => (x.upload h).isNone) = some h := by
  by_contra hnone
  rw [← Option.isSome_iff_exists, Option.not_isSome_iff_eq_none, List.find?_eq_none] at hnone
  have hused : [1, 2, 3, 4] ⊆ x.uploads.map Upload.handle := fun h hh => by
    have hsome := hnone h hh
    obtain ⟨u, hu⟩ := Option.ne_none_iff_exists'.mp fun hn : x.upload h = none => hsome (by rw [hn]; rfl)
    exact List.mem_map.mpr ⟨u, List.mem_of_find?_eq_some hu, eq_of_beq (List.find?_some hu :)⟩
  have hlen := (List.subperm_of_subset (by decide) hused).length_le
  rw [List.length_map] at hlen
  exact Nat.not_le.mpr hx hlen

theorem State.uploadOpen_room (hk : k < 7) (hb : b.length = 48) (ht : s.tile = false) (hx : x.uploads.length < 4)
    (hs : s.uploadSpace + n ≤ 67108864) : ∃ h, (1 ≤ h ∧ h ≤ 4) ∧ x.upload h = none ∧ s.uploadOpen x k n b =
      (s.updSess x.id fun y => { y with uploads := y.uploads ++
        [{ handle := h, kind := k, len := n, digest := b, data := [], next := 0, closed := false, last := s.life }] },
        some (0, [BitVec.ofNat 8 h])) := by
  obtain ⟨h, hh⟩ := Session.freeHandle hx
  have hmem : h ∈ [1, 2, 3, 4] := List.mem_of_find?_eq_some hh
  have hfmt : ¬ (7 ≤ k ∨ b.length ≠ 48) := by omega
  have hfull : ¬ (4 ≤ x.uploads.length ∨ 67108864 < (s.sessions.flatMap fun y => y.uploads.map fun u => u.len).sum + n) := by
    unfold State.uploadSpace at hs
    omega
  refine ⟨h, by simp at hmem; omega, Option.isNone_iff_eq_none.mp (List.find?_some hh :), ?_⟩
  simp only [State.uploadOpen, hfmt, ht, hfull, hh, Option.getD_some, Bool.false_and, Bool.false_eq_true, if_false]

theorem State.uploadOpen_full (hk : k < 7) (hb : b.length = 48) (ht : s.tile = false)
    (hfull : 4 ≤ x.uploads.length ∨ 67108864 < s.uploadSpace + n) : s.uploadOpen x k n b = s.rep 0x0104 := by
  have hfmt : ¬ (7 ≤ k ∨ b.length ≠ 48) := by omega
  unfold State.uploadSpace at hfull
  simp only [State.uploadOpen, hfmt, ht, hfull, Bool.false_and, Bool.false_eq_true, if_false, if_true]

theorem State.uploadData_unknown (hx : x.upload h = none) : s.uploadData x h k b = s.rep 0x0102 := by
  simp only [State.uploadData, hx]

theorem State.uploadClose_unknown (hx : x.upload h = none) : s.uploadClose x h = s.rep 0x0102 := by
  simp only [State.uploadClose, hx]

section
variable {u : Upload}

theorem State.uploadData_beyond (hx : x.upload h = some u) (hl : u.len < k + b.length) : s.uploadData x h k b = s.rep 0x0102 := by
  simp only [State.uploadData, hx, hl, or_true, if_true]

theorem State.uploadData_outOfOrder (hx : x.upload h = some u) (hc : u.closed = false) (hl : k + b.length ≤ u.len) (ht : s.tile = true)
    (hk : k ≠ u.next) : s.uploadData x h k b = s.rep 0x0105 := by
  simp [State.uploadData, hx, hc, ht, hk, Nat.not_lt.mpr hl]

theorem State.uploadData_taken (hx : x.upload h = some u) (hc : u.closed = false) (hl : k + b.length ≤ u.len)
    (hk : s.tile = false ∨ k = u.next) : s.uploadData x h k b =
      (s.updSess x.id fun y => { y with uploads := y.uploads.map fun o => if o.handle = h then
        { u with data := SMap.setList (fun _ => (0 : Byte)) u.data k b, next := k + b.length, last := s.life } else o }).rep 0 := by
  have hin : ¬ (u.closed = true ∨ u.len < k + b.length) := by simp [hc, Nat.not_lt.mpr hl]
  have hord : ¬ (s.tile = true ∧ k ≠ u.next) := by
    obtain hk | hk := hk <;> simp [hk]
  simp only [State.uploadData, hx, hin, hord, if_false]

theorem State.uploadClose_digest (hx : x.upload h = some u) (hc : u.closed = false) (hd : Config.sha384 u.bytes ≠ u.digest) :
    s.uploadClose x h = (s.release x.id h).rep 0x0103 := by
  simp [State.uploadClose, hx, hc, hd]

theorem State.uploadClose_refused (hx : x.upload h = some u) (hc : u.closed = false) (hd : Config.sha384 u.bytes = u.digest)
    (hk : (s.kindCheck u.kind u.bytes).2 ≠ 0) : s.uploadClose x h =
      ((s.kindCheck u.kind u.bytes).1.release x.id h).rep (s.kindCheck u.kind u.bytes).2 := by
  simp [State.uploadClose, hx, hc, hd, hk]

theorem State.uploadClose_closed (hx : x.upload h = some u) (hc : u.closed = false) (hd : Config.sha384 u.bytes = u.digest)
    (hk : (s.kindCheck u.kind u.bytes).2 = 0) : s.uploadClose x h =
      ((s.kindCheck u.kind u.bytes).1.updSess x.id fun y => { y with uploads := y.uploads.map fun o =>
        if o.handle = h then { o with closed := true } else o }).rep 0 := by
  simp [State.uploadClose, hx, hc, hd, hk]

end

/-! ### Programs and staging (R75, R501, R514, R515) -/

section
variable {p : List Byte} {f : Fprog}

theorem State.progLoad_unknown (hx : x.content h [0, 1] = none) : s.progLoad x h = s.rep 0x0102 := by
  simp only [State.progLoad, hx]

/-- PROG_LOAD of a frame program releases the handle with whatever status it has. -/
theorem State.progLoad_frame {t : State} {st : Nat} (hx : x.content h [0, 1] = some (0, p)) (hl : s.fprogLoad p = (t, st)) :
    s.progLoad x h = (t.release x.id h).rep st := by
  simp only [State.progLoad, hx, hl, if_true]

theorem State.progLoad_drive (hx : x.content h [0, 1] = some (1, p)) :
    s.progLoad x h = ((s.dsetLoad p).1.release x.id h).rep (s.dsetLoad p).2 := by
  simp only [State.progLoad, hx, Nat.one_ne_zero, if_false]

theorem State.fprogLoad_stopped {t u : State} (hp : parseFprog p = some f) (ha : s.fprogAdmit f = 0) (hr : s.flag FSQ_STAT_RUN = false)
    (ht : t = { s with comp := { s.comp with staged := some (f.dl, f.eng, f.zl) } })
    (hu : u = (State.setSeq t 8 { t.seq 8 with staged := some (some f.image) }).imageSwitch 8) :
    s.fprogLoad p = (u.recordAdmit u.accLayers, 0) := by
  have hnow : s.fprogNow f = u.recordAdmit u.accLayers := by rw [hu, ht, State.fprogNow]
  simp [State.fprogLoad, hp, ha, hr, hnow]

theorem State.fprogLoad_running (hp : parseFprog p = some f) (ha : s.fprogAdmit f = 0) (hr : s.flag FSQ_STAT_RUN = true)
    (ho : s.stageOpen = false) : s.fprogLoad p = (s.fprogStage f p (s.fcnt + s.getF FW_STG_CFG_LEAD), 0) := by
  simp [State.fprogLoad, hp, ha, hr, ho]

theorem State.fprogLoad_overBudget (hp : parseFprog p = some f) (ha : s.fprogAdmit f ≠ 0) :
    s.fprogLoad p = (s.count TEN_N_BUDGET 1, 0x0205) := by
  simp [State.fprogLoad, hp, ha]

section
variable {ports : Nat} {sites : List (BitVec 64)}

theorem State.wcpStage_unknown (hx : x.content h [0, 1, 2] = none) : s.wcpStage x h k ports sites = s.rep 0x0102 := by
  simp only [State.wcpStage, hx]

theorem State.wcpStage_busy (hx : x.content h [0, 1, 2] ≠ none) (ho : s.stageOpen = true) : s.wcpStage x h k ports sites = s.rep 0x0507 := by
  obtain ⟨c, hc⟩ := Option.ne_none_iff_exists'.mp hx
  simp only [State.wcpStage, hc, ho, if_true]

theorem State.wcpStage_frame (hx : x.content h [0, 1, 2] = some (0, p)) (ho : s.stageOpen = false) (hp : parseFprog p = some f)
    (ha : s.fprogAdmit f = 0) : s.wcpStage x h k ports sites = ((s.fprogStage f p (k % 2 ^ 40)).release x.id h).rep 0 := by
  simp [State.wcpStage, hx, ho, hp, ha]

/-- An image of the tiles is staged to the positions that the request names. -/
theorem State.wcpStage_tiles {c : Nat} (hx : x.content h [0, 1, 2] = some (c, p)) (hc : c ≠ 0) (ho : s.stageOpen = false) :
    s.wcpStage x h k ports sites = ((s.stageBegin (if c = 1 then 0 else 1) (k % 2 ^ 40) p ((List.range 8).flatMap fun a =>
      ((List.range 64).filter fun i => ports.testBit a && (sites.getD a 0).getLsbD i).map fun i => (a, i))).release x.id h).rep 0 := by
  simp only [State.wcpStage, hx, ho, hc, Bool.false_eq_true, if_false]

end

end

theorem length_leBytes (n v : Nat) : (leBytes n v).length = n := by
  induction n generalizing v with
  | zero => rfl
  | succ n ih => rw [leBytes, List.length_cons, ih]

/-- STAGE_STATUS begins with the three registers and the size of the group, in 16 bytes. -/
theorem State.take_stageStatusBytes (m : Nat) : (s.stageStatusBytes m).take 16 = leBytes 4 (s.reg FW_STG_STAT).toNat ++
    leBytes 4 (s.reg FW_STG_F_LO).toNat ++ leBytes 4 (s.reg FW_STG_F_HI).toNat ++ leBytes 4 (s.getF FW_STG_N_GROUP) :=
  List.take_left' (by simp only [List.length_append, length_leBytes])

/-! ### Sequencers (R36, R514) -/

section
variable {v : List Nat}

/-- A mask whose low half names the FSQ alone names no PSQ. -/
theorem testBit_of_fsqMask (hm : n % 65536 = 1) {j : Nat} (hj : j < 16) : n.testBit j = decide (0 = j) := by
  have hlow : (n % 2 ^ 16).testBit j = n.testBit j := by rw [Nat.testBit_mod_two_pow, decide_eq_true hj, Bool.true_and]
  rw [← hlow, show n % 2 ^ 16 = 2 ^ 0 from hm, Nat.testBit_two_pow]

theorem State.seqStart_fsq (hm : n % 65536 = 1) : s.seqStart n v = s.fsqStart := by
  have h0 : n.testBit 0 = true := testBit_of_fsqMask hm (by decide)
  unfold State.seqStart
  rw [h0, if_pos rfl]
  refine (List.range 8).foldlRecOn (motive := fun r => r = s.fsqStart) _ rfl fun r hr j hj => ?_
  have hoff : n.testBit (8 + j) = false := by
    rw [testBit_of_fsqMask hm (by have := List.mem_range.mp hj; omega), decide_eq_false (by omega)]
  rw [hoff, if_neg Bool.false_ne_true, hr]

theorem State.fsqStart_active (ha : s.active = true) : s.fsqStart = (s.fsqRun, 0) := if_pos ha

theorem State.fsqStart_inactive (ha : s.active = false) : s.fsqStart = (s, 0x0004) := if_neg (Bool.eq_false_iff.mp ha)

theorem testBit_psqMask (i j : Nat) : (2 ^ (8 + i)).testBit (8 + j) = decide (i = j) := by
  rw [Nat.testBit_two_pow, decide_eq_decide]
  omega

theorem State.seqStart_psq {i : Nat} (hi : i < 8) : s.seqStart (2 ^ (8 + i)) v = s.psqStart i (v.getD i 0) := by
  have h0 : (2 ^ (8 + i)).testBit 0 = false := by rw [Nat.testBit_two_pow, decide_eq_false (by omega)]
  unfold State.seqStart
  rw [h0, if_neg Bool.false_ne_true, foldl_eq_of_only (i := i) _ List.nodup_range (List.mem_range.mpr hi)]
  · simp only [testBit_psqMask, decide_true, if_true, bne_self_eq_false, Bool.false_eq_true, if_false]
  · intro r j hj
    simp only [testBit_psqMask, decide_eq_false (Ne.symm hj), Bool.false_eq_true, if_false]

theorem State.seqStop_psq {i : Nat} (hi : i < 8) : s.seqStop (2 ^ (8 + i)) = s.psqStop i := by
  unfold State.seqStop
  rw [foldl_eq_of_only (i := i) _ List.nodup_range (List.mem_range.mpr hi)]
  · simp only [testBit_psqMask, decide_true, if_true]
  · intro r j hj
    simp only [testBit_psqMask, decide_eq_false (Ne.symm hj), Bool.false_eq_true, if_false]

end

end

end Sys2Proof.Machine
end

section
/-! PROOFS. WCP requests: sources, layers, surfaces, blend orders, damage, status and logs (O60). -/

namespace Sys2Proof.Machine

section
variable {s : State} {x : Session} {t k n : Nat} {b : List Byte}

/-! ### Sources (R82 to R87) -/

section
variable {d : Sdp} {sh i a : Nat}

theorem State.bind_malformed (hd : sdpOk d = false) : s.bind t sh d = s.ans 0x0207 := if_pos (by rw [hd]; rfl)

theorem State.bind_noRoom (hd : sdpOk d = true) (hf : s.bindFits d = false) : s.bind t sh d = s.ans 0x0208 := by
  simp only [State.bind, hd, hf, Bool.not_true, Bool.not_false, Bool.false_eq_true, if_false, if_true]

theorem State.bind_bound (hd : sdpOk d = true) (hf : s.bindFits d = true) (hi : s.freeStream d.video = some i)
    (ha : s.allocDdr (sdpSpace d) = some a) : s.bind t sh d =
      ((s.addBinding { index := i, tenant := t, share := sh, sdp := d } a).litReturn, 0, [BitVec.ofNat 8 i]) := by
  simp only [State.bind, hd, hf, hi, ha, Bool.not_true, Bool.false_eq_true, if_false]

end

theorem State.unbind_unknown (hn : s.src.find? (fun b => b.b.index == n) = none) : s.unbind t n = s.ans 0x0203 := by
  simp only [State.unbind, hn]

theorem State.unbind_bound {c : Bound} (hc : s.src.find? (fun b => b.b.index == n) = some c) (ht : t = 0 ∨ c.b.tenant = t) :
    s.unbind t n = ((if n < 16 then s.clearSlots (s.readers n) else s).endBinding n).ans 0 := by
  have hmine : ¬ (t ≠ 0 ∧ c.b.tenant ≠ t) := by tauto
  simp only [State.unbind, hc, hmine, if_false]

theorem State.unbind_foreign {c : Bound} (hc : s.src.find? (fun b => b.b.index == n) = some c) (h0 : t ≠ 0) (ht : c.b.tenant ≠ t) :
    s.unbind t n = s.ans 0x0003 := by
  simp only [State.unbind, hc, h0, ht, ne_eq, not_false_eq_true, and_self, if_true]

/-! ### Layers and surfaces (R100, R101, R106, R108) -/

section
variable {cls : Nat} {d ws : List Word} {l : Layer} {m : SMap Word}

/-- LAYER_SET of a slot named by its number, up to admission. -/
theorem State.layerSet_inRange (hn : n < 63) (ht : s.slotTenant n = some t) (hws : ws = descWords t d)
    (hl : l = decodeLayer n fun i => (ws.getD i 0).toNat) (hv : l.video = true → s.mayRead t l.stream = true) (hr : s.layerRange t l = true)
    (hm : m = putDesc s.comp.acc n ws) : s.layerSet t n cls d =
      if s.admitOk (layersOf m) || s.reduces t s.accLayers (layersOf m) then (s.acceptDesc m [n], 0, [BitVec.ofNat 8 n])
      else (s.count TEN_N_BUDGET 1).ans 0x0205 := by
  subst hws hl hm
  have hmid : ¬ (64 ≤ n ∧ n ≤ 254) := by omega
  have h255 : n ≠ 255 := by omega
  have hread : ((decodeLayer n fun i => ((descWords t d).getD i 0).toNat).video &&
      !s.mayRead t (decodeLayer n fun i => ((descWords t d).getD i 0).toNat).stream) = false := by
    cases hvid : (decodeLayer n fun i => ((descWords t d).getD i 0).toNat).video with
    | false => rfl
    | true => rw [hv hvid]; rfl
  simp only [State.layerSet, hmid, h255, ht, hread, hr, false_and, or_self, bne_self_eq_false, Bool.not_true, Bool.false_eq_true, if_false]

theorem State.layerSet_foreign (hn : n < 63) (ht : s.slotTenant n ≠ some t) : s.layerSet t n cls d = s.ans 0x0201 := by
  have hmid : ¬ (64 ≤ n ∧ n ≤ 254) := by omega
  have h255 : n ≠ 255 := by omega
  simp only [State.layerSet, hmid, h255, bne_iff_ne.mpr ht, false_and, or_self, if_false, if_true]

end

theorem State.layerClear_refused (h : s.slotCheck t n ≠ 0) : s.layerClear t n = s.ans (s.slotCheck t n) := if_pos (bne_iff_ne.mpr h)

theorem State.layerClear_cleared (h : s.slotCheck t n = 0) : s.layerClear t n = (s.clearSlots [n]).ans 0 := if_neg (by rw [h]; decide)

theorem State.surfaceFlip_refused (h : s.slotCheck t n ≠ 0) : s.surfaceFlip t n = s.ans (s.slotCheck t n) := if_pos (bne_iff_ne.mpr h)

theorem State.surfaceFlip_video (h : s.slotCheck t n = 0) (hn : n < 16) : s.surfaceFlip t n = s.ans 0x0204 := by
  simp [State.surfaceFlip, h, hn]

theorem State.surfaceFlip_graphic (h : s.slotCheck t n = 0) (hn : 16 ≤ n) : s.surfaceFlip t n = State.ans { s with comp := { s.comp with
    acc := SMap.set regReset s.comp.acc (COMP_DESC n 0) (SMap.get regReset s.comp.acc (COMP_DESC n 0) ^^^ 0x20000),
    touched := (s.comp.touched ++ [n]).dedup } } 0 := by
  exact (if_neg (by rw [h]; decide)).trans (if_neg (Nat.not_lt.mpr hn))

section
variable {id : Nat} {q : Word}

theorem State.surfaceWrite_refused (h : s.slotCheck t n ≠ 0) : s.surfaceWrite id q t n k b = s.rep (s.slotCheck t n) :=
  if_pos (bne_iff_ne.mpr h)

theorem State.surfaceWrite_video (h : s.slotCheck t n = 0) (hn : n < 16) : s.surfaceWrite id q t n k b = s.rep 0x0204 := by
  simp [State.surfaceWrite, State.rep, h, hn]

/-- A write to a slot with no change pending reaches the hidden buffer at once. -/
theorem State.surfaceWrite_now (h : s.slotCheck t n = 0) (hn : 16 ≤ n) (ht : n ∉ s.comp.touched) (hh : ∀ h ∈ s.comp.held, h.slot ≠ n) :
    s.surfaceWrite id q t n k b = Ans.rep (s.surfacePut t n k b) := by
  have hheld : (s.comp.held.any fun h => h.slot == n) = false := by simpa using hh
  have hvid : ¬ n < 16 := Nat.not_lt.mpr hn
  simp [State.surfaceWrite, Ans.rep, h, hvid, ht, hheld]

/-- A write to a slot with a pending change is held until the tick has applied it. -/
theorem State.surfaceWrite_held (h : s.slotCheck t n = 0) (hn : 16 ≤ n) (ht : n ∈ s.comp.touched) : s.surfaceWrite id q t n k b =
    ({ s with comp := { s.comp with held := s.comp.held ++
      [{ sess := id, seq := q, slot := n, offset := k, data := b, gen := s.comp.gen, applied := false }] } }, none) := by
  have hvid : ¬ n < 16 := Nat.not_lt.mpr hn
  simp [State.surfaceWrite, h, hvid, ht]

end

/-! ### Blend orders, coefficients and damage (R104, R113, R121) -/

theorem State.zlistSet_malformed (h : 256 ≤ n ∨ b.length ≠ 64) : s.zlistSet n b = s.ans 0x0001 := if_pos h

/-- The registers with a blend order in them. -/
def putZlist (m : SMap Word) (n : Nat) (b : List Byte) : SMap Word :=
  (List.range 16).foldl (fun a i => SMap.set regReset a (COMP_ZLIST n i) ((zlistWords b).getD i 0)) m

theorem State.zlistSet_taken (hn : n < 256) (hb : b.length = 64) (hz : zlistOk b = true) (ha : s.admitOk s.accLayers = true) :
    s.zlistSet n b = State.ans { s with comp := { s.comp with
      acc := putZlist s.comp.acc n b, ztouched := (s.comp.ztouched ++ [n]).dedup } } 0 := by
  have hfmt : ¬ (256 ≤ n ∨ b.length ≠ 64) := by omega
  simp only [State.zlistSet, hfmt, hz, ha, Bool.not_true, Bool.false_eq_true, if_false]
  rfl

/-- Of keys that a list of writes gives one value each, each reads its value, and other keys of the family read as before. -/
theorem SMap.get_foldl_set {α : Type} [DecidableEq α] {e : Nat → α} {key : Nat → Nat} (hkey : ∀ i j, key i = key j → i = j)
    (val : Nat → α) (l : List Nat) {m : SMap α} (hw : SMap.wf e m = true) (j : Nat) :
    SMap.get e (l.foldl (fun a i => SMap.set e a (key i) (val i)) m) (key j) = if j ∈ l then val j else SMap.get e m (key j) := by
  induction l generalizing m with
  | nil => rfl
  | cons i l ih =>
    rw [List.foldl_cons, ih (SMap.wf_set hw)]
    by_cases hl : j ∈ l
    · rw [if_pos hl, if_pos (List.mem_cons_of_mem i hl)]
    · by_cases hji : j = i
      · subst hji
        rw [if_neg hl, if_pos List.mem_cons_self, SMap.get_set_same hw]
      · rw [if_neg hl, if_neg (by simp [hji, hl]), SMap.get_set_other hw (fun he => hji (hkey j i he))]

theorem get_putZlist {m : SMap Word} (hw : SMap.wf regReset m = true) {i : Nat} (hi : i < 16) :
    SMap.get regReset (putZlist m n b) (COMP_ZLIST n i) = (zlistWords b).getD i 0 := by
  have hkey : ∀ i j, COMP_ZLIST n i = COMP_ZLIST n j → i = j := fun i j h => by
    simp only [COMP_ZLIST] at h
    omega
  unfold putZlist
  rw [SMap.get_foldl_set hkey _ _ hw, if_pos (List.mem_range.mpr hi)]

section
variable {ax : Nat} {cs : List (BitVec 16)}

theorem State.coefSet_malformed (h : 16 ≤ n ∨ 2 ≤ ax ∨ cs.length ≠ 64 * (if ax = 0 then 8 else 6)) : s.coefSet n ax cs = s.ans 0x0001 :=
  if_pos h

theorem State.coefSet_taken (hn : n < 16) (ha : ax < 2) (hc : cs.length = 64 * (if ax = 0 then 8 else 6)) :
    ∃ c, s.coefSet n ax cs = State.ans { s with comp := { s.comp with coef := c } } 0 :=
  ⟨_, if_neg (by omega)⟩

end

section
variable {rs : List (Nat × Nat × Nat × Nat)}

theorem State.damageHint_tooMany (h : 64 < rs.length) : s.damageHint t rs = s.ans 0x0001 := if_pos h

/-- The bands that a DAMAGE request marks: those that a rectangle meets and an enabled layer of the tenant covers. -/
def State.hintBands (s : State) (t : Nat) (rs : List (Nat × Nat × Nat × Nat)) : List (Nat × Nat × Nat) :=
  (allBands s.live).filter fun z => (rs.any fun r => bandMeets (geoOf s.live z.1 z.2.1) z.2.2 r) &&
    ((layersOf s.regs).filter fun l => l.tenant == t).any fun l => l.covers (geoOf s.live z.1 z.2.1) z.2.2

theorem State.damageHint_marks (h : rs.length ≤ 64) : s.damageHint t rs = (s.damageBands (s.hintBands t rs)).ans 0 :=
  if_neg (Nat.not_lt.mpr h)

theorem State.mem_hintBands {z : Nat × Nat × Nat} (hz : z ∈ s.hintBands t rs) :
    z ∈ allBands s.live ∧ ∃ r ∈ rs, bandMeets (geoOf s.live z.1 z.2.1) z.2.2 r = true := by
  obtain ⟨hall, hmeets⟩ := List.mem_filter.mp hz
  exact ⟨hall, List.any_eq_true.mp (Bool.and_eq_true_iff.mp hmeets).1⟩

end

/-! ### Requests that a tile answers (R162, R512) -/

theorem State.askTile_sent {p q op : Nat} {seq : Word} (hs : s.sender = true) (ha : s.active = true) (hp : p < 8)
    (he : (s.tileAt p q).enumerated = true) : s.askTile x seq p q op b = (s.ctrlSend p q op b (some (x.id, seq)), none) :=
  if_pos (by simp [hs, ha, hp, he])

/-! ### Status, events and the log (R339, R517) -/

theorem statusRegs_noItem {i p j : Nat} (h : 5 < i) : statusRegs i n p j = none := by
  have h0 : i ≠ 0 := by omega
  have h1 : i ≠ 1 := by omega
  have h2 : i ≠ 2 := by omega
  have h3 : i ≠ 3 := by omega
  have h4 : i ≠ 4 := by omega
  have h5 : i ≠ 5 := by omega
  simp only [statusRegs, h0, h1, h2, h3, h4, h5, if_false]

theorem State.statusRead_noItem {i p j m : Nat} (h : 5 < i) : s.statusRead i n p j m = s.rep 0x0001 := by
  unfold State.statusRead
  rw [statusRegs_noItem h]

theorem State.statusRead_item {i p j m : Nat} {rg : List Nat} (h : statusRegs i n p j = some rg) : s.statusRead i n p j m =
    (s, some (0, (rg.take ((m - 16) / 4)).flatMap fun a => leBytes 4 (s.statusWord a).toNat)) := by
  unfold State.statusRead
  rw [h]

/-- The events asked for are lost where the oldest one kept is newer than the first. -/
theorem Session.eventRead_lost {e : Word} {l : EventMsg} {m : Nat} (hl : x.events.reverse.head? = some l) (hn : newer l.eseq e = true) :
    (x.eventRead e m).1 = 9 := by
  obtain ⟨es, hes⟩ := List.head?_eq_some_iff.mp hl
  simp only [Session.eventRead, hes, hn, if_true]

end

end Sys2Proof.Machine
end

section
/-! PROOFS. WCP requests: tenants, the owner's data, debug, tests and proof of play (O60). -/

namespace Sys2Proof.Machine

/-! ### What journal records and log entries leave (R339, R387) -/

/-- Between s and t only what journal records and log entries move may differ: registers, the journal, the store and the security log. -/
structure RecordOnly (s t : State) : Prop where
  frame : t = { s with regs := t.regs, nvj := t.nvj, sto := t.sto, hea := { s.hea with log := t.hea.log } }

namespace RecordOnly

variable {s t u : State}

theorem refl : RecordOnly s s := ⟨rfl⟩

theorem trans (h : RecordOnly s t) (h' : RecordOnly t u) : RecordOnly s u := ⟨by rw [h'.frame, h.frame]⟩

theorem foldl {β : Type} {f : State → β → State} (hf : ∀ u x, RecordOnly u (f u x)) (l : List β) : RecordOnly s (l.foldl f s) :=
  l.foldlRecOn f refl fun u hu x _ => hu.trans (hf u x)

theorem setReg (h : RecordOnly s t) (a : Nat) (v : Word) : RecordOnly s (t.setReg a v) := h.trans ⟨rfl⟩

theorem setF (h : RecordOnly s t) (f : Field) (v : Nat) : RecordOnly s (t.setF f v) := h.setReg _ _

theorem setFlag (h : RecordOnly s t) (f : Field) (b : Bool) : RecordOnly s (t.setFlag f b) := h.setF _ _

theorem count (h : RecordOnly s t) (a n : Nat) : RecordOnly s (t.count a n) := h.setReg _ _

theorem setPair (h : RecordOnly s t) (a v : Nat) : RecordOnly s (t.setPair a v) := h.trans ⟨rfl⟩

theorem hea (h : RecordOnly s t) : t.hea = { s.hea with log := t.hea.log } := by rw [h.frame]

theorem pop (h : RecordOnly s t) : t.pop = s.pop := by rw [h.frame]

theorem sessions (h : RecordOnly s t) : t.sessions = s.sessions := by rw [h.frame]

end RecordOnly

section
variable {s : State}

theorem State.nvjRegs_recordOnly : RecordOnly s s.nvjRegs := (((RecordOnly.refl.setF _ _).setReg _ _).setReg _ _).setF _ _

theorem State.journal_recordOnly (typ key n : Nat) : RecordOnly s (s.journal typ key n) := by
  unfold State.journal
  extract_lets r t
  have ht : RecordOnly s t := ⟨rfl⟩
  exact ((ht.count _ _).count _ _).trans State.nvjRegs_recordOnly

theorem State.journalOwner_recordOnly : RecordOnly s s.journalOwner := State.journal_recordOnly _ _ _

theorem State.journalKeys_recordOnly : RecordOnly s s.journalKeys := State.journal_recordOnly _ _ _

theorem State.journalBilling_recordOnly : RecordOnly s s.journalBilling := State.journal_recordOnly _ _ _

theorem State.protectRegs_recordOnly : RecordOnly s s.protectRegs := by
  unfold State.protectRegs
  split <;> exact (RecordOnly.refl.setF _ _).setFlag _ _

theorem State.heaRegs_recordOnly : RecordOnly s s.heaRegs := (((RecordOnly.refl.setFlag _ _).setReg _ _).setF _ _).setFlag _ _

theorem State.popRegs_recordOnly : RecordOnly s s.popRegs :=
  ((((RecordOnly.refl.setFlag _ _).setF _ _).setF _ _).setReg _ _).setPair _ _

theorem State.slotRegs_recordOnly (kind : Nat) : RecordOnly s (s.slotRegs kind) := by
  unfold State.slotRegs
  extract_lets a t1 t2 t3 t4 t5 t6
  have h6 : RecordOnly s t6 := (((((RecordOnly.refl.setF _ _).setFlag _ _).setF _ _).setF _ _).setFlag _ _).setF _ _
  split
  · exact h6.trans (.foldl (fun _ _ => ((RecordOnly.refl.setF _ _).setFlag _ _).setF _ _) _)
  · exact h6

theorem State.nandRegs_recordOnly : RecordOnly s s.nandRegs := ((((RecordOnly.refl.setReg _ _).setReg _ _).setF _ _).setF _ _).setF _ _

theorem State.emptyCopy_recordOnly (kind c : Nat) : RecordOnly s (s.emptyCopy kind c) := by
  have hput : RecordOnly s (s.putCopy kind c CopySt.init) := ⟨rfl⟩
  exact ((hput.trans (State.journal_recordOnly _ _ _)).trans (State.slotRegs_recordOnly _)).trans State.nandRegs_recordOnly

/-- The session registers follow; nothing else moves. -/
theorem State.sessRegs_recordOnly : RecordOnly s s.sessRegs := by
  unfold State.sessRegs
  extract_lets ten t1 t2 t3
  have h3 : RecordOnly s t3 := ⟨rfl⟩
  split
  · exact h3
  · exact h3.trans (.foldl (fun _ _ => ⟨rfl⟩) _)

/-- Of what is neither a register nor a session, an end of sessions moves nothing. -/
theorem State.closeSess_recordOnly (f : Session → Bool) :
    RecordOnly { s with sessions := s.sessions.filter fun y => !f y } (s.closeSess f) := State.sessRegs_recordOnly

theorem State.sessions_closeSess (f : Session → Bool) : (s.closeSess f).sessions = s.sessions.filter fun y => !f y :=
  (State.closeSess_recordOnly f).sessions

theorem State.secLog_recordOnly (code : Nat) (detail : List Byte) : RecordOnly s (s.secLog code detail) := by
  unfold State.secLog
  extract_lets d life same src prev seq e0 e t0 t src'
  split
  · exact ⟨rfl⟩
  · have ht : RecordOnly s t := by
      unfold t
      split
      · exact (RecordOnly.refl.setReg _ _).setFlag _ _
      · exact RecordOnly.refl.setReg _ _
    exact ht.trans ⟨rfl⟩

/-! ### Tenants (R345 to R349) -/

section
variable {n k : Nat} {c : TenantRec}

theorem State.tenantSet_noSlot (h : 16 ≤ n) : s.tenantSet n c = s.ans 0x0001 := if_pos h

theorem State.tenantSet_unowned (hn : n < 16) (ho : s.hea.owner = none) : s.tenantSet n c = (s.count TEN_N_CERT_CHAIN 1).ans 0x020C := by
  simp only [State.tenantSet, Nat.not_le.mpr hn, ho, Bool.not_false, if_false, if_true]

theorem State.tenantRemove_refused (h : n = 0 ∨ 16 ≤ n ∨ SMap.get (fun _ => none) s.hea.tenants n = none) :
    s.tenantRemove n = s.ans 0x0001 := by
  unfold State.tenantRemove
  split
  · rfl
  · next hslot =>
    rw [show SMap.get (fun _ => none) s.hea.tenants n = none by tauto]

/-- A removed tenant has no session, and its records end at the next tick. -/
theorem State.tenantRemove_removed (h0 : 0 < n) (hn : n < 16) (hc : SMap.get (fun _ => none) s.hea.tenants n = some c) :
    ∃ t : State, s.tenantRemove n = t.ans 0 ∧ (∀ y ∈ t.sessions, y.tenant ≠ n) ∧ n ∈ t.comp.endTen := by
  have hslot : ¬ (n = 0 ∨ 16 ≤ n) := by omega
  simp only [State.tenantRemove, hslot, hc, if_false]
  refine ⟨_, rfl, fun y hy => ?_, ?_⟩
  · have hlog : y ∈ (State.secLog _ _ _).sessions := hy
    rw [(State.secLog_recordOnly _ _).sessions, State.sessions_closeSess] at hlog
    simpa using (List.mem_filter.mp hlog).2
  · simp

theorem State.slotAssign_refused (h : 63 ≤ n ∨ (16 ≤ k ∧ k ≠ 255)) : s.slotAssign n k = s.ans 0x0001 := if_pos h

theorem State.slotAssign_free (hn : n < 63) (hk : k < 16) (hs : s.slotTenant n = none) :
    s.slotAssign n k = State.ans ((s.setF (COMP_SLOT_TENANT n) k).setFlag (COMP_SLOT_ASSIGNED n) true) 0 := by
  have hslot : ¬ (63 ≤ n ∨ (16 ≤ k ∧ k ≠ 255)) := by omega
  have h255 : k ≠ 255 := by omega
  simp only [State.slotAssign, hslot, h255, hs, if_false]

end

/-! ### The owner's data (R319 to R323, R342) -/

section
variable {b : List Byte}

theorem State.ownerInstall_owned (h : s.hea.owner ≠ none) : s.ownerInstall b = (s, 0x0406) := if_pos (Option.isSome_iff_ne_none.mpr h)

theorem State.ownerInstall_unowned (h : s.hea.owner = none) : s.ownerInstall b = ((s.newOwner b 4).toTiles 0x0011 b, 0) :=
  if_neg (by rw [h]; decide)

theorem State.ownerXferAll_taken (h : (s.ownerXfer b).2 = 0) : s.ownerXferAll b = ((s.ownerXfer b).1.toTiles 0x0013 b, 0) :=
  if_neg (by rw [h]; decide)

theorem State.ownerXferAll_refused (h : (s.ownerXfer b).2 ≠ 0) : s.ownerXferAll b = s.ownerXfer b := if_pos (bne_iff_ne.mpr h)

theorem State.keySet_malformed (h : b.length ≠ 97) : s.keySet b = s.rep 0x0001 := if_pos h

theorem State.keyUnset_malformed (h : b.length ≠ 97) : s.keyUnset b = s.rep 0x0001 := if_pos h

theorem State.keyUnset_removed (h : b.length = 97) : s.keyUnset b = ((s.keyRemove b).toTiles 0x0012 (2 :: b), some (0, keyId b)) :=
  if_neg (not_not_intro h)

/-- KEY_SET sends a key on that this part takes, and answers the status of one that it does not. -/
theorem State.keySet_added {t : State} (h : b.length = 97) (ht : s.keyAdd b = (t, 0)) :
    s.keySet b = (t.toTiles 0x0012 (1 :: b), some (0, keyId b)) := by
  simp [State.keySet, h, ht]

theorem State.keySet_refused {t : State} {st : Nat} (h : b.length = 97) (ht : s.keyAdd b = (t, st)) (hst : st ≠ 0) : s.keySet b = t.rep st := by
  simp [State.keySet, h, ht, hst]

theorem State.keyAdd_known (h : b ∈ s.hea.makers) : s.keyAdd b = (s, 0) := if_pos (List.contains_iff_mem.mpr h)

theorem State.keyAdd_full (h : b ∉ s.hea.makers) (hf : 8 ≤ s.hea.makers.length) : s.keyAdd b = (s, 0x0405) := by
  simp [State.keyAdd, h, hf]

theorem State.keyAdd_new {t : State} (h : b ∉ s.hea.makers) (hf : s.hea.makers.length < 8)
    (ht : t = { s with hea := { s.hea with makers := s.hea.makers ++ [b] } }) :
    s.keyAdd b = ((t.heaRegs.journalKeys).secLog 0x0007 (keyId b), 0) := by
  subst ht
  simp [State.keyAdd, h, Nat.not_le.mpr hf]

theorem State.refcredSet_malformed (h : b.length ≠ 48) : s.refcredSet b = s.rep 0x0001 := if_pos h

theorem State.refcredSet_changed {c : Option (List Byte)} {t : State} (h : b.length = 48) (hc : c = if b.all fun y => y == 0 then none else some b)
    (hne : c ≠ s.hea.refcred) (ht : t = { s with hea := { s.hea with refcred := c } }) : s.refcredSet b =
      (((t.heaRegs.journalKeys).secLog 0x000D [0xFE, if c.isSome then 1 else 2]).closeSess fun y => y.tenant == 0xFE).rep 0 := by
  subst hc ht
  exact (if_neg (not_not_intro h)).trans (if_neg hne)

theorem State.stepAuth_refused (h : s.objCheck b 4 ≠ 0) : s.stepAuth b =
    State.ans ((s.sigFail 4 (s.objCheck b 4)).count POP_N_STEPREF 1) (s.objCheck b 4) := by
  simp [State.stepAuth, h]

/-- A new nonce has 32 bytes and is held with its time. -/
theorem State.newNonce_nonce : ∃ r, s.newNonce.hea.nonce = some (r, s.life) ∧ r.length = 32 :=
  ⟨_, rfl, by rw [List.length_map, List.length_range]⟩

theorem State.debugToken_noNonce (hn : s.hea.nonce = none) (hc : s.objCheck b 3 = 0) (hl : (objPayload b).length = 52)
    (hs : leAt (objPayload b) 48 4 < 16) (hser : sub (objPayload b) 0 16 = s.serial) : (s.debugToken b).2 = 0x0408 := by
  simp [State.debugToken, hn, hc, hl, Nat.not_le.mpr hs, hser]

/-- The records that a factory reset writes once the ownership data is gone. -/
theorem State.factoryRecords_recordOnly : RecordOnly s
    ((((s.protectRegs.heaRegs.popRegs.journalOwner).journalKeys).journalBilling.emptyCopy 3 0).emptyCopy 3 1) :=
  ((((((State.protectRegs_recordOnly.trans State.heaRegs_recordOnly).trans State.popRegs_recordOnly).trans State.journalOwner_recordOnly).trans
    State.journalKeys_recordOnly).trans State.journalBilling_recordOnly).trans (State.emptyCopy_recordOnly 3 0)).trans
    (State.emptyCopy_recordOnly 3 1)

/-- A factory reset leaves no owner, no keys, no credential, no records, and of the sessions the one that asked (R322). -/
theorem State.factoryReset_empty (id : Nat) : (s.factoryReset id).hea.owner = none ∧ (s.factoryReset id).hea.makers = [] ∧
    (s.factoryReset id).hea.refcred = none ∧ (s.factoryReset id).pop.nv.recs = [] ∧ (s.factoryReset id).pop.nv.agg = [] ∧
    ∀ y ∈ (s.factoryReset id).sessions, y.id = id := by
  unfold State.factoryReset
  extract_lets t1 t2 t3 wipe comp pop nv hea t4 t5 t6 t7
  clear_value t3 wipe
  have h7 : RecordOnly t4 t7 := State.factoryRecords_recordOnly.trans (State.secLog_recordOnly _ _)
  have hclose := State.closeSess_recordOnly (s := t7) fun x => x.id != id
  have hhea : (t7.closeSess fun x => x.id != id).hea =
      { t4.hea with log := (t7.closeSess fun x => x.id != id).hea.log } := by
    rw [hclose.hea, h7.hea]
  have hpop : (t7.closeSess fun x => x.id != id).pop = t4.pop := hclose.pop.trans h7.pop
  refine ⟨congrArg HearthSt.owner hhea, congrArg HearthSt.makers hhea, congrArg HearthSt.refcred hhea, congrArg (·.nv.recs) hpop,
    congrArg (·.nv.agg) hpop, fun y hy => ?_⟩
  obtain ⟨z, hz, rfl⟩ := List.mem_map.mp hy
  have hzid : z.id = id := by
    rw [hclose.sessions] at hz
    simpa using (List.mem_filter.mp hz).2
  rw [if_pos hzid]
  exact hzid

end

/-! ### Tests (R243, R254, R256) -/

section
variable {r : Word} {g : TestRun}

theorem State.testAbort_noRun (h : s.test.run = none) : s.testAbort r = (s, 0x0001) := by
  simp only [State.testAbort, h]

theorem State.testAbort_slots (h : s.test.run = some g) (hr : g.runid = r) (hf : g.full = false) : s.testAbort r =
    ((if (s.testSend g 2).sender then (s.testSend g 2).abortRun r.toNat else s.testSend g 2).testEnd 0x0306, 0) := by
  simp [State.testAbort, h, hr, hf]

theorem State.testAck_unknown (h : ∀ g ∈ s.test.past, g.runid ≠ r) : s.testAck r = (s, 0x0001) := if_neg (by simpa using h)

theorem State.testAck_known (h : ∃ g ∈ s.test.past, g.runid = r) :
    s.testAck r = ({ s with test := { s.test with past := s.test.past.filter fun g => g.runid != r } }, 0) := if_pos (by simpa using h)

end

/-! ### Proof of play (R363) -/

section
variable {n k m : Nat}

theorem State.popCollect_noTenant (h : 16 ≤ n) : s.popCollect n m = s.ans 0x0001 := if_pos h

theorem State.popCollect_records {rs : List PopRec} (h : n < 16) (hrs : rs = ((s.pop.nv.recs.filter fun r => r.tenant == n) ++
      s.pop.nv.agg.filter fun r => r.tenant == n).take (min 16 ((m - 20) / 224))) :
    ∃ t : State, s.popCollect n m = (t, 0, leBytes 4 rs.length ++ rs.flatMap fun r => s.popBytes r) ∧ t.pop.nv = s.pop.nv := by
  subst hrs
  exact ⟨_, if_neg (Nat.not_le.mpr h), rfl⟩

/-- The returned records of the tenant up to the number are deleted. -/
theorem State.popAck_records : ∃ t : State, s.popAck n k = t.ans 0 ∧ t.pop.nv.recs = s.pop.nv.recs.filter fun r =>
    !(r.tenant == n && decide (r.rseq ≤ k) && s.pop.returned.contains r.rseq) := by
  unfold State.popAck
  extract_lets gone num pop nv u v
  have hv : v.pop.nv.recs = s.pop.nv.recs.filter fun r => !gone r := congrArg (·.nv.recs) (State.popRegs_recordOnly (s := u)).pop
  refine ⟨_, rfl, ?_⟩
  split
  · exact hv
  · exact (congrArg (·.nv.recs) State.journalBilling_recordOnly.pop).trans hv

end

end

end Sys2Proof.Machine
end

section
/-! PROOFS. WCP requests: attestation, firmware, lane tables, power, claims and registers (O60). -/

namespace Sys2Proof.Machine

section
variable {s : State} {x : Session} {q : Word} {m n k : Nat} {b : List Byte}

/-! ### Attestation, firmware and lane tables (R341, R402, R497) -/

theorem State.wcpDo_attest_malformed (h : b.length ≠ 32) : s.wcpDo x q m (.attest b n k) = s.rep 0x0001 := if_pos h

theorem State.wcpDo_attest_own (h : b.length = 32) : s.wcpDo x q m (.attest b n 0xFF) = (s, some (0, s.attest b)) :=
  (if_neg (not_not_intro h)).trans (if_pos rfl)

theorem State.wcpDo_attest_tile (h : b.length = 32) (hk : k ≠ 0xFF) : s.wcpDo x q m (.attest b n k) = s.askTile x q n k 0x0010 b :=
  (if_neg (not_not_intro h)).trans (if_neg hk)

theorem State.fwActivate_busy (h : s.fwBusy = true) : s.fwActivate n = (s, 0x0507) := if_pos (by simp [h])

section
variable {c : Nat} {p : List Byte}

theorem State.wcpDo_fwInstall_unknown (h : x.content n [3] = none) : s.wcpDo x q m (.fwInstall n) = s.rep 0x0102 := by
  simp only [State.wcpDo, h]

theorem State.wcpDo_fwInstall_image (h : x.content n [3] = some (c, p)) : s.wcpDo x q m (.fwInstall n) =
    ((s.fwInstall p (some 3) .none).1.release x.id n).rep (s.fwInstall p (some 3) .none).2 := by
  simp only [State.wcpDo, h]

theorem State.wcpDo_laneInstall_unknown (h : x.content n [4] = none) : s.wcpDo x q m (.laneInstall n) = s.rep 0x0102 := by
  simp only [State.wcpDo, h]

/-- A lane table that keeps its checks is written to the idle copy. -/
theorem State.wcpDo_laneInstall_table (h : x.content n [4] = some (c, p)) (ha : s.laneAccept p = 0) : s.wcpDo x q m (.laneInstall n) =
    ((s.slotWrite 5 (s.idleCopy 5) p none true (some 4) .none).1.release x.id n).rep
      (s.slotWrite 5 (s.idleCopy 5) p none true (some 4) .none).2 := by
  simp only [State.wcpDo, h, ha, bne_self_eq_false, Bool.false_eq_true, if_false]

theorem State.wcpDo_laneInstall_refused (h : x.content n [4] = some (c, p)) (ha : s.laneAccept p ≠ 0) : s.wcpDo x q m (.laneInstall n) =
    (s.release x.id n).rep (s.laneAccept p) := by
  simp only [State.wcpDo, h, bne_iff_ne.mpr ha, if_true]

end

/-! ### Full tests (R258) -/

section
variable {r : Word} {ports h c : Nat} {sites : List (BitVec 64)} {d p : List Byte} {loc : Bool}

theorem State.wcpDo_testRun_unknown (hx : x.content h [5] = none) : s.wcpDo x q m (.testRun r true ports sites d h loc) = s.rep 0x0102 := by
  simp only [State.wcpDo, hx, if_true]

theorem State.wcpDo_testRun_full {u : State × Nat} (hx : x.content h [5] = some (c, p)) (hu : u = s.testRun r true ports sites d p loc)
    (h0 : u.2 = 0) : s.wcpDo x q m (.testRun r true ports sites d h loc) = (u.1.release x.id h).rep 0 := by
  subst hu
  simp only [State.wcpDo, hx, h0, if_true]

end

/-! ### Power and claims (R289, R302, R440, R442) -/

/-- What every step keeps of the ports that are to become dormant, a fold of such steps keeps. -/
theorem foldl_dormAt {β : Type} {f : State → β → State} (hf : ∀ u x, (f u x).cord.dormAt = u.cord.dormAt) (l : List β) (s : State) :
    (l.foldl f s).cord.dormAt = s.cord.dormAt :=
  l.foldlRecOn (motive := fun u : State => u.cord.dormAt = s.cord.dormAt) f rfl fun u hu x _ => (hf u x).trans hu

theorem State.freeBlocks_dormAt (port cls n : Nat) : (s.freeBlocks port cls n).cord.dormAt = s.cord.dormAt := by
  unfold State.freeBlocks
  split <;> rfl

theorem State.countLanes_dormAt (p : Nat) (a : Nat → Nat) : (s.countLanes p a).cord.dormAt = s.cord.dormAt := foldl_dormAt (fun _ _ => by rfl) _ _

theorem State.setLanes_dormAt (p : Nat) (f : Nat → Field) (v : Nat) : (s.setLanes p f v).cord.dormAt = s.cord.dormAt :=
  foldl_dormAt (fun _ _ => by rfl) _ _

theorem State.txWake_dormAt (p : Nat) : (s.txWake p).cord.dormAt = s.cord.dormAt := by
  unfold State.txWake
  split
  · exact (State.countLanes_dormAt p _).trans (State.setLanes_dormAt p _ _)
  · rfl

theorem State.pump_dormAt (port cls : Nat) : (s.pump port cls).cord.dormAt = s.cord.dormAt := by
  unfold State.pump
  extract_lets k c r sent cord t t1
  split
  · split
    · rfl
    · exact State.txWake_dormAt port
  · have ht1 : t1.cord.dormAt = t.cord.dormAt := foldl_dormAt (fun _ _ => by rfl) _ _
    exact (foldl_dormAt (fun _ _ => State.freeBlocks_dormAt _ _ _) _ _).trans ht1

theorem State.sendFrom_dormAt (src : Option Nat) (port : Nat) (p : CordPkt) : (s.sendFrom src port p).cord.dormAt = s.cord.dormAt := by
  unfold State.sendFrom
  extract_lets cls k q e u
  split
  · have hu : u.cord.dormAt = s.cord.dormAt := by
      unfold u
      split
      · exact State.countLanes_dormAt 1 _
      · rfl
    exact (State.pump_dormAt port cls).trans hu
  · split
    · exact State.freeBlocks_dormAt _ _ _
    · rfl

theorem State.ringSend_dormAt (dest : Nat) (r : RingBody) : (s.ringSend dest r).cord.dormAt = s.cord.dormAt := by
  have hwake : ∀ (c : Bool) (t : State) (p : Nat), (if c then t.txWake p else t).cord.dormAt = t.cord.dormAt := fun c t p => by
    split
    · exact State.txWake_dormAt p
    · rfl
  unfold State.ringSend
  extract_lets t t1
  split
  · exact (hwake _ t 9).trans (hwake _ s 8)
  · rfl

theorem State.sendTo_dormAt (p q : Nat) (c : CordBody) : (s.sendTo p q c).cord.dormAt = s.cord.dormAt := by
  unfold State.sendTo
  extract_lets k
  split
  · split
    · exact State.ringSend_dormAt _ _
    · exact State.sendFrom_dormAt none p k
  · rfl

theorem State.ctrlSend_dormAt (p q op : Nat) (data : List Byte) (wcp : Option (Nat × Word)) :
    (s.ctrlSend p q op data wcp).cord.dormAt = s.cord.dormAt := State.sendTo_dormAt _ _ _

/-- CORD_POWER names the ports to become dormant and their frame, whether or not it asks the tiles. -/
theorem State.cordPower_dormAt : (s.cordPower n k).cord.dormAt = some (n % 256, k) := by
  unfold State.cordPower
  extract_lets cord t
  split
  · exact foldl_dormAt (fun _ _ => State.ctrlSend_dormAt _ _ _ _ _) _ _
  · rfl

theorem State.cordWake_ports (hs : s.Canon) (hn : n < 256) : (s.cordWake n).getF EMB_DORM_PORTS = s.getF EMB_DORM_PORTS &&& (255 - n) := by
  have hlt : s.getF EMB_DORM_PORTS &&& (255 - n % 256) < 2 ^ (EMB_DORM_PORTS.hi + 1 - EMB_DORM_PORTS.lo) :=
    Nat.lt_of_le_of_lt Nat.and_le_left (s.getF_lt _)
  exact (State.getF_setF_same hs _ (by decide) (by decide)).trans ((Nat.mod_eq_of_lt hlt).trans (by rw [Nat.mod_eq_of_lt hn]))

theorem State.swapOwner_refused {w : Option (Nat × Word)} (h : s.member = false ∨ s.flag CLM_STAT_REF_OK = false) : s.swapOwner w = (s, false) :=
  if_pos (by obtain h | h := h <;> simp [h])

theorem State.swapOwner_sent {w : Option (Nat × Word)} (hm : s.member = true) (hr : s.flag CLM_STAT_REF_OK = true) :
    s.swapOwner w = (s.swapRequest 0x80 w, true) := if_neg (by simp [hm, hr])

theorem State.wcpDo_swap_refused (h : s.member = false ∨ s.flag CLM_STAT_REF_OK = false) : s.wcpDo x q m .swap = s.rep 0x0704 := by
  simp only [State.wcpDo, State.swapOwner_refused h, Bool.false_eq_true, if_false]

theorem State.wcpDo_swap_sent (hm : s.member = true) (hr : s.flag CLM_STAT_REF_OK = true) :
    s.wcpDo x q m .swap = (s.swapRequest 0x80 (some (x.id, q)), none) := by
  simp only [State.wcpDo, State.swapOwner_sent hm hr, if_true]

theorem State.fromReferee_dropped {t : State} (h : s.extDrop = false) : s.fromReferee t = s.rep 0 := by
  simp only [State.fromReferee, h, Bool.false_eq_true, if_false]

theorem State.fromReferee_taken {t : State} (h : s.extDrop = true) : s.fromReferee t = t.rep 0 := by
  simp only [State.fromReferee, h, if_true]

/-! ### Registers (R516) -/

section
variable {a : Nat} {c : RegCtx} {t : State} {v : Word} {es : List (Nat × Word)}

theorem regOffset_inside (h1 : 0xF0000000 ≤ a) (h2 : a < 0xF01C0000) : regOffset a = some (a - 0xF0000000) := if_pos ⟨h1, h2⟩

theorem regOffset_outside (h : a < 0xF0000000 ∨ 0xF01C0000 ≤ a) : regOffset a = none := if_neg (by omega)

theorem State.wcpRegRead_badCount (h : k = 0 ∨ 256 < k) : s.wcpRegRead a k m = s.rep 0x0001 := if_pos h

theorem State.readWords_one_ok (h1 : 0xF0000000 ≤ a) (h2 : a < 0xF01C0000) (hr : s.regRead (a - 0xF0000000) = (t, true, v)) :
    s.readWords a 1 = (t, [v], none) := by
  simp only [State.readWords, regOffset_inside h1 h2, hr, if_true]

theorem State.readWords_one_error (h1 : 0xF0000000 ≤ a) (h2 : a < 0xF01C0000) (hr : s.regRead (a - 0xF0000000) = (t, false, v)) :
    s.readWords a 1 = (t, [], some a) := by
  simp only [State.readWords, regOffset_inside h1 h2, hr, Bool.false_eq_true, if_false]

/-- A read of one register that the response has room for. -/
theorem State.wcpRegRead_ok (hm : 1 ≤ (m - 20) / 4) (h1 : 0xF0000000 ≤ a) (h2 : a < 0xF01C0000)
    (hr : s.regRead (a - 0xF0000000) = (t, true, v)) : s.wcpRegRead a 1 m = (t, some (0, leBytes 4 1 ++ leBytes 4 v.toNat)) := by
  have hcount : ¬ (1 = 0 ∨ 256 < 1) := by decide
  have hmod : a % 2 ^ 40 = a := Nat.mod_eq_of_lt (by omega)
  simp only [State.wcpRegRead, hcount, hmod, Nat.min_eq_left hm, State.readWords_one_ok h1 h2 hr, List.length_singleton,
    List.flatMap_singleton, if_false]

theorem State.wcpRegRead_error (hm : 1 ≤ (m - 20) / 4) (h1 : 0xF0000000 ≤ a) (h2 : a < 0xF01C0000)
    (hr : s.regRead (a - 0xF0000000) = (t, false, v)) : s.wcpRegRead a 1 m = (t, some (0x0801, leBytes 8 a ++ leBytes 4 0)) := by
  have hcount : ¬ (1 = 0 ∨ 256 < 1) := by decide
  have hmod : a % 2 ^ 40 = a := Nat.mod_eq_of_lt (by omega)
  simp only [State.wcpRegRead, hcount, hmod, Nat.min_eq_left hm, State.readWords_one_error h1 h2 hr, List.length_nil, if_false]

section
variable {e : Nat × Word}

theorem State.writeWords_outside (h : e.1 < 0xF0000000 ∨ 0xF01C0000 ≤ e.1) : s.writeWords c (e :: es) = (s, 0, some e.1) := by
  simp only [State.writeWords, regOffset_outside h]

theorem State.writeWords_error (h1 : 0xF0000000 ≤ e.1) (h2 : e.1 < 0xF01C0000) (hw : s.regWrite (e.1 - 0xF0000000) e.2 c = (t, false)) :
    s.writeWords c (e :: es) = (t, 0, some e.1) := by
  simp only [State.writeWords, regOffset_inside h1 h2, hw, Bool.false_eq_true, if_false]

theorem State.writeWords_ok (h1 : 0xF0000000 ≤ e.1) (h2 : e.1 < 0xF01C0000) (hw : s.regWrite (e.1 - 0xF0000000) e.2 c = (t, true)) :
    s.writeWords c (e :: es) = ((t.writeWords c es).1, (t.writeWords c es).2.1 + 1, (t.writeWords c es).2.2) := by
  simp only [State.writeWords, regOffset_inside h1 h2, hw, if_true]

end

/-- Writes without an error response count every entry. -/
theorem State.writeWords_count (h : (s.writeWords c es).2.2 = none) : (s.writeWords c es).2.1 = es.length := by
  induction es generalizing s with
  | nil => rfl
  | cons e es ih =>
    by_cases hin : e.1 < 0xF0000000 ∨ 0xF01C0000 ≤ e.1
    · rw [State.writeWords_outside hin] at h
      cases h
    · obtain ⟨h1, h2⟩ : 0xF0000000 ≤ e.1 ∧ e.1 < 0xF01C0000 := by omega
      rcases hw : s.regWrite (e.1 - 0xF0000000) e.2 c with ⟨t, ok⟩
      cases ok with
      | false =>
        rw [State.writeWords_error h1 h2 hw] at h
        cases h
      | true =>
        rw [State.writeWords_ok h1 h2 hw] at h ⊢
        exact congrArg (· + 1) (ih h)

theorem State.wcpRegWrite_tooMany (h : 64 < es.length) : s.wcpRegWrite es c = s.rep 0x0001 := if_pos h

/-- Addresses of 40 bits stand as they are. -/
theorem map_mod_eq_self (ha : ∀ e ∈ es, e.1 < 2 ^ 40) : es.map (fun e => (e.1 % 2 ^ 40, e.2)) = es := by
  have hid : ∀ e ∈ es, (fun e : Nat × Word => (e.1 % 2 ^ 40, e.2)) e = id e := fun e he => Prod.ext (Nat.mod_eq_of_lt (ha e he)) rfl
  exact (List.map_congr_left hid).trans (List.map_id es)

theorem State.wcpRegWrite_ok (hl : es.length ≤ 64) (ha : ∀ e ∈ es, e.1 < 2 ^ 40) (h : (s.writeWords c es).2.2 = none) :
    s.wcpRegWrite es c = ((s.writeWords c es).1, some (0, leBytes 4 es.length)) := by
  simp only [State.wcpRegWrite, Nat.not_lt.mpr hl, map_mod_eq_self ha, h, State.writeWords_count h, if_false]

theorem State.wcpRegWrite_error {bad : Nat} (hl : es.length ≤ 64) (ha : ∀ e ∈ es, e.1 < 2 ^ 40) (h : (s.writeWords c es).2.2 = some bad) :
    s.wcpRegWrite es c = ((s.writeWords c es).1, some (0x0801, leBytes 8 bad ++ leBytes 4 (s.writeWords c es).2.1)) := by
  simp only [State.wcpRegWrite, Nat.not_lt.mpr hl, map_mod_eq_self ha, h, if_false]

end

end

end Sys2Proof.Machine
end

section
/-! PROOFS. What each WCP request does (O60). -/

namespace Sys2Proof.Machine

/-- Settles O60, request by request. -/
theorem wcpRequestResults : Obligations.WcpRequestResults := by
  refine ⟨?sessions, ?layers, ?owner, ?part⟩
  case sessions =>
    rintro s x q m n k b _ rfl
    refine ⟨rfl, fun h => if_neg (Nat.not_lt.mpr h), fun h => if_pos h, rfl, rfl, ?openRoom, ?openFull, ?unknown, ?upload, ?progUnknown,
      ?progStopped, ?progRunning, ?progOverBudget, ?progDrive, ?stage, ?stageStatus, ?startFsq, ?startPsq, ?stopPsq⟩
    case openRoom =>
      intro hk hb ht hx hs
      obtain ⟨h, ⟨h1, h4⟩, hfree, hopen⟩ := State.uploadOpen_room hk hb ht hx hs
      exact ⟨_, h, _, hopen, h1, h4, hfree, rfl, rfl, rfl, rfl, rfl, rfl, rfl, rfl, rfl⟩
    case openFull => exact fun hk hb ht hfull => State.uploadOpen_full hk hb ht hfull
    case unknown => exact fun hx => ⟨State.uploadData_unknown hx, State.uploadClose_unknown hx⟩
    case upload =>
      intro u v hx hc
      refine ⟨fun hl => State.uploadData_beyond hx hl, fun hl ht hk => State.uploadData_outOfOrder hx hc hl ht hk, ?_,
        fun hd => State.uploadClose_digest hx hc hd, fun hd hk => State.uploadClose_refused hx hc hd hk,
        fun hd hk => State.uploadClose_closed hx hc hd hk⟩
      rintro hl hk rfl
      exact State.uploadData_taken hx hc hl hk
    case progUnknown => exact fun hx => State.progLoad_unknown hx
    case progStopped => exact fun p f t u hx hp ha hr ht hu => State.progLoad_frame hx (State.fprogLoad_stopped hp ha hr ht hu)
    case progRunning => exact fun p f hx hp ha hr ho => State.progLoad_frame hx (State.fprogLoad_running hp ha hr ho)
    case progOverBudget => exact fun p f hx hp ha => State.progLoad_frame hx (State.fprogLoad_overBudget hp ha)
    case progDrive => exact fun p hx => State.progLoad_drive hx
    case stage =>
      refine fun ports sites => ⟨fun hx => State.wcpStage_unknown hx, fun hx ho => State.wcpStage_busy hx ho,
        fun p f hx ho hp ha => State.wcpStage_frame hx ho hp ha, ?_⟩
      rintro c p g hx hc ho rfl
      exact State.wcpStage_tiles hx hc ho
    case stageStatus => exact ⟨_, rfl, State.take_stageStatusBytes m⟩
    case startFsq =>
      exact fun v hm => ⟨fun ha => congrArg repOf ((State.seqStart_fsq hm).trans (State.fsqStart_active ha)),
        fun ha => congrArg repOf ((State.seqStart_fsq hm).trans (State.fsqStart_inactive ha))⟩
    case startPsq =>
      rintro v i hi rfl
      exact congrArg repOf (State.seqStart_psq hi)
    case stopPsq =>
      rintro i hi rfl
      exact congrArg (State.rep · 0) (State.seqStop_psq hi)
  case layers =>
    rintro s x q m n k b _ rfl
    refine ⟨?bind, fun h => congrArg Ans.rep (State.unbind_unknown h), ?unbind, ?layerSet, ?foreign, ?slotRefused, ?slot, ?zlistBad, ?zlist,
      ?coef, ?coefBad, fun es r h => if_pos h, ?clinker, ?damageBad, ?damage, ?noItem, ?item, ?events, ?log⟩
    case bind =>
      exact fun sh d => ⟨fun hd => congrArg Ans.rep (State.bind_malformed hd), fun hd hf => congrArg Ans.rep (State.bind_noRoom hd hf),
        fun i a hd hf hi ha => congrArg Ans.rep (State.bind_bound hd hf hi ha)⟩
    case unbind =>
      exact fun c hc => ⟨fun ht => congrArg Ans.rep (State.unbind_bound hc ht), fun h0 ht => congrArg Ans.rep (State.unbind_foreign hc h0 ht)⟩
    case layerSet =>
      intro cls d ws l a hn ht hws hl hv hr ha
      have hset := State.layerSet_inRange (cls := cls) hn ht hws hl hv hr ha
      exact ⟨fun hok => congrArg Ans.rep (hset.trans (if_pos (by simp [hok]))),
        fun hok hred => congrArg Ans.rep (hset.trans (if_neg (by simp [hok, hred])))⟩
    case foreign => exact fun cls d hn ht => congrArg Ans.rep (State.layerSet_foreign hn ht)
    case slotRefused =>
      exact fun h => ⟨congrArg Ans.rep (State.layerClear_refused h), congrArg Ans.rep (State.surfaceFlip_refused h), State.surfaceWrite_refused h⟩
    case slot =>
      intro h
      refine ⟨congrArg Ans.rep (State.layerClear_cleared h),
        fun hn => ⟨congrArg Ans.rep (State.surfaceFlip_video h hn), State.surfaceWrite_video h hn⟩, ?_,
        fun hn ht hh => State.surfaceWrite_now h hn ht hh,
        fun hn ht => ⟨_, _, State.surfaceWrite_held h hn ht, rfl, rfl, rfl, rfl, rfl⟩⟩
      rintro hn a rfl
      exact congrArg Ans.rep (State.surfaceFlip_graphic h hn)
    case zlistBad => exact fun h => congrArg Ans.rep (State.zlistSet_malformed h)
    case zlist =>
      exact fun hn hb hz ha => ⟨_, congrArg Ans.rep (State.zlistSet_taken hn hb hz ha), rfl, fun i hi hw => get_putZlist hw hi⟩
    case coef =>
      intro ax cs hn ha hc
      obtain ⟨c, hset⟩ := State.coefSet_taken (s := s) hn ha hc
      exact ⟨_, congrArg Ans.rep hset, rfl⟩
    case coefBad => exact fun ax cs h => congrArg Ans.rep (State.coefSet_malformed h)
    case clinker => exact fun es r hl hs ha hn he => (if_neg (Nat.not_lt.mpr hl)).trans (State.askTile_sent hs ha hn he)
    case damageBad => exact fun rs h => congrArg Ans.rep (State.damageHint_tooMany h)
    case damage => exact fun rs h => ⟨_, congrArg Ans.rep (State.damageHint_marks h), fun z hz => State.mem_hintBands hz⟩
    case noItem => exact fun i j h => State.statusRead_noItem h
    case item => exact fun i j rg h => State.statusRead_item h
    case events => exact fun e => ⟨rfl, fun l hl hn => Session.eventRead_lost hl hn⟩
    case log =>
      rintro es bs rfl rfl
      rfl
  case owner =>
    rintro s x q m n k b _ rfl
    refine ⟨?tenantSet, ?removeRefused, ?remove, ?assignRefused, ?assign, fun h => congrArg repOf (State.ownerInstall_owned h),
      fun h => congrArg repOf (State.ownerInstall_unowned h), fun h => congrArg repOf (State.ownerXferAll_taken h),
      fun h => congrArg repOf (State.ownerXferAll_refused h), fun h => ⟨State.keySet_malformed h, State.keyUnset_malformed h⟩, ?key,
      fun h => State.refcredSet_malformed h, fun c t h hc hne ht => State.refcredSet_changed h hc hne ht,
      fun o => ⟨rfl, fun h => congrArg Ans.rep (State.stepAuth_refused h)⟩, ?nonce,
      fun o => ⟨rfl, fun hn hc hl hs hser => State.debugToken_noNonce hn hc hl hs hser⟩, ⟨_, rfl, State.factoryReset_empty x.id⟩, ?testRun,
      ?tests, fun h => congrArg Ans.rep (State.popCollect_noTenant h), ?collect, ?ack⟩
    case tenantSet =>
      exact fun c => ⟨rfl, fun h => congrArg Ans.rep (State.tenantSet_noSlot h), fun hn ho => congrArg Ans.rep (State.tenantSet_unowned hn ho)⟩
    case removeRefused => exact fun h => congrArg Ans.rep (State.tenantRemove_refused h)
    case remove =>
      intro c h0 hn hc
      obtain ⟨t, ht, hsess, hend⟩ := State.tenantRemove_removed h0 hn hc
      exact ⟨t, congrArg Ans.rep ht, hsess, hend⟩
    case assignRefused => exact fun h => congrArg Ans.rep (State.slotAssign_refused h)
    case assign => exact fun hn hk hs => congrArg Ans.rep (State.slotAssign_free hn hk hs)
    case key =>
      intro h
      refine ⟨State.keyUnset_removed h, fun hk => State.keySet_added h (State.keyAdd_known hk),
        fun hk hf => State.keySet_refused h (State.keyAdd_full hk hf) (by decide), ?_⟩
      exact fun hk hf t ht => State.keySet_added h (State.keyAdd_new hk hf ht)
    case nonce =>
      obtain ⟨r, hr, hlen⟩ := State.newNonce_nonce (s := s)
      refine ⟨r, hr, hlen, ?_⟩
      simp only [State.wcpDo, hr]
    case testRun =>
      exact fun r ports sites d h loc => ⟨rfl, fun hx => State.wcpDo_testRun_unknown hx, fun c p u hx hu h0 => State.wcpDo_testRun_full hx hu h0⟩
    case tests =>
      exact fun r => ⟨fun h => congrArg repOf (State.testAbort_noRun h), fun g h hr hf => congrArg repOf (State.testAbort_slots h hr hf), rfl,
        fun h => congrArg repOf (State.testAck_unknown h), fun h => congrArg repOf (State.testAck_known h)⟩
    case collect =>
      intro rs hn hrs
      obtain ⟨t, ht, hnv⟩ := State.popCollect_records hn hrs
      exact ⟨t, congrArg Ans.rep ht, hnv⟩
    case ack =>
      obtain ⟨t, ht, hrecs⟩ := State.popAck_records (s := s) (n := n) (k := k)
      exact ⟨t, congrArg Ans.rep ht, hrecs⟩
  case part =>
    rintro s x q m n k b _ rfl
    refine ⟨fun h => State.wcpDo_attest_malformed h, fun h => State.wcpDo_attest_own h, ?attestTile, fun h => State.wcpDo_fwInstall_unknown h,
      fun c p h => State.wcpDo_fwInstall_image h, fun h => congrArg repOf (State.fwActivate_busy h), ?activate, rfl,
      fun h => State.wcpDo_laneInstall_unknown h, ?laneTable, fun c p h ha => State.wcpDo_laneInstall_refused h ha, rfl, rfl, fun h => if_neg h,
      ⟨_, rfl, State.cordPower_dormAt⟩, ⟨_, rfl, fun hs hn => State.cordWake_ports hs hn⟩, fun h => State.wcpDo_swap_refused h,
      fun hm hr => State.wcpDo_swap_sent hm hr, ?referee, fun h => State.wcpRegRead_badCount h,
      fun v t hm h1 h2 hr => State.wcpRegRead_ok hm h1 h2 hr, fun v t hm h1 h2 hr => State.wcpRegRead_error hm h1 h2 hr,
      fun es c h => State.wcpRegWrite_tooMany h, ?regWrite, ?writeWords⟩
    case attestTile => exact fun h hk hs ha hn he => (State.wcpDo_attest_tile h hk).trans (State.askTile_sent hs ha hn he)
    case activate =>
      rintro _ rfl
      rfl
    case laneTable =>
      rintro c p u h ha rfl
      exact State.wcpDo_laneInstall_table h ha
    case referee =>
      exact fun h c w => ⟨fun hd => ⟨State.fromReferee_dropped hd, State.fromReferee_dropped hd, State.fromReferee_dropped hd⟩,
        fun hd => ⟨State.fromReferee_taken hd, State.fromReferee_taken hd, State.fromReferee_taken hd⟩⟩
    case regWrite =>
      rintro es c u hl ha rfl
      exact ⟨fun h => ⟨State.writeWords_count h, State.wcpRegWrite_ok hl ha h⟩, fun bad h => State.wcpRegWrite_error hl ha h⟩
    case writeWords =>
      exact fun c e es => ⟨rfl, fun h => State.writeWords_outside h, fun t h1 h2 hw => State.writeWords_error h1 h2 hw,
        fun t h1 h2 hw => State.writeWords_ok h1 h2 hw⟩

end Sys2Proof.Machine
end

section
/-! PROOFS. The passage of time, and the reference inputs (O2, O47). -/

namespace Sys2Proof.Machine

section
variable {s : State}

/-- A command whose meaning gives a state answers that state. -/
theorem next_congr {t u : State} (h : t = u) : (Host.Outcome.next t : Host.Outcome State Fault Refusal) = .next u := congrArg _ h

/-! ### The passage of time (R262, R436) -/

theorem step_of_empty_queue (h : s.pending = []) : step s = .next s.oneNs := by
  unfold step
  rw [h]

/-- FCORR is a signed 32-bit word, so one nominal ns never turns the WTB back. -/
theorem State.neg_le_fcorr : -2147483648 ≤ s.fcorr := by
  unfold State.fcorr signed
  split <;> omega

/-- The residue carries what a whole number of WTB units does not. -/
theorem State.oneNs_wtb_frac : (s.oneNs.wtb : Int) * 10 ^ 12 + s.oneNs.tim.frac =
    (s.wtb : Int) * 10 ^ 12 + s.tim.frac + 64 * (10 ^ 12 + s.fcorr) := by
  have hf := s.neg_le_fcorr
  unfold State.oneNs
  dsimp only
  omega

theorem State.oneNs_frac_lt : s.oneNs.tim.frac < 10 ^ 12 := by
  unfold State.oneNs
  dsimp only
  omega

theorem State.oneNs_life : s.oneNs.life = s.life ∨ s.oneNs.life = (s.life + 1) % 2 ^ 48 := by
  unfold State.oneNs
  dsimp only
  split
  · exact .inr rfl
  · exact .inl rfl

/-- One nominal ns moves the two clocks and their residues only. -/
theorem State.oneNs_frame : s.oneNs = { s with
    wtb := s.oneNs.wtb, life := s.oneNs.life, tim := { s.tim with frac := s.oneNs.tim.frac, lifeFrac := s.oneNs.tim.lifeFrac } } := by
  unfold State.oneNs
  dsimp only

/-- Settles O2: the nominal ns that passes on an empty queue. -/
theorem emptyQueueStepPassesOneNanosecond : Obligations.EmptyQueueStepPassesOneNanosecond := fun s h =>
  ⟨s.oneNs, step_of_empty_queue h, State.oneNs_wtb_frac, State.oneNs_frac_lt, State.oneNs_life, State.oneNs_frame⟩

/-! ### SYNC inputs (R264, R266, R268) -/

section
variable {i l : Nat}

theorem evSyncEdge_glitch (hl : (s.refIn i).last = some l) (h : 10 * (s.wtb - l) < 9 * s.syncP i ∨ 11 * s.syncP i < 10 * (s.wtb - l)) :
    evSyncEdge i s = s.count (syncCnt i 1) 1 := by
  unfold evSyncEdge
  simp only [hl]
  exact if_pos (by simpa using h)

/-- The state that records an accepted edge. -/
def State.edgeTaken (s : State) (i : Nat) : State :=
  (s.setRefIn i { s.refIn i with last := some s.wtb }).setReg (REF_SYNC_PERR i)
    (BitVec.ofNat 32 (unsigned 32 (clampInt (-2147483648) 2147483647 (s.syncErr i s.wtb))))

/-- A first edge of an enabled reference begins its qualification. -/
def State.edgeQualify (s : State) (i : Nat) : State := if s.flag (enF i) = true ∧ s.getF (staF i) = 0 then s.qualify i else s

theorem evSyncEdge_accepted (hl : (s.refIn i).last = some l) (hlo : 9 * s.syncP i ≤ 10 * (s.wtb - l))
    (hhi : 10 * (s.wtb - l) ≤ 11 * s.syncP i) : evSyncEdge i s =
      if (s.edgeTaken i).tile then s.edgeTaken i
      else if ((s.edgeTaken i).edgeQualify i).getF REF_STAT_SEL = i then ((s.edgeTaken i).edgeQualify i).steer
      else (s.edgeTaken i).edgeQualify i := by
  unfold evSyncEdge State.edgeQualify
  simp only [hl, Bool.and_eq_true, beq_iff_eq]
  exact if_neg (by simpa using ⟨hlo, hhi⟩)

end

theorem evSyncRateCheck_beyond (i : Nat) {d : Int} (h : 20000000 < d.natAbs) :
    evSyncRateCheck i d s = (s.count (syncCnt i 2) 1).refLost i := if_pos h

theorem evSyncRateCheck_within (i : Nat) {d : Int} (h : d.natAbs ≤ 20000000) : evSyncRateCheck i d s = s := if_neg (Nat.not_lt.mpr h)

/-! ### The OCXO (R264, R265) -/

theorem evOcxoStop_onOcxo (ho : s.onOcxo = true) : evOcxoStop s =
    if (s.count REF_N_OCXO_STOP 1).flag REF_STAT_DEGRADED then s.count REF_N_OCXO_STOP 1
    else ((s.count REF_N_OCXO_STOP 1).carryRatio true).setFlag REF_STAT_DEGRADED true := if_pos ho

/-- Ten gates are needed for a mean, and a gate within 20 * 10^-6 of it is only remembered. -/
theorem evOcxoRateCheck_within {r : Int} (ho : s.onOcxo = true)
    (h : s.tim.gates.length < 10 ∨ (10 * r - s.tim.gates.foldl (fun a b => a + b) 0).natAbs ≤ 200000000) :
    evOcxoRateCheck r s = { s with tim := { s.tim with gates := (r :: s.tim.gates).take 10, ocxoRatio := r } } := by
  have hgood : ¬ (s.tim.gates.length = 10 ∧ 20000000 * 10 < (10 * r - s.tim.gates.foldl (fun a b => a + b) 0).natAbs) := by omega
  unfold evOcxoRateCheck
  rw [if_pos ho]
  exact if_neg (by simpa using hgood)

/-! ### Selection (R269, R273) -/

/-- A sender's evaluation in its order: losses, NET's qualification, the selection, the epoch, the time in holdover, steering. -/
theorem evRefEvaluation_sender (ht : s.tile = false) {x t u v w : State}
    (hx : x = [0, 1, 2].foldl (fun (u : State) i => if u.flag (enF i) || u.getF (staF i) == 0 then u else u.refLost i) s)
    (ht' : t = if x.flag REF_CFG_ENNET = true ∧ x.netValid = true ∧ x.getF (staF 2) = 0 then x.qualify 2 else x)
    (hu : u = (if t.bestRef = t.getF REF_STAT_SEL then t else t.select t.bestRef).epochCheck)
    (hv : v = { u with tim := { u.tim with anySel := u.tim.anySel || (u.flag REF_STAT_EPOCH_FIXED && t.bestRef != 3) } })
    (hw : w = match v.tim.holdAt with | some h => v.setReg REF_HOLD (BitVec.ofNat 32 ((v.wtb - h) / secU)) | none => v) :
    evRefEvaluation s = w.steer := by
  have hq : t = if x.flag REF_CFG_ENNET && x.netValid && x.getF (staF 2) == 0 then x.qualify 2 else x := by
    simpa only [Bool.and_eq_true, beq_iff_eq, and_assoc] using ht'
  subst hw hv hu hq hx
  exact if_neg (Bool.eq_false_iff.mp ht)

/-- Settles O47, row by row. -/
theorem references : Obligations.References := by
  intro s i
  refine ⟨?glitch, ?accepted, rfl, ?rateBeyond, ?rateWithin, ?qualified, ?notQualifying, ?ocxoStop, ?ocxoStopAgain, ?ocxoRequalified, ?ocxoRate,
    ?ocxoGlitch, ?noOcxo, fun w => rfl, ?tile, ?sender⟩
  case glitch => exact fun l hl h => next_congr (evSyncEdge_glitch hl h)
  case accepted =>
    rintro l t hl hlo hhi rfl
    have hedge := evSyncEdge_accepted hl hlo hhi
    refine ⟨fun ht => next_congr (hedge.trans (if_pos ht)), ?_⟩
    rintro ht u rfl
    exact next_congr (hedge.trans (if_neg (Bool.eq_false_iff.mp ht)))
  case rateBeyond => exact fun d h => next_congr (evSyncRateCheck_beyond i h)
  case rateWithin => exact fun d h => next_congr (evSyncRateCheck_within i h)
  case qualified => exact fun h => next_congr (if_pos h)
  case notQualifying => exact fun h => next_congr (if_neg h)
  case ocxoStop => exact fun ho hd => next_congr ((evOcxoStop_onOcxo ho).trans (if_neg (Bool.eq_false_iff.mp hd)))
  case ocxoStopAgain => exact fun ho hd => next_congr ((evOcxoStop_onOcxo ho).trans (if_pos hd))
  case ocxoRequalified => exact fun ho => next_congr (if_pos ho)
  case ocxoRate =>
    rintro r g ho rfl h
    exact next_congr (evOcxoRateCheck_within ho h)
  case ocxoGlitch => exact fun ho => next_congr (if_pos ho)
  case noOcxo =>
    intro ho
    have hno := Bool.eq_false_iff.mp ho
    exact ⟨next_congr (if_neg hno), next_congr (if_neg hno), next_congr (if_neg hno), fun r => next_congr (if_neg hno)⟩
  case tile => exact fun ht => next_congr (if_pos ht)
  case sender => exact fun ht x t u v w hx ht' hu hv hw => next_congr (evRefEvaluation_sender ht hx ht' hu hv hw)

end

end Sys2Proof.Machine
end

section
/-! PROOFS. Network time, PPS_OUT and the interval channels (O48). -/

namespace Sys2Proof.Machine

section
variable {s : State}

/-! ### Network time (R273, R281, R282) -/

theorem State.flag_count_other (hs : s.Canon) {f : Field} {a : Nat} (h : f.addr ≠ a) (n : Nat) : (s.count a n).flag f = s.flag f := by
  unfold State.flag State.getF State.count
  rw [State.reg_setReg_other hs h]

/-- The loss of NET clears NET_VALID and makes the reference absent, and no time base moves. -/
theorem State.netLost_clears (hs : s.Canon) (h : s.netValid = true) : s.netLost.flag REF_NET_NET_VALID = false ∧
    s.netLost.getF REF_STAT_STA_NET = 0 ∧ s.netLost.wtb = s.wtb ∧ s.netLost.live = s.live := by
  have hv := State.setFlag_canon hs REF_NET_NET_VALID false
  have hc := State.count_canon hv REF_N_NET_LOSS 1
  have hvalid : ((s.setFlag REF_NET_NET_VALID false).count REF_N_NET_LOSS 1).flag REF_NET_NET_VALID = false := by
    rw [State.flag_count_other hv (by decide), State.flag_setFlag_same hs rfl (by decide)]
  unfold State.netLost
  rw [if_pos h]
  refine ⟨?_, State.getF_setF_same (f := REF_STAT_STA_NET) { hc with } 0 (by decide) (by decide), rfl, rfl⟩
  exact (congrArg (· != 0) (State.getF_setF_other (f := REF_STAT_STA_NET) { hc with } (by decide) 0)).trans hvalid

theorem State.netValidWrite_false (ht : s.tile = false) (lost : State → State) : s.netValidWrite lost false = lost s := by
  unfold State.netValidWrite
  rw [ht]
  rfl

theorem State.netValidWrite_already (ht : s.tile = false) (h : s.netValid = true) (lost : State → State) : s.netValidWrite lost true = s := by
  unfold State.netValidWrite
  rw [ht, h]
  rfl

theorem State.netValidWrite_rises {t : State} (hs : s.tile = false) (h : s.netValid = false) (ht : t = s.setFlag REF_NET_NET_VALID true)
    (lost : State → State) : s.netValidWrite lost true =
      ((if t.flag REF_CFG_ENNET then t.qualify 2 else t).epochNetSet.epochCheck).popTimeSet := by
  subst ht
  unfold State.netValidWrite
  rw [hs, h]
  rfl

theorem exec_netValidWrite_sender (ht : s.tile = false) (b : Bool) :
    exec (.netValidWrite b) s = .next ((s.netValidWrite State.netLost b).emit (.bus false 0)) :=
  congrArg (fun t : State => Host.Outcome.next (t.emit (.bus false 0))) (if_neg (Bool.eq_false_iff.mp ht))

/-! ### TIM registers (R277, R280) -/

theorem ne_of_block_tim {a b : Nat} (ha : a / 0x10000 = 13) (hb : b / 0x10000 ≠ 13) : a ≠ b := fun h => hb (h ▸ ha)

/-- No bit of a TIM register belongs to one role only. -/
theorem State.absentBits_tim {a : Nat} (h : a / 0x10000 = 13) : s.absentBits a = 0 := by
  simp (disch := omega) only [State.absentBits, HEARTH_POLICY, REF_CFG, TS_CFG, TS_STAT, REF_FOFF, TS_RUNTO, AUD_TXCFG, AUD_TXDELAY, LANE_SLEEP,
    THERM_TILE, AGE_EQH, AGE_LUM, AGE_LMEAS, AGE_LDEP, AGE_STAT, if_neg, ite_self]

/-- The part computes no TIM register when it is read. -/
theorem State.regValue_tim {a : Nat} (h : a / 0x10000 = 13) : s.regValue a = s.reg a := by
  simp (disch := omega) only [State.regValue, REF_WTB_LO, REF_WTB_HI, REF_WTB_FRAC, REF_TSC32, EMB_LIFE_LO, EMB_LIFE_HI, EMB_DOM, SUP_MEAS,
    FSQ_SWEV, KILN_TDATA, POP_BOFF_LO, POP_BOFF_HI, POP_BT_LO, POP_BT_HI, TRACE_STAT, if_neg]

theorem State.blockHere_tim : s.blockHere 13 = true := rfl

theorem openReg_tim {a : Nat} (h : a / 0x10000 = 13) : openReg a = false := by
  simp only [openReg, EMB_DOM, SUP_MEAS, Bool.or_eq_false_iff, Bool.and_eq_false_iff, decide_eq_false_iff_not]
  omega

section
variable {c k : Nat}

theorem timCfg_block (hc : c < 16) : TIM_CFG c / 0x10000 = 13 := by
  simp only [TIM_CFG]
  omega

theorem timCfg_offset (hc : c < 16) : TIM_CFG c % 0x10000 = 0x100 + 0x40 * c := by
  simp only [TIM_CFG]
  omega

theorem timRes_block (hc : c < 16) (hk : k < 6) : TIM_RES c k / 0x10000 = 13 := by
  simp only [TIM_RES]
  omega

theorem timRes_aligned (c k : Nat) : TIM_RES c k % 4 = 0 := by
  simp only [TIM_RES]
  omega

theorem State.specialWrite_timCfg (hc : c < 16) (w : Word) (x : RegCtx) : s.specialWrite (TIM_CFG c) w x =
    some (if s.regAccepts s.bankRuns (TIM_CFG c) w then (s.timArm c w, true) else (s, false)) := by
  have hblk := timCfg_block hc
  have hoff := timCfg_offset hc
  have h0 : TIM_CFG c % 0x10000 ≠ 0 := by omega
  have hctrl : isCtrl (TIM_CFG c) = false := by
    unfold isCtrl
    rw [beq_eq_false_iff_ne.mpr h0, beq_eq_false_iff_ne.mpr (ne_of_block_tim hblk (b := SRC_CTRL) (by decide))]
    rfl
  have hne : TIM_CFG c ≠ TIM_CTRL := fun h => h0 (congrArg (· % 0x10000) h)
  have hrow : 0x100 ≤ TIM_CFG c % 0x10000 ∧ TIM_CFG c % 0x10000 < 0x500 ∧ TIM_CFG c % 0x10000 % 0x40 = 0 := by omega
  have hidx : (TIM_CFG c % 0x10000 - 0x100) / 0x40 = c := by omega
  unfold State.specialWrite
  simp only [hctrl, hblk, if_neg hne, if_pos hrow, hidx, Bool.false_eq_true, if_false]
  exact (apply_ite some _ _ _).symm

/-- A write of a channel's configuration arms it if the word is accepted. -/
theorem State.regWrite_timCfg (hc : c < 16) (w : Word) (x : RegCtx) : s.regWrite (TIM_CFG c) w x =
    if s.regAccepts s.bankRuns (TIM_CFG c) w then (s.timArm c w, true) else (s, false) := by
  have hblk := timCfg_block hc
  have hoff := timCfg_offset hc
  have h4 : ¬ TIM_CFG c % 4 ≠ 0 := by omega
  have hwin : ¬ (0x51000 ≤ TIM_CFG c ∧ TIM_CFG c < 0x52000) := by omega
  have hall : (w &&& ~~~ 0#32) ||| (s.reg (TIM_CFG c) &&& 0#32) = w := by
    rw [BitVec.not_zero, BitVec.and_allOnes, BitVec.and_zero, BitVec.or_zero]
  unfold State.regWrite
  rw [if_neg h4, hblk, State.blockHere_tim, if_neg (by decide), if_neg hwin, State.absentBits_tim hblk]
  simp only [hall, State.specialWrite_timCfg hc]

theorem fieldIn_arm (v : Word) : fieldIn (v ||| 4#32) (TIM_CFG_ARM c) = 1 := by
  have hbit : (v ||| 4#32).toNat.testBit 2 = true := by simp [BitVec.testBit_toNat, show Nat.testBit 4 2 = true from rfl]
  rw [Nat.testBit_eq_decide_div_mod_eq] at hbit
  exact of_decide_eq_true hbit

theorem evTimArm_accepted {v w : Word} (hc : c < 16) (hw : w = v ||| 4#32) (ha : s.regAccepts s.bankRuns (TIM_CFG c) w = true) :
    evTimArm c v s = ((s.plainWrite (TIM_CFG c) w).timStart c).emit (.bus false 0) := by
  subst hw
  unfold evTimArm
  rw [Nat.mod_eq_of_lt hc, State.regWrite_timCfg hc, if_pos ha, State.timArm, if_pos (fieldIn_arm v)]
  rfl

theorem evTimArm_refused {v : Word} (hc : c < 16) (ha : s.regAccepts s.bankRuns (TIM_CFG c) (v ||| 4#32) = false) :
    evTimArm c v s = s.emit (.bus true 0) := by
  unfold evTimArm
  rw [Nat.mod_eq_of_lt hc, State.regWrite_timCfg hc, if_neg (Bool.eq_false_iff.mp ha)]
  rfl

/-- A result word is read as a word that the part holds. -/
theorem evTimResRead_eq (hc : c < 16) (hk : k < 6) : evTimResRead c k s =
    (s.plainRead (TIM_RES c k)).1.emit (.bus false (s.plainRead (TIM_RES c k)).2.toNat) := by
  have hblk := timRes_block hc hk
  unfold evTimResRead State.readRow
  rw [Nat.mod_eq_of_lt hc, Nat.mod_eq_of_lt hk, State.regRead_plain (timRes_aligned c k) (hblk ▸ State.blockHere_tim) (.inr (by omega))
    (ne_of_block_tim hblk (by decide)) (ne_of_block_tim hblk (by decide)) (by omega)]
  rfl

theorem evTimResRead_unlatched (hc : c < 16) (hk : k < 6) (h : s.latched (TIM_RES c k) = none) : ∃ m,
    evTimResRead c k s = State.emit { s with latch := m } (.bus false (s.reg (TIM_RES c k)).toNat) := by
  have hblk := timRes_block hc hk
  rw [evTimResRead_eq hc hk, State.plainRead_unlatched h (openReg_tim hblk), State.regValue_tim hblk, State.absentBits_tim hblk,
    BitVec.not_zero, BitVec.and_allOnes]
  exact ⟨_, rfl⟩

theorem evTimResRead_latched {w : Word} (hc : c < 16) (hk : k < 6) (h : s.latched (TIM_RES c k) = some w) : ∃ m,
    evTimResRead c k s = State.emit { s with latch := m } (.bus false w.toNat) := by
  rw [evTimResRead_eq hc hk, State.plainRead_latched h]
  exact ⟨_, rfl⟩

/-! ### Runs of the channels (R278 to R280) -/

theorem State.timRun_setTimRun (hw : SMap.wf (fun _ => none) s.tim.runs = true) (r : Option TimRun) :
    (s.setTimRun k r).timRun c = if c = k then r else s.timRun c := by
  split
  · next h => exact h ▸ SMap.get_set_same hw
  · next h => exact SMap.get_set_other hw h

/-- Aborting one channel after the other stops those of the mask. -/
theorem State.timRun_abort_foldl {m : Nat} {l : List Nat} : ∀ {s : State}, SMap.wf (fun _ => none) s.tim.runs = true →
    (l.foldl (fun (t : State) c => if m.testBit c then (t.setTimRun c none).setFlag (TIM_STAT_BUSY c) false else t) s).timRun c =
      if c ∈ l ∧ m.testBit c = true then none else s.timRun c := by
  induction l with
  | nil => exact fun _ => (if_neg (by simp)).symm
  | cons x l ih =>
    intro s hw
    rw [List.foldl_cons]
    cases hx : m.testBit x with
    | false =>
      rw [if_neg Bool.false_ne_true, ih hw]
      grind
    | true =>
      have hrun : ((s.setTimRun x none).setFlag (TIM_STAT_BUSY x) false).timRun c = if c = x then none else s.timRun c :=
        State.timRun_setTimRun hw none
      have hwf : SMap.wf (fun _ => none) ((s.setTimRun x none).setFlag (TIM_STAT_BUSY x) false).tim.runs = true :=
        SMap.wf_set (k := x) (v := none) hw
      rw [if_pos rfl, ih hwf, hrun]
      grind

theorem State.timRun_timAbort (hw : SMap.wf (fun _ => none) s.tim.runs = true) (m : Nat) :
    (s.timAbort m).timRun c = if c < 16 ∧ m.testBit c = true then none else s.timRun c := by
  rw [State.timAbort, State.timRun_abort_foldl hw]
  simp only [List.mem_range]

theorem evTimStamp_idle (h : s.timRun c = none) (a b : Bool) : evTimStamp c a b s = s := by
  unfold evTimStamp
  rw [h]

theorem evTimTimeout_idle (h : s.timRun c = none) : evTimTimeout c s = s := by
  unfold evTimTimeout
  rw [h]

theorem evTimGateEnd_idle (h : s.timRun c = none) : evTimGateEnd c s = s := by
  unfold evTimGateEnd
  rw [h]

section
variable {r : TimRun}

theorem evTimStamp_lost {l : Nat} (hr : s.timRun c = some r) (hl : r.last = some l) (h : s.wtb < l + 128) (a b : Bool) :
    evTimStamp c a b s = s.setTimRun c (some { r with lost := true }) := by
  unfold evTimStamp
  simp only [hr, hl]
  exact if_pos (decide_eq_true h)

theorem evTimStamp_freq {r' : TimRun} (hr : s.timRun c = some r) (hl : ∀ l, r.last = some l → l + 128 ≤ s.wtb)
    (hm : s.getF (TIM_CFG_MODE c) = 2) (hr' : r' = { r with last := some s.wtb }) (a b : Bool) :
    evTimStamp c a b s = s.setTimRun c (some (if a then { r' with stamps := s.wtb :: r.stamps } else r')) := by
  subst hr'
  unfold evTimStamp
  simp only [hr]
  refine (if_neg ?apart).trans (if_pos hm)
  case apart =>
    split
    · next l hlast => simpa using hl l hlast
    · exact Bool.false_ne_true

theorem evTimStamp_stop {o : Nat} {v : Int × Bool} {r' : TimRun} (hr : s.timRun c = some r) (hl : ∀ l, r.last = some l → l + 128 ≤ s.wtb)
    (hm : s.getF (TIM_CFG_MODE c) ≠ 2) (ho : r.opened = some o) (hne : s.getF (TIM_CFG_START c) ≠ s.getF (TIM_CFG_STOP c))
    (hv : v = satInterval ((s.wtb : Int) - o))
    (hr' : r' = { r with last := some s.wtb, vals := v.1 :: r.vals, ovr := r.ovr || v.2, opened := none }) :
    evTimStamp c false true s = if s.getF (TIM_N_N c) ≤ r'.vals.length then s.latencyDone c r' false else s.setTimRun c (some r') := by
  subst hv hr'
  unfold evTimStamp
  simp only [hr]
  refine (if_neg ?apart).trans ((if_neg hm).trans ?stop)
  case apart =>
    split
    · next l hlast => simpa using hl l hlast
    · exact Bool.false_ne_true
  case stop =>
    simp only [ho, beq_eq_false_iff_ne.mpr hne]
    rfl

theorem evTimTimeout_latency (hr : s.timRun c = some r) (hm : s.getF (TIM_CFG_MODE c) = 1) (ht : s.getF (TIM_TMO_TMO c) ≠ 0) :
    evTimTimeout c s = s.latencyDone c r true := by
  unfold evTimTimeout
  simp only [hr]
  exact if_pos (by simp [hm, ht])

theorem evTimGateEnd_fit {n nom : Nat} {f : Int × Int × Bool × Nat} (hr : s.timRun c = some r) (hm : s.getF (TIM_CFG_MODE c) = 2)
    (hn : n = r.stamps.length) (hnom : nom = (s.reg (TIM_NOM_LO c)).toNat + s.getF (TIM_NOM_HI_NOM c) * 2 ^ 32) (h2 : 2 ≤ n) (h0 : 0 < nom)
    (hf : f = lineFit r.stamps.reverse ((r.armedAt + s.wtb) / 2) nom) : evTimGateEnd c s =
      s.timDone c { r with ovr := r.ovr || f.2.2.1 } false
        [w32 f.1, w32 f.2.1, BitVec.ofNat 32 f.2.2.2, BitVec.ofNat 32 n, 0, BitVec.ofNat 32 n] := by
  have hfit : ¬ (n < 2 ∨ nom = 0) := by omega
  subst hf hn hnom
  unfold evTimGateEnd
  simp only [hr]
  exact (if_neg (not_not.mpr hm)).trans (if_neg hfit)

theorem State.latencyDone_vals (h : r.vals ≠ []) (tmo : Bool) : s.latencyDone c r tmo = s.timDone c r tmo (latencyWords r.vals) :=
  if_neg (by simpa using h)

end

end

/-- Settles O48, row by row. -/
theorem timeAndIntervals : Obligations.TimeAndIntervals := by
  intro s
  refine ⟨?ptpIdle, ?ptp, ?already, ?rises, ?lost, ?ntoff, ?epochSender, ?epochTile, ?pps, ?ppsOff, ?arm, ?armRefused, ?abort, ?idle, ?run,
    ?unlatched, ?latched⟩
  case ptpIdle => exact fun ht hv => next_congr ((if_neg (Bool.eq_false_iff.mp ht)).trans (if_neg (Bool.eq_false_iff.mp hv)))
  case ptp => exact fun ht hv hs => ⟨_, next_congr (if_neg (Bool.eq_false_iff.mp ht)), State.netLost_clears hs hv⟩
  case already =>
    intro ht hv
    rw [exec_netValidWrite_sender ht, State.netValidWrite_already ht hv]
  case rises =>
    intro ht hv t h
    rw [exec_netValidWrite_sender ht, State.netValidWrite_rises ht hv h]
  case lost =>
    intro ht
    rw [exec_netValidWrite_sender ht, State.netValidWrite_false ht]
  case ntoff =>
    rintro hi t ht rfl
    exact next_congr (if_neg (Bool.eq_false_iff.mp ht))
  case epochSender => exact fun ht => next_congr (if_neg (Bool.eq_false_iff.mp ht))
  case epochTile => exact fun ht => next_congr (if_pos ht)
  case pps => exact fun h => next_congr (if_pos h)
  case ppsOff => exact fun h => next_congr (if_neg (Bool.eq_false_iff.mp h))
  case arm => exact fun c v w hc hw ha => next_congr (evTimArm_accepted hc hw ha)
  case armRefused => exact fun c v hc ha => next_congr (evTimArm_refused hc ha)
  case abort => exact fun m hw => ⟨_, rfl, fun c => State.timRun_timAbort hw m⟩
  case idle =>
    exact fun c h => ⟨fun a b => next_congr (evTimStamp_idle h a b), next_congr (evTimTimeout_idle h),
      next_congr (evTimGateEnd_idle h)⟩
  case run =>
    exact fun c r hr => ⟨fun l a b hl h => next_congr (evTimStamp_lost hr hl h a b),
      fun a b hl hm r' h => next_congr (evTimStamp_freq hr hl hm h a b),
      fun o v r' hl hm ho hne hv h => next_congr (evTimStamp_stop hr hl hm ho hne hv h),
      fun hm ht => next_congr (evTimTimeout_latency hr hm ht),
      fun n nom f hm hn hnom h2 h0 hf => next_congr (evTimGateEnd_fit hr hm hn hnom h2 h0 hf),
      fun h tmo => State.latencyDone_vals h tmo⟩
  case unlatched =>
    intro c k hc hk h
    obtain ⟨m, hm⟩ := evTimResRead_unlatched hc hk h
    exact ⟨_, next_congr hm, rfl⟩
  case latched =>
    intro c k w hc hk h
    obtain ⟨m, hm⟩ := evTimResRead_latched hc hk h
    exact ⟨_, next_congr hm, rfl⟩

end

end Sys2Proof.Machine
end

section
/-! PROOFS. CLRCNT, FAB_COMMIT and the remap bits (O39). -/

namespace Sys2Proof.Machine

section
variable {s : State}

/-! ### CLRCNT (R522) -/

/-- Counts of the range stand at their reset values, every other register as before. -/
theorem State.reg_clearCounts (hs : s.Canon) (lo hi a : Nat) :
    (s.clearCounts lo hi).reg a = if lo ≤ a ∧ a < hi ∧ isCount a = true then regReset a else s.reg a := by
  have hget : (s.clearCounts lo hi).reg a = if !(decide (lo ≤ a) && decide (a < hi) && isCount a) then s.reg a else regReset a :=
    SMap.get_filter_key (fun k => !(decide (lo ≤ k) && decide (k < hi) && isCount k)) hs.regs a
  have hcleared : (decide (lo ≤ a) && decide (a < hi) && isCount a) = decide (lo ≤ a ∧ a < hi ∧ isCount a = true) := by
    simp [Bool.and_assoc, Bool.decide_and]
  rw [hget, hcleared]
  by_cases h : lo ≤ a ∧ a < hi ∧ isCount a = true <;> simp [h]

/-- CLRCNT of a block that the role has, and that holds a CLRCNT bit. -/
theorem evClrcnt_block {b : Nat} (hb : s.blockHere b = true) (hc : b = 0 ∨ b = 7 ∨ b = 22 ∨ ctrlBlocks.contains b = true) :
    evClrcnt (.block b) s =
      (if b = 18 then (s.clearBlock b).setF THERM_TEMP_PEAK 0 else s.clearBlock b).emit (.bus false 0) := by
  have hguard : (!s.blockHere b || !(b == 0 || b == 7 || b == 22 || ctrlBlocks.contains b)) = false := by
    simpa [hb, or_iff_not_imp_left] using hc
  exact if_neg (Bool.eq_false_iff.mp hguard)

/-! ### FAB_COMMIT (R412) -/

/-- Copying the first n shadows writes no shadow, and puts each of the n into force; the priorities end where the shadows begin. -/
theorem State.copyShadows_writes (hs : s.Canon) {n : Nat} (hn : n ≤ 64) {t : State}
    (ht : t = (List.range n).foldl (fun (u : State) r => u.setF (FAB_PRIO_PRIO r) (u.getF (FAB_PRIO_SH_PRIO r))) s) :
    RegWrites (· < FAB_PRIO_SH 0) s t ∧ ∀ r, r < n → t.getF (FAB_PRIO_PRIO r) = s.getF (FAB_PRIO_SH_PRIO r) := by
  induction n generalizing t with
  | zero =>
    subst ht
    exact ⟨RegWrites.refl hs, fun r hr => absurd hr (Nat.not_lt_zero r)⟩
  | succ n ih =>
    obtain ⟨hw, hcopied⟩ := ih (by omega) rfl
    rw [List.range_succ, List.foldl_append] at ht
    subst ht
    have hbelow : (FAB_PRIO_PRIO n).addr < FAB_PRIO_SH 0 := by show 0x30400 + 4 * n < 0x30500; omega
    refine ⟨hw.setF hbelow _, fun r hr => ?_⟩
    obtain hlt | rfl := Nat.lt_succ_iff_lt_or_eq.mp hr
    · have hother : (FAB_PRIO_PRIO r).addr ≠ (FAB_PRIO_PRIO n).addr := by show 0x30400 + 4 * r ≠ 0x30400 + 4 * n; omega
      exact (State.getF_setF_other hw.canon hother _).trans (hcopied r hlt)
    · have hshadow : ¬ (FAB_PRIO_SH_PRIO r).addr < FAB_PRIO_SH 0 := by show ¬ 0x30500 + 4 * r < 0x30500; omega
      refine (State.getF_setF_same hw.canon _ (Nat.zero_le 2) (show 2 < 32 by decide)).trans ?_
      rw [Nat.mod_eq_of_lt (State.getF_lt _ (FAB_PRIO_SH_PRIO r))]
      exact congrArg (fun w : Word => bitsOf w.toNat 2 0) (hw.kept _ hshadow)

/-! ### REMAP and its lock (R8, R340, R414, R522) -/

/-- A one-bit field's number, from its truth value. -/
theorem State.getF_one_bit {f : Field} (hf : f.hi = f.lo) : s.getF f = if s.flag f then 1 else 0 := by
  have hlt : s.getF f < 2 := by simpa [hf] using s.getF_lt f
  unfold State.flag
  interval_cases s.getF f <;> rfl

/-- The word of a write of SYS_CTRL with REMAP m and REMAP_LOCK l, RECOVERY and CLRCNT clear. -/
def remapWord (m l : Bool) : Word := BitVec.ofNat 32 ((if m then 1 else 0) + if l then 2 else 0)

theorem fieldIn_remapWord (m l : Bool) :
    fieldIn (remapWord m l) SYS_CTRL_REMAP = (if m then 1 else 0) ∧ fieldIn (remapWord m l) SYS_CTRL_REMAP_LOCK = (if l then 1 else 0) ∧
    fieldIn (remapWord m l) SYS_CTRL_RECOVERY = 0 ∧ fieldIn (remapWord m l) SYS_CTRL_CLRCNT = 0 := by
  cases m <;> cases l <;> decide

/-- Under the lock in force before the write (R8), a write that changes neither locked bit is taken; otherwise it is a violation. -/
theorem State.sysCtrlWrite_remapWord (m l : Bool) : s.sysCtrlWrite (remapWord m l) =
    if s.flag SYS_CTRL_REMAP_LOCK && (m != s.flag SYS_CTRL_REMAP || !l) then (s.lockViol SYS_CTRL (remapWord m l), false)
    else ((s.setFlag SYS_CTRL_REMAP m).setFlag SYS_CTRL_REMAP_LOCK (s.flag SYS_CTRL_REMAP_LOCK || l), true) := by
  obtain ⟨hm, hl, hr, hc⟩ := fieldIn_remapWord m l
  have hsame : ((if m then 1 else 0) != s.getF SYS_CTRL_REMAP) = (m != s.flag SYS_CTRL_REMAP) := by
    rw [State.getF_one_bit rfl]
    cases m <;> cases s.flag SYS_CTRL_REMAP <;> rfl
  have hopen : ((if l then 1 else 0) == 0) = !l := by cases l <;> rfl
  have hlock : ((if l then 1 else 0) == 1) = l := by cases l <;> rfl
  unfold State.sysCtrlWrite
  simp only [hm, hl, hr, hc, hsame, hopen, hlock, Nat.zero_ne_one, if_false]
  rfl

/-- REMAP writes its bit with the lock as it stands. -/
theorem evRemap_eq (b : Bool) : evRemap b s =
    (s.sysCtrlWrite (remapWord b (s.flag SYS_CTRL_REMAP_LOCK))).1.emit
      (.bus (!(s.sysCtrlWrite (remapWord b (s.flag SYS_CTRL_REMAP_LOCK))).2) 0) := by
  unfold evRemap remapWord
  rw [State.getF_one_bit (f := SYS_CTRL_REMAP_LOCK) rfl]
  cases s.flag SYS_CTRL_REMAP_LOCK <;> rfl

theorem evRemap_unlocked (h : s.flag SYS_CTRL_REMAP_LOCK = false) (b : Bool) :
    evRemap b s = ((s.setFlag SYS_CTRL_REMAP b).setFlag SYS_CTRL_REMAP_LOCK false).emit (.bus false 0) := by
  rw [evRemap_eq, h, State.sysCtrlWrite_remapWord, h]
  rfl

theorem evRemap_locked (h : s.flag SYS_CTRL_REMAP_LOCK = true) {b : Bool} (hb : s.flag SYS_CTRL_REMAP ≠ b) :
    evRemap b s = (s.lockViol SYS_CTRL (remapWord b true)).emit (.bus true 0) := by
  have hchange : (b != s.flag SYS_CTRL_REMAP) = true := bne_iff_ne.mpr hb.symm
  rw [evRemap_eq, h, State.sysCtrlWrite_remapWord, h, hchange]
  rfl

/-- REMAP_LOCK writes REMAP as it stands, so no lock in force refuses it. -/
theorem evRemapLock_eq : evRemapLock s =
    ((s.setFlag SYS_CTRL_REMAP (s.flag SYS_CTRL_REMAP)).setFlag SYS_CTRL_REMAP_LOCK true).emit (.bus false 0) := by
  have hword : BitVec.ofNat 32 (s.getF SYS_CTRL_REMAP + 2) = remapWord (s.flag SYS_CTRL_REMAP) true := by
    rw [State.getF_one_bit (f := SYS_CTRL_REMAP) rfl]
    rfl
  unfold evRemapLock
  rw [hword, State.sysCtrlWrite_remapWord]
  simp

/-- REMAP and its lock read back after both are written. -/
theorem State.flag_setRemap (hs : s.Canon) (m l : Bool) {t : State} (ht : t = (s.setFlag SYS_CTRL_REMAP m).setFlag SYS_CTRL_REMAP_LOCK l) :
    t.flag SYS_CTRL_REMAP = m ∧ t.flag SYS_CTRL_REMAP_LOCK = l := by
  subst ht
  have hm : (s.setFlag SYS_CTRL_REMAP m).Canon := State.setFlag_canon hs _ _
  refine ⟨?_, State.flag_setFlag_same hm rfl (by decide) l⟩
  rw [State.flag_setFlag_disjoint (f := SYS_CTRL_REMAP_LOCK) (g := SYS_CTRL_REMAP) hm rfl (.inl (by decide)) (by decide), State.flag_setFlag_same hs rfl (by decide)]

end

/-- Settles O39, command by command. -/
theorem controlWrites : Obligations.ControlWrites := by
  intro s
  refine ⟨fun n hn => ?bank, rfl, fun b hb h18 hc => ?block, fun hb => ?therm, fun lo hi a hs => State.reg_clearCounts hs lo hi a,
    fun hs => ?commit, fun h hs b => ?remap, fun hs => ?lock, ?refused⟩
  case bank =>
    refine next_congr (t := (s.clearBank (n % 8)).emit (.bus false 0)) ?_
    rw [Nat.mod_eq_of_lt hn]
  case block => exact next_congr ((evClrcnt_block hb hc).trans (by rw [if_neg h18]; rfl))
  case therm => exact next_congr (evClrcnt_block hb (by decide))
  case commit =>
    obtain ⟨hw, hcopied⟩ := State.copyShadows_writes hs (n := 16) (by decide) rfl
    exact ⟨s.fabCommit, rfl, hcopied, hw.frame⟩
  case remap =>
    obtain ⟨hm, hl⟩ := State.flag_setRemap hs b false rfl
    exact ⟨_, next_congr (evRemap_unlocked h b), hm, hl, rfl⟩
  case lock =>
    obtain ⟨hm, hl⟩ := State.flag_setRemap hs (s.flag SYS_CTRL_REMAP) true rfl
    exact ⟨_, next_congr evRemapLock_eq, hl, hm, rfl⟩
  case refused =>
    rintro h b v hb rfl
    exact next_congr (evRemap_locked h hb)

end Sys2Proof.Machine
end

section
/-! PROOFS. The arbiters of the fabric: requests, grants, transfers and withdrawals (O41). -/

namespace Sys2Proof.Machine

section
variable {s : State} {a b : Nat} {r : BusReq} {q w : ArbReq}

/-! ### Reading and setting an arbiter -/

theorem State.setArb_arbs (a : Nat) (x : Arb) : (s.setArb a x).arbs = SMap.set (fun _ => Arb.init) s.arbs a x := by
  unfold State.setArb
  cases x.owner <;> rfl

theorem State.arb_setArb_same (hs : s.Canon) (a : Nat) (x : Arb) : (s.setArb a x).arb a = x := by
  unfold State.arb
  rw [State.setArb_arbs, SMap.get_set_same hs.arbs]

theorem State.arb_setArb_other (hs : s.Canon) (h : b ≠ a) (x : Arb) : (s.setArb a x).arb b = s.arb b := by
  unfold State.arb
  rw [State.setArb_arbs, SMap.get_set_other hs.arbs h]

theorem State.setArb_canon (hs : s.Canon) (a : Nat) (x : Arb) : (s.setArb a x).Canon := (setArb_held (Held.ofCanon hs)).canon

@[simp] theorem State.arb_count (c n a : Nat) : (s.count c n).arb a = s.arb a := rfl

/-! ### Decisions (R408 to R411) -/

/-- Parking leaves the grant as it is. -/
theorem State.arb_arbPark_same (hs : s.Canon) (a n : Nat) :
    ((s.arbPark a n).arb a).owner = (s.arb a).owner ∧ ((s.arbPark a n).arb a).last = (s.arb a).last := by
  simp only [State.arbPark, State.arb_count, State.arb_setArb_same hs, and_self]

theorem State.arb_arbPark_other (hs : s.Canon) (h : b ≠ a) (n : Nat) : (s.arbPark a n).arb b = s.arb b :=
  State.arb_setArb_other hs h _

/-- An arbiter with w granted, before it parks the requests that lost to w. -/
def Arb.grant (x : Arb) (w : ArbReq) : Arb :=
  { x with owner := some w, last := w.r.req,
           queue := (if x.queue.contains w then x.queue.erase w else x.queue).map (fun q => { q with lost := q.lost + 1 }),
           ports := if x.queue.contains w then x.ports else x.ports.erase w }

theorem State.arbDecide_grants (hf : s.flag (FAB_ARB_CFG_FREEZE a) = false)
    (hw : s.arbBest a ((s.arb a).queue ++ rrOrder (s.arb a).last (s.arb a).ports) = some w) :
    s.arbDecide a = ((s.setArb a ((s.arb a).grant w)).count (FAB_ARB_N_GRANTS a) 1).arbPark a 1 := by
  simp only [State.arbDecide, hf, hw, Bool.false_eq_true, if_false, Arb.grant]

/-- A granted request owns its arbiter, and no other arbiter changes. -/
theorem State.arb_grantAndPark (hs : s.Canon) (a : Nat) (w : ArbReq) {t : State}
    (ht : t = ((s.setArb a ((s.arb a).grant w)).count (FAB_ARB_N_GRANTS a) 1).arbPark a 1) :
    (t.arb a).owner = some w ∧ (t.arb a).last = w.r.req ∧ ∀ b, b ≠ a → t.arb b = s.arb b := by
  have hset : (s.setArb a ((s.arb a).grant w)).Canon := State.setArb_canon hs a _
  have hcounted := State.count_canon hset (FAB_ARB_N_GRANTS a) 1
  obtain ⟨howner, hlast⟩ := State.arb_arbPark_same hcounted a 1
  rw [State.arb_count, State.arb_setArb_same hs] at howner hlast
  subst ht
  refine ⟨howner, hlast, fun b hb => ?_⟩
  rw [State.arb_arbPark_other hcounted hb, State.arb_count, State.arb_setArb_other hs hb]

/-! ### Requests, last beats and withdrawals (R408, R409, R416) -/

theorem evBusRequest_undecoded (h : s.busDecode r.addr = none) : evBusRequest r s = s.busDefault r := by
  simp only [evBusRequest, h]

theorem evBusRequest_decoded {o : Nat} (h : s.busDecode r.addr = some (a, o)) :
    evBusRequest r s = s.arbArrive a { r with addr := o } := by
  simp only [evBusRequest, h]

/-- A request joins the ports of its arbiter, and only an idle arbiter decides. -/
theorem State.arbArrive_eq {t : State}
    (ht : t = s.setArb a { s.arb a with ports := (s.arb a).ports ++ [{ r := r, left := max 1 r.beats, lost := 0 }] }) :
    s.arbArrive a r = if (s.arb a).owner.isNone then t.arbDecide a else t := by
  subst ht
  rfl

theorem evTransferLastBeat_noOwner (h : (s.arb a).owner = none) : evTransferLastBeat a s = s := by
  simp only [evTransferLastBeat, h]

theorem evTransferLastBeat_owned (h : (s.arb a).owner = some q) : evTransferLastBeat a s =
    if q.left ≤ s.arbLimit a then (State.busAccess (s.setArb a { s.arb a with owner := none }) a q.r).arbDecide a
    else (s.setArb a { s.arb a with owner := none,
                                    ports := (s.arb a).ports ++ [{ q with left := q.left - s.arbLimit a, lost := 0 }] }).arbDecide a := by
  simp only [evTransferLastBeat, h]

theorem evRequestWithdraw_noOwner (h : (s.arb a).owner = none) : evRequestWithdraw a s = s := by
  simp only [evRequestWithdraw, h]

theorem evRequestWithdraw_owned (h : (s.arb a).owner = some q) : evRequestWithdraw a s =
    ((s.setArb a { s.arb a with owner := none }).count (FAB_ARB_N_WITHDRAW a) 1).arbDecide a := by
  simp only [evRequestWithdraw, h]

end

/-- Settles O41: each command by its case of the arbiter's owner, the decision by what a grant leaves in the arbiters. The moment of the
access and the cut-off rest on log entries 125 and 126. -/
theorem busArbitration : Obligations.BusArbitration := by
  refine ⟨?undecoded, ?decoded, fun s a h => ⟨?idleBeat, ?idleWithdraw⟩, fun s a q h => ⟨?lastBeat, ?cutOff, ?withdrawn⟩, ?granted⟩
  case undecoded =>
    rintro s r h t rfl
    exact next_congr (congrArg State.settle (evBusRequest_undecoded h))
  case decoded =>
    intro s r a o t h ht
    have hjoin : evBusRequest r s = if (s.arb a).owner.isNone then t.arbDecide a else t :=
      (evBusRequest_decoded h).trans (State.arbArrive_eq ht)
    refine ⟨fun hidle => next_congr (congrArg State.settle ?_), fun hbusy => next_congr (congrArg State.settle ?_)⟩
    · rw [hjoin, if_pos (Option.isNone_iff_eq_none.mpr hidle)]
    · rw [hjoin, if_neg (mt Option.isNone_iff_eq_none.mp hbusy)]
  case idleBeat => exact next_congr (congrArg State.settle (evTransferLastBeat_noOwner h))
  case idleWithdraw => exact next_congr (evRequestWithdraw_noOwner h)
  case lastBeat =>
    intro hn
    exact next_congr (congrArg State.settle ((evTransferLastBeat_owned h).trans (if_pos hn)))
  case cutOff =>
    rintro ps rfl hn
    exact next_congr (congrArg State.settle ((evTransferLastBeat_owned h).trans (if_neg (Nat.not_le.mpr hn))))
  case withdrawn => exact next_congr (evRequestWithdraw_owned h)
  case granted =>
    intro s a w hs hfreeze _ hbest
    exact State.arb_grantAndPark hs a w (State.arbDecide_grants hfreeze hbest)

end Sys2Proof.Machine
end

section
/-! PROOFS. DDR5 requests and the data that comes back (O43). -/

namespace Sys2Proof.Machine

section
variable {s : State} {r : BusReq}

/-! ### Requests (R399 to R401, R403, R416) -/

theorem State.ddrRequest_down (h : s.flag DDR_STAT_DOWN = true) : s.ddrRequest r = s.ueOutcome r := if_pos h

theorem State.ddrRequest_waits {k : Nat} {d : DdrSub} (hk : k = ddrSubOf r.addr) (hd : d = s.ddrSub k) (hup : s.flag DDR_STAT_DOWN = false)
    (h : s.ddrServes = false ∨ d.blocked = true ∨ d.wait ≠ []) :
    s.ddrRequest r = s.setDdrSub k { d with wait := d.wait ++ [r] } := by
  subst hd hk
  have hguard : (!s.ddrServes || (s.ddrSub (ddrSubOf r.addr)).blocked || !(s.ddrSub (ddrSubOf r.addr)).wait.isEmpty) = true := by
    simpa [or_assoc] using h
  exact (if_neg (Bool.eq_false_iff.mp hup)).trans (if_pos hguard)

theorem State.ddrRequest_issued {d : DdrSub} (hd : d = s.ddrSub (ddrSubOf r.addr)) (hup : s.flag DDR_STAT_DOWN = false)
    (hserves : s.ddrServes = true) (hfree : d.blocked = false) (hwait : d.wait = []) : s.ddrRequest r = s.ddrIssue r := by
  subst hd
  simp [State.ddrRequest, hup, hserves, hfree, hwait]

/-- An issued command enters the retry buffer; only a whole write is made and answered at once. -/
theorem State.ddrIssue_eq {k : Nat} {d : DdrSub} {t : State} (hk : k = ddrSubOf r.addr) (hd : d = s.ddrSub k)
    (ht : t = s.setDdrSub k { d with buf := d.buf ++ [r], rows := s.touchRow d.rows r }) :
    s.ddrIssue r = if narrow r then t.count DDR_N_RMW 1
      else if r.write then (t.ddrWrite (r.addr - ddrBase) (reqData r)).emit (.bus false 0) else t := by
  subst ht hd hk
  rfl

/-! ### Read data (R404) -/

theorem State.ddrDeliver_write (h : r.write = true) : s.ddrDeliver r = (s.ddrWrite (r.addr - ddrBase) (reqData r)).emit (.bus false 0) := if_pos h

theorem State.ddrDeliver_read (h : r.write = false) :
    s.ddrDeliver r = s.emit (.bus false (leNat ((List.range r.bytes).map fun i => s.ddrByte (r.addr - ddrBase + i)))) :=
  if_neg (Bool.eq_false_iff.mp h)

/-- What the access does, by the bits in error in its worst word. -/
def State.ddrAnswer (s : State) (r : BusReq) (bits : Nat) : State :=
  if bits = 0 then s.ddrDeliver r else if bits = 1 then (s.ceAt r.addr).ddrDeliver r else (s.ueAt r.addr r.req).ueOutcome r

theorem State.ddrAnswer_uncorrectable {n : Nat} (h : 2 ≤ n) : s.ddrAnswer r n = (s.ueAt r.addr r.req).ueOutcome r :=
  (if_neg (by omega)).trans (if_neg (by omega))

theorem evDdrReadData_answered (hserves : s.ddrServes = true) (hin : s.inDdr r.addr = true) (hup : s.flag DDR_STAT_DOWN = false) (n : Nat) :
    evDdrReadData r n s = (s.ddrAnswer r n).panicRead r := by
  have hguard : (!s.ddrServes || !s.inDdr r.addr || s.flag DDR_STAT_DOWN) = false := by simp [hserves, hin, hup]
  exact if_neg (Bool.eq_false_iff.mp hguard)

theorem evDdrReadData_refused (h : s.ddrServes = false ∨ s.inDdr r.addr = false ∨ s.flag DDR_STAT_DOWN = true) (n : Nat) :
    evDdrReadData r n s = s := by
  have hguard : (!s.ddrServes || !s.inDdr r.addr || s.flag DDR_STAT_DOWN) = true := by simpa [or_assoc] using h
  exact if_pos hguard

/-! ### Panic at read data (R407) -/

theorem State.panicRead_noFeeder (h : r.req < 4 ∨ 7 < r.req) (haudio : r.req ≠ 10) : s.panicRead r = s :=
  (if_neg (by omega)).trans (if_neg haudio)

/-- The panic of an engine without a running job falls. -/
theorem State.panicRead_noJob (h4 : 4 ≤ r.req) (h7 : r.req ≤ 7) (hjob : (s.comp.running.any fun j => j.eng == r.req - 4) = false) :
    s.panicRead r = (s.panicSet r.req false).freed := by
  have hidle : ∀ n, s.panicCe (r.req - 4) n = s.panicSet (4 + (r.req - 4)) false := fun n => if_pos (by rw [hjob]; rfl)
  refine (if_pos ⟨h4, h7⟩).trans ?_
  rw [hidle, Nat.add_sub_cancel' h4]

/-! ### Uncorrectable accesses (R404, Table 15-4) -/

theorem State.ueOutcome_stoker (h : r.req ≤ 1) : s.ueOutcome r = s.emit (.stoker 1) := if_pos h

theorem State.ueOutcome_errorResponse (h : 8 ≤ r.req) (h' : r.req ≤ 9) : s.ueOutcome r = s.emit (.bus true 0) := by
  have h1 : ¬ r.req ≤ 1 := by omega
  have h7 : ¬ (4 ≤ r.req ∧ r.req ≤ 7) := by omega
  have h10 : r.req ≠ 10 := by omega
  have h13 : r.req ≠ 13 := by omega
  have h14 : r.req ≠ 14 := by omega
  simp only [State.ueOutcome, h1, h7, h10, h13, h14, if_false]

end

/-- Settles O43: the request by the state of the controller and its subchannel, the data by the bits in error. The buffering, the moment a
write lands and panic rest on log entries 119, 120, 122 and 154. -/
theorem ddrAccesses : Obligations.DdrAccesses := by
  intro s r k d hk hd
  refine ⟨fun hout => ?outside, fun hin => ⟨fun hdown => ?down, fun hup hwait => ?waits, fun hup hserves hfree hnone t ht => ?issued⟩,
    fun hserves hin hup => ?data, fun t => State.panicRead_noFeeder, fun t => State.panicRead_noJob,
    fun h n => next_congr (evDdrReadData_refused h n), State.ueOutcome_errorResponse, State.ueOutcome_stoker⟩
  case outside => exact next_congr (if_neg (Bool.eq_false_iff.mp hout))
  case down => exact next_congr ((if_pos hin).trans (State.ddrRequest_down hdown))
  case waits => exact next_congr ((if_pos hin).trans (State.ddrRequest_waits hk hd hup hwait))
  case issued =>
    have hissue : evDdrRequest r s = s.ddrIssue r :=
      (if_pos hin).trans (State.ddrRequest_issued (hd.trans (congrArg s.ddrSub hk)) hup hserves hfree hnone)
    have hmade := hissue.trans (State.ddrIssue_eq hk hd ht)
    refine ⟨fun hn => ?narrow, fun hn hw => ?write, fun hn hw => ?read⟩
    case narrow => exact next_congr (hmade.trans (if_pos hn))
    case write => exact next_congr (hmade.trans ((if_neg (Bool.eq_false_iff.mp hn)).trans (if_pos hw)))
    case read => exact next_congr (hmade.trans ((if_neg (Bool.eq_false_iff.mp hn)).trans (if_neg (Bool.eq_false_iff.mp hw))))
  case data =>
    have hanswer := evDdrReadData_answered hserves hin hup
    refine ⟨fun hr => ?read, fun hw => ?write, next_congr (hanswer 1), fun n hn => ?uncorrectable⟩
    case read => exact next_congr ((hanswer 0).trans (congrArg (State.panicRead · r) (State.ddrDeliver_read hr)))
    case write => exact next_congr ((hanswer 0).trans (congrArg (State.panicRead · r) (State.ddrDeliver_write hw)))
    case uncorrectable => exact next_congr ((hanswer n).trans (congrArg (State.panicRead · r) (State.ddrAnswer_uncorrectable hn)))

end Sys2Proof.Machine
end

section
/-! PROOFS. The DDR5 controller's own events: alerts, replay, retraining, scrub and refresh (O44). -/

namespace Sys2Proof.Machine

section
variable {s : State} {k : Nat} {d : DdrSub}

/-! ### Alerts and acknowledgements (R401, R402) -/

section
variable (hd : d = s.ddrSub k) (hserves : s.ddrServes = true) (hret : d.retrain = false)
include hd hserves hret

theorem evDdrAlert_serving : evDdrAlert k s =
    if d.replay then
      if 4 ≤ d.fails + 1 then ((s.count DDR_N_PARERR 1).count DDR_N_REPLAYFAIL 1).ddrRetrain [k]
      else ((s.count DDR_N_PARERR 1).count DDR_N_REPLAYFAIL 1).setDdrSub k { d with alert := true, replay := false, fails := d.fails + 1 }
    else (s.count DDR_N_PARERR 1).setDdrSub k { d with alert := true } := by
  subst hd
  have hguard : (!s.ddrServes || (s.ddrSub k).retrain) = false := by simp [hserves, hret]
  exact if_neg (Bool.eq_false_iff.mp hguard)

section
variable (halert : d.alert = false) (hrecov : d.recov = false)
include halert hrecov

/-- An acknowledged entry leaves the buffer, in the order of issue. -/
theorem evDdrRetryAck_issued (hreplay : d.replay = false) :
    evDdrRetryAck k s = (s.setDdrSub k { d with buf := d.buf.drop 1 }).ddrDrain k := by
  subst hd
  simp only [evDdrRetryAck, hserves, halert, hrecov, hret, hreplay, Bool.not_true, Bool.or_self, Bool.false_and, Bool.false_eq_true, if_false]

/-- The last entry of a replay completes it. -/
theorem evDdrRetryAck_lastReplayed (hreplay : d.replay = true) (hlast : d.buf.length ≤ 1) : evDdrRetryAck k s =
    ((s.setDdrSub k { d with buf := d.buf.drop 1, replay := false, fails := 0 }).count DDR_N_REPLAYS 1).ddrDrain k := by
  subst hd
  simp only [evDdrRetryAck, hserves, halert, hrecov, hret, hreplay, hlast, Bool.not_true, Bool.or_self, Bool.and_self, Bool.and_false,
    decide_true, Bool.false_eq_true, if_false, if_true]

end

end

/-! ### Retraining (R403) -/

/-- Subchannel k ends its retraining, and the requests that wait at either one leave it. -/
def State.ddrAbandon (s : State) (k : Nat) : State :=
  let t := s.setDdrSub 0 { s.ddrSub 0 with wait := [], retrain := decide (k ≠ 0) && (s.ddrSub 0).retrain }
  t.setDdrSub 1 { t.ddrSub 1 with wait := [], retrain := decide (k ≠ 1) && (t.ddrSub 1).retrain }

theorem State.ddrAbandon_canon (hs : s.Canon) (k : Nat) : (s.ddrAbandon k).Canon :=
  (setDdrSub_held (setDdrSub_held (Held.ofCanon hs))).canon

theorem evDdrRetrainDone_good (h : (s.ddrSub k).retrain = true) : evDdrRetrainDone k true s = s.ddrReplay k := by
  simp [evDdrRetrainDone, h]

/-- A failed retraining takes the controller down; the requests that waited are answered from that state. -/
theorem evDdrRetrainDone_failed (h : (s.ddrSub k).retrain = true) : evDdrRetrainDone k false s =
    ((s.ddrSub 0).wait ++ (s.ddrSub 1).wait).foldl State.ueOutcome ((s.ddrAbandon k).setFlag DDR_STAT_DOWN true) := by
  have hwaiting : ([0, 1].flatMap fun i => (s.ddrSub i).wait) = (s.ddrSub 0).wait ++ (s.ddrSub 1).wait := by simp
  rw [← hwaiting]
  refine (if_neg ?_).trans (if_neg Bool.false_ne_true)
  simp [h]

theorem evDdrRetrainDone_notRetraining (h : (s.ddrSub k).retrain = false) (ok : Bool) : evDdrRetrainDone k ok s = s := by
  simp [evDdrRetrainDone, h]

/-- Where nothing waits, a failed retraining leaves the memory and answers nothing. -/
theorem evDdrRetrainDone_failed_noneWaiting (hs : s.Canon) (hk : k < 2) (hret : (s.ddrSub k).retrain = true) (hwait : (s.ddrSub k).wait = [])
    (hother : (s.ddrSub (1 - k)).wait = []) {t : State} (ht : t = evDdrRetrainDone k false s) :
    t.flag DDR_STAT_DOWN = true ∧ t.ddr = s.ddr ∧ t.out = s.out := by
  have hnone : (s.ddrSub 0).wait ++ (s.ddrSub 1).wait = [] := by
    interval_cases k
    · exact List.append_eq_nil_iff.mpr ⟨hwait, hother⟩
    · exact List.append_eq_nil_iff.mpr ⟨hother, hwait⟩
  rw [evDdrRetrainDone_failed hret, hnone, List.foldl_nil] at ht
  subst ht
  exact ⟨State.flag_setFlag_same (State.ddrAbandon_canon hs k) rfl (by decide) true, rfl, rfl⟩

theorem State.ddrRetrainWrite_up (hserves : s.ddrServes = true) (hup : s.flag DDR_STAT_DOWN = false) :
    s.ddrRetrainWrite = s.ddrRetrain [0, 1] := by
  simp [State.ddrRetrainWrite, hserves, hup]

/-! ### Patrol scrub (R405) -/

/-- A scrub step within the pass acts on the next 64 bytes as their bits in error ask, and moves on. -/
theorem evPatrolScrub_within (hserves : s.ddrServes = true) (hup : s.flag DDR_STAT_DOWN = false)
    (hret : (s.ddrSub (ddrSubOf (ddrBase + s.mc.scrubAt))).retrain = false) (hmore : s.mc.scrubAt + 64 < s.ddrSize) (bits : Nat) {t : State}
    (ht : t = if bits = 0 then s else if bits = 1 then s.ceAt (ddrBase + s.mc.scrubAt)
      else (s.ueAt (ddrBase + s.mc.scrubAt) (s.free 0 4)).freed) :
    evPatrolScrub bits s = { t with mc := { t.mc with scrubAt := s.mc.scrubAt + 64 } } := by
  subst ht
  have hguard : (!s.ddrServes || s.flag DDR_STAT_DOWN || (s.ddrSub (ddrSubOf (ddrBase + s.mc.scrubAt))).retrain) = false := by
    simp [hserves, hup, hret]
  exact (if_neg (Bool.eq_false_iff.mp hguard)).trans (if_neg (Nat.not_le.mpr hmore))

end

/-- Settles O44, event by event. Replay, retraining and the failed retraining rest on log entries 121 and 124. -/
theorem ddrMaintenance : Obligations.DdrMaintenance := by
  intro s k d hd
  refine ⟨rfl, rfl, fun b h => next_congr (if_pos h), fun b h => next_congr (if_neg (Bool.eq_false_iff.mp h)),
    fun hserves hret => ⟨fun hfirst => ?alert, fun hreplay t ht => ⟨fun h4 => ?fourth, fun hless => ?again⟩, fun ha hr hp => ?ack,
      fun ha hr hp hl => ?lastAck⟩,
    fun h => ?deassert, fun h => ?noAlert, fun h => ?recov, fun h => ?noRecov,
    fun h => ?good, fun h hw hk ho hs => ?failed, fun h ok => ?notRetraining,
    fun hserves hup => ?retrain, fun h => ?scrubNow, fun hserves hup hret hmore => ⟨?scrubClean, ?scrubCorrected⟩⟩
  case alert => exact next_congr ((evDdrAlert_serving hd hserves hret).trans (if_neg (Bool.eq_false_iff.mp hfirst)))
  case fourth =>
    subst ht
    exact next_congr ((evDdrAlert_serving hd hserves hret).trans ((if_pos hreplay).trans (if_pos (Nat.succ_le_succ h4))))
  case again =>
    subst ht
    exact next_congr ((evDdrAlert_serving hd hserves hret).trans ((if_pos hreplay).trans (if_neg (by omega))))
  case ack => exact next_congr (evDdrRetryAck_issued hd hserves hret ha hr hp)
  case lastAck => exact next_congr (evDdrRetryAck_lastReplayed hd hserves hret ha hr hp hl)
  all_goals subst hd
  case deassert => exact next_congr (if_pos h)
  case noAlert => exact next_congr (if_neg (Bool.eq_false_iff.mp h))
  case recov => exact next_congr (if_pos h)
  case noRecov => exact next_congr (if_neg (Bool.eq_false_iff.mp h))
  case good => exact next_congr (evDdrRetrainDone_good h)
  case failed => exact ⟨_, rfl, evDdrRetrainDone_failed_noneWaiting hs hk h hw ho rfl⟩
  case notRetraining => exact next_congr (evDdrRetrainDone_notRetraining h ok)
  case retrain => exact next_congr (congrArg (State.emit · (.bus false 0)) (State.ddrRetrainWrite_up hserves hup))
  case scrubNow => exact next_congr (congrArg (State.emit · (.bus false 0)) (if_pos h))
  case scrubClean => exact next_congr (evPatrolScrub_within hserves hup hret hmore 0 rfl)
  case scrubCorrected => exact next_congr (evPatrolScrub_within hserves hup hret hmore 1 rfl)

end Sys2Proof.Machine
end

section
/-! PROOFS. Eye scans and sleeping lanes, Kiln and the ageing readings, firmware trials and the staging deadlines (O57). -/

namespace Sys2Proof.Machine

section
variable {s : State}

/-! ### Eye scans (R426, R427) -/

theorem evEscanStart_refused {l : Nat} {w : Word} (h : s.regAccepts s.bankRuns (LANE_ESCAN_CFG l) w = false) :
    evEscanStart l w s = s.emit (.bus true 0) := if_pos (by rw [h]; rfl)

/-- An accepted START clears NOLINK and TIMEOUT, and its scan ends at once where the lane has no link. -/
theorem evEscanStart_accepted {l : Nat} {w : Word} {t : State} (h : s.regAccepts s.bankRuns (LANE_ESCAN_CFG l) w = true)
    (ht : t = ((s.plainWrite (LANE_ESCAN_CFG l) w).setFlag (LANE_ESCAN_STAT_NOLINK l) false).setFlag (LANE_ESCAN_STAT_TIMEOUT l) false) :
    evEscanStart l w s = State.emit (if t.getF (LANE_LSTAT_RXST l) = 0 then
        ((t.setScan l none).scanEnd l).setFlag (LANE_ESCAN_STAT_NOLINK l) true
      else (State.scanPoint (t.setReg (LANE_MARGIN l) 0) l { margin := t.flag (LANE_ESCAN_CFG_MODE l), dir := 0, step := 1 }).setFlag
        (LANE_ESCAN_STAT_BUSY l) true) (.bus false 0) := by
  subst ht
  exact if_neg (by rw [h]; decide)

theorem evEscanPointDone_noScan {l : Nat} (h : s.scan l = none) (e : Nat) : evEscanPointDone l e s = s := by
  simp only [evEscanPointDone, h]

/-- s with the counts of a point of lane l: e errors in 2^DWELL bits. -/
def State.pointCounts (s : State) (l e : Nat) : State :=
  ((s.setReg (LANE_ERRCNT l) (BitVec.ofNat 32 (min e 0xFFFFFFFF))).setReg (LANE_BITCNT_LO l)
    (BitVec.ofNat 32 (2 ^ s.getF (LANE_ESCAN_CFG_DWELL l)))).setF (LANE_BITCNT_HI_B l) (2 ^ s.getF (LANE_ESCAN_CFG_DWELL l) / 2 ^ 32)

section
variable {l : Nat} {x : Scan} (hx : s.scan l = some x)
include hx

theorem evEscanPointDone_eye (hm : x.margin = false) (e : Nat) : evEscanPointDone l e s = (s.pointCounts l e).scanEnd l := by
  simp only [evEscanPointDone, hx, hm]
  rfl

theorem evEscanPointDone_goodPoint {e : Nat} (hm : x.margin = true) (he : e ≤ s.getF (LANE_ESCAN_LIM_ERRLIM l)) (hstep : x.step < marginMax x.dir) :
    evEscanPointDone l e s = (s.pointCounts l e).scanPoint l { x with step := x.step + 1 } := by
  simp [evEscanPointDone, hx, hm, Nat.not_lt.mpr he, Nat.not_le.mpr hstep, State.pointCounts]

theorem evEscanPointDone_badPoint {e : Nat} (hm : x.margin = true) (he : s.getF (LANE_ESCAN_LIM_ERRLIM l) < e) (hdir : x.dir < 3) :
    evEscanPointDone l e s =
      ((s.pointCounts l e).setF (marginF l x.dir) (x.step - 1)).scanPoint l { x with dir := x.dir + 1, step := 1 } := by
  simp [evEscanPointDone, hx, hm, he, hdir, State.pointCounts]

end

/-! ### Kiln (R458 to R460, R462) -/

theorem evKilnRunTimeout_idle (h : s.kiln.run = none) : evKilnRunTimeout s = s := by
  simp only [evKilnRunTimeout, h]

theorem evKilnMeasurementDone_idle (h : s.kiln.run = none) (m : KilnPair) : evKilnMeasurementDone m s = s := by
  simp only [evKilnMeasurementDone, h]

section
variable {r : KilnRun} (hr : s.kiln.run = some r)
include hr

theorem evKilnRunTimeout_running : evKilnRunTimeout s = (s.count KILN_N_SKIPPED (kilnLeft r.cls r.idx)).kilnEnd := by
  simp only [evKilnRunTimeout, hr]

theorem evKilnMeasurementDone_skipped : evKilnMeasurementDone .skipped s = (s.count KILN_N_SKIPPED 1).kilnGo r := by
  simp only [evKilnMeasurementDone, hr]

/-- A pair of a target that can be measured is taken, unless the temperature moved between its measurements. -/
theorem evKilnMeasurementDone_pair (hc : s.kilnCan r.cls r.idx = true) (a b : Int) (moved : Bool) :
    evKilnMeasurementDone (.pair a b moved) s = if moved then s else (s.kilnResult r a b).kilnGo r := by
  simp only [evKilnMeasurementDone, hr, hc]
  rfl

end

theorem State.putTargets_only {m : SMap (Option Int)} {t : State} (ht : t = { s with kiln := { s.kiln with targets := m } }) :
    t = { s with kiln := { s.kiln with targets := t.kiln.targets } } ∧ t.kiln.targets = m := by
  subst ht
  exact ⟨rfl, rfl⟩

theorem State.putApplied_only {m : SMap (Option Int)} {t : State} (ht : t = { s with kiln := { s.kiln with applied := m } }) :
    t = { s with kiln := { s.kiln with applied := t.kiln.applied } } ∧ t.kiln.applied = m := by
  subst ht
  exact ⟨rfl, rfl⟩

/-! ### Ageing monitors (R463) -/

/-- A monitor's degradation that is in range is kept. -/
def State.monitorValid (s : State) (m : Nat) (d : Int) : State := (s.setF (AGE_MON_DEG m) (unsigned 16 d)).setFlag (AGE_MON_VALID m) true

/-- A monitor without a reading in range is marked and counted. -/
def State.monitorFail (s : State) (m : Nat) : State :=
  ((s.setFlag (AGE_MON_VALID m) false).count AGE_N_MONFAIL 1).setFlag AGE_STAT_MON_FAIL true

/-- One monitor's part of AGEING_MEASURE. -/
def State.monitorTake (s : State) (m : Nat) : Option Int → State
  | some d => if d.natAbs ≤ 20000 then s.monitorValid m d else s.monitorFail m
  | none => s.monitorFail m

theorem State.monitorTake_inRange {d : Int} (h : d.natAbs ≤ 20000) (m : Nat) : s.monitorTake m (some d) = s.monitorValid m d := if_pos h

theorem State.monitorTake_outOfRange {d : Int} (h : ¬ d.natAbs ≤ 20000) (m : Nat) : s.monitorTake m (some d) = s.monitorFail m := if_neg h

/-- The first n monitors have taken their readings. -/
def State.monitorsTake (s : State) (ds : List (Option Int)) (n : Nat) : State :=
  (List.range n).foldl (fun (t : State) m => t.monitorTake m (ds.getD m none)) s

theorem evAgeingMeasure_eq (ds : List (Option Int)) : evAgeingMeasure ds s = s.monitorsTake ds 16 := rfl

theorem State.monitorsTake_succ (ds : List (Option Int)) (n : Nat) :
    s.monitorsTake ds (n + 1) = (s.monitorsTake ds n).monitorTake n (ds.getD n none) := by
  simp only [State.monitorsTake, List.range_succ, List.foldl_append, List.foldl_cons, List.foldl_nil]

/-- The registers that monitor m's reading writes. -/
def monitorWritten (m a : Nat) : Prop := a = AGE_MON m ∨ a = AGE_N_MONFAIL ∨ a = AGE_STAT

theorem State.monitorTake_writes {A : Nat → Prop} {t : State} {m : Nat} (hA : ∀ a, monitorWritten m a → A a) (h : RegWrites A s t)
    (d : Option Int) : RegWrites A s (t.monitorTake m d) := by
  have hmon : A (AGE_MON m) := hA _ (.inl rfl)
  have hfail : RegWrites A s (t.monitorFail m) :=
    ((h.setFlag (f := AGE_MON_VALID m) hmon false).setReg (hA _ (.inr (.inl rfl))) _).setFlag (f := AGE_STAT_MON_FAIL) (hA _ (.inr (.inr rfl))) true
  cases d with
  | none => exact hfail
  | some d =>
    by_cases hd : d.natAbs ≤ 20000
    · rw [State.monitorTake_inRange hd]
      exact (h.setF (f := AGE_MON_DEG m) hmon _).setFlag (f := AGE_MON_VALID m) hmon true
    · rw [State.monitorTake_outOfRange hd]
      exact hfail

theorem unsigned_lt (n : Nat) (d : Int) : unsigned n d < 2 ^ n := by
  unfold unsigned
  have hpos : (0 : Int) < ((2 ^ n : Nat) : Int) := Int.natCast_pos.mpr (Nat.two_pow_pos n)
  have hlt := Int.emod_lt_of_pos d hpos
  have hnn := Int.emod_nonneg d (Int.ne_of_gt hpos)
  omega

/-- Monitor m stands at a valid reading of d. -/
def State.monitorReads (s : State) (m : Nat) (d : Int) : Prop := s.flag (AGE_MON_VALID m) = true ∧ s.getF (AGE_MON_DEG m) = unsigned 16 d

theorem State.monitorValid_reads (hs : s.Canon) (m : Nat) (d : Int) : (s.monitorValid m d).monitorReads m d := by
  have hdeg : (s.setF (AGE_MON_DEG m) (unsigned 16 d)).Canon := State.setF_canon hs _ _
  refine ⟨State.flag_setFlag_same hdeg rfl (show 16 < 32 by decide) true, ?_⟩
  calc (s.monitorValid m d).getF (AGE_MON_DEG m)
      = (s.setF (AGE_MON_DEG m) (unsigned 16 d)).getF (AGE_MON_DEG m) :=
        State.getF_setF_disjoint hdeg (f := AGE_MON_VALID m) (g := AGE_MON_DEG m) rfl (.inl (show 15 < 16 by decide)) (show 16 < 32 by decide) _
    _ = unsigned 16 d % 2 ^ 16 := State.getF_setF_same hs _ (show 0 ≤ 15 by decide) (show 15 < 32 by decide)
    _ = unsigned 16 d := Nat.mod_eq_of_lt (unsigned_lt 16 d)

/-- A monitor's reading leaves the other monitors. -/
theorem State.monitorTake_reads_other (hs : s.Canon) {m k : Nat} (hk : k < 16) (hne : m ≠ k) {d : Int} (h : s.monitorReads k d)
    (r : Option Int) : (s.monitorTake m r).monitorReads k d := by
  have hout : ¬ monitorWritten m (AGE_MON k) := by
    unfold monitorWritten AGE_MON AGE_N_MONFAIL AGE_STAT
    omega
  have hreg : (s.monitorTake m r).reg (AGE_MON k) = s.reg (AGE_MON k) :=
    (State.monitorTake_writes (fun _ h => h) (RegWrites.refl hs) r).kept _ hout
  obtain ⟨hvalid, hdeg⟩ := h
  exact ⟨(congrArg (fun w : Word => bitsOf w.toNat 16 16 != 0) hreg).trans hvalid, (congrArg (fun w : Word => bitsOf w.toNat 15 0) hreg).trans hdeg⟩

theorem State.monitorsTake_writes (hs : s.Canon) (ds : List (Option Int)) (n : Nat) : RegWrites (fun _ => True) s (s.monitorsTake ds n) :=
  RegWrites.foldl (fun _ _ hu => State.monitorTake_writes (fun _ _ => trivial) hu _) _ (.refl hs)

theorem State.monitorsTake_reads (hs : s.Canon) (ds : List (Option Int)) {m n : Nat} {d : Int} (hmn : m < n) (hn : n ≤ 16)
    (hd : ds.getD m none = some d) (hlim : d.natAbs ≤ 20000) : (s.monitorsTake ds n).monitorReads m d := by
  induction n with
  | zero => exact absurd hmn (Nat.not_lt_zero m)
  | succ n ih =>
    have hcanon : (s.monitorsTake ds n).Canon := (State.monitorsTake_writes hs ds n).canon
    rw [State.monitorsTake_succ]
    obtain hlt | rfl := Nat.lt_succ_iff_lt_or_eq.mp hmn
    · exact State.monitorTake_reads_other hcanon (by omega) (Nat.ne_of_gt hlt) (ih hlt (by omega)) _
    · rw [hd, State.monitorTake_inRange hlim]
      exact State.monitorValid_reads hcanon m d

/-! ### Margins and the plan (R464, R465) -/

theorem evLaneMarginScan_first {l : Nat} (h : SMap.get (fun _ => none) s.age.lanes l = none) (a b c d : Nat) : evLaneMarginScan l a b c d s =
    { s with age := { s.age with lanes := SMap.set (fun _ => none) s.age.lanes l (some (min a b, min c d)) } } := by
  simp only [evLaneMarginScan, h]

theorem evLaneMarginScan_again {l : Nat} {x : Nat × Nat} (h : SMap.get (fun _ => none) s.age.lanes l = some x) (a b c d : Nat) :
    evLaneMarginScan l a b c d s =
      { s with age := { s.age with lanes := SMap.set (fun _ => none) s.age.lanes l (some (min x.1 (min a b), min x.2 (min c d))) } } := by
  simp only [evLaneMarginScan, h]

theorem evEqhUpdate_sender (h : s.tile = false) : evEqhUpdate s = s := if_neg (by simp [h])

theorem evEqhUpdate_tile {n e : Nat} (h : s.tile = true) (hn : n < 8) (hsafe : s.flag (PIN_BSTAT_SAFE n) = false)
    (he : e = s.age.eqh + s.getF LAMP_K_K * Config.exp2 (s.teff - 640) / 32768) :
    evEqhUpdate s = State.setReg { s with age := { s.age with eqh := e } } AGE_EQH (BitVec.ofNat 32 (min 0xFFFFFFFF (e / (360 * 2 ^ 32)))) := by
  subst he
  refine if_pos (Bool.and_eq_true_iff.mpr ⟨h, List.any_eq_true.mpr ⟨n, List.mem_range.mpr hn, ?_⟩⟩)
  rw [hsafe]
  rfl

theorem evAvsRetry_acknowledged (h : s.age.avs = none) (a : Bool) : evAvsRetry a s = s := by
  simp only [evAvsRetry, h]

theorem evAvsRetry_pending {mv : Nat} (h : s.age.avs = some mv) (a : Bool) : evAvsRetry a s = s.avsWrite mv a := by
  simp only [evAvsRetry, h]

/-! ### Firmware trials (R499) -/

theorem State.fwRevert_noTrial (h : s.flag FW_STAT_TRIAL = false) : s.fwRevert = s := if_pos (by rw [h]; rfl)

theorem State.fwRevert_trial {p : Nat} {t : State} (h : s.flag FW_STAT_TRIAL = true) (hp : p = s.fw.prev)
    (ht : t = (State.pauseBegin { s with fw := { s.fw with actWait := none } } p (SMap.get (fun _ => []) s.sto.qspi (2 + p))).setFlag FW_STAT_TRIAL
      false) : s.fwRevert = ((t.setFlag FW_STAT_REVERTED true).count FW_N_REVERTS 1).event 0x000D [] .owner := by
  subst hp ht
  exact if_neg (by rw [h]; decide)

/-! ### Staging deadlines (R502, R503) -/

theorem evStageConfirmDeadline_noStaging (h : s.stage = none) : evStageConfirmDeadline s = s := by
  simp only [evStageConfirmDeadline, h]

theorem evStageArmDeadline_noStaging (h : s.stage = none) : evStageArmDeadline s = s := by
  simp only [evStageArmDeadline, h]

theorem evStageVerify_noStaging (h : s.stage = none) : evStageVerify s = s := by
  simp only [evStageVerify, h]

section
variable {g : StageSt} (hg : s.stage = some g)
include hg

theorem evStageConfirmDeadline_incomplete (hp : g.phase = 0) (h : (g.tiles.all fun x => x.confirmed) = false) :
    evStageConfirmDeadline s = s.stageCancel := by
  simp [evStageConfirmDeadline, hg, hp, h]

/-- A group that is complete is armed; a frame program, which has no group, is due. -/
theorem evStageConfirmDeadline_complete {n : Nat} {t : State} (hp : g.phase = 0) (h : (g.tiles.all fun x => x.confirmed) = true)
    (hn : n = if g.kind = 2 then 2 else 1) (ht : t = { s with stage := some { g with phase := n } }) : evStageConfirmDeadline s =
      State.stageRegs (g.tiles.foldl (fun (u : State) x => u.ctrlSend x.port x.pos 0x0043 (leBytes 5 g.frame) none) t) n := by
  subst hn ht
  simp only [evStageConfirmDeadline, hg, hp, h, ne_eq, not_true_eq_false, if_false, if_true]

theorem evStageArmDeadline_armed (hp : g.phase = 1) (h : (g.tiles.all fun x => x.armed) = true) :
    evStageArmDeadline s = State.stageRegs { s with stage := some { g with phase := 2 } } 2 := by
  simp only [evStageArmDeadline, hg, hp, h, ne_eq, not_true_eq_false, if_false, if_true]

theorem evStageArmDeadline_incomplete (hp : g.phase = 1) (h : (g.tiles.all fun x => x.armed) = false) :
    evStageArmDeadline s = s.stageCancel := by
  simp [evStageArmDeadline, hg, hp, h]

theorem evStageVerify_frameProgram (hp : g.phase = 3) (hk : g.kind = 2) :
    evStageVerify s = (State.count { s with stage := none } FW_N_STG_DONE 1).stageReport g 0 := by
  simp only [evStageVerify, hg, hp, hk, Nat.lt_irrefl, if_false, if_true]

theorem evStageVerify_group (hp : 3 ≤ g.phase) (hk : g.kind ≠ 2) : evStageVerify s =
    (g.tiles.filter fun x => !x.ok).foldl (fun (u : State) x => u.ctrlSend x.port x.pos 0x0003 [] none) s := by
  simp only [evStageVerify, hg, if_neg (Nat.not_lt.mpr hp), if_neg hk]

end

end

/-- Settles O57, row by row. What a START and an end of a scan leave in its flags, the one pending Kiln run, the image of a revert and the
one report of a staging rest on log entries 130, 143, 161 and 193. -/
theorem laneKilnAndFirmwareRows : Obligations.LaneKilnAndFirmwareRows := by
  refine ⟨fun s l => ⟨fun w h => next_congr (evEscanStart_refused h), ?scanStart, rfl, fun hx => ?noScan, fun x hx => ?scan⟩,
    fun s p => ?sleep, fun s => ⟨rfl, rfl, fun hr => ?kilnIdle, fun r hr => ?kilnRun, ?targets, ?trims, ?ageing,
      fun l a b c d h => next_congr (evLaneMarginScan_first h a b c d), fun l a b c d x h => next_congr (evLaneMarginScan_again h a b c d),
      fun ds => rfl, fun h => next_congr (evEqhUpdate_sender h), fun n e h hn hsafe he => next_congr (evEqhUpdate_tile h hn hsafe he),
      fun a => ⟨rfl, rfl⟩, fun a h => next_congr (evAvsRetry_acknowledged h a), fun a mv h => next_congr (evAvsRetry_pending h a),
      fun h => next_congr (State.fwRevert_noTrial h), fun h p t hp ht => next_congr (State.fwRevert_trial h hp ht), rfl, rfl,
      fun h => next_congr (if_pos h), fun h => next_congr (if_neg h), fun h => next_congr (if_neg (Bool.eq_false_iff.mp h)),
      fun h => next_congr (if_pos h), fun hg => ?noStaging, fun g hg => ?staging⟩⟩
  case scanStart =>
    intro w t h ht
    have hstart := evEscanStart_accepted h ht
    refine ⟨fun hrx => next_congr (hstart.trans ?_), fun hrx x hx => next_congr (hstart.trans ?_)⟩
    · rw [if_pos hrx]
    · rw [if_neg hrx, hx]
  case noScan => exact ⟨next_congr (if_neg (by rw [hx]; decide)), fun n => next_congr (evEscanPointDone_noScan hx n)⟩
  case scan =>
    refine ⟨next_congr (if_pos (by rw [hx]; rfl)), ?_⟩
    rintro e _ _ rfl rfl
    exact ⟨fun hm => next_congr (evEscanPointDone_eye hx hm e), fun hm he hstep => next_congr (evEscanPointDone_goodPoint hx hm he hstep),
      fun hm he hdir => next_congr (evEscanPointDone_badPoint hx hm he hdir)⟩
  case sleep =>
    refine ⟨fun hp hen hst => next_congr (if_pos (by simp [hp, hen, hst])), fun h => next_congr (if_neg ?_), rfl, rfl,
      fun h => next_congr (if_pos h), fun h => next_congr (if_neg h), fun h => next_congr (if_pos h), fun h => next_congr (if_neg h),
      fun h => ⟨next_congr (if_pos h), next_congr (if_pos h), next_congr (if_pos h)⟩, fun h => ?_⟩
    · obtain h | h | h := h <;> simp [h]
    · have hlt : ¬ 2 ≤ s.rxst p := Nat.not_le.mpr h
      exact ⟨next_congr (if_neg hlt), next_congr (if_neg hlt), next_congr (if_neg hlt)⟩
  case kilnIdle => exact ⟨next_congr (evKilnRunTimeout_idle hr), fun m => next_congr (evKilnMeasurementDone_idle hr m)⟩
  case kilnRun =>
    exact ⟨next_congr (evKilnRunTimeout_running hr), next_congr (evKilnMeasurementDone_skipped hr), fun a b hc =>
      ⟨next_congr (evKilnMeasurementDone_pair hr hc a b false), next_congr (evKilnMeasurementDone_pair hr hc a b true)⟩⟩
  case targets =>
    rintro _ _ _ rfl rfl rfl
    exact ⟨evKilnTargetUpdate s, rfl, State.putTargets_only rfl⟩
  case trims => exact ⟨evKilnTrimStep s, rfl, State.putApplied_only rfl⟩
  case ageing =>
    intro ds hs
    have hframe := (State.monitorsTake_writes hs ds 16).frame
    exact ⟨_, next_congr (evAgeingMeasure_eq ds), hframe, fun m d hm hd hlim => State.monitorsTake_reads hs ds hm (Nat.le_refl 16) hd hlim⟩
  case noStaging =>
    exact ⟨next_congr (congrArg State.testStaged (evStageConfirmDeadline_noStaging hg)),
      next_congr (congrArg State.testStaged (evStageArmDeadline_noStaging hg)), next_congr (congrArg State.testStaged (evStageVerify_noStaging hg))⟩
  case staging =>
    exact ⟨fun hp h => next_congr (congrArg State.testStaged (evStageConfirmDeadline_incomplete hg hp h)),
      fun n t hp h hn ht => next_congr (congrArg State.testStaged (evStageConfirmDeadline_complete hg hp h hn ht)),
      fun hp h => next_congr (congrArg State.testStaged (evStageArmDeadline_armed hg hp h)),
      fun hp h => next_congr (congrArg State.testStaged (evStageArmDeadline_incomplete hg hp h)),
      fun hp hk => next_congr (congrArg State.testStaged (evStageVerify_frameProgram hg hp hk)),
      fun hp hk => next_congr (congrArg State.testStaged (evStageVerify_group hg hp hk))⟩

end Sys2Proof.Machine
end

section
/-! PROOFS. Every command answers a next state and leaves the queue, and the life counter rises with Ember's clock (O5, O6). -/

namespace Sys2Proof.Machine

section
variable {s : State} {c : Instr}

/-! ### The life counter across a command (R436) -/

/-- Where the life counter resumes when Ember's rail returns; SUPPLY_RESET of VDD_EMB is such a return by log entry 136. -/
def State.lifeResumed (s : State) : Nat := (s.pwr.lifeCell + 32768) % 2 ^ 48

/-- The life counter that a command leaves: it resumes where Ember's rail returns, and no other command moves it. -/
def State.lifeAfter (s : State) : Instr → Nat
  | .powerOn off => if off then s.lifeResumed else s.life
  | .supplyReset r => if r = 2 then s.lifeResumed else s.life
  | _ => s.life

theorem State.lifeAfter_return (h : c = .powerOn true ∨ c = .supplyReset 2) : s.lifeAfter c = s.lifeResumed := by
  obtain rfl | rfl := h <;> rfl

theorem State.lifeAfter_other (hp : c ≠ .powerOn true) (hr : c ≠ .supplyReset 2) : s.lifeAfter c = s.life := by
  unfold State.lifeAfter
  split
  · exact if_neg fun h => hp (congrArg Instr.powerOn h)
  · exact if_neg fun h => hr (congrArg Instr.supplyReset h)
  · rfl

/-! ### Every command -/

/-- No command ends in a fault or a refusal. -/
theorem exec_next (c : Instr) (s : State) : ∃ t, exec c s = .next t := by
  cases c <;> exact ⟨_, rfl⟩

/-- What a command answers has the queue and the canonical form, command by command in the order of the dispatch. -/
theorem exec_held (hs : s.Canon) (c : Instr) : HeldH ⟨s.pending, s.lifeAfter c⟩ (exec c s) :=
  have h := Held.ofCanon hs
  match c with
  | .powerOn _ => execPowerOn_held h | .powerGood => execPowerGood_held h | .rstNAssert => execRstNAssert_held h
  | .rstNRelease => execRstNRelease_held h | .strapSample _ => execStrapSample_held h | .kindling _ _ _ _ => execKindling_held h
  | .ddrTraining _ => execDdrTraining_held h | .registerWrite _ _ _ => execRegisterWrite_held h | .clrcnt _ => execClrcnt_held h
  | .nop _ => execNop_held h | .jmp _ => execJmp_held h | .jz _ => execJz_held h | .jnz _ => execJnz_held h | .call _ => execCall_held h
  | .ret _ => execRet_held h | .loop _ => execLoop_held h | .endl _ => execEndl_held h | .wait _ => execWait_held h
  | .waitResume _ => execWaitResume_held h | .waitTimeout _ => execWaitTimeout_held h | .sig _ => execSig_held h | .halt _ => execHalt_held h
  | .mov _ => execMov_held h | .addi _ => execAddi_held h | .add _ => execAdd_held h | .sub _ => execSub_held h | .and _ => execAnd_held h
  | .or _ => execOr_held h | .xor _ => execXor_held h | .shl _ => execShl_held h | .shr _ => execShr_held h | .cmp _ => execCmp_held h
  | .ld _ => execLd_held h | .st _ => execSt_held h | .mark _ => execMark_held h | .markSent => execMarkSent_held h | .damage _ => execDamage_held h
  | .band _ => execBand_held h | .zlist _ => execZlist_held h | .budget _ => execBudget_held h | .flip _ => execFlip_held h
  | .testslot _ => execTestslot_held h | .vec _ _ => execVec_held h | .vstr _ _ => execVstr_held h | .vgen _ _ => execVgen_held h
  | .tset _ => execTset_held h | .period _ => execPeriod_held h | .map _ => execMap_held h | .capt _ => execCapt_held h | .trig _ => execTrig_held h
  | .line _ => execLine_held h | .switchTimeout => execSwitchTimeout_held h | .fsqStart => execFsqStart_held h
  | .psqStart _ _ => execPsqStart_held h | .psqStop _ => execPsqStop_held h | .swevRaise _ => execSwevRaise_held h
  | .swevPendClear _ => execSwevPendClear_held h | .dmemAccess _ _ => execDmemAccess_held h | .captureRead _ => execCaptureRead_held h
  | .lineTimerWrite _ _ => execLineTimerWrite_held h | .lineTick _ => execLineTick_held h | .trigInEdge _ => execTrigInEdge_held h
  | .pinEdge _ _ => execPinEdge_held h | .pinConfigWrite _ _ => execPinConfigWrite_held h | .vddpFail _ _ => execVddpFail_held h
  | .frameTick => execFrameTick_held h | .sourceFrameRx _ => execSourceFrameRx_held h | .frameCloseTimeout _ => execFrameCloseTimeout_held h
  | .noSignal _ => execNoSignal_held h | .ptpSyncTimeout => execPtpSyncTimeout_held h | .bandJobStart _ _ => execBandJobStart_held h
  | .bandJobComplete _ _ => execBandJobComplete_held h | .bandDeadline _ => execBandDeadline_held h
  | .presentTimeReached => execPresentTimeReached_held h | .ackRx _ _ => execAckRx_held h | .ackWindowClose => execAckWindowClose_held h
  | .compGcommit => execCompGcommit_held h | .compFulldmg => execCompFulldmg_held h | .damageMapWrite _ _ _ _ _ => execDamageMapWrite_held h
  | .surfaceWriteRelease => execSurfaceWriteRelease_held h | .hopTrained _ _ => execHopTrained_held h | .hopHelloRx _ => execHopHelloRx_held h
  | .hopAuthRetry _ => execHopAuthRetry_held h | .portDNoPartner _ _ => execPortDNoPartner_held h | .stepUpEval _ _ _ => execStepUpEval_held h
  | .linkLost _ => execLinkLost_held h | .berCheck _ _ => execBerCheck_held h | .starve _ _ => execStarve_held h
  | .creditRx _ _ _ => execCreditRx_held h | .probeTimer => execProbeTimer_held h | .probeRx _ _ => execProbeRx_held h
  | .echoRx _ _ => execEchoRx_held h | .timeRspRx _ _ _ _ _ _ => execTimeRspRx_held h | .markRx _ _ _ _ => execMarkRx_held h
  | .presentRx _ _ _ _ => execPresentRx_held h | .bandRx _ _ _ => execBandRx_held h | .bandCorrectionDone => execBandCorrectionDone_held h
  | .ptimeReached => execPtimeReached_held h | .testslotRx _ _ _ _ => execTestslotRx_held h | .eventRx _ _ _ _ => execEventRx_held h
  | .ctrlRspRx _ _ _ _ _ => execCtrlRspRx_held h | .ctrlReqRetry _ _ _ => execCtrlReqRetry_held h | .ringOkTimeout _ => execRingOkTimeout_held h
  | .enum _ _ _ => execEnum_held h | .rateStep _ _ _ => execRateStep_held h | .status _ _ => execStatus_held h
  | .ctrlAttest _ _ _ => execCtrlAttest_held h | .ownerSet _ _ _ => execOwnerSet_held h | .ctrlKeySet _ _ _ _ => execCtrlKeySet_held h
  | .ctrlOwnerXfer _ _ _ => execCtrlOwnerXfer_held h | .ctrlDebugNonce _ _ => execCtrlDebugNonce_held h
  | .ctrlDebugToken _ _ _ => execCtrlDebugToken_held h | .ctrlPower _ _ _ _ => execCtrlPower_held h | .audio _ _ => execAudio_held h
  | .audioBlockDue _ => execAudioBlockDue_held h | .stage _ _ _ _ _ => execStage_held h | .stageData _ _ _ _ => execStageData_held h
  | .confirm _ _ => execConfirm_held h | .arm _ _ _ => execArm_held h | .cancel _ _ => execCancel_held h | .fwData _ _ _ _ _ => execFwData_held h
  | .lampTempCycle _ => execLampTempCycle_held h | .tempReadingRx _ _ _ _ => execTempReadingRx_held h
  | .tempRingTimeout _ => execTempRingTimeout_held h | .genSwitchTimeout => execGenSwitchTimeout_held h | .sweepDone => execSweepDone_held h
  | .sweepCommitTimeout => execSweepCommitTimeout_held h | .lampSweep => execLampSweep_held h | .calLoadDone => execCalLoadDone_held h
  | .lampClke _ => execLampClke_held h | .lampBright _ => execLampBright_held h | .rampStep => execRampStep_held h
  | .headroomWindowEnd _ _ => execHeadroomWindowEnd_held h | .supplyVoteRx _ _ _ _ _ _ _ => execSupplyVoteRx_held h
  | .testOpArm _ _ => execTestOpArm_held h | .testOpAbort _ _ => execTestOpAbort_held h | .testOpResend _ _ => execTestOpResend_held h
  | .testWindowOpen => execTestWindowOpen_held h | .testWindowClose => execTestWindowClose_held h | .fullTestPoll => execFullTestPoll_held h
  | .fullTestLimit => execFullTestLimit_held h | .testResRx _ _ => execTestResRx_held h | .testCollectTimeout => execTestCollectTimeout_held h
  | .runTimeout => execRunTimeout_held h | .syncEdge _ => execSyncEdge_held h | .syncStop _ => execSyncStop_held h
  | .syncRateCheck _ _ => execSyncRateCheck_held h | .ocxoStop => execOcxoStop_held h | .ocxoRateCheck _ => execOcxoRateCheck_held h
  | .ocxoRequalified => execOcxoRequalified_held h | .refQualified _ => execRefQualified_held h | .refEvaluation => execRefEvaluation_held h
  | .epochTimeout => execEpochTimeout_held h | .netValidWrite _ => execNetValidWrite_held h | .ntoffWrite _ => execNtoffWrite_held h
  | .ppsOutPulse => execPpsOutPulse_held h | .timArm _ _ => execTimArm_held h | .timAbort _ => execTimAbort_held h
  | .timStamp _ _ _ => execTimStamp_held h | .timTimeout _ => execTimTimeout_held h | .timGateEnd _ => execTimGateEnd_held h
  | .timResRead _ _ => execTimResRead_held h | .heartbeatTimer => execHeartbeatTimer_held h | .heartbeatTimeout _ => execHeartbeatTimeout_held h
  | .heartbeatRx _ => execHeartbeatRx_held h | .refereeEvaluation _ => execRefereeEvaluation_held h
  | .refereeStartupWait => execRefereeStartupWait_held h | .grantRx _ _ => execGrantRx_held h | .swapRspRx _ _ _ => execSwapRspRx_held h
  | .swapReqRetry => execSwapReqRetry_held h | .clmSwapReq => execClmSwapReq_held h | .mirrorRx _ _ _ => execMirrorRx_held h
  | .mirrorAckRx _ _ => execMirrorAckRx_held h | .mirrorAckTimeout => execMirrorAckTimeout_held h | .relayRx _ _ _ => execRelayRx_held h
  | .ringHelloTimer => execRingHelloTimer_held h | .ringHelloRx _ => execRingHelloRx_held h | .ringFormStable => execRingFormStable_held h
  | .ringFormTimeout => execRingFormTimeout_held h | .dtlsClientHello _ _ _ _ _ _ => execDtlsClientHello_held h
  | .dtlsKeyUpdate _ => execDtlsKeyUpdate_held h | .sessionIdleTimeout _ => execSessionIdleTimeout_held h | .nonceReq => execNonceReq_held h
  | .nonceExpiry => execNonceExpiry_held h | .fuseStepDone => execFuseStepDone_held h | .boffEval => execBoffEval_held h
  | .popFrameEvalTimeout => execPopFrameEvalTimeout_held h | .popCheckpoint => execPopCheckpoint_held h | .popCkpt => execPopCkpt_held h
  | .nandEraseDone _ _ => execNandEraseDone_held h | .nandProgramDone _ => execNandProgramDone_held h | .nandReadDone _ => execNandReadDone_held h
  | .nandPaceTick => execNandPaceTick_held h | .scrubTick => execScrubTick_held h | .nandScrubNow => execNandScrubNow_held h
  | .busRequest _ => execBusRequest_held h | .transferLastBeat _ => execTransferLastBeat_held h | .requestWithdraw _ => execRequestWithdraw_held h
  | .fabCommit => execFabCommit_held h | .remap _ => execRemap_held h | .remapLock => execRemapLock_held h | .recovery => execRecovery_held h
  | .ddrRequest _ => execDdrRequest_held h | .ddrReadData _ _ => execDdrReadData_held h | .ddrRefresh => execDdrRefresh_held h
  | .ddrMr4Poll _ => execDdrMr4Poll_held h | .dqsAdjust => execDqsAdjust_held h | .ddrRetryAck _ => execDdrRetryAck_held h
  | .ddrAlert _ => execDdrAlert_held h | .ddrAlertDeassert _ => execDdrAlertDeassert_held h | .ddrRecovExpiry _ => execDdrRecovExpiry_held h
  | .ddrRetrainDone _ _ => execDdrRetrainDone_held h | .ddrRetrain => execDdrRetrain_held h | .ddrScrubNow => execDdrScrubNow_held h
  | .patrolScrub _ => execPatrolScrub_held h | .escanStart _ _ => execEscanStart_held h | .escanAbort _ => execEscanAbort_held h
  | .escanPointDone _ _ => execEscanPointDone_held h | .escanTimeout _ => execEscanTimeout_held h | .laneTxSleep _ => execLaneTxSleep_held h
  | .laneScheduledWake _ => execLaneScheduledWake_held h | .laneKeepaliveWake _ => execLaneKeepaliveWake_held h
  | .laneWakeDone _ => execLaneWakeDone_held h | .laneRxSleep _ => execLaneRxSleep_held h | .laneRxRelock _ => execLaneRxRelock_held h
  | .relockfail _ => execRelockfail_held h | .laneSleepTimeout _ => execLaneSleepTimeout_held h | .bankedEntry => execBankedEntry_held h
  | .embSmoulder => execEmbSmoulder_held h | .wakeN => execWakeN_held h | .wakeSignal _ => execWakeSignal_held h | .wakeSpi => execWakeSpi_held h
  | .wakeAlarm => execWakeAlarm_held h | .wakeTherm => execWakeTherm_held h | .vsagWarnAssert _ => execVsagWarnAssert_held h
  | .vsagWarnClear _ => execVsagWarnClear_held h | .supplyReset _ => execSupplyReset_held h | .supThresholdMove => execSupThresholdMove_held h
  | .lifeCellWrite => execLifeCellWrite_held h | .xtalFail => execXtalFail_held h | .dieTempRead _ => execDieTempRead_held h
  | .thermGraceExpiry => execThermGraceExpiry_held h | .thermStepExpiry => execThermStepExpiry_held h
  | .thermReleaseExpiry => execThermReleaseExpiry_held h | .kilnRunStart => execKilnRunStart_held h
  | .kilnMeasurementDone _ => execKilnMeasurementDone_held h | .kilnRunTimeout => execKilnRunTimeout_held h | .kilnRun => execKilnRun_held h
  | .kilnTargetUpdate => execKilnTargetUpdate_held h | .kilnTrimStep => execKilnTrimStep_held h | .ageingMeasure _ => execAgeingMeasure_held h
  | .laneMarginScan _ _ _ _ _ => execLaneMarginScan_held h | .pinDriftMeasure _ => execPinDriftMeasure_held h | .eqhUpdate => execEqhUpdate_held h
  | .marginPlan _ => execMarginPlan_held h | .planNow _ => execPlanNow_held h | .avsRetry _ => execAvsRetry_held h
  | .camEnable _ => execCamEnable_held h | .camFrameStart _ => execCamFrameStart_held h | .camFrameEnd _ _ => execCamFrameEnd_held h
  | .pcommit => execPcommit_held h | .audioFrameBoundary _ _ => execAudioFrameBoundary_held h | .audCfgWrite _ _ => execAudCfgWrite_held h
  | .fwCommit => execFwCommit_held h | .fwTrialTimeout => execFwTrialTimeout_held h | .fwCtrlAbandon => execFwCtrlAbandon_held h
  | .activationPauseEnd => execActivationPauseEnd_held h | .stageConfirmDeadline => execStageConfirmDeadline_held h
  | .stageArmDeadline => execStageArmDeadline_held h | .stageVerify => execStageVerify_held h | .spiWrite _ _ => execSpiWrite_held h
  | .spiRead => execSpiRead_held h | .info _ => execInfo_held h | .ping _ _ => execPing_held h | .close _ => execClose_held h
  | .uploadOpen _ _ _ _ => execUploadOpen_held h | .uploadData _ _ _ _ => execUploadData_held h | .uploadClose _ _ => execUploadClose_held h
  | .uploadTimeout _ _ => execUploadTimeout_held h | .progLoad _ _ => execProgLoad_held h | .wcpStage _ _ _ _ _ => execWcpStage_held h
  | .stageStatus _ => execStageStatus_held h | .seqStart _ _ _ => execSeqStart_held h | .seqStop _ _ => execSeqStop_held h
  | .bind _ _ _ => execBind_held h | .unbind _ _ => execUnbind_held h | .layerSet _ _ _ _ => execLayerSet_held h
  | .layerClear _ _ => execLayerClear_held h | .surfaceWrite _ _ _ _ _ => execSurfaceWrite_held h | .surfaceFlip _ _ => execSurfaceFlip_held h
  | .zlistSet _ _ _ => execZlistSet_held h | .coefSet _ _ _ _ => execCoefSet_held h | .clinker _ _ _ _ => execClinker_held h
  | .damageHint _ _ => execDamageHint_held h | .statusRead _ _ _ _ _ => execStatusRead_held h | .eventRead _ _ => execEventRead_held h
  | .logRead _ _ => execLogRead_held h | .tenantSet _ _ _ => execTenantSet_held h | .tenantRemove _ _ => execTenantRemove_held h
  | .slotAssign _ _ _ => execSlotAssign_held h | .ownerInstall _ _ => execOwnerInstall_held h | .ownerXfer _ _ => execOwnerXfer_held h
  | .keyAdd _ _ => execKeyAdd_held h | .keyRemove _ _ => execKeyRemove_held h | .refcredSet _ _ => execRefcredSet_held h
  | .stepAuth _ _ => execStepAuth_held h | .debugNonce _ => execDebugNonce_held h | .debugToken _ _ => execDebugToken_held h
  | .factoryReset _ => execFactoryReset_held h | .testRun _ _ _ _ _ _ _ _ => execTestRun_held h | .testAbort _ _ => execTestAbort_held h
  | .testResult _ _ _ => execTestResult_held h | .testAck _ _ => execTestAck_held h | .popCollect _ _ => execPopCollect_held h
  | .popAck _ _ _ => execPopAck_held h | .attest _ _ _ _ => execAttest_held h | .fwInstall _ _ => execFwInstall_held h
  | .fwActivate _ _ => execFwActivate_held h | .fwAbandon _ => execFwAbandon_held h | .laneInstall _ _ => execLaneInstall_held h
  | .recoveryEnter _ => execRecoveryEnter_held h | .recoveryExit _ => execRecoveryExit_held h | .power _ _ => execPower_held h
  | .cordPower _ _ _ => execCordPower_held h | .cordWake _ _ => execCordWake_held h | .swap _ => execSwap_held h
  | .refHeartbeat _ _ => execRefHeartbeat_held h | .refGrant _ _ _ _ => execRefGrant_held h | .refSwapRsp _ _ _ _ => execRefSwapRsp_held h
  | .regRead _ _ _ => execRegRead_held h | .regWrite _ _ _ => execRegWrite_held h | .latchingReadLo _ => execLatchingReadLo_held h
  | .tapReset => execTapReset_held h | .idcode => execIdcode_held h | .samplePreload _ => execSamplePreload_held h | .extest _ => execExtest_held h
  | .clamp => execClamp_held h | .highz => execHighz_held h | .dbgap _ _ _ _ _ => execDbgap_held h | .bypass => execBypass_held h
  | .stkHalt _ => execStkHalt_held h | .stkStep => execStkStep_held h | .fsqHalt _ => execFsqHalt_held h | .fsqStep _ => execFsqStep_held h
  | .psqHalt _ => execPsqHalt_held h | .traceSwmsg _ => execTraceSwmsg_held h | .traceEnable _ _ => execTraceEnable_held h
  | .traceClear => execTraceClear_held h | .traceRdataRead _ => execTraceRdataRead_held h
  | .sourcePortLinkChange _ _ _ => execSourcePortLinkChange_held h | .xtalRecovered => execXtalRecovered_held h
  | .ocxoWarmChange _ => execOcxoWarmChange_held h | .ocxoGlitch => execOcxoGlitch_held h
  | .clientCertificate _ _ _ _ => execClientCertificate_held h | .qspiWriteDone _ => execQspiWriteDone_held h
  | .cutThroughForward _ _ => execCutThroughForward_held h | .brightnessRequest _ _ _ => execBrightnessRequest_held h
  | .lampTfRequest _ _ _ => execLampTfRequest_held h | .clinkerMapRequest _ _ _ => execClinkerMapRequest_held h
  | .dormantPortSignal _ => execDormantPortSignal_held h | .firmwareFault => execFirmwareFault_held h | .cfgSlotWrite => execCfgSlotWrite_held h

/-- Settles O5: the next state of the command is held to the queue and to the life counter that the command leaves. -/
theorem commandsCompleteAndLeaveQueueAndLife : Obligations.CommandsCompleteAndLeaveQueueAndLife := by
  intro c s hs
  obtain ⟨t, ht⟩ := exec_next c s
  have h := (exec_held hs c).use t ht
  exact ⟨t, ht, h.pending, fun hp hr => h.lifeEq.trans (State.lifeAfter_other hp hr), fun hc => h.lifeEq.trans (State.lifeAfter_return hc)⟩

/-! ### The life counter across a step -/

theorem State.life_le_oneNs (h : s.life < 2 ^ 48 - 1) : s.life ≤ s.oneNs.life := by
  obtain he | he := s.oneNs_life
  · exact he.ge
  · omega

theorem step_of_queue {cs : List Instr} (h : s.pending = c :: cs) : step s = exec c { s with pending := cs } := by
  unfold step
  rw [h]

/-- Settles O6: on an empty queue by the nanosecond that passes, else by the command in front. -/
theorem lifeCounterNeverDecreases : Obligations.LifeCounterNeverDecreases := by
  intro s t hs hlt hstep
  cases hq : s.pending with
  | nil =>
    rw [step_of_empty_queue hq] at hstep
    cases hstep
    exact ⟨fun _ _ => State.life_le_oneNs hlt, by simp⟩
  | cons c cs =>
    have hrun : exec c { s with pending := cs } = .next t := (step_of_queue hq).symm.trans hstep
    have hlife := ((exec_held (s := { s with pending := cs }) { hs with } c).use t hrun).lifeEq
    simp only [List.head?_cons, Option.some.injEq, ne_eq]
    refine ⟨fun hp hr => ?_, fun hc hcell => ?_⟩
    · exact (hlife.trans (State.lifeAfter_other hp hr)).ge
    · exact ((hlife.trans (State.lifeAfter_return hc)).trans (Nat.mod_eq_of_lt hcell)).symm

end

end Sys2Proof.Machine
end

section
/-! PROOFS. Power, power-good, RST_N and the resets of the rails (O32). -/

namespace Sys2Proof.Machine

section
variable {s : State}

/-! ### POWER_ON (R436, R445) -/

/-- Registers aside, POWER_ON is a full reset that takes the power as not yet good, the part as powered, and sets the life counter. -/
theorem evPowerOn_frame (s : State) (embOff : Bool) : evPowerOn embOff s = { s.fullReset embOff true 6 with
    regs := (evPowerOn embOff s).regs, life := if embOff then s.lifeResumed else s.life,
    fw := { (s.fullReset embOff true 6).fw with powerGood := false }, pwr := { (s.fullReset embOff true 6).pwr with powered := true } } := by
  cases embOff <;> rfl

theorem State.reg_count_same (hs : s.Canon) (a n : Nat) : ((s.count a n).reg a).toNat = min ((s.reg a).toNat + n) 0xFFFFFFFF := by
  unfold State.count
  rw [State.reg_setReg_same hs, BitVec.toNat_ofNat]
  omega

/-- With Ember up, POWER_ON counts in a register that the full reset keeps. -/
theorem evPowerOn_counts (hs : s.Canon) :
    ((evPowerOn false s).reg EMB_N_POWERONS).toNat = min ((s.reg EMB_N_POWERONS).toNat + 1) 0xFFFFFFFF := by
  have hc := State.fullReset_canon hs false true 0
  have hkept : (s.fullReset false true 0).reg EMB_N_POWERONS = s.reg EMB_N_POWERONS := by
    rw [State.fullReset_reg hs false true 0 (by decide) (by decide),
      (State.resetWrites_writes (State.keptRegs_canon hs false)).kept _ (by unfold resetWritten; decide), State.reg_keptRegs hs]
    exact if_pos (by decide)
  rw [← hkept]
  exact State.reg_count_same (s := { s.fullReset false true 0 with
    fw := { (s.fullReset false true 0).fw with powerGood := false }, pwr := { (s.fullReset false true 0).pwr with powered := true } })
    { hc with } EMB_N_POWERONS 1

/-! ### Leaving reset (R485) -/

/-- The part stays in reset only where power is not good or RST_N is low. -/
theorem State.leaveReset_eq (s : State) : s.leaveReset = { s with fw := { s.fw with
    inReset := s.fw.inReset && (!s.fw.powerGood || s.fw.rstLow) } } := by
  unfold State.leaveReset
  cases s.fw.powerGood <;> cases s.fw.rstLow <;> simp

/-! ### SUPPLY_RESET (R449) -/

theorem evSupplyReset_unmonitored {r : Nat} (h : 4 ≤ r ∨ (r = 3 ∧ s.flag SUP_STAT_VMON_OFF = true)) : evSupplyReset r s = s := if_pos h

theorem evSupplyReset_monitored {r : Nat} (hr : r < 4) (hv : r = 3 → s.flag SUP_STAT_VMON_OFF = false) : evSupplyReset r s =
    ((s.fullReset (r == 2) (r == 1) (2 + r)).count (SUP_N_RESET r) 1).railLost (if r = 2 then s.lifeResumed else s.life) :=
  if_neg fun h => h.elim (Nat.not_le.mpr hr) fun ⟨h3, hoff⟩ => Bool.false_ne_true ((hv h3).symm.trans hoff)

end

/-- Settles O32, command by command. The cause numbers and the life counter after a loss of VDD_EMB rest on log entries 134 and 136. -/
theorem powerAndResetInputs : Obligations.PowerAndResetInputs := by
  intro s
  refine ⟨fun off hs => ?powerOn, ?powerGood, ?release, rfl, fun r h => next_congr (evSupplyReset_unmonitored h), ?supply⟩
  case powerOn =>
    have h := evPowerOn_frame s off
    refine ⟨_, rfl, congrArg (·.fw.inReset) h, congrArg (·.fw.powerGood) h, congrArg (·.pwr.powered) h, congrArg (·.nvj) h, congrArg (·.seqs) h,
      congrArg (·.ddr) h, ?_, ?_⟩
    · rintro rfl
      exact ⟨congrArg (·.life) h, evPowerOn_counts hs⟩
    · rintro rfl
      exact congrArg (·.life) h
  case powerGood =>
    have h := State.leaveReset_eq { s with fw := { s.fw with powerGood := true, goodAt := s.life } }
    exact ⟨_, next_congr h, rfl, rfl, rfl, rfl⟩
  case release =>
    have h := State.leaveReset_eq { s with fw := { s.fw with rstLow := false } }
    refine ⟨_, next_congr h, rfl, ?_, rfl⟩
    exact congrArg (s.fw.inReset && ·) (Bool.or_false _)
  case supply =>
    rintro r hr hv _ rfl
    exact next_congr (evSupplyReset_monitored hr hv)

end Sys2Proof.Machine
end

section
/-! PROOFS. Supply-sag warning, BANKED, SMOULDER and the life cells (O34). -/

namespace Sys2Proof.Machine

section
variable {s t u : State}

/-! ### Supply-sag warning (R447, R448) -/

section
variable {r : Nat}

theorem evVsagWarnAssert_ignored
    (h : 4 ≤ r ∨ (r = 3 ∧ s.flag SUP_STAT_VMON_OFF = true) ∨ (s.getF SUP_STAT_WARN).testBit r = true) : evVsagWarnAssert r s = s := if_pos h

/-- A rail that is monitored and does not yet warn enters WARN and WARNED and counts; the first one asserts the warning. -/
theorem evVsagWarnAssert_warns (hr : r < 4) (hv : r = 3 → s.flag SUP_STAT_VMON_OFF = false) (hw : (s.getF SUP_STAT_WARN).testBit r = false)
    (ht : t = ((s.setF SUP_STAT_WARN (s.getF SUP_STAT_WARN ||| 2 ^ r)).setF SUP_STAT_WARNED (s.getF SUP_STAT_WARNED ||| 2 ^ r)).count
      (SUP_N_WARN r) 1) :
    evVsagWarnAssert r s = if s.flag SUP_STAT_VSAG_WARN then t
      else ((((((t.setFlag SUP_STAT_VSAG_WARN true).irq 24).raiseFsq 7).raisePsqs 3).healthReg).closeRecords).sagHold := by
  have hgo : ¬ (4 ≤ r ∨ (r = 3 ∧ s.flag SUP_STAT_VMON_OFF = true) ∨ (s.getF SUP_STAT_WARN).testBit r = true) := by
    rintro (h | ⟨h, hoff⟩ | h)
    · omega
    · simp [hv h] at hoff
    · simp [hw] at h
  subst ht
  exact if_neg hgo

end

section
variable {ack : Bool}

theorem evVsagWarnClear_noWarning (h : s.flag SUP_STAT_VSAG_WARN = false) : evVsagWarnClear ack s = s := if_pos (by simp [h])

/-- The clearing ends the warning and lets what waited go on, a waiting plan last. -/
theorem evVsagWarnClear_warning (h : s.flag SUP_STAT_VSAG_WARN = true)
    (ht : t = ((((((s.setF SUP_STAT_WARN 0).setFlag SUP_STAT_VSAG_WARN false).irq 24).healthReg).nandKick).blowNext).fwResume) :
    evVsagWarnClear ack s = if t.age.wait then State.plan { t with age := { t.age with wait := false } } ack else t := by
  have hclear : s.vsagClear = ((((s.setF SUP_STAT_WARN 0).setFlag SUP_STAT_VSAG_WARN false).irq 24).healthReg).nandKick.blowNext := if_pos h
  rw [← hclear] at ht
  subst ht
  exact if_neg (by simp [h])

end

/-! ### BANKED and SMOULDER (R439 to R441) -/

theorem evBankedEntry_stays (h : s.getF EMB_PWR_STATE ≠ 0 ∨ s.idle = false) : evBankedEntry s = s :=
  if_neg fun ⟨h0, hi⟩ => h.elim (· h0) fun hbusy => Bool.false_ne_true (hbusy.symm.trans hi)

/-- An idle part in LIT enters BANKED, with a trace marker where power markers are on. -/
theorem evBankedEntry_enters (h0 : s.getF EMB_PWR_STATE = 0) (hi : s.idle = true) : evBankedEntry s =
    if (s.setF EMB_PWR_STATE 1).flag TRACE_CTRL_MARKPWR then (s.setF EMB_PWR_STATE 1).traceMark 9 0 else s.setF EMB_PWR_STATE 1 :=
  if_pos ⟨h0, hi⟩

theorem State.getF_traceMark (hs : s.Canon) (kind : Nat) (data : Word) {f : Field} (hf : f.addr / 0x10000 ≠ TRACE_STAT / 0x10000) :
    (s.traceMark kind data).getF f = s.getF f := by
  unfold State.getF State.traceMark
  rw [State.trace64_reg hs 15 kind data hf]

theorem evBankedEntry_state (hs : s.Canon) (h0 : s.getF EMB_PWR_STATE = 0) (hi : s.idle = true) : (evBankedEntry s).getF EMB_PWR_STATE = 1 := by
  have hset : (s.setF EMB_PWR_STATE 1).getF EMB_PWR_STATE = 1 := State.getF_setF_same hs 1 (by decide) (by decide)
  rw [evBankedEntry_enters h0 hi]
  split
  · rw [State.getF_traceMark (State.setF_canon hs _ _) 9 0 (by decide), hset]
  · exact hset

/-- BANKED_ENTRY moves registers and the trace ring only. -/
theorem evBankedEntry_frame : evBankedEntry s = { s with regs := (evBankedEntry s).regs, trace := (evBankedEntry s).trace } := by
  unfold evBankedEntry
  split
  · dsimp only
    split
    · exact State.trace64_frame 15 9 0
    · rfl
  · rfl

theorem State.smoulder_again (h : s.getF EMB_PWR_STATE = 2) (therm : Bool) : s.smoulder therm = s := if_pos h

/-- Entry to SMOULDER: every bank safe, the records closed, the links gated, then the state and its count. -/
theorem State.smoulder_enters (h : s.getF EMB_PWR_STATE ≠ 2) (ht : t = (List.range 8).foldl State.psqHaltSafe s)
    (hu : u = [0, 1, 2, 3].foldl (fun (u : State) p => if u.sender && u.flag (SRC_PSTAT_LINK p) then evSourceLinkLanes p false false u else u)
      ((List.range 10).foldl State.linkOff (t.closeRecords.traceMark 10 0))) (therm : Bool) :
    s.smoulder therm = ((u.setF EMB_PWR_STATE 2).count EMB_N_SMOULDERS 1).setFlag EMB_STAT_SMOULDER_THERM therm := by
  subst ht hu
  exact if_neg h

/-! ### Life cells (R436, R465) -/

section
variable (hu : u = { s with pwr := { s.pwr with lifeCell := max s.pwr.lifeCell s.life } })
include hu

theorem evLifeCellWrite_smoulder (h : s.getF EMB_PWR_STATE = 2) : evLifeCellWrite s = u := by
  subst hu
  exact if_pos h

theorem evLifeCellWrite_second (h : s.getF EMB_PWR_STATE ≠ 2) (hlt : s.age.secs < 3599) :
    evLifeCellWrite s = { u with age := { s.age with secs := s.age.secs + 1 } } := by
  subst hu
  exact (if_neg h).trans (if_pos (Nat.add_lt_add_right hlt 1))

theorem evLifeCellWrite_hour (h : s.getF EMB_PWR_STATE ≠ 2) (hge : 3599 ≤ s.age.secs) :
    evLifeCellWrite s = State.setReg { u with age := { s.age with secs := 0 } } AGE_OPH (s.reg AGE_OPH + 1) := by
  subst hu
  exact (if_neg h).trans (if_neg (Nat.not_lt.mpr (Nat.add_le_add_right hge 1)))

end

end

/-- Settles O34, command by command. That a gated link is not counted as lost, which seconds are operating seconds, and which idle conditions
the state shows rest on log entries 133, 136 and 138. -/
theorem supplyAndPowerStates : Obligations.SupplyAndPowerStates := by
  refine ⟨fun s r => ⟨fun h => next_congr (evVsagWarnAssert_ignored h), fun hr hv hw t ht => ?warn,
      fun ack h => next_congr (congrArg State.settle (evVsagWarnClear_noWarning h)), fun ack t h ht => ?clear⟩,
    fun s => ⟨fun h => next_congr (evBankedEntry_stays h), fun h0 hi hs => ?banked,
      fun h => next_congr (congrArg (State.emit · _) (State.smoulder_again h false)),
      fun h t u ht hu => next_congr (congrArg (State.emit · _) (State.smoulder_enters h ht hu false)),
      fun u hu => ⟨fun h => next_congr (evLifeCellWrite_smoulder hu h), fun h hlt => next_congr (evLifeCellWrite_second hu h hlt),
        fun h hge => next_congr (evLifeCellWrite_hour hu h hge)⟩,
      fun p => rfl, rfl, rfl, rfl⟩⟩
  case warn =>
    have hwarn := evVsagWarnAssert_warns hr hv hw ht
    exact ⟨fun h => next_congr (hwarn.trans (if_pos h)), fun h => next_congr (hwarn.trans (if_neg (Bool.eq_false_iff.mp h)))⟩
  case clear =>
    have hclear := evVsagWarnClear_warning (ack := ack) h ht
    exact ⟨fun hw => next_congr (congrArg State.settle (hclear.trans (if_neg (Bool.eq_false_iff.mp hw)))),
      fun hw => next_congr (congrArg State.settle (hclear.trans (if_pos hw)))⟩
  case banked =>
    exact ⟨_, rfl, evBankedEntry_state hs h0 hi, congrArg (·.seqs) evBankedEntry_frame, congrArg (·.comp) evBankedEntry_frame⟩

end Sys2Proof.Machine
end

section
/-! PROOFS. Die temperature and thermal enforcement (O36). -/

namespace Sys2Proof.Machine

section
variable {s t u : State}

/-! ### Thermal timers (R451) -/

theorem evThermGraceExpiry_request (h : s.getF THERM_STAT_STATE = 1) : evThermGraceExpiry s = s.thermEnforce 1 := if_pos h

theorem evThermGraceExpiry_other (h : s.getF THERM_STAT_STATE ≠ 1) : evThermGraceExpiry s = s := if_neg h

theorem evThermStepExpiry_hot (h : s.getF THERM_STAT_STATE = 2) (hd : 1600 ≤ s.dieT) :
    evThermStepExpiry s = s.thermLevel (min s.lmax (s.getF THERM_STAT_LEVEL + 1)) := if_pos ⟨h, hd⟩

theorem evThermStepExpiry_other (h : s.getF THERM_STAT_STATE ≠ 2 ∨ s.dieT < 1600) : evThermStepExpiry s = s :=
  if_neg fun ⟨h2, hd⟩ => h.elim (· h2) (Int.not_lt.mpr hd)

theorem evThermReleaseExpiry_cool (h : s.getF THERM_STAT_STATE = 2) (hd : s.dieT < s.thermLow)
    (ht : t = s.thermLevel (s.getF THERM_STAT_LEVEL - 1)) :
    evThermReleaseExpiry s = if t.getF THERM_STAT_LEVEL = 0 then t.setF THERM_STAT_STATE 0 else t := by
  subst ht
  exact if_pos ⟨h, hd⟩

theorem evThermReleaseExpiry_other (h : s.getF THERM_STAT_STATE ≠ 2 ∨ s.thermLow ≤ s.dieT) : evThermReleaseExpiry s = s :=
  if_neg fun ⟨h2, hd⟩ => h.elim (· h2) (Int.not_le.mpr hd)

/-! ### A new temperature (R451, R453) -/

section
variable {x : Int}

/-- At 112 °C and above the part enforces the highest level, from NORMAL by way of REQUEST; IMMEDIATES counts as IMMED rises. -/
theorem State.thermMove_immediate (hx : 1792 ≤ x) (ht : t = if s.getF THERM_STAT_STATE = 0 then s.thermRequest else s)
    (hu : u = if t.flag THERM_STAT_IMMED then t else t.count THERM_N_IMMEDIATES 1) :
    s.thermMove x = ((u.setFlag THERM_STAT_IMMED true).thermEnforce u.lmax).healthReg := by
  subst ht hu
  exact if_pos hx

/-- From 100 °C up to 112 °C a part in NORMAL requests. -/
theorem State.thermMove_request (hlo : 1600 ≤ x) (hhi : x < 1792) (ht : t = (s.setFlag THERM_STAT_IMMED false).healthReg)
    (h : t.getF THERM_STAT_STATE = 0) : s.thermMove x = t.thermRequest := by
  subst ht
  exact (if_neg (Int.not_le.mpr hhi)).trans (if_pos ⟨h, hlo⟩)

end

end

/-- Settles O36: the timers by their conditions, the temperature by the two thresholds. When IMMEDIATES counts, and the reading that passes both
thresholds, rest on log entries 141 and 200. -/
theorem thermalStates : Obligations.ThermalStates := by
  intro s
  refine ⟨fun xs t ht => ?_, fun h => next_congr (evThermGraceExpiry_request h), fun h => next_congr (evThermGraceExpiry_other h),
    fun h hd => next_congr (evThermStepExpiry_hot h hd), fun h => next_congr (evThermStepExpiry_other h),
    fun h hd t ht => next_congr (evThermReleaseExpiry_cool h hd ht), fun h => next_congr (evThermReleaseExpiry_other h),
    fun x hx hi h u hu => ?_, fun x t hlo hhi ht h => State.thermMove_request hlo hhi ht h, fun x t hx h ht u hu => ?_⟩
  · subst ht
    rfl
  · refine State.thermMove_immediate hx (if_neg h).symm ?_
    rw [if_neg (Bool.eq_false_iff.mp hi), hu]
  · exact State.thermMove_immediate hx (ht.trans (if_pos h).symm) hu

end Sys2Proof.Machine
end

section
/-! PROOFS. WCP requests as they arrive, take their turn and are answered, the local SPI port, and upload time-outs (O59). -/

namespace Sys2Proof.Machine

section
variable {s : State} {x : Session} {id : Nat} {f g : Session → Session}

/-! ### Sessions (R331, R508) -/

theorem State.sess_id (h : s.sess id = some x) : x.id = id := eq_of_beq (List.find?_some h :)

/-- A session that is changed under its number is found changed. -/
theorem State.sess_updSess_same (hf : ∀ z, (f z).id = z.id) (h : s.sess id = some x) : (s.updSess id f).sess id = some (f x) := by
  have hkeep : ((fun z : Session => z.id == id) ∘ fun z => if z.id = id then f z else z) = fun z => z.id == id := by
    funext z
    simp only [Function.comp, apply_ite Session.id, hf, ite_self]
  have hx := State.sess_id h
  unfold State.sess at h
  simp only [State.sess, State.updSess, List.find?_map, hkeep, h, Option.map_some, hx, if_true]

theorem State.updSess_congr (h : ∀ z ∈ s.sessions, f z = g z) : s.updSess id f = s.updSess id g :=
  congrArg (fun l => { s with sessions := l }) (List.map_congr_left fun z hz => by rw [h z hz])

theorem State.updSess_updSess (hf : ∀ z, (f z).id = z.id) : (s.updSess id f).updSess id g = s.updSess id (g ∘ f) := by
  refine congrArg (fun l => { s with sessions := l }) ((List.map_map).trans (List.map_congr_left fun z _ => ?_))
  by_cases hz : z.id = id
  · simp only [Function.comp, hz, hf, if_true]
  · simp only [Function.comp, hz, if_false]

/-- What holds of every session, changed or not, holds after a change of one. -/
theorem State.forall_updSess {p : Session → Prop} (h : ∀ z ∈ s.sessions, p z ∧ p (f z)) : ∀ z ∈ (s.updSess id f).sessions, p z := by
  intro z hz
  obtain ⟨y, hy, rfl⟩ := List.mem_map.mp hz
  split
  · exact (h y hy).2
  · exact (h y hy).1

/-- A count leaves the Stoker's pause: no count is its halt register. -/
theorem State.paused_count (hs : s.Canon) {a : Nat} (ha : TRACE_HALT_STK_HALT.addr ≠ a) (n : Nat) : (s.count a n).paused = s.paused :=
  congrArg (s.fw.pause || ·) (State.flag_count_other hs ha n)

end

section
variable {s : State} {x y : Session} {h : WcpHdr} {r : WcpReq}

/-! ### The record of a request (R508) -/

theorem State.wcp_noSession (hx : s.sess h.sess = none) : s.wcp h r = s := by
  simp only [State.wcp, hx]

/-- A session whose record has been taken in. -/
def Session.record (life : Nat) (x : Session) : Session := { x with rxRec := x.rxRec + 1, last := life }

/-- The part with one record of a session taken in. -/
def State.record (s : State) (x : Session) : State := (s.spiTake x.spi).updSess x.id (Session.record s.life)

theorem State.record_sessions : (s.record x).sessions = (s.updSess x.id (Session.record s.life)).sessions := by
  unfold State.record State.spiTake
  split <;> rfl

theorem State.record_fw : (s.record x).fw = s.fw := by
  unfold State.record State.spiTake
  split <;> rfl

theorem State.record_canon (hs : s.Canon) : (s.record x).Canon := by
  unfold State.record State.spiTake
  split <;> exact hs

theorem State.record_paused : (s.record x).paused = s.paused := by
  unfold State.record State.spiTake
  split <;> rfl

theorem State.record_sess (hx : s.sess x.id = some x) : (s.record x).sess x.id = some (x.record s.life) := by
  rw [State.sess, State.record_sessions]
  exact State.sess_updSess_same (fun _ => rfl) hx

/-- On an open session a request is one record, and arrives. -/
theorem State.wcp_session (hx : s.sess h.sess = some x) (hkey : (x.rxRec + 1) % 2 ^ 24 ≠ 0) :
    s.wcp h r = ((s.record x).arrive (x.record s.life) h r).settle := by
  have hid := State.sess_id hx
  have hrec : ((s.spiTake x.spi).updSess x.id fun z => { z with rxRec := z.rxRec + 1, last := s.life }).sess h.sess =
      some (x.record s.life) := hid ▸ State.record_sess (hid ▸ hx)
  simp only [State.wcp, hx, hkey, if_false, hrec]
  rfl

end

section
variable {s : State} {y : Session} {h : WcpHdr} {r : WcpReq}

/-! ### Arrivals (R506, R508, R509) -/

/-- A header that no rule answers with FORMAT. -/
structure GoodHdr (h : WcpHdr) : Prop where
  ok : h.ok = true
  seq : h.seq ≠ 0
  lo : 1200 ≤ h.maxrsp
  hi : h.maxrsp ≤ 8704

theorem GoodHdr.check (hg : GoodHdr h) : (!h.ok || h.seq == 0 || decide (h.maxrsp < 1200) || decide (8704 < h.maxrsp)) = false := by
  simpa [and_assoc] using And.intro hg.ok ⟨hg.seq, hg.lo, hg.hi⟩

/-- The request as it waits for its turn. -/
def waitOf (h : WcpHdr) (r : WcpReq) : WaitReq := { seq := h.seq, maxrsp := h.maxrsp, applied := false, rsp := none, req := r }

/-- A session with one more waiting request. -/
def Session.enqueue (w : WaitReq) (x : Session) : Session := { x with waiting := x.waiting ++ [w] }

/-- A request waits on a session, behind the arrivals of all sessions. -/
def State.enqueue (s : State) (id : Nat) (w : WaitReq) : State :=
  let u := s.updSess id (Session.enqueue w)
  { u with fw := { u.fw with arrivals := u.fw.arrivals ++ [(id, w.seq)] } }

/-- What no waiting request gives leaves at once while the Stoker answers. -/
theorem State.replyOr_running (hp : s.paused = false) (q : Word) (a : Rsp) : s.replyOr y q a = s.reply y q a :=
  if_neg (Bool.eq_false_iff.mp hp)

/-- What an arrival counts leaves at once with its answer. -/
theorem State.replyOr_counted (hs : s.Canon) (hp : s.paused = false) {a : Nat}
    (ha : TRACE_HALT_STK_HALT.addr ≠ a) (q : Word) (e : Rsp) :
    ((s.count SYS_N_REQUESTS 1).count a 1).replyOr y q e = ((s.count SYS_N_REQUESTS 1).count a 1).reply y q e :=
  State.replyOr_running (((State.paused_count (State.count_canon hs _ _) ha 1).trans (State.paused_count hs (by decide) 1)).trans hp) q e

theorem State.arrive_format (hs : s.Canon) (hp : s.paused = false) (hbad : h.ok = false ∨ h.seq = 0 ∨ h.maxrsp < 1200 ∨ 8704 < h.maxrsp) :
    s.arrive y h r = ((s.count SYS_N_REQUESTS 1).count SYS_N_FORMAT 1).reply y h.seq { status := 1, payload := [] } := by
  have hcheck : (!h.ok || h.seq == 0 || decide (h.maxrsp < 1200) || decide (8704 < h.maxrsp)) = true := by
    simpa [or_assoc] using hbad
  simp only [State.arrive, hcheck, if_true]
  exact State.replyOr_counted hs hp (by decide) _ _

section
variable (hg : GoodHdr h)
include hg

theorem State.arrive_cached (hs : s.Canon) (hp : s.paused = false) {c : Word × Rsp} (hc : y.cache.find? (fun c => c.1 == h.seq) = some c) :
    s.arrive y h r = ((s.count SYS_N_REQUESTS 1).count SYS_N_CACHED 1).reply y h.seq c.2 := by
  simp only [State.arrive, hg.check, hc, Bool.false_eq_true, if_false]
  exact State.replyOr_counted hs hp (by decide) _ _

section
variable (hc : y.cache.find? (fun c => c.1 == h.seq) = none)
include hc

theorem State.arrive_duplicate (hw : ∃ w ∈ y.waiting, w.seq = h.seq) : s.arrive y h r = s.count SYS_N_REQUESTS 1 := by
  have hany : (y.waiting.any fun w => w.seq == h.seq) = true := by simpa using hw
  simp only [State.arrive, hg.check, hc, hany, Bool.false_eq_true, if_false, if_true]

section
variable (hw : ∀ w ∈ y.waiting, w.seq ≠ h.seq)
include hw

theorem State.arrive_old (hs : s.Canon) (hp : s.paused = false) {q : Word} (hq : y.applied = some q) (hold : newer h.seq q = false) :
    s.arrive y h r = ((s.count SYS_N_REQUESTS 1).count SYS_N_SEQ_OLD 1).reply y h.seq { status := 8, payload := [] } := by
  have hany : (y.waiting.any fun w => w.seq == h.seq) = false := by simpa using hw
  simp only [State.arrive, hg.check, hc, hany, hq, hold, Bool.not_false, Bool.false_eq_true, if_false, if_true]
  exact State.replyOr_counted hs hp (by decide) _ _

/-- A request that no rule answers at its arrival waits, where there is room. -/
theorem State.arrive_new (hs : s.Canon) (hp : s.paused = false) (hnew : ∀ q, y.applied = some q → newer h.seq q = true) :
    s.arrive y h r = if 8 ≤ (y.waiting.filter fun w => !w.applied).length then
        ((s.count SYS_N_REQUESTS 1).count SYS_N_QUEUE_FULL 1).reply y h.seq { status := 7, payload := [] }
      else (s.count SYS_N_REQUESTS 1).enqueue y.id (waitOf h r) := by
  have hany : (y.waiting.any fun w => w.seq == h.seq) = false := by simpa using hw
  rw [← State.replyOr_counted (a := SYS_N_QUEUE_FULL) hs hp (by decide)]
  cases hq : y.applied with
  | none =>
    simp only [State.arrive, hg.check, hc, hany, hq, Bool.false_eq_true, if_false]
    rfl
  | some q =>
    simp only [State.arrive, hg.check, hc, hany, hq, hnew q hq, Bool.not_true, Bool.false_eq_true, if_false]
    rfl

end

end

end

end

section
variable {s t : State} {x : Session} {w : WaitReq}

/-! ### Turns (R509 to R512) -/

/-- A request of a session is marked as applied. -/
def Session.begin (q : Word) (x : Session) : Session :=
  { x with waiting := x.waiting.map fun v => if v.seq = q then { v with applied := true } else v }

/-- A request is taken out of the arrivals to be applied. -/
def State.begin (s : State) (id : Nat) (q : Word) : State :=
  State.updSess { s with fw := { s.fw with arrivals := s.fw.arrivals.filter fun a => a != (id, q) } } id (Session.begin q)

/-- No check before a request's effect answers with FORMAT. -/
theorem State.wcpGate_ne_one (r : WcpReq) : s.wcpGate x r ≠ 1 := by
  dsimp only [State.wcpGate]
  split_ifs <;> decide

section
variable (ht : s.begin x.id w.seq = t)
include ht

theorem State.turn_refused (hg : t.wcpGate x w.req ≠ 0) : s.turn x w = t.answer x.id w.seq (t.wcpGate x w.req) [] := by
  subst ht
  exact (if_pos (bne_iff_ne.mpr hg)).trans (congrArg (State.answer · _ _ _ _) (if_neg (State.wcpGate_ne_one w.req)))

section
variable (hg : t.wcpGate x w.req = 0) {a : Reply} (ha : a = t.wcpDo x w.seq w.maxrsp w.req)
include hg ha

theorem State.turn_pending (hnone : a.2 = none) : s.turn x w = a.1.mirrorSince t none := by
  subst ht ha
  unfold State.begin Session.begin at *
  simp only [State.turn, hg, hnone, bne_self_eq_false, Bool.false_eq_true, if_false]

theorem State.turn_done {st : Nat} {p : List Byte} (hsome : a.2 = some (st, p)) : s.turn x w =
    (if st = 1 then a.1.count SYS_N_FORMAT 1 else a.1).mirrorSince t (some (x.id, w.seq, { status := st, payload := p })) := by
  subst ht ha
  unfold State.begin Session.begin at *
  simp only [State.turn, hg, hsome, bne_self_eq_false, Bool.false_eq_true, if_false]

end

end

/-- A request that waited on an empty queue, with no other arrival, is taken out of the arrivals and marked. -/
theorem State.begin_enqueue {id : Nat} (ha : s.fw.arrivals = []) (hw : ∀ z ∈ s.sessions, z.waiting = []) :
    (s.enqueue id w).begin id w.seq = s.updSess id fun z => { z with waiting := [{ w with applied := true }] } := by
  have hnone : ((s.fw.arrivals ++ [(id, w.seq)]).filter fun a => a != (id, w.seq)) = s.fw.arrivals := by
    simp [ha]
  calc (s.enqueue id w).begin id w.seq
      = (s.updSess id (Session.enqueue w)).updSess id (Session.begin w.seq) :=
        congrArg (fun l => State.updSess { s.updSess id (Session.enqueue w) with fw := { s.fw with arrivals := l } } id (Session.begin w.seq))
          hnone
    _ = s.updSess id (Session.begin w.seq ∘ Session.enqueue w) := State.updSess_updSess fun _ => rfl
    _ = _ := State.updSess_congr fun z hz => by simp [Session.begin, Session.enqueue, hw z hz]

/-! ### The requests that wait are served (R509 to R511) -/

theorem State.settleN_leave {r : Rsp} (hp : s.paused = false) (hl : s.nextLeave = some (x, w, r)) (n : Nat) :
    State.settleN (n + 1) s = State.settleN n (s.leave x w r) := by
  simp only [State.settleN, hp, hl, Bool.false_eq_true, if_false]

theorem State.settleN_turn (hp : s.paused = false) (hl : s.nextLeave = none) (ht : s.nextTurn = some (x, w)) (n : Nat) :
    State.settleN (n + 1) s = State.settleN n (s.turn x w) := by
  simp only [State.settleN, hp, hl, ht, Bool.false_eq_true, if_false]

/-- With no answer held back, one request that waits takes its turn. -/
theorem State.settle_turn (hp : s.paused = false) (hr : s.fw.replies = []) (hn : (s.sessions.map fun z => z.waiting.length).sum = 1)
    (hl : s.nextLeave = none) (ht : s.nextTurn = some (x, w)) : s.settle = State.settleN 2 (s.turn x w) := by
  have hrel : s.replyRelease = s := by
    have hfw : { s.fw with replies := [] } = s.fw := by rw [← hr]
    rw [State.replyRelease, hr, hfw, List.foldl_nil]
  simp only [State.settle, hp, hrel, hn, Bool.false_eq_true, if_false, State.settleN_turn hp hl ht]

theorem State.nextLeave_none (h : ∀ z ∈ s.sessions, ∀ v ∈ z.waiting, v.rsp = none) : s.nextLeave = none := by
  refine List.findSome?_eq_none_iff.mpr fun z hz => ?_
  have hz := h z hz
  cases hw : z.waiting with
  | nil => rfl
  | cons v vs => simp only [hz v (hw ▸ List.mem_cons_self), Option.map_none]

/-- The only arrival takes its turn where it stands first in its session. -/
theorem State.nextTurn_only {id : Nat} {ws : List WaitReq} (ha : s.fw.arrivals = [(id, w.seq)]) (hx : s.sess id = some x)
    (hw : x.waiting = w :: ws) (hn : w.applied = false) : s.nextTurn = some (x, w) := by
  simp [State.nextTurn, ha, hx, hw, hn]

/-- One session of an idle part has one request waiting. -/
theorem State.sum_waiting_one (f : Session → Session) (hx : s.sess x.id = some x) (hid : (s.sessions.map Session.id).Nodup)
    (hw : ∀ z ∈ s.sessions, z.waiting = []) (hf : (f x).waiting = [w]) : ((s.updSess x.id f).sessions.map fun z => z.waiting.length).sum = 1 := by
  have hmem : x ∈ s.sessions := List.mem_of_find?_eq_some hx
  have hother : ∀ z, z ≠ x → z ∈ s.sessions → ((fun z : Session => z.waiting.length) ∘ fun z => if z.id = x.id then f z else z) z = 0 := by
    intro z hne hz
    have hzid : z.id ≠ x.id := fun he => hne (List.inj_on_of_nodup_map hid hz hmem he)
    simp only [Function.comp, hzid, if_false, hw z hz, List.length_nil]
  rw [State.updSess, List.map_map, List.sum_map_eq_nsmul_single x _ hother, List.count_eq_one_of_mem (.of_map _ hid) hmem]
  simp only [Function.comp, if_true, hf, List.length_singleton, one_smul]

end

section
variable {s t : State} {x y : Session} {h : WcpHdr} {r : WcpReq}

/-! ### A request on an idle part is applied at once (R509, R512) -/

/-- The Stoker answers, no request waits, and no answer is held back. -/
structure State.WcpIdle (s : State) : Prop where
  canon : s.Canon
  running : s.paused = false
  replies : s.fw.replies = []
  arrivals : s.fw.arrivals = []
  waiting : ∀ z ∈ s.sessions, z.waiting = []
  ids : (s.sessions.map Session.id).Nodup

/-- The request is the first of its number on the session, and newer than all before it. -/
structure Session.Fresh (x : Session) (h : WcpHdr) : Prop where
  good : GoodHdr h
  cache : ∀ e ∈ x.cache, e.1 ≠ h.seq
  newest : ∀ q, x.newest = some q → newer h.seq q = true

/-- The part with a request taken in, marked as applied and counted. -/
def State.takenIn (s : State) (x : Session) (w : WaitReq) : State :=
  ((s.spiTake x.spi).count SYS_N_REQUESTS 1).updSess x.id fun z =>
    { z with rxRec := z.rxRec + 1, last := s.life, waiting := [{ w with applied := true }] }

/-- The session of a request at its turn. -/
def Session.atTurn (life : Nat) (x : Session) (w : WaitReq) : Session :=
  { x with rxRec := x.rxRec + 1, last := life, waiting := [w] }

/-- The part with a request's record taken in and the request waiting. -/
def State.queued (s : State) (x : Session) (w : WaitReq) : State := ((s.record x).count SYS_N_REQUESTS 1).enqueue x.id w

theorem State.queued_sessions (w : WaitReq) :
    (s.queued x w).sessions = (s.updSess x.id (Session.enqueue w ∘ Session.record s.life)).sessions := by
  rw [← State.updSess_updSess (f := Session.record s.life) (g := Session.enqueue w) fun _ => rfl]
  exact congrArg (List.map _) State.record_sessions

section
variable (hi : s.WcpIdle)
include hi

/-- A fresh request that arrives on an idle part waits. -/
theorem State.WcpIdle.arrive_record (hx : x ∈ s.sessions) (hf : x.Fresh h) :
    (s.record x).arrive (x.record s.life) h r = s.queued x (waitOf h r) := by
  have hw : x.waiting = [] := hi.waiting x hx
  have happlied : (x.record s.life).applied = x.newest := by
    simp only [Session.applied, Session.record, hw]
  have hnone : (x.record s.life).cache.find? (fun c => c.1 == h.seq) = none :=
    List.find?_eq_none.mpr fun e he heq => hf.cache e he (eq_of_beq heq)
  have hseq : ∀ w ∈ (x.record s.life).waiting, w.seq ≠ h.seq := fun w hmem => absurd (hw ▸ hmem) List.not_mem_nil
  rw [State.arrive_new hf.good hnone hseq (State.record_canon hi.canon) (State.record_paused.trans hi.running)
    fun q hq => hf.newest q (happlied ▸ hq)]
  exact if_neg (by simp [Session.record, hw])

/-- On an idle part the request that waits alone takes its turn. -/
theorem State.WcpIdle.settle_queued (hx : s.sess x.id = some x) : (s.queued x (waitOf h r)).settle =
    State.settleN 2 ((s.queued x (waitOf h r)).turn (x.atTurn s.life (waitOf h r)) (waitOf h r)) := by
  have hchange : (Session.enqueue (waitOf h r) ∘ Session.record s.life) x = x.atTurn s.life (waitOf h r) := by
    simp [Session.enqueue, Session.record, Session.atTurn, hi.waiting x (List.mem_of_find?_eq_some hx)]
  have hsess := State.queued_sessions (s := s) (x := x) (waitOf h r)
  refine State.settle_turn ?running ?replies ?one (State.nextLeave_none ?noAnswer)
    (State.nextTurn_only (id := x.id) (ws := []) ?arrival ?session rfl rfl)
  case running =>
    exact (State.paused_count (State.record_canon hi.canon) (by decide) 1).trans (State.record_paused.trans hi.running)
  case replies => exact (congrArg FwSt.replies State.record_fw).trans hi.replies
  case one =>
    rw [hsess]
    exact State.sum_waiting_one _ hx hi.ids hi.waiting (congrArg Session.waiting hchange)
  case noAnswer =>
    rw [hsess]
    exact State.forall_updSess fun z hz => by simp [Session.enqueue, Session.record, waitOf, hi.waiting z hz]
  case arrival =>
    exact congrArg (· ++ [(x.id, h.seq)]) ((congrArg FwSt.arrivals State.record_fw).trans hi.arrivals)
  case session =>
    rw [State.sess, hsess, ← hchange]
    exact State.sess_updSess_same (fun _ => rfl) hx

/-- At its turn the request is taken in. -/
theorem State.WcpIdle.begin_queued : (s.queued x (waitOf h r)).begin x.id h.seq = s.takenIn x (waitOf h r) := by
  have harr : (s.record x).fw.arrivals = [] := (congrArg FwSt.arrivals State.record_fw).trans hi.arrivals
  have hwait : ∀ z ∈ (s.record x).sessions, z.waiting = [] := by
    rw [State.record_sessions]
    exact State.forall_updSess fun z hz => ⟨hi.waiting z hz, hi.waiting z hz⟩
  exact (State.begin_enqueue (s := (s.record x).count SYS_N_REQUESTS 1) (w := waitOf h r) harr hwait).trans
    (State.updSess_updSess (s := (s.spiTake x.spi).count SYS_N_REQUESTS 1) fun _ => rfl)

section
variable (hx : s.sess h.sess = some x) (hkey : (x.rxRec + 1) % 2 ^ 24 ≠ 0) (hf : x.Fresh h)
include hx hkey hf

/-- On an idle part a fresh request takes its turn at once. -/
theorem State.WcpIdle.wcp_turn : s.wcp h r =
    State.settleN 2 ((s.queued x (waitOf h r)).turn (x.atTurn s.life (waitOf h r)) (waitOf h r)) := by
  rw [State.wcp_session hx hkey, hi.arrive_record (List.mem_of_find?_eq_some hx) hf, hi.settle_queued ((State.sess_id hx).symm ▸ hx)]

section
variable (ht : t = s.takenIn x (waitOf h r)) (hy : y = x.atTurn s.life (waitOf h r))
include ht hy

theorem State.WcpIdle.wcp_refused (hg : t.wcpGate y r ≠ 0) : s.wcp h r = State.settleN 2 (t.answer x.id h.seq (t.wcpGate y r) []) := by
  subst hy
  refine (hi.wcp_turn hx hkey hf).trans (congrArg (State.settleN 2) ?_)
  exact State.turn_refused (w := waitOf h r) (hi.begin_queued.trans ht.symm) hg

section
variable (hg : t.wcpGate y r = 0) {a : Reply} (ha : a = t.wcpDo y h.seq h.maxrsp r)
include hg ha

theorem State.WcpIdle.wcp_pending (hnone : a.2 = none) : s.wcp h r = State.settleN 2 (a.1.mirrorSince t none) := by
  subst hy
  refine (hi.wcp_turn hx hkey hf).trans (congrArg (State.settleN 2) ?_)
  exact State.turn_pending (w := waitOf h r) (hi.begin_queued.trans ht.symm) hg ha hnone

theorem State.WcpIdle.wcp_done {st : Nat} {p : List Byte} (hsome : a.2 = some (st, p)) : s.wcp h r = State.settleN 2
    ((if st = 1 then a.1.count SYS_N_FORMAT 1 else a.1).mirrorSince t (some (x.id, h.seq, { status := st, payload := p }))) := by
  subst hy
  refine (hi.wcp_turn hx hkey hf).trans (congrArg (State.settleN 2) ?_)
  exact State.turn_done (w := waitOf h r) (hi.begin_queued.trans ht.symm) hg ha hsome

end

end

end

end

end

section
variable {s : State} {x y z : Session} {w : WaitReq} {r : Rsp}

/-! ### Answers leave (R510) -/

/-- A session whose first request has its answer. -/
def Session.answered (w : WaitReq) (r : Rsp) (x : Session) : Session :=
  let u : Session := { x with waiting := x.waiting.drop 1 }
  if r.status = 1 then u
  else { u with cache := ((w.seq, r) :: x.cache).take 64,
                newest := match x.newest with | some n => if newer w.seq n then some w.seq else some n | none => some w.seq }

/-- A session that has sent one record. -/
def Session.sent (life : Nat) (x : Session) : Session := { x with txRec := x.txRec + 1, last := life }

theorem Session.answered_id : (x.answered w r).id = x.id := by
  unfold Session.answered
  split <;> rfl

theorem Session.answered_waiting : (x.answered w r).waiting = x.waiting.drop 1 := by
  unfold Session.answered
  split <;> rfl

theorem Session.answered_cache_format (h : r.status = 1) : (x.answered w r).cache = x.cache := by
  simp only [Session.answered, h, if_true]

theorem Session.answered_cache (h : r.status ≠ 1) : (x.answered w r).cache = ((w.seq, r) :: x.cache).take 64 := by
  simp only [Session.answered, h, if_false]

/-- Over UDP, and with no new key due, a response is one message out. -/
theorem State.reply_udp (hspi : x.spi = false) (hkey : (x.txRec + 1) % 2 ^ 24 ≠ 0) (q : Word) :
    s.reply x q r = (s.updSess x.id (Session.sent s.life)).emit (.rsp x.id q r) := by
  simp only [State.reply, State.keyAfter, State.sessOut, hspi, hkey, Bool.false_eq_true, if_false]
  rfl

/-- The answer of a request that ends neither its session nor recovery leaves, and its session goes on. -/
theorem State.leave_reply (hclose : w.req ≠ .close) (hexit : w.req ≠ .recoveryExit) :
    s.leave x w r = (s.updSess x.id (Session.answered w r)).reply x w.seq r := by
  obtain ⟨q, m, applied, rsp, req⟩ := w
  cases req with
  | close => exact absurd rfl hclose
  | recoveryExit => exact absurd rfl hexit
  | _ => rfl

/-- What the answer leaves of its session. -/
theorem State.leave_udp_sess (hclose : w.req ≠ .close) (hexit : w.req ≠ .recoveryExit) (hspi : x.spi = false)
    (hkey : (x.txRec + 1) % 2 ^ 24 ≠ 0) (hy : s.sess x.id = some y) :
    (s.leave x w r).sess x.id = some ((y.answered w r).sent s.life) := by
  rw [State.leave_reply hclose hexit, State.reply_udp hspi hkey]
  exact State.sess_updSess_same (fun _ => rfl) (State.sess_updSess_same (fun _ => Session.answered_id) hy)

end

section
variable {s : State} {whole : Bool} {b : List Byte}

/-! ### The local SPI port (R507) -/

theorem evSpiWrite_delivers (hw : whole = true) (hb : b.length ≤ 8800) : evSpiWrite whole b s = { s with spiRx := s.spiRx ++ [b] } := by
  simp only [evSpiWrite, hw, hb, decide_true, Bool.and_self, if_true]

theorem evSpiWrite_discards (h : whole = false ∨ 8800 < b.length) : evSpiWrite whole b s = s :=
  if_neg fun hc => by
    obtain ⟨hw, hb⟩ := (Bool.and_eq_true_iff).mp hc
    exact h.elim (fun he => Bool.false_ne_true (he.symm.trans hw)) (Nat.not_lt.mpr (of_decide_eq_true hb))

theorem evSpiRead_empty (h : s.spiTx = []) : evSpiRead s = s.emit (.spi 0 []) := by
  simp only [evSpiRead, h]

theorem evSpiRead_oldest {o : Out} {q : List Out} (h : s.spiTx = o :: q) : evSpiRead s = State.emit { s with spiTx := q } o := by
  simp only [evSpiRead, h]

end

/-- Settles O59: every command is its request on `State.wcp`; on an idle part the request waits alone, takes its turn in the state that has
taken it in, and its answer stands before the rest settles. That it is applied at once rests on log entry 2, the uncached FORMAT answer and
the queue of 8 on entry 165, and the Stoker's pause on entry 166. -/
theorem wcpRequestsAreAppliedAndAnswered : Obligations.WcpRequestsAreAppliedAndAnswered := by
  refine ⟨?requests, ?arrivals, ?answers, ?spi⟩
  case requests =>
    intro h n m k j b d v c sites ns ws sdp o cs rects ten f g hb es ctx e he
    -- Each of the 58 commands is its request.
    have hexec : ∀ s, exec e.1 s = .next (s.wcp h e.2) := by
      revert e
      iterate 58 refine List.forall_mem_cons.mpr ⟨fun _ => rfl, ?_⟩
      exact List.forall_mem_nil _
    simp only [hexec]
    refine ⟨fun s hs => next_congr (State.wcp_noSession hs), ?_, ?_⟩
    · rintro s t x y - hx - hkey rfl rfl
      exact next_congr (State.wcp_session hx hkey)
    · intro s t x y hs hp hr ha hw hid hx hkey hok hseq hlo hhi hc hn ht hy
      have hi : s.WcpIdle := ⟨hs, hp, hr, ha, hw, hid⟩
      have hf : x.Fresh h := ⟨⟨hok, hseq, hlo, hhi⟩, hc, hn⟩
      have hy : y = x.atTurn s.life (waitOf h e.2) := hy
      refine ⟨?_, fun hg a ha => ⟨fun hnone => ?_, ?_⟩⟩
      · rintro r rfl hg
        exact next_congr (hi.wcp_refused hx hkey hf ht hy hg)
      · exact next_congr (hi.wcp_pending hx hkey hf ht hy hg ha hnone)
      · rintro st p u hsome rfl
        exact next_congr (hi.wcp_done hx hkey hf ht hy hg ha hsome)
  case arrivals =>
    rintro s t y h r hs hp rfl
    refine ⟨State.arrive_format hs hp, fun hok hseq hlo hhi => ?_⟩
    have hg : GoodHdr h := ⟨hok, hseq, hlo, hhi⟩
    refine ⟨fun c hc => State.arrive_cached hg hs hp hc, fun hc => ⟨State.arrive_duplicate hg hc, fun hw =>
      ⟨fun q hq hold => State.arrive_old hg hc hw hs hp hq hold, fun hnew => ?_⟩⟩⟩
    have harrive := State.arrive_new (r := r) hg hc hw hs hp hnew
    exact ⟨fun hfull => harrive.trans (if_pos hfull),
      fun hroom => ⟨_, harrive.trans (if_neg (Nat.not_le.mpr hroom)), rfl, rfl, rfl, rfl⟩⟩
  case answers =>
    refine fun s x w r n hl hp => ⟨State.settleN_leave hp hl n, fun hclose hexit hspi hkey => ⟨?_, fun y z hy hz => ?_⟩⟩
    · rw [State.leave_reply hclose hexit, State.reply_udp hspi hkey]
      rfl
    · rw [State.leave_udp_sess hclose hexit hspi hkey hy] at hz
      cases hz
      exact ⟨Session.answered_waiting, Session.answered_cache_format, Session.answered_cache⟩
  case spi =>
    exact fun s whole b id n => ⟨fun hw hb => next_congr (evSpiWrite_delivers hw hb), fun h => next_congr (evSpiWrite_discards h),
      fun h => next_congr (evSpiRead_empty h), fun o q h => next_congr (evSpiRead_oldest h), rfl⟩

end Sys2Proof.Machine
end

section
/-! PROOFS. JTAG, the debug access port, the debug halts and the trace (O58). -/

namespace Sys2Proof.Machine

section
variable {s t : State}

/-! ### JTAG (R547, R548) -/

theorem State.jtagSelect_refused (code : Nat) : s.jtagSelect code false = { s with jtag := 0xFF } := rfl

theorem State.jtagSelect_open (code : Nat) : s.jtagSelect code true = { s with jtag := code } := rfl

/-- EXTEST and CLAMP under a closed scope 0 act as BYPASS. -/
theorem State.jtagDrive_closed (h : s.scope 0 = false) (code : Nat) : s.jtagDrive code = { s with jtag := 0xFF } := if_pos (by simp [h])

theorem State.jtagDrive_safe (h : s.scope 0 = true) (hsafe : s.allSafe = true) (code : Nat) : s.jtagDrive code = { s with jtag := code } := by
  simp [State.jtagDrive, h, hsafe, State.jtagSelect_open]

/-- With a PSQ or a bank in use, EXTEST and CLAMP are counted and act as BYPASS. -/
theorem State.jtagDrive_busy (h : s.scope 0 = true) (hsafe : s.allSafe = false) (code : Nat) :
    s.jtagDrive code = { s.count TRACE_N_EXTEST_REFUSED 1 with jtag := 0xFF } := by
  simp [State.jtagDrive, h, hsafe, State.jtagSelect_refused]

/-- BYPASS shifts out its one bit, whatever the balls. -/
theorem State.shiftOut_bypass (balls : Nat) : State.shiftOut { s with jtag := 0xFF } balls = State.emit { s with jtag := 0xFF } (.jtag 0) := rfl

/-! ### The debug access port (R549) -/

/-- A word of four bytes is written whole. -/
theorem reqData_whole {r : BusReq} (h : r.data.length = r.bytes) : reqData r = r.data := by
  unfold reqData
  rw [← h, List.take_left]

theorem State.busDecode_register {a : Nat} (hlo : 0xF0000000 ≤ a) (hhi : a < 0xF01C0000) : s.busDecode a = some (9, a - 0xF0000000) := by
  have hboot : ¬ a < 0x10000000 := by omega
  have hsram : ¬ a < 0x10000000 + sramSize := by unfold sramSize; omega
  simp [State.busDecode, hboot, hsram, hlo, hhi]

/-- An address of SRAM leads to the arbiter of one of its eight banks. -/
theorem State.busDecode_sram {a : Nat} (hlo : 0x10000000 ≤ a) (hhi : a < 0x10000000 + sramSize) :
    s.busDecode a = some (1 + Config.sramBank (a - 0x10000000) % 8, a - 0x10000000) := by
  simp [State.busDecode, Nat.not_lt.mpr hlo, hhi]

theorem evDbgap_closed (h1 : s.scope 1 = false) (h2 : s.scope 2 = false) (w : Bool) (a : Nat) (d : List Byte) (n : Nat) (c : RegCtx) :
    evDbgap w a d n c s = State.emit { s with jtag := 0xFF } (.bus true 0) := by
  simp [evDbgap, h1, h2, State.jtagSelect_refused]

section
variable (hok : (s.scope 1 || s.scope 2) = true) (ht : t = { s with jtag := 0x10 })
include hok ht

theorem evDbgap_hearth {a : Nat} (hlo : 0xF0020000 ≤ a) (hhi : a < 0xF0030000) (w : Bool) (d : List Byte) (n : Nat) (c : RegCtx) :
    evDbgap w a d n c s = t.emit (.bus true 0) := by
  have hd : t.busDecode a = some (9, a - 0xF0000000) := State.busDecode_register (by omega) (by omega)
  have hblock : (a - 0xF0000000) / 0x10000 = 2 := by omega
  subst ht
  simp [evDbgap, hok, State.jtagSelect_open, hd, hblock]

/-- A write of a whole register word outside Hearth carries what the instruction gives it. -/
theorem evDbgap_registerWrite {a : Nat} (hlo : 0xF0000000 ≤ a) (hhi : a < 0xF01C0000) (hh : a < 0xF0020000 ∨ 0xF0030000 ≤ a)
    {d : List Byte} (hd : d.length = 4) (c : RegCtx) {x : State × Bool}
    (hx : x = t.regWrite (a - 0xF0000000) (BitVec.ofNat 32 (leNat d)) c) : evDbgap true a d 4 c s = x.1.emit (.bus (!x.2) 0) := by
  have hdec : t.busDecode a = some (9, a - 0xF0000000) := State.busDecode_register hlo hhi
  have hblock : (a - 0xF0000000) / 0x10000 ≠ 2 := by omega
  rw [hx]
  subst ht
  simp [evDbgap, hok, State.jtagSelect_open, hdec, hblock, reqData_whole, hd]

/-- An access to SRAM is that of any master at the bank's arbiter. -/
theorem evDbgap_sram {a : Nat} (hlo : 0x10000000 ≤ a) (hhi : a < 0x10000000 + sramSize) (w : Bool) (d : List Byte) (n : Nat) (c : RegCtx) :
    evDbgap w a d n c s = t.busAccess (1 + Config.sramBank (a - 0x10000000) % 8)
      { req := 3, addr := a - 0x10000000, write := w, bytes := n, data := d, beats := 1, close := true } := by
  subst ht
  have hd := State.busDecode_sram (s := { s with jtag := 0x10 }) hlo hhi
  have h9 : 1 + Config.sramBank (a - 0x10000000) % 8 ≠ 9 := by omega
  unfold evDbgap
  simp only [hok, State.jtagSelect_open, hd, h9, Bool.not_true, Bool.false_eq_true, if_false, false_and]

theorem evDbgap_sramWrite {a : Nat} (hlo : 0x10000000 ≤ a) (hhi : a < 0x10000000 + sramSize) {d : List Byte} {n : Nat} (hd : d.length = n)
    (c : RegCtx) : evDbgap true a d n c s =
      State.emit { t with sram := SMap.setList sramFill t.sram (a - 0x10000000) d } (.bus false 0) := by
  rw [evDbgap_sram hok ht hlo hhi, State.busAccess_sram_write t (by omega) (by omega) (by omega) rfl, reqData_whole hd]

theorem evDbgap_sramRead {a : Nat} (hlo : 0x10000000 ≤ a) (hhi : a < 0x10000000 + sramSize) (d : List Byte) (n : Nat) (c : RegCtx) :
    evDbgap false a d n c s = t.emit (.bus false (leNat (SMap.getList sramFill t.sram (a - 0x10000000) n))) := by
  rw [evDbgap_sram hok ht hlo hhi, State.busAccess_sram_read t (by omega) (by omega) (by omega) rfl]

end

/-! ### A field written as it stands -/

theorem putBits_bitsOf_self (w : Word) {hi : Nat} (lo : Nat) (hh : hi < 32) : putBits w hi lo (bitsOf w.toNat hi lo) = w := by
  refine BitVec.eq_of_getLsbD_eq fun i _ => ?_
  rw [getLsbD_putBits_bitsOf w w lo i hh, ite_self]

theorem State.setF_getF (hs : s.Canon) {f : Field} (hh : f.hi < 32) : s.setF f (s.getF f) = s := by
  unfold State.setF State.getF
  rw [putBits_bitsOf_self _ _ hh, State.setReg_reg hs]

theorem State.setFlag_flag (hs : s.Canon) {f : Field} (h1 : f.hi = f.lo) (hh : f.hi < 32) : s.setFlag f (s.flag f) = s := by
  unfold State.setFlag
  rw [← State.getF_one_bit h1, State.setF_getF hs hh]

/-! ### Writes of TRACE_HALT (R549 to R551, R557) -/

/-- A word of TRACE_HALT, field by field. -/
def haltWord (stk step fsq fsqStep : Bool) (psqs : Nat) : Word :=
  BitVec.ofNat 32 ((if stk then 1 else 0) + (if step then 2 else 0) + (if fsq then 4 else 0) + (if fsqStep then 8 else 0) + psqs % 256 * 16)

theorem fieldIn_haltWord (stk step fsq fsqStep : Bool) (psqs : Nat) :
    fieldIn (haltWord stk step fsq fsqStep psqs) TRACE_HALT_STK_HALT = (if stk then 1 else 0) ∧
    fieldIn (haltWord stk step fsq fsqStep psqs) TRACE_HALT_STK_STEP = (if step then 1 else 0) ∧
    fieldIn (haltWord stk step fsq fsqStep psqs) TRACE_HALT_FSQ_HALT = (if fsq then 1 else 0) ∧
    fieldIn (haltWord stk step fsq fsqStep psqs) TRACE_HALT_FSQ_STEP = (if fsqStep then 1 else 0) ∧
    fieldIn (haltWord stk step fsq fsqStep psqs) TRACE_HALT_PSQ_HALT = psqs % 256 := by
  unfold fieldIn bitsOf haltWord
  simp only [BitVec.toNat_ofNat]
  refine ⟨?_, ?_, ?_, ?_, ?_⟩ <;> split_ifs <;> omega

/-- The halts as they stand, with the bits of steps and of PSQs above them. -/
theorem State.haltNow_or (step fsqStep : Bool) (psqs : Nat) :
    s.haltNow ||| BitVec.ofNat 32 ((if step then 2 else 0) + (if fsqStep then 8 else 0) + psqs % 256 * 16) =
      haltWord (s.flag TRACE_HALT_STK_HALT) step (s.flag TRACE_HALT_FSQ_HALT) fsqStep psqs := by
  have hor : ∀ n < 16, n + psqs % 256 * 16 = n ||| psqs % 256 * 16 := fun n hn => by
    rw [Nat.add_comm, Nat.or_comm, Nat.mul_comm]
    exact Nat.two_pow_add_eq_or_of_lt (i := 4) hn _
  unfold State.haltNow haltWord
  rw [State.getF_one_bit (f := TRACE_HALT_STK_HALT) rfl, State.getF_one_bit (f := TRACE_HALT_FSQ_HALT) rfl, ← BitVec.ofNat_or]
  cases s.flag TRACE_HALT_STK_HALT <;> cases s.flag TRACE_HALT_FSQ_HALT <;> cases step <;> cases fsqStep <;>
    simp [hor, ← Nat.or_assoc]

theorem haltWord_stkHalt (on : Bool) : BitVec.ofNat 32 ((if on then 1 else 0) + 4 * s.getF TRACE_HALT_FSQ_HALT) =
    haltWord on false (s.flag TRACE_HALT_FSQ_HALT) false 0 := by
  rw [State.getF_one_bit (f := TRACE_HALT_FSQ_HALT) rfl]
  cases on <;> cases s.flag TRACE_HALT_FSQ_HALT <;> rfl

theorem haltWord_fsqHalt (on : Bool) : BitVec.ofNat 32 (s.getF TRACE_HALT_STK_HALT + if on then 4 else 0) =
    haltWord (s.flag TRACE_HALT_STK_HALT) false on false 0 := by
  rw [State.getF_one_bit (f := TRACE_HALT_STK_HALT) rfl]
  cases on <;> cases s.flag TRACE_HALT_STK_HALT <;> rfl

/-- The two halts set, before anything follows from them. -/
def State.setHalts (s : State) (stk fsq : Bool) : State := (s.setFlag TRACE_HALT_STK_HALT stk).setFlag TRACE_HALT_FSQ_HALT fsq

/-- The PSQs that a mask names are stopped. -/
def State.stopPsqs (s : State) (psqs : Nat) : State :=
  (List.range 8).foldl (fun (u : State) n => if psqs.testBit n then u.psqStop n else u) s

/-- A scope that a write of TRACE_HALT needs is closed: scope 1 for the Stoker's controls, scope 2 for those of the sequencers. -/
def State.haltLocked (s : State) (stk step fsq fsqStep : Bool) (psqs : Nat) : Bool :=
  ((stk != s.flag TRACE_HALT_STK_HALT || step) && !s.scope 1) ||
    ((fsq != s.flag TRACE_HALT_FSQ_HALT || fsqStep || psqs % 256 != 0) && !s.scope 2)

theorem State.setHalts_stk (hs : s.Canon) (stk fsq : Bool) : (s.setHalts stk fsq).flag TRACE_HALT_STK_HALT = stk :=
  (State.flag_setFlag_disjoint (f := TRACE_HALT_FSQ_HALT) (g := TRACE_HALT_STK_HALT) (State.setFlag_canon hs _ _) rfl (.inl (by decide))
    (by decide) fsq).trans (State.flag_setFlag_same hs rfl (by decide) stk)

theorem State.setHalts_fsq (hs : s.Canon) (stk fsq : Bool) : (s.setHalts stk fsq).flag TRACE_HALT_FSQ_HALT = fsq :=
  State.flag_setFlag_same (State.setFlag_canon hs _ _) rfl (by decide) fsq

/-- The Stoker's halt set alone. -/
theorem State.setHalts_fsqKept (hs : s.Canon) (stk : Bool) :
    s.setHalts stk (s.flag TRACE_HALT_FSQ_HALT) = s.setFlag TRACE_HALT_STK_HALT stk := by
  have hfsq : (s.setFlag TRACE_HALT_STK_HALT stk).flag TRACE_HALT_FSQ_HALT = s.flag TRACE_HALT_FSQ_HALT :=
    State.flag_setFlag_disjoint (f := TRACE_HALT_STK_HALT) (g := TRACE_HALT_FSQ_HALT) hs rfl (.inr (by decide)) (by decide) stk
  unfold State.setHalts
  rw [← hfsq, State.setFlag_flag (State.setFlag_canon hs _ _) rfl (by decide)]

theorem State.setHalts_kept (hs : s.Canon) : s.setHalts (s.flag TRACE_HALT_STK_HALT) (s.flag TRACE_HALT_FSQ_HALT) = s :=
  (State.setHalts_fsqKept hs _).trans (State.setFlag_flag hs rfl (by decide))

theorem State.stopPsqs_mod (psqs : Nat) : s.stopPsqs (psqs % 256) = s.stopPsqs psqs := by
  unfold State.stopPsqs
  refine List.foldl_ext _ _ _ fun u n hn => ?_
  have hn8 : n < 8 := List.mem_range.mp hn
  rw [show 256 = 2 ^ 8 from rfl, Nat.testBit_mod_two_pow, decide_eq_true hn8, Bool.true_and]

theorem State.stopPsqs_none : s.stopPsqs 0 = s := by
  simp [State.stopPsqs]

section
variable {stk step fsq fsqStep ue : Bool} {psqs : Nat}

/-- A write of TRACE_HALT by its fields: a lock violation, or the halts, the PSQs and the step in this order. -/
theorem State.haltWrite_haltWord : s.haltWrite (haltWord stk step fsq fsqStep psqs) ue =
    if s.haltLocked stk step fsq fsqStep psqs then (s.lockViol TRACE_HALT (haltWord stk step fsq fsqStep psqs), false)
    else
      let t := s.setHalts stk fsq
      let t := (if s.flag TRACE_HALT_STK_HALT && !t.flag TRACE_HALT_STK_HALT then t.stokerBack else t).stopPsqs psqs
      (if fsqStep then t.fsqStep ue else t, true) := by
  obtain ⟨hstk, hstep, hfsq, hfs, hpsq⟩ := fieldIn_haltWord stk step fsq fsqStep psqs
  have hbit : ∀ b : Bool, ((if b then 1 else 0) == 1) = b := fun b => by cases b <;> rfl
  have hone : ∀ b : Bool, ((if b then 1 else 0) = 1) = (b = true) := fun b => by cases b <;> decide
  have hne : ∀ a b : Bool, ((if a then 1 else 0) != if b then 1 else 0) = (a != b) := fun a b => by cases a <;> cases b <;> rfl
  simp only [← State.stopPsqs_mod psqs]
  unfold State.haltWrite State.haltLocked
  simp only [hstk, hstep, hfsq, hfs, hpsq, State.getF_one_bit (f := TRACE_HALT_STK_HALT) rfl,
    State.getF_one_bit (f := TRACE_HALT_FSQ_HALT) rfl, hbit, hone, hne]
  rfl

theorem State.haltRow_locked (h : s.haltLocked stk step fsq fsqStep psqs = true) :
    s.haltRow (haltWord stk step fsq fsqStep psqs) ue = (s.lockViol TRACE_HALT (haltWord stk step fsq fsqStep psqs)).emit (.bus true 0) := by
  unfold State.haltRow
  rw [State.haltWrite_haltWord, if_pos h]
  rfl

/-- A write with its scopes that does not resume the Stoker: the halts are set, the PSQs named stop, and the FSQ makes its step. -/
theorem State.haltRow_open (hs : s.Canon) (h : s.haltLocked stk step fsq fsqStep psqs = false)
    (hstay : s.flag TRACE_HALT_STK_HALT = true → stk = true) : s.haltRow (haltWord stk step fsq fsqStep psqs) ue =
      (if fsqStep then ((s.setHalts stk fsq).stopPsqs psqs).fsqStep ue else (s.setHalts stk fsq).stopPsqs psqs).emit (.bus false 0) := by
  have hno : (s.flag TRACE_HALT_STK_HALT && !stk) = false := by
    cases hb : s.flag TRACE_HALT_STK_HALT
    · rfl
    · simp [hstay hb]
  unfold State.haltRow
  rw [State.haltWrite_haltWord, if_neg (by simp [h])]
  simp [State.setHalts_stk hs, hno]

/-- A write of the halts alone sets them. -/
theorem State.haltRow_halts (hs : s.Canon) (h : s.haltLocked stk step fsq false 0 = false)
    (hstay : s.flag TRACE_HALT_STK_HALT = true → stk = true) :
    s.haltRow (haltWord stk step fsq false 0) ue = (s.setHalts stk fsq).emit (.bus false 0) := by
  rw [State.haltRow_open hs h hstay, State.stopPsqs_none]
  rfl

/-- The Stoker goes on where a write with its scopes clears its halt. -/
theorem State.haltRow_resume (hs : s.Canon) (h : s.haltLocked false step fsq false 0 = false) (hwas : s.flag TRACE_HALT_STK_HALT = true) :
    s.haltRow (haltWord false step fsq false 0) ue = ((s.setHalts false fsq).stokerBack).emit (.bus false 0) := by
  unfold State.haltRow
  rw [State.haltWrite_haltWord, if_neg (by simp [h])]
  simp [State.setHalts_stk hs, hwas, State.stopPsqs_none]

end

/-- Nothing leaves or takes its turn while the Stoker does not answer (R498, R550). -/
theorem State.settle_paused (h : s.paused = true) : s.settle = s := if_pos h

/-! ### The debug halts, row by row (R550, R551) -/

theorem evStkHalt_eq (on : Bool) : evStkHalt on s = s.haltRow (haltWord on false (s.flag TRACE_HALT_FSQ_HALT) false 0) false := by
  unfold evStkHalt
  rw [haltWord_stkHalt]

theorem evFsqHalt_eq (on : Bool) : evFsqHalt on s = s.haltRow (haltWord (s.flag TRACE_HALT_STK_HALT) false on false 0) false := by
  unfold evFsqHalt
  rw [haltWord_fsqHalt]

theorem State.haltNow_stkStep : s.haltNow ||| 2 = haltWord (s.flag TRACE_HALT_STK_HALT) true (s.flag TRACE_HALT_FSQ_HALT) false 0 :=
  s.haltNow_or true false 0

theorem State.haltNow_fsqStep : s.haltNow ||| 8 = haltWord (s.flag TRACE_HALT_STK_HALT) false (s.flag TRACE_HALT_FSQ_HALT) true 0 :=
  s.haltNow_or false true 0

theorem State.haltNow_psqHalt (m : Nat) : s.haltNow ||| BitVec.ofNat 32 (m % 256 * 16) =
    haltWord (s.flag TRACE_HALT_STK_HALT) false (s.flag TRACE_HALT_FSQ_HALT) false m := by
  rw [← State.haltNow_or]
  simp

theorem evStkStep_locked (h1 : s.scope 1 = false) : evStkStep s = (s.lockViol TRACE_HALT (s.haltNow ||| 2)).emit (.bus true 0) := by
  unfold evStkStep
  rw [State.haltNow_stkStep, State.haltRow_locked (by simp [State.haltLocked, h1])]

/-- A step of the Stoker's own program, seen from the part: the halts are written as they stand. -/
theorem evStkStep_open (hs : s.Canon) (h1 : s.scope 1 = true) : evStkStep s = s.emit (.bus false 0) := by
  unfold evStkStep
  rw [State.haltNow_stkStep, State.haltRow_halts hs (by simp [State.haltLocked, h1]) id, State.setHalts_kept hs]

theorem evStkHalt_locked (h1 : s.scope 1 = false) (hrun : s.flag TRACE_HALT_STK_HALT = false) : evStkHalt true s =
    (s.lockViol TRACE_HALT (BitVec.ofNat 32 (1 + 4 * s.getF TRACE_HALT_FSQ_HALT))).emit (.bus true 0) := by
  have hword : BitVec.ofNat 32 (1 + 4 * s.getF TRACE_HALT_FSQ_HALT) = _ := haltWord_stkHalt true
  rw [evStkHalt_eq, State.haltRow_locked (by simp [State.haltLocked, h1, hrun]), hword]

theorem evStkHalt_open (hs : s.Canon) (h1 : s.scope 1 = true) : evStkHalt true s = (s.setFlag TRACE_HALT_STK_HALT true).emit (.bus false 0) := by
  rw [evStkHalt_eq, State.haltRow_halts hs (by simp [State.haltLocked, h1]) fun _ => rfl, State.setHalts_fsqKept hs]

theorem evStkHalt_resume (hs : s.Canon) (h1 : s.scope 1 = true) (hhalt : s.flag TRACE_HALT_STK_HALT = true) :
    evStkHalt false s = ((s.setF TRACE_HALT_STK_HALT 0).stokerBack).emit (.bus false 0) := by
  rw [evStkHalt_eq, State.haltRow_resume hs (by simp [State.haltLocked, h1]) hhalt, State.setHalts_fsqKept hs]
  rfl

theorem evFsqStep_locked (h2 : s.scope 2 = false) (ue : Bool) :
    evFsqStep ue s = (s.lockViol TRACE_HALT (s.haltNow ||| 8)).emit (.bus true 0) := by
  unfold evFsqStep
  rw [State.haltNow_fsqStep, State.haltRow_locked (by simp [State.haltLocked, h2])]

theorem evFsqStep_open (hs : s.Canon) (h2 : s.scope 2 = true) (ue : Bool) : evFsqStep ue s = (s.fsqStep ue).emit (.bus false 0) := by
  unfold evFsqStep
  rw [State.haltNow_fsqStep, State.haltRow_open hs (by simp [State.haltLocked, h2]) id, State.setHalts_kept hs, State.stopPsqs_none]
  rfl

theorem evFsqHalt_locked (h2 : s.scope 2 = false) (hrun : s.flag TRACE_HALT_STK_HALT = false) {on : Bool}
    (hch : s.flag TRACE_HALT_FSQ_HALT = !on) :
    evFsqHalt on s = (s.lockViol TRACE_HALT (BitVec.ofNat 32 (if on then 4 else 0))).emit (.bus true 0) := by
  have hword : BitVec.ofNat 32 (if on then 4 else 0) = haltWord false false on false 0 := by cases on <;> rfl
  rw [evFsqHalt_eq, State.haltRow_locked (by simp [State.haltLocked, h2, hch]), hrun, hword]

theorem evFsqHalt_open (hs : s.Canon) (h2 : s.scope 2 = true) (on : Bool) :
    evFsqHalt on s = (s.setHalts (s.flag TRACE_HALT_STK_HALT) on).emit (.bus false 0) :=
  (evFsqHalt_eq on).trans (State.haltRow_halts hs (by simp [State.haltLocked, h2]) id)

theorem evPsqHalt_locked (h2 : s.scope 2 = false) {m : Nat} (hm : m % 256 ≠ 0) :
    evPsqHalt m s = (s.lockViol TRACE_HALT (s.haltNow ||| BitVec.ofNat 32 (m % 256 * 16))).emit (.bus true 0) := by
  unfold evPsqHalt
  rw [State.haltNow_psqHalt, State.haltRow_locked (by simp [State.haltLocked, h2, hm])]

theorem evPsqHalt_open (hs : s.Canon) (h2 : s.scope 2 = true) (m : Nat) : evPsqHalt m s = (s.stopPsqs m).emit (.bus false 0) := by
  unfold evPsqHalt
  rw [State.haltNow_psqHalt, State.haltRow_open hs (by simp [State.haltLocked, h2]) id, State.setHalts_kept hs]
  rfl

/-- Only a halted FSQ that runs, with no band held back, makes a step (R551). -/
theorem State.fsqStep_idle (h : s.seqRuns .fsq = false ∨ s.flag TRACE_HALT_FSQ_HALT = false ∨ s.comp.backlog ≠ []) (ue : Bool) :
    s.fsqStep ue = s := by
  refine if_neg fun hall => ?_
  simp only [Bool.and_eq_true, List.isEmpty_iff] at hall
  obtain ⟨⟨hrun, hhalt⟩, hb⟩ := hall
  simp [hrun, hhalt, hb] at h

theorem State.fsqStep_issues (hrun : s.seqRuns .fsq = true) (hhalt : s.flag TRACE_HALT_FSQ_HALT = true) (hb : s.comp.backlog = []) (ue : Bool)
    {w : BitVec 64} (hw : w = SMap.get progFill (s.seq 8).prog (s.seq 8).pc.toNat) :
    s.fsqStep ue = s.issueWord .fsq w ue (effFsq (wOp w)) := by
  subst hw
  exact if_pos (by simp [hrun, hhalt, hb])

/-! ### Trace entries (R552) -/

/-- t is s after trace entries: the ring moved, its pointer and its status, and nothing else. -/
structure TraceEntries (s t : State) : Prop where
  canon : t.Canon
  frame : t = { s with regs := t.regs, trace := t.trace }
  kept : ∀ a, a ≠ TRACE_WPTR → a ≠ TRACE_STAT → t.reg a = s.reg a

theorem State.trace64_entries (hs : s.Canon) (src kind : Nat) (data : Word) : TraceEntries s (s.trace64 src kind data) where
  canon := (trace64_held (Held.ofCanon hs)).canon
  frame := State.trace64_frame src kind data
  kept a hp hst := by
    unfold State.trace64
    extract_lets w p t u
    have ht : t.Canon := { hs with trace := SMap.wf_set hs.trace }
    have hu : u.Canon := State.setF_canon ht _ _
    have hreg : u.reg a = s.reg a := (State.reg_setF_other ht (f := TRACE_WPTR_PTR) hp _).trans (State.reg_withTrace _ a)
    split
    · rfl
    · split
      · split
        · exact (State.reg_setF_other hu (f := TRACE_STAT_FULL) hst _).trans hreg
        · exact (State.reg_setF_other hu (f := TRACE_STAT_WRAPPED) hst _).trans hreg
      · exact hreg

namespace TraceEntries

theorem refl (hs : s.Canon) : TraceEntries s s := ⟨hs, rfl, fun _ _ _ => rfl⟩

theorem trans {u : State} (h : TraceEntries s t) (h' : TraceEntries t u) : TraceEntries s u :=
  ⟨h'.canon, h'.frame.trans (by rw [h.frame]), fun a hp hst => (h'.kept a hp hst).trans (h.kept a hp hst)⟩

theorem foldl {β : Type} {g : State → β → State} (hg : ∀ u x, u.Canon → TraceEntries u (g u x)) (l : List β) :
    ∀ {t : State}, TraceEntries s t → TraceEntries s (l.foldl g t) := by
  induction l with
  | nil => exact id
  | cons x l ih => exact fun h => ih (h.trans (hg _ x h.canon))

theorem seqs (h : TraceEntries s t) : t.seqs = s.seqs := by
  rw [h.frame]

/-- Trace entries leave TRACE_CTRL. -/
theorem flag_ctrl (h : TraceEntries s t) {f : Field} (hf : f.addr = TRACE_CTRL) : t.flag f = s.flag f := by
  unfold State.flag State.getF
  rw [hf, h.kept _ (by decide) (by decide)]

end TraceEntries

/-! ### Writes of TRACE_CTRL (R553, R556) -/

/-- What a word writes to TRACE_CTRL and empties or clears with it. -/
def State.traceCtrlSet (s : State) (v : Word) : State :=
  let t := s.plainWrite TRACE_CTRL v
  let t := if fieldIn v TRACE_CTRL_CLEAR = 1 then t.traceEmpty else t
  if fieldIn v TRACE_CTRL_CLRCNT = 1 then t.traceClrcnt else t

/-- How many of the two enables are set in t and not in s. -/
def State.enablesRisen (s t : State) : Nat :=
  (if !s.flag TRACE_CTRL_STK_EN && t.flag TRACE_CTRL_STK_EN then 1 else 0) +
    (if !s.flag TRACE_CTRL_SEQ_EN && t.flag TRACE_CTRL_SEQ_EN then 1 else 0)

/-- ENABLE markers, n of them. -/
def State.enableMarks (s : State) (n : Nat) : State := (List.range n).foldl (fun (u : State) _ => u.traceMark 13 0) s

theorem State.enableMarks_entries (hs : s.Canon) (n : Nat) : TraceEntries s (s.enableMarks n) :=
  TraceEntries.foldl (fun _ _ hu => State.trace64_entries hu 15 13 0) _ (.refl hs)

theorem State.enablesRisen_zero (h1 : t.flag TRACE_CTRL_STK_EN = true → s.flag TRACE_CTRL_STK_EN = true)
    (h2 : t.flag TRACE_CTRL_SEQ_EN = true → s.flag TRACE_CTRL_SEQ_EN = true) : s.enablesRisen t = 0 := by
  unfold State.enablesRisen
  rw [if_neg (by cases h : t.flag TRACE_CTRL_STK_EN <;> simp [h1, h]), if_neg (by cases h : t.flag TRACE_CTRL_SEQ_EN <;> simp [h2, h])]

theorem State.traceCtrlRow_refused {v : Word} (hc : fieldIn v TRACE_CTRL_CLEAR = 1) (h3 : s.scope 3 = false) :
    s.traceCtrlRow v = s.emit (.bus true 0) := by
  have hw : s.traceCtrlWrite v = (s, false) := if_pos ⟨hc, by simp [h3]⟩
  unfold State.traceCtrlRow
  rw [hw]
  rfl

theorem State.traceCtrlRow_taken {v : Word} (h : fieldIn v TRACE_CTRL_CLEAR = 1 → s.scope 3 = true) :
    s.traceCtrlRow v = ((s.traceCtrlSet v).enableMarks (s.enablesRisen (s.traceCtrlSet v))).emit (.bus false 0) := by
  have hw : s.traceCtrlWrite v = ((s.traceCtrlSet v).enableMarks (s.enablesRisen (s.traceCtrlSet v)), true) :=
    if_neg fun ⟨hc, h3⟩ => by simp [h hc] at h3
  unfold State.traceCtrlRow
  rw [hw]
  rfl

theorem regDef_traceCtrl : regDef TRACE_CTRL = regsTRACE[0]? := rfl

/-- A plain write of TRACE_CTRL stores its four RW fields. -/
theorem State.plainWrite_traceCtrl (v : Word) : s.plainWrite TRACE_CTRL v = s.setReg TRACE_CTRL
    (putBits (putBits (putBits (putBits (s.reg TRACE_CTRL) 1 1 (bitsOf v.toNat 1 1)) 2 2 (bitsOf v.toNat 2 2)) 3 3 (bitsOf v.toNat 3 3))
      4 4 (bitsOf v.toNat 4 4)) := by
  unfold State.plainWrite
  rw [regDef_traceCtrl]
  rfl

theorem bitsOf_putBits_bitsOf (w x : Word) {hi lo : Nat} (hl : lo ≤ hi) (hh : hi < 32) :
    bitsOf (putBits w hi lo (bitsOf x.toNat hi lo)).toNat hi lo = bitsOf x.toNat hi lo := by
  rw [bitsOf_putBits w _ hl hh]
  exact Nat.mod_eq_of_lt (Nat.mod_lt _ (Nat.two_pow_pos _))

theorem State.plainWrite_traceCtrl_fields (hs : s.Canon) {v : Word} (ht : t = s.plainWrite TRACE_CTRL v) :
    t.getF TRACE_CTRL_STK_EN = fieldIn v TRACE_CTRL_STK_EN ∧ t.getF TRACE_CTRL_SEQ_EN = fieldIn v TRACE_CTRL_SEQ_EN ∧
    t.getF TRACE_CTRL_MODE = fieldIn v TRACE_CTRL_MODE := by
  rw [State.plainWrite_traceCtrl] at ht
  subst ht
  unfold State.getF fieldIn
  rw [State.reg_setReg_same hs]
  refine ⟨?_, ?_, ?_⟩
  · rw [bitsOf_putBits_disjoint _ _ (by decide) (.inl (by decide)), bitsOf_putBits_disjoint _ _ (by decide) (.inl (by decide)),
      bitsOf_putBits_disjoint _ _ (by decide) (.inl (by decide)), bitsOf_putBits_bitsOf _ _ (by decide) (by decide)]
  · rw [bitsOf_putBits_disjoint _ _ (by decide) (.inl (by decide)), bitsOf_putBits_disjoint _ _ (by decide) (.inl (by decide)),
      bitsOf_putBits_bitsOf _ _ (by decide) (by decide)]
  · rw [bitsOf_putBits_disjoint _ _ (by decide) (.inl (by decide)), bitsOf_putBits_bitsOf _ _ (by decide) (by decide)]

/-- The word that TRACE_ENABLE writes: the enables, and the rest of TRACE_CTRL as it stands. -/
def State.enableWord (s : State) (stk seq : Bool) : Word :=
  putBits (putBits (s.reg TRACE_CTRL) 1 1 (if stk then 1 else 0)) 2 2 (if seq then 1 else 0)

theorem State.fieldIn_enableWord (stk seq : Bool) :
    fieldIn (s.enableWord stk seq) TRACE_CTRL_STK_EN = (if stk then 1 else 0) ∧
    fieldIn (s.enableWord stk seq) TRACE_CTRL_SEQ_EN = (if seq then 1 else 0) ∧
    ∀ {f : Field}, f.addr = TRACE_CTRL → f.hi < 1 ∨ 2 < f.lo → fieldIn (s.enableWord stk seq) f = s.getF f := by
  unfold fieldIn State.enableWord
  refine ⟨?_, ?_, fun {f} ha hf => ?_⟩
  · rw [bitsOf_putBits_disjoint _ _ (by decide) (.inl (by decide)), bitsOf_putBits _ _ (by decide) (by decide)]
    cases stk <;> rfl
  · rw [bitsOf_putBits _ _ (by decide) (by decide)]
    cases seq <;> rfl
  · rw [bitsOf_putBits_disjoint _ _ (by decide) (by omega), bitsOf_putBits_disjoint _ _ (by decide) (by omega), ← ha]
    rfl

/-- TRACE_ENABLE writes the two enables, and then only trace entries follow. -/
theorem evTraceEnable_eq (hclear : s.getF TRACE_CTRL_CLEAR = 0) (hclr : s.getF TRACE_CTRL_CLRCNT = 0) (stk seq : Bool)
    (ht : t = s.plainWrite TRACE_CTRL (s.enableWord stk seq)) : evTraceEnable stk seq s = (t.enableMarks (s.enablesRisen t)).emit (.bus false 0) := by
  obtain ⟨-, -, hkept⟩ := s.fieldIn_enableWord stk seq
  have hset : s.traceCtrlSet (s.enableWord stk seq) = t := by
    subst ht
    unfold State.traceCtrlSet
    rw [hkept rfl (.inr (by decide)), hkept rfl (.inl (by decide)), hclear, hclr]
    rfl
  have hclear' : fieldIn (s.enableWord stk seq) TRACE_CTRL_CLEAR ≠ 1 := by
    rw [hkept rfl (.inr (by decide)), hclear]
    decide
  rw [← hset]
  exact State.traceCtrlRow_taken fun h => absurd h hclear'

/-- The enables read as they were written, and the mode as it stood. -/
theorem State.plainWrite_enableWord (hs : s.Canon) {stk seq : Bool} (ht : t = s.plainWrite TRACE_CTRL (s.enableWord stk seq)) :
    t.flag TRACE_CTRL_STK_EN = stk ∧ t.flag TRACE_CTRL_SEQ_EN = seq ∧ t.flag TRACE_CTRL_MODE = s.flag TRACE_CTRL_MODE := by
  obtain ⟨hstk, hseq, hmode⟩ := State.plainWrite_traceCtrl_fields hs ht
  obtain ⟨hstk', hseq', hkept⟩ := s.fieldIn_enableWord stk seq
  unfold State.flag
  rw [hstk, hseq, hmode, hstk', hseq', hkept rfl (.inr (by decide))]
  refine ⟨?_, ?_, rfl⟩
  · cases stk <;> rfl
  · cases seq <;> rfl

theorem State.plainWrite_traceCtrl_seqs (v : Word) : (s.plainWrite TRACE_CTRL v).seqs = s.seqs := by
  rw [State.plainWrite_traceCtrl]
  rfl

theorem State.plainWrite_traceCtrl_trace (v : Word) : (s.plainWrite TRACE_CTRL v).trace = s.trace := by
  rw [State.plainWrite_traceCtrl]
  rfl

theorem State.plainWrite_canon (hs : s.Canon) (a : Nat) (v : Word) : (s.plainWrite a v).Canon := (plainWrite_held (Held.ofCanon hs)).canon

/-- The pointer and the three status bits of the ring cleared; TRACE_CTRL stays. -/
theorem State.traceRegs_cleared (hs : s.Canon)
    (ht : t = (((s.setF TRACE_WPTR_PTR 0).setFlag TRACE_STAT_WRAPPED false).setFlag TRACE_STAT_FULL false).setFlag TRACE_STAT_RETAINED false) :
    t.getF TRACE_WPTR_PTR = 0 ∧ t.flag TRACE_STAT_WRAPPED = false ∧ t.flag TRACE_STAT_FULL = false ∧ t.flag TRACE_STAT_RETAINED = false ∧
    t.reg TRACE_CTRL = s.reg TRACE_CTRL := by
  have h1 := State.setF_canon hs TRACE_WPTR_PTR 0
  have h2 := State.setFlag_canon h1 TRACE_STAT_WRAPPED false
  have h3 := State.setFlag_canon h2 TRACE_STAT_FULL false
  have hptr : ∀ {u : State}, u.Canon → ∀ {f : Field}, f.addr = TRACE_STAT → ∀ n, (u.setF f n).getF TRACE_WPTR_PTR = u.getF TRACE_WPTR_PTR :=
    fun hu _ hf n => State.getF_setF_other hu (hf ▸ (by decide : TRACE_WPTR_PTR.addr ≠ TRACE_STAT)) n
  have hctrl : ∀ {u : State}, u.Canon → ∀ {f : Field}, f.addr ≠ TRACE_CTRL → ∀ n, (u.setF f n).reg TRACE_CTRL = u.reg TRACE_CTRL :=
    fun hu _ hf n => State.reg_setF_other hu hf.symm n
  subst ht
  refine ⟨?_, ?_, ?_, State.flag_setFlag_same h3 rfl (by decide) false, ?_⟩
  · exact (hptr h3 rfl _).trans ((hptr h2 rfl _).trans ((hptr h1 rfl _).trans (State.getF_setF_same hs 0 (by decide) (by decide))))
  · rw [State.flag_setFlag_disjoint (f := TRACE_STAT_RETAINED) (g := TRACE_STAT_WRAPPED) h3 rfl (.inl (by decide)) (by decide),
      State.flag_setFlag_disjoint (f := TRACE_STAT_FULL) (g := TRACE_STAT_WRAPPED) h2 rfl (.inl (by decide)) (by decide)]
    exact State.flag_setFlag_same h1 rfl (by decide) false
  · rw [State.flag_setFlag_disjoint (f := TRACE_STAT_RETAINED) (g := TRACE_STAT_FULL) h3 rfl (.inl (by decide)) (by decide)]
    exact State.flag_setFlag_same h2 rfl (by decide) false
  · exact (hctrl h3 (by decide) _).trans ((hctrl h2 (by decide) _).trans ((hctrl h1 (by decide) _).trans (hctrl hs (by decide) _)))

theorem State.withoutTrace_canon (hs : s.Canon) : ({ s with trace := [] } : State).Canon := { hs with trace := rfl }

/-- What emptying the ring leaves (R556). -/
theorem State.traceEmpty_fields (hs : s.Canon) (ht : t = s.traceEmpty) : t.trace = [] ∧ t.getF TRACE_WPTR_PTR = 0 ∧
    t.flag TRACE_STAT_WRAPPED = false ∧ t.flag TRACE_STAT_FULL = false ∧ t.flag TRACE_STAT_RETAINED = false ∧
    t.reg TRACE_CTRL = s.reg TRACE_CTRL ∧ t.seqs = s.seqs := by
  obtain ⟨hptr, hwrap, hfull, hret, hctrl⟩ := State.traceRegs_cleared (State.withoutTrace_canon hs) ht
  rw [State.reg_withTrace] at hctrl
  refine ⟨?_, hptr, hwrap, hfull, hret, hctrl, ?_⟩
  · rw [ht]
    rfl
  · rw [ht]
    rfl

/-- The word that TRACE_CLEAR writes: CLEAR, and the rest of TRACE_CTRL as it stands. -/
def State.clearWord (s : State) : Word := putBits (s.reg TRACE_CTRL) 5 5 1

theorem State.fieldIn_clearWord : fieldIn s.clearWord TRACE_CTRL_CLEAR = 1 ∧
    ∀ {f : Field}, f.addr = TRACE_CTRL → f.hi < 5 → fieldIn s.clearWord f = s.getF f := by
  unfold fieldIn State.clearWord
  refine ⟨bitsOf_putBits _ _ (by decide) (by decide), fun {f} ha hf => ?_⟩
  rw [bitsOf_putBits_disjoint _ _ (by decide) (.inl hf), ← ha]
  rfl

theorem evTraceClear_closed (h3 : s.scope 3 = false) : evTraceClear s = s.emit (.bus true 0) :=
  State.traceCtrlRow_refused s.fieldIn_clearWord.1 h3

/-- With scope 3 open the ring is emptied; no enable rises, so no marker follows. -/
theorem evTraceClear_open (hs : s.Canon) (h3 : s.scope 3 = true) (hclr : s.getF TRACE_CTRL_CLRCNT = 0)
    (ht : t = (s.plainWrite TRACE_CTRL s.clearWord).traceEmpty) : evTraceClear s = t.emit (.bus false 0) := by
  obtain ⟨hclear, hkept⟩ := s.fieldIn_clearWord
  have hset : s.traceCtrlSet s.clearWord = t := by
    subst ht
    unfold State.traceCtrlSet
    rw [hclear, hkept rfl (by decide), hclr]
    rfl
  obtain ⟨hstk, hseq, -⟩ := State.plainWrite_traceCtrl_fields hs (v := s.clearWord) rfl
  obtain ⟨-, -, -, -, -, hctrl, -⟩ := State.traceEmpty_fields (State.plainWrite_canon hs _ _) ht
  have hflag : ∀ {f : Field}, f.addr = TRACE_CTRL → f.hi < 5 →
      (s.plainWrite TRACE_CTRL s.clearWord).getF f = fieldIn s.clearWord f → t.flag f = s.flag f := fun {f} ha hf h => by
    rw [hkept ha hf] at h
    unfold State.flag
    rw [← h]
    unfold State.getF
    rw [ha, hctrl]
  have hnone : s.enablesRisen t = 0 :=
    State.enablesRisen_zero (fun h => (hflag rfl (by decide) hstk).symm.trans h) fun h => (hflag rfl (by decide) hseq).symm.trans h
  have hrow := State.traceCtrlRow_taken (s := s) (v := s.clearWord) fun _ => h3
  rw [hset, hnone] at hrow
  exact hrow

/-! ### Reads of TRACE_RDATA (R556) -/

theorem evTraceRdataRead_closed (h3 : s.scope 3 = false) (high : Bool) : evTraceRdataRead high s = s.emit (.bus true 0) := by
  simp [evTraceRdataRead, State.traceRead, h3]

theorem evTraceRdataRead_low (h3 : s.scope 3 = true) {e : BitVec 64}
    (he : e = SMap.get (fun _ => (0 : BitVec 64)) s.trace (s.getF TRACE_RADDR_ADDR)) : evTraceRdataRead false s =
      State.emit { s with latch := SMap.set (fun _ => (0 : Word)) s.latch TRACE_RDATA_HI (e.extractLsb' 32 32) }
        (.bus false (e.extractLsb' 0 32).toNat) := by
  subst he
  simp [evTraceRdataRead, State.traceRead, h3]

theorem evTraceRdataRead_high (h3 : s.scope 3 = true) : evTraceRdataRead true s =
    (s.setF TRACE_RADDR_ADDR (s.getF TRACE_RADDR_ADDR + 1)).emit (.bus false (SMap.get (fun _ => (0 : Word)) s.latch TRACE_RDATA_HI).toNat) := by
  simp [evTraceRdataRead, State.traceRead, h3]

end

/-- Settles O58, row by row: the TAP instructions by scope 0 and the banks, DBGAP by its target, the halts as writes of TRACE_HALT, the trace
rows as writes of TRACE_CTRL and reads of the ring. -/
theorem jtagDebugAndTraceRows : Obligations.JtagDebugAndTraceRows := by
  refine ⟨fun s b => ?jtag, fun s w a n d c => ?dbgap, fun s on ue m hs hp => ?halts, fun s ue => ?step, fun s hs hp hfw h1 t ht => ?resume,
    fun s v => ?trace⟩
  case jtag =>
    refine ⟨rfl, rfl, rfl, fun h0 => ?closed, fun h0 => ⟨?_, ?_, fun hsafe => ⟨?_, ?_⟩, fun hbusy => ?busy⟩⟩
    case closed =>
      have hdrive := State.jtagDrive_closed h0
      refine List.forall_mem_cons.mpr ⟨next_congr ?_, List.forall_mem_cons.mpr ⟨next_congr ?_, List.forall_mem_cons.mpr ⟨next_congr ?_,
        List.forall_mem_singleton.mpr (next_congr ?_)⟩⟩⟩
      · rw [evSamplePreload, h0, State.jtagSelect_refused, State.shiftOut_bypass]
      · rw [evExtest, hdrive, State.shiftOut_bypass]
      · rw [evClamp, hdrive, State.shiftOut_bypass]
      · rw [evHighz, h0, State.jtagSelect_refused, State.shiftOut_bypass]
    case busy =>
      have hdrive := State.jtagDrive_busy h0 hbusy
      refine List.forall_mem_cons.mpr ⟨fun t ht => next_congr ?_, List.forall_mem_singleton.mpr fun t ht => next_congr ?_⟩
      · rw [evExtest, hdrive, State.shiftOut_bypass, ht]
      · rw [evClamp, hdrive, State.shiftOut_bypass, ht]
    · refine next_congr ?_
      rw [evSamplePreload, h0]
      rfl
    · refine next_congr ?_
      rw [evHighz, h0]
      rfl
    · refine next_congr ?_
      rw [evExtest, State.jtagDrive_safe h0 hsafe]
      rfl
    · refine next_congr ?_
      rw [evClamp, State.jtagDrive_safe h0 hsafe]
      rfl
  case dbgap =>
    refine ⟨fun h1 h2 => next_settle_congr (evDbgap_closed h1 h2 w a d n c), fun hor t ht => ?_⟩
    have hok : (s.scope 1 || s.scope 2) = true := by simpa using hor
    exact ⟨fun hlo hhi => next_settle_congr (evDbgap_hearth hok ht hlo hhi w d n c),
      fun x hlo hhi hh hd hx => next_settle_congr (evDbgap_registerWrite hok ht hlo hhi hh hd c hx),
      fun hlo hhi hd => ⟨next_settle_congr (evDbgap_sramWrite hok ht hlo hhi hd c), next_settle_congr (evDbgap_sramRead hok ht hlo hhi d n c)⟩⟩
  case halts =>
    have hrun : s.flag TRACE_HALT_STK_HALT = false := (Bool.or_eq_false_iff.mp hp).2
    refine ⟨fun h1 => ⟨next_congr (evStkStep_locked h1), fun h => next_settle_congr (evStkHalt_locked h1 h)⟩,
      fun h1 => ⟨next_congr (evStkStep_open hs h1), ?stkHalt⟩,
      fun h2 => ⟨next_congr (evFsqStep_locked h2 ue), fun h => next_congr (evFsqHalt_locked h2 hrun h),
        fun hm => next_congr (evPsqHalt_locked h2 hm)⟩,
      fun h2 => ⟨next_congr (evFsqStep_open hs h2 ue), ?fsqHalt, next_congr (evPsqHalt_open hs h2 m)⟩⟩
    case stkHalt =>
      have hflag : (s.setFlag TRACE_HALT_STK_HALT true).flag TRACE_HALT_STK_HALT = true := State.flag_setFlag_same hs rfl (by decide) true
      have hpaused : ((s.setFlag TRACE_HALT_STK_HALT true).emit (.bus false 0)).paused = true := Bool.or_eq_true_iff.mpr (.inr hflag)
      refine ⟨_, next_congr ((congrArg State.settle (evStkHalt_open hs h1)).trans (State.settle_paused hpaused)), hflag, hpaused, rfl, rfl⟩
    case fsqHalt => exact ⟨_, next_congr (evFsqHalt_open hs h2 on), State.setHalts_fsq hs _ on, rfl, rfl⟩
  case step => exact ⟨fun h => State.fsqStep_idle h ue, fun w hrun hhalt hb hw => State.fsqStep_issues hrun hhalt hb ue hw⟩
  case resume =>
    have hhalt : s.flag TRACE_HALT_STK_HALT = true := by simpa [State.paused, hfw] using hp
    rw [ht]
    exact next_settle_congr (evStkHalt_resume hs h1 hhalt)
  case trace =>
    refine ⟨fun h => ?_, fun h => ?_, fun a b hs hclear hclr => ?enable, fun h3 => ⟨next_congr (evTraceClear_closed h3),
      fun high => next_congr (evTraceRdataRead_closed h3 high)⟩, fun h3 hs => ⟨fun hclr => ?clear,
      fun e he => next_congr (evTraceRdataRead_low h3 he), next_congr (evTraceRdataRead_high h3)⟩⟩
    · exact next_congr (congrArg (State.emit · (.bus false 0)) (if_pos h))
    · exact next_congr (congrArg (State.emit · (.bus false 0)) (if_neg (Bool.eq_false_iff.mp h)))
    case enable =>
      obtain ⟨t, ht⟩ : ∃ t, t = s.plainWrite TRACE_CTRL (s.enableWord a b) := ⟨_, rfl⟩
      obtain ⟨hstk, hseq, hmode⟩ := State.plainWrite_enableWord hs ht
      have hcanon : t.Canon := ht ▸ State.plainWrite_canon hs _ _
      have hmarks := State.enableMarks_entries hcanon (s.enablesRisen t)
      refine ⟨_, next_congr (evTraceEnable_eq hclear hclr a b ht), (hmarks.flag_ctrl rfl).trans hstk, (hmarks.flag_ctrl rfl).trans hseq,
        (hmarks.flag_ctrl rfl).trans hmode, hmarks.seqs.trans ?_, fun ha hb => ?_⟩
      · rw [ht, State.plainWrite_traceCtrl_seqs]
      · have hnone : s.enablesRisen t = 0 :=
          State.enablesRisen_zero (fun h => ha (hstk.symm.trans h)) fun h => hb (hseq.symm.trans h)
        have htrace : t.trace = s.trace := by rw [ht, State.plainWrite_traceCtrl_trace]
        rw [hnone]
        exact htrace
    case clear =>
      obtain ⟨t, ht⟩ : ∃ t, t = (s.plainWrite TRACE_CTRL s.clearWord).traceEmpty := ⟨_, rfl⟩
      obtain ⟨hring, hptr, hwrap, hfull, hret, -, hseqs⟩ := State.traceEmpty_fields (State.plainWrite_canon hs _ _) ht
      exact ⟨_, next_congr (evTraceClear_open hs h3 hclr ht), hring, hptr, hwrap, hfull, hret,
        hseqs.trans (State.plainWrite_traceCtrl_seqs s.clearWord)⟩

end Sys2Proof.Machine
end

section
/-! PROOFS. The canonical form of the memories and tables: at reset, and across every step (O1, O3, O4). -/

namespace Sys2Proof.Machine

/-- Settles O1: the step of a part whose queue has a front. -/
theorem stepRunsFrontCommand : Obligations.StepRunsFrontCommand := fun _ _ _ h => step_of_queue h

theorem SMap.wf_nil {α : Type} [DecidableEq α] (d : Nat → α) : SMap.wf d ([] : SMap α) = true := rfl

/-- Settles O3: every addressed memory and table is empty at reset. -/
theorem resetIsCanonical : Obligations.ResetIsCanonical where
  regs := SMap.wf_nil _
  live := SMap.wf_nil _
  seqs := SMap.wf_nil _
  banks := SMap.wf_nil _
  arbs := SMap.wf_nil _
  scans := SMap.wf_nil _
  aud := SMap.wf_nil _
  ddr := SMap.wf_nil _
  sram := SMap.wf_nil _
  trace := SMap.wf_nil _

section
variable {s t : State} {c : Instr}

theorem State.oneNs_canon (hs : s.Canon) : s.oneNs.Canon := (oneNs_held (Held.ofCanon hs)).canon

theorem exec_canon (hs : s.Canon) (h : exec c s = .next t) : t.Canon := ((exec_held hs c).use t h).canon

/-- The canonical form does not speak of the queue. -/
theorem State.withPending_canon (hs : s.Canon) (cs : List Instr) : ({ s with pending := cs } : State).Canon := { hs with }

end

/-- Settles O4: on an empty queue by the nanosecond that passes, else by the command in front. -/
theorem stepKeepsCanonicalMemories : Obligations.StepKeepsCanonicalMemories := by
  intro s t hs hstep
  cases hq : s.pending with
  | nil =>
    rw [step_of_empty_queue hq] at hstep
    cases hstep
    exact State.oneNs_canon hs
  | cons c cs => exact exec_canon (State.withPending_canon hs cs) ((step_of_queue hq).symm.trans hstep)

end Sys2Proof.Machine
end
